-- ==== Sys2Proof/Word.lean ====
section
/-! DEFINITION. The word types of the QK20 (R6: bits number from 0 at the least significant end). -/
namespace Sys2Proof

/-- One byte of memory, of a ring or of a record. -/
abbrev Byte := BitVec 8
/-- A 16-bit word. -/
abbrev W16 := BitVec 16
/-- A 32-bit word: every register is one (R64). -/
abbrev W32 := BitVec 32
/-- A 64-bit word: a register pair, a host time, a bus address. -/
abbrev W64 := BitVec 64

/-- Bits [msb:lsb] of a natural number, both ends included (R6). -/
def bitsOf (x msb lsb : Nat) : Nat := (x / 2 ^ lsb) % 2 ^ (msb + 1 - lsb)

/-- One bit of a natural number. -/
def bitOf (x i : Nat) : Bool := (x / 2 ^ i) % 2 == 1

/-- A truth value as a bit. -/
def b2n (b : Bool) : Nat := if b then 1 else 0

end Sys2Proof
end

