-- ==== Sys2Proof/Syntax.lean ====
section
/-! DEFINITION. The commands of the block, one constructor for each row of the opcode table, and the operand types that the machine's types do
not give. A command is an event that the table names; what the device would find outside itself (host data, a die's answer, a measured
value) stands beside the unit it happens at. -/
namespace Sys2Proof

/-- A granule of a stack: in spread space by quadrant, quadrant pseudo-channel and local granule (R83), before the
exception table; or in place, by stack, pseudo-channel, bank, row and quarter of the row (R80). -/
inductive Gran where
  | spread (q : Fin 4) (p : Fin 320) (l : Nat)
  | at (st : Fin 20) (pc : Fin 64) (bank : Fin 32) (row : Nat) (quarter : Fin 4)
  deriving DecidableEq, Repr

/-- Where a pump command's descriptor comes from (R190): a PF queue of the page, or another issuer, which hands a pump of
the group the descriptor's 64 bytes. -/
inductive DescSrc where
  | queue (q : Fin 4)
  | direct (pump : Fin 8) (desc : List Byte)
  deriving DecidableEq, Repr

/-- What the spec leaves to a model's files: vocabulary, decoder layers, key/value heads, head dimension code (R126), value
and key formats E5M2, key scale, and BF16 dense tiles (R18, R120, R356). [DESIGN CHOICE: log entry 64] -/
structure ModelMeta where
  vocab : Nat := 0
  layers : Nat := 0
  kvHeads : Nat := 0
  hdim : Nat := 1
  keyE5 : Bool := false
  valE5 : Bool := false
  kscale : BitVec 32 := 0
  bf16 : Bool := false
  deriving DecidableEq, Repr

/-- What a debug instruction on an unlocked port reads or changes (R514): a register of the PF BAR0 by offset, as it is stored; a column of a
stack; a byte of the Well of a quadrant; a byte of an engine's tile store. [DESIGN CHOICE: log entry 23] -/
inductive DebugOp where
  | readReg (off : W32)
  | writeReg (off : W32) (value : W32)
  | readCol (g : Gran) (col : Fin 8)
  | writeCol (g : Gran) (col : Fin 8) (data : List Byte)
  | readWell (q : Fin 4) (byte : Fin 268435456)
  | writeWell (q : Fin 4) (byte : Fin 268435456) (value : Byte)
  | readStore (e : Fin 32) (byte : Fin 4194304)
  | writeStore (e : Fin 32) (byte : Fin 4194304) (value : Byte)
  deriving DecidableEq, Repr

/-- The commands, in the table's order. `e`: an engine, 8 × quadrant + e; `st`: a stack; `pc`: a pseudo-channel; `bp`: a bank pair; `q`: a
quadrant; `t`: a tenant, or a tag of a stack; `fn`: a function (0 the PF, 1 to 64 the tenants, 65 the proxy); `p`: a Glith port; `h`: a session
handle; `host`, `data`, `golden`: bytes read outside the device, none when the read fails. [DESIGN CHOICE: log entry 9] -/
inductive Instr where
  /-- SEAL_ROUND (R17): The sealer fills a new round's rows from the merged offer of generation-ready sessions and prompt work, gives it a
  round number, and seals the batch. -/
  | sealRound (m : Byte) (drafts : List (W32 × List Byte))
  /-- KV_TAIL_WRITE (R21): The keeper writes a head group's new keys and values to the tail slots once that group's accumulator tile is
  complete. -/
  | kvTailWrite (num : W64) (h : W32) (draft : Bool) (layer : W16) (head : W16) (data : List Byte)
  /-- LAYER_BOUNDARY (R29): When every engine's layer program has reached END, the engines go to a round, sync counters are cleared, and
  RS0 is set. -/
  | layerBoundary
  /-- SAMPLING (R338): Once a row's logits are complete, the vector engine applies the sampling controls and draws a token. -/
  | sampling (num : W64) (h : W32) (draft : Bool) (logits : List (List W32))
  /-- ROUND_BOUNDARY (R319): At a round's end, the keeper applies stop detection, deadlines, PURGE, CANCEL, rebinding, PARK and RESUME, and
  expiry to each session. -/
  | roundBoundary (num : W64)
  /-- DEADLINE_EXPIRY (R344): A request whose deadline has passed completes DEADLINE with a record without a token. -/
  | deadlineExpiry (h : W32)
  /-- TIME_TO_LIVE_EXPIRY (R327): A session state's time-to-live expires and starts settling, sinking or the move to GONE. -/
  | timeToLiveExpiry (h : W32)
  /-- TOKEN_DELIVERY (R402): The host pump writes journalled token records into the token ring, writes the shadow tail, and sets TR_TAIL. -/
  | tokenDelivery (t : Fin 64) (count : W32)
  /-- TOKEN_IRQ_DELAY_EXPIRY (R408): TR_IRQ_DELAY passes after the first unsignalled record, and the token-ring vector is raised. -/
  | tokenIrqDelayExpiry (t : Fin 64)
  /-- HOST_TIME_PUBLISH (R36): A write of HOST_TIME_HI publishes a value, which the IOD takes or ignores and then distributes. -/
  | hostTimePublish (hi : W32)
  /-- HOST_TIME_COPY_UPDATE (R41): A block replaces its copy of host time with the distributed value at its next handshake boundary. -/
  | hostTimeCopyUpdate (blk : Fin 44) (count : W64)
  /-- HOST_TIME_STALE (R36): STALE_LIMIT_US passes without a taken publication; STALE is set and the device event interrupt may be raised. -/
  | hostTimeStale
  /-- TELEMETRY_WINDOW_CLOSE (R381): A block's copy of host time passes a window end, and the block closes the sample with its SPAN. -/
  | telemetryWindowClose (blk : Fin 44) (samples : List W16)
  /-- SLOT_VERSION_MIGRATE (R51): The keeper migrates an object from an older slot-table version at the lowest priority, and frees the
  version when no object records it. -/
  | slotVersionMigrate (fn : Fin 65) (obj : W16)
  /-- REGISTER_WRITE (R9): A register write with no row of its own acts under its access code, or is dropped and counted under R65. -/
  | registerWrite (fn : Fin 66) (off : W32) (data : List Byte)
  /-- REGISTER_READ_CLEAR (R9): A read of an RC field returns the field's value and clears it to its reset value. -/
  | registerReadClear (fn : Fin 66) (off : W32) (len : Fin 4097)
  /-- PAIR_LO_READ (R66): A read of a _LO register returns the low half and loads the read latch with the high half. -/
  | pairLoRead (fn : Fin 66) (off : W32)
  /-- ERROR_INJECT (R489): A write to ERR_INJECT, while injection is enabled, raises the named error cause. -/
  | errorInject (fn : Fin 66) (slot : Fin 16384) (causes : W32)
  /-- COLUMN_READ (R91): The base-die controller reads and decodes a column, with any exception redirection and correction write-back. -/
  | columnRead (g : Gran) (col : Fin 8)
  /-- COLUMN_WRITE (R86): The controller writes a granule or column; a partial column write is done as a read, merge and write. -/
  | columnWrite (g : Gran) (off : Byte) (data : List Byte)
  /-- ADD_FP32 (R98): Memory-side adder operation 0x00 adds an FP32 operand into memory. -/
  | addFp32 (g : Gran) (off : Byte) (data : List Byte)
  /-- ADD_BF16 (R98): Memory-side adder operation 0x01 adds a BF16 operand into memory. -/
  | addBf16 (g : Gran) (off : Byte) (data : List Byte)
  /-- ADD_INT32 (R98): Memory-side adder operation 0x02 adds an INT32 operand into memory with wrap. -/
  | addInt32 (g : Gran) (off : Byte) (data : List Byte)
  /-- ADD_INT64 (R98): Memory-side adder operation 0x03 adds an INT64 operand into memory with wrap. -/
  | addInt64 (g : Gran) (off : Byte) (data : List Byte)
  /-- MIN_FP32 (R98): Memory-side adder operation 0x04 keeps the FP32 minimum. -/
  | minFp32 (g : Gran) (off : Byte) (data : List Byte)
  /-- MAX_FP32 (R98): Memory-side adder operation 0x05 keeps the FP32 maximum. -/
  | maxFp32 (g : Gran) (off : Byte) (data : List Byte)
  /-- MIN_BF16 (R98): Memory-side adder operation 0x06 keeps the BF16 minimum. -/
  | minBf16 (g : Gran) (off : Byte) (data : List Byte)
  /-- MAX_BF16 (R98): Memory-side adder operation 0x07 keeps the BF16 maximum. -/
  | maxBf16 (g : Gran) (off : Byte) (data : List Byte)
  /-- MIN_INT32 (R98): Memory-side adder operation 0x08 keeps the signed INT32 minimum. -/
  | minInt32 (g : Gran) (off : Byte) (data : List Byte)
  /-- MAX_INT32 (R98): Memory-side adder operation 0x09 keeps the signed INT32 maximum. -/
  | maxInt32 (g : Gran) (off : Byte) (data : List Byte)
  /-- MIN_INT64 (R98): Memory-side adder operation 0x0A keeps the signed INT64 minimum. -/
  | minInt64 (g : Gran) (off : Byte) (data : List Byte)
  /-- MAX_INT64 (R98): Memory-side adder operation 0x0B keeps the signed INT64 maximum. -/
  | maxInt64 (g : Gran) (off : Byte) (data : List Byte)
  /-- SWAP_32 (R98): Memory-side adder operation 0x0C swaps a 32-bit element and returns the old value. -/
  | swap32 (g : Gran) (off : Byte) (data : List Byte)
  /-- SWAP_64 (R98): Memory-side adder operation 0x0D swaps a 64-bit element and returns the old value. -/
  | swap64 (g : Gran) (off : Byte) (data : List Byte)
  /-- CAS_32 (R98): Memory-side adder operation 0x0E compares and swaps a 32-bit element and returns the old value. -/
  | cas32 (g : Gran) (off : Byte) (data : List Byte)
  /-- CAS_64 (R98): Memory-side adder operation 0x0F compares and swaps a 64-bit element and returns the old value. -/
  | cas64 (g : Gran) (off : Byte) (data : List Byte)
  /-- FETCH_ADD_INT32 (R98): Memory-side adder operation 0x10 adds to an INT32 element and returns the old value. -/
  | fetchAddInt32 (g : Gran) (off : Byte) (data : List Byte)
  /-- FETCH_ADD_INT64 (R98): Memory-side adder operation 0x11 adds to an INT64 element and returns the old value. -/
  | fetchAddInt64 (g : Gran) (off : Byte) (data : List Byte)
  /-- SCRUB_READ (R95): While SCRUB_EN is 1, the controller reads the next column of its scrub pass in a gap. -/
  | scrubRead (st : Fin 20)
  /-- STACK_TEMP_READ (R100): The base die reads its stack's temperature at least every 100 µs and updates pacing. -/
  | stackTempRead (st : Fin 20) (temp : Byte)
  /-- RETRAIN_REQUEST (R102): A retrain request from the base die, the keeper or software moves the channel to RETRAIN_PENDING, or merges
  or latches. -/
  | retrainRequest (st : Fin 20) (c : Fin 32) (retries : Option W16)
  /-- CH_CMD_RETRAIN (R102): A CH_CMD write with OP RETRAIN raises a retrain request for the channel. -/
  | chCmdRetrain (st : Fin 20) (c : Fin 32)
  /-- CH_CMD_MAP_OUT (R102): A CH_CMD write with OP MAP_OUT requests map-out of the channel. -/
  | chCmdMapOut (st : Fin 20) (c : Fin 32)
  /-- MARGIN_ENTER (R102): A CH_CMD write with OP MARGIN_ENTER on a quiesced stack parks the channel in MARGIN. -/
  | marginEnter (st : Fin 20) (c : Fin 32)
  /-- MARGIN_EXIT (R102): A CH_CMD write with OP MARGIN_EXIT retrains the channel and returns it to ONLINE. -/
  | marginExit (st : Fin 20) (c : Fin 32)
  /-- MARGIN_MEASURE (R102): A write of START to MARGIN_CTRL measures the eye of the selected lane of a channel in MARGIN. -/
  | marginMeasure (st : Fin 20) (value : W32)
  /-- MARGIN_MEASURE_DONE (R102): A margin measurement completes, and its four edges read in MARGIN_RESULT. -/
  | marginMeasureDone (st : Fin 20) (edges : W32)
  /-- RETRAIN_START (R103): At a round end, or at once when no round is in flight, the keeper starts a pending retrain and holds layers and
  sealing. -/
  | retrainStart (st : Fin 20)
  /-- RETRAIN_COMPLETE (R102): Training passes or fails, the channel moves to ONLINE, MIGRATING or LOST, and held requests are released. -/
  | retrainComplete (st : Fin 20) (c : Fin 32) (passed : Bool) (linkOk : Bool)
  /-- RETRAIN_TIMEOUT (R104): A training attempt that has not passed within 40 µs ends as a failure. -/
  | retrainTimeout (st : Fin 20) (c : Fin 32) (linkOk : Bool)
  /-- MAP_OUT_START (R105): The keeper writes an exception entry, adds the stripe to RESERVE_USED, and starts moving the channel's runs. -/
  | mapOutStart (st : Fin 20) (c : Fin 32)
  /-- KV_RUN_MOVE (R111): The keeper moves a key/value run of a mapped-out channel's bank pair to another channel by copy. -/
  | kvRunMove (st : Fin 20) (pc : Fin 64) (bp : Fin 16)
  /-- MAPOUT_GRANULE_COPY (R105): A tier pump finishes copying one granule of a mapped-out channel, and the base die advances MOVED_MARK. -/
  | mapoutGranuleCopy (q : Fin 4) (k : Fin 16)
  /-- CHANNEL_LOST (R109): A channel stops responding; the keeper writes a LOST exception entry, poisons the stripe, and rebuilds the
  channel's runs. -/
  | channelLost (st : Fin 20) (c : Fin 32)
  /-- STACK_BRING_UP (R112): After cold reset, the base die trains, tests, repairs and zero-fills its stack, and the keeper maps out
  channels and applies the profile. -/
  | stackBringUp (st : Fin 20) (failed : W32) (lanes : List (Fin 32)) (rows : List (Fin 64 × Fin 32))
  /-- STACK_RESUME (R114): On exit from quadrant or warm reset, the base die leaves self-refresh and retrains its channels that are in
  service. -/
  | stackResume (st : Fin 20) (failed : W32) (linkOk : W32)
  /-- LANE_REPAIR (R113): A REPAIR_CTRL write with OP LANE_REPAIR remaps a lane to a spare, or completes REFUSED or NO_SPARE. -/
  | laneRepair (st : Fin 20) (c : Fin 32) (lane : Fin 128)
  /-- ROW_REPAIR (R113): A REPAIR_CTRL write with OP ROW_REPAIR runs post-package repair of a row, or completes REFUSED or NO_SPARE. -/
  | rowRepair (st : Fin 20) (c : Fin 32) (target : Fin 128) (row : W16)
  /-- REPAIR_COMPLETE (R113): A repair finishes, and its result reads in REPAIR_STATUS. -/
  | repairComplete (st : Fin 20) (ok : Bool)
  /-- SLOT_WEIGHT_WRITE (R115): A write to a slot weight register stores the weight, clamped to 8. -/
  | slotWeightWrite (q : Fin 4) (v : Fin 4) (j : Fin 8) (value : W32)
  /-- RUN_RING_PUBLISH (R127): A write of RING_TAIL publishes run entries to the base die, or is counted MALFORMED. -/
  | runRingPublish (st : Fin 20) (pc : Fin 64) (bytes : List Byte) (tail : W32)
  /-- TAG_OPEN (R129): A write of OPEN checks the tag, initialises its combine slot, and dispatches START to its units. -/
  | tagOpen (st : Fin 20) (t : Fin 256) (query : List Byte) (record : List Byte) (value : W32)
  /-- TAG_RELEASE (R146): A write of a tag number to RELEASE frees the tag and clears its slot, or sets TAG_BUSY. -/
  | tagRelease (st : Fin 20) (t : Fin 256)
  /-- UNIT_TAG_START (R131): A bucket unit takes its next tag once its previous tag has ENDed, and initialises its state. -/
  | unitTagStart (st : Fin 20) (pc : Fin 64) (bp : Fin 16)
  /-- QUERY_BROADCAST (R131): The base die broadcasts a tag's query on a pseudo-channel once every unit there holds the tag. -/
  | queryBroadcast (st : Fin 20) (pc : Fin 64) (t : Fin 256)
  /-- BKT_NOP (R137): Micro-instruction NOP does nothing for one column interval. -/
  | bktNop (st : Fin 20) (pc : Fin 64) (bp : Fin 16)
  /-- BKT_INIT (R137): Micro-instruction INIT resets M, L, ACC and the page state. -/
  | bktInit (st : Fin 20) (pc : Fin 64) (bp : Fin 16)
  /-- BKT_ZERO (R137): Micro-instruction ZERO clears the score buffer. -/
  | bktZero (st : Fin 20) (pc : Fin 64) (bp : Fin 16)
  /-- BKT_QK (R117): Micro-instruction QK performs key column operations, accumulating scores, as grants and query chunks allow. -/
  | bktQk (st : Fin 20) (pc : Fin 64) (bp : Fin 16)
  /-- BKT_MASK (R140): Micro-instruction MASK sets scores beyond NT, or masked tail positions, to −∞. -/
  | bktMask (st : Fin 20) (pc : Fin 64) (bp : Fin 16)
  /-- BKT_SMAX (R141): Micro-instruction SMAX applies the running softmax step to the page's scores. -/
  | bktSmax (st : Fin 20) (pc : Fin 64) (bp : Fin 16)
  /-- BKT_PV (R118): Micro-instruction PV performs value column operations into ACC. -/
  | bktPv (st : Fin 20) (pc : Fin 64) (bp : Fin 16)
  /-- BKT_NEXT (R137): Micro-instruction NEXT advances the page index and sets DONE or NT. -/
  | bktNext (st : Fin 20) (pc : Fin 64) (bp : Fin 16)
  /-- BKT_BR (R137): Micro-instruction BR branches on its condition. -/
  | bktBr (st : Fin 20) (pc : Fin 64) (bp : Fin 16)
  /-- BKT_MAXX (R142): Micro-instruction MAXX contributes M to MAX_UP, waits for MAX_DOWN, and rescales ACC and L. -/
  | bktMaxx (st : Fin 20) (pc : Fin 64) (bp : Fin 16)
  /-- BKT_SENDACC (R142): Micro-instruction SENDACC contributes ACC and then L to the ACC_UP series. -/
  | bktSendacc (st : Fin 20) (pc : Fin 64) (bp : Fin 16)
  /-- BKT_END (R142): Micro-instruction END sends DONE and frees the unit. -/
  | bktEnd (st : Fin 20) (pc : Fin 64) (bp : Fin 16)
  /-- WINDLASS_PROG (R136): A PROG transfer carries micro-instructions into every unit's program copy. -/
  | windlassProg (st : Fin 20) (pc : Fin 64)
  /-- WINDLASS_START (R133): A START transfer gives a unit its tag's parameters and first page slots. -/
  | windlassStart (st : Fin 20) (pc : Fin 64)
  /-- WINDLASS_PAGELIST (R133): A PAGELIST transfer gives a unit further page slots. -/
  | windlassPagelist (st : Fin 20) (pc : Fin 64)
  /-- WINDLASS_QUERY (R133): A QUERY transfer delivers a chunk of the query to the tag's units. -/
  | windlassQuery (st : Fin 20) (pc : Fin 64)
  /-- MAX_UP (R134): A MAX_UP word passes the chain, collects the units' maxima, and is combined into slot MAX. -/
  | maxUp (st : Fin 20) (pc : Fin 64)
  /-- MAX_DOWN (R134): A MAX_DOWN transfer delivers slot MAX to the tag's units. -/
  | maxDown (st : Fin 20) (pc : Fin 64)
  /-- ACC_UP (R144): An ACC_UP chunk passes the chain, sums the units' contributions, and is added into the combine slot. -/
  | accUp (st : Fin 20) (pc : Fin 64)
  /-- WINDLASS_DONE (R133): A DONE transfer reports a unit's status, NAN, corrections and column operations. -/
  | windlassDone (st : Fin 20) (pc : Fin 64)
  /-- WINDLASS_POISON (R151): A POISON transfer reports a poisoned location, which the base die records, counts and logs. -/
  | windlassPoison (st : Fin 20) (pc : Fin 64)
  /-- TAG_COMPLETE (R145): When every pseudo-channel has finished ACC_UP and DONE, the base die posts the tag's completion to the NOTIFY
  keeper. -/
  | tagComplete (st : Fin 20) (t : Fin 256)
  /-- COMBINE_SLOT_CARRY (R269): A tier pump carries a completed tag's combine slot into the tile store. -/
  | combineSlotCarry (st : Fin 20) (t : Fin 256) (e : Fin 32) (a0 : W32) (i : Fin 20)
  /-- YIELD_SERVICE (R147): At a unit's next yield point, the arbiter serves the ordinary requests held for its bank pair. -/
  | yieldService (st : Fin 20) (pc : Fin 64) (bp : Fin 16)
  /-- MICROPROGRAM_WRITE (R136): A write of PROG_DATA stores a word in the selected micro-program stores and increments ADDR. -/
  | microprogramWrite (st : Fin 20) (word : W32)
  /-- BUCKET_UNIT_TIMEOUT (R472): No DONE arrives for a started tag within 1 ms; the tag completes ABORTED and the bank pair is retired. -/
  | bucketUnitTimeout (st : Fin 20) (t : Fin 256)
  /-- OBJ_CREATE (R165): Object command CREATE checks its arguments and creates an object in CREATING. -/
  | objCreate (fn : Fin 65) (obj : W16)
  /-- OBJ_RELEASE (R168): Object command RELEASE moves an object to RELEASING. -/
  | objRelease (fn : Fin 65) (obj : W16)
  /-- OBJ_PIN (R169): Object command PIN adds a command pin and may promote every tile. -/
  | objPin (fn : Fin 65) (obj : W16) (promote : Bool)
  /-- OBJ_UNPIN (R170): Object command UNPIN removes one command pin. -/
  | objUnpin (fn : Fin 65) (obj : W16)
  /-- OBJ_PROMOTE (R170): Object command PROMOTE moves every tile up to TIER_PREF. -/
  | objPromote (fn : Fin 65) (obj : W16)
  /-- OBJ_DEMOTE (R170): Object command DEMOTE moves every tile down to the named tier. -/
  | objDemote (fn : Fin 65) (obj : W16) (tier : Fin 4)
  /-- OBJ_SET_PREF (R170): Object command SET_PREF sets TIER_PREF. -/
  | objSetPref (fn : Fin 65) (obj : W16) (tier : Fin 4)
  /-- OBJ_QUERY (R79): Object command QUERY copies an object table entry atomically into OBJ_QUERY0–7. -/
  | objQuery (fn : Fin 65) (obj : W16)
  /-- OBJECT_LOAD_DONE (R167): An object's golden load completes and makes the object READY, or fails and makes it QUARANTINED. -/
  | objectLoadDone (fn : Fin 65) (obj : W16) (golden : Option (List Byte))
  /-- OBJECT_FREED (R168): A RELEASING object's transient pins drain; its tiles are freed and its entry is zeroed. -/
  | objectFreed (fn : Fin 65) (obj : W16)
  /-- TILE_MOVE_COMPLETE (R172): A tile move between tiers ends; the location switches, held accesses go on, and MIG_LOCK is released. -/
  | tileMoveComplete (fn : Fin 65) (obj : W16) (hostOk : Bool)
  /-- PROMOTION (R175): The tier manager starts an access-driven or commanded promotion of a tile once it holds MIG_LOCK. -/
  | promotion (fn : Fin 65) (obj : W16)
  /-- EVICTION (R178): The evictor gives up the oldest eligible tile or session state until the pool reaches its high watermark. -/
  | eviction (q : Fin 4) (pool : Fin 5)
  /-- SLICE_MODE_CHANGE (R162): A write of SLICE_MODE_HI requests slice mode changes, or refuses a change with MODE_REFUSED. -/
  | sliceModeChange (q : Fin 4) (hi : W32)
  /-- SLICE_SWITCH_COMPLETE (R162): After write-back of its dirty granules, a slice switches to scratchpad and BUSY clears. -/
  | sliceSwitchComplete (q : Fin 4) (slice : Fin 64)
  /-- QUOTA_FLOOR_WRITE (R181): A write of QUOTA_FLOOR sets a floor, or is refused when the floors would exceed capacity. -/
  | quotaFloorWrite (q : Fin 4) (units : W32)
  /-- SUMP_CHUNKS_WRITE (R183): A write of SUMP_CHUNKS adds chunks, or is refused when it would remove chunks that are not empty. -/
  | sumpChunksWrite (value : W32)
  /-- SCHEDULE_INSTALL (R185): A write of MODEL_SCHED_HI checks a priming schedule and installs it, or refuses it with SCHED_BAD. -/
  | scheduleInstall (q : Fin 4) (hi : W32) (md : ModelMeta)
  /-- PRIMING_STAGE (R186): When a priming frame is free, a tier pump stages the next scheduled tile into it. -/
  | primingStage (e : Fin 32) (m : Byte) (expert : Option (W16 × Byte))
  /-- PUMP_NOP (R193): Descriptor NOP moves no data and ends. -/
  | pumpNop (page : Fin 10) (src : DescSrc)
  /-- PUMP_COPY (R193): Descriptor COPY moves LEN bytes from SRC to DST and ends with a status. -/
  | pumpCopy (page : Fin 10) (src : DescSrc) (host : Option (List Byte))
  /-- PUMP_FILL (R193): Descriptor FILL writes PATTERN over LEN bytes at DST. -/
  | pumpFill (page : Fin 10) (src : DescSrc)
  /-- PUMP_ADDER (R193): Descriptor ADDER applies an adder operation at DST, split at granule boundaries. -/
  | pumpAdder (page : Fin 10) (src : DescSrc) (host : Option (List Byte))
  /-- PUMP_COMPRESS (R210): Descriptor COMPRESS builds compressed blocks, with a first pass that writes a table when BUILD = 1. -/
  | pumpCompress (page : Fin 10) (src : DescSrc) (host : Option (List Byte))
  /-- COMPRESS_SECOND_PASS (R209): A COMPRESS that waited on a held table runs its second pass once those contents become current, or
  completes TBL_STALE. -/
  | compressSecondPass (id : Nat)
  /-- PUMP_EXPAND (R202): Descriptor EXPAND decodes compressed blocks into expanded data, flagging size mismatches. -/
  | pumpExpand (page : Fin 10) (src : DescSrc) (host : Option (List Byte))
  /-- PUMP_FENCE (R196): Descriptor FENCE ends once every earlier descriptor of its queue has ended. -/
  | pumpFence (page : Fin 10) (src : DescSrc)
  /-- PUMP_SQ_DOORBELL (R196): A write of SQ_TAIL publishes PF queue descriptors for fetching, or is ignored when out of range. -/
  | pumpSqDoorbell (page : Fin 10) (value : W32)
  /-- PUMP_QUEUE_RESUME (R196): A write of 1 to SQ_STATUS.STOPPED clears it and resumes fetching at HEAD. -/
  | pumpQueueResume (page : Fin 10) (value : W32)
  /-- TABLE_COMMIT (R207): A write of TBL_CMD.COMMIT writes staged contents to a table slot as a new generation, or holds or refuses them. -/
  | tableCommit (value : W32)
  /-- TABLE_GENERATION_DRAIN (R207): A retiring generation's references drain in every pump; it is freed and any held write becomes
  current. -/
  | tableGenerationDrain (slot : Fin 16)
  /-- FEED_EXPAND (R211): The engine-feed pump expands a staged compressed unit into its smoothing queue when the queue has room. -/
  | feedExpand (e : Fin 32)
  /-- LATCH_FILL (R224): The engine-feed pump fills the free latch buffer with the next tile in feed order. -/
  | latchFill (e : Fin 32)
  /-- MMA (R233): MX instruction MMA multiplies the latched tile with the served rows into an accumulator tile and may release the latch. -/
  | mma (e : Fin 32) (y : Bool)
  /-- ACCSET (R289): MX instruction ACCSET sets an accumulator tile's type and zeroes the served rows. -/
  | accset (e : Fin 32) (y : Bool)
  /-- PROGRAM_START (R238): The keeper starts a program on a READY engine with an entry address, round number and class. -/
  | programStart (e : Fin 32) (entry : Fin 64)
  /-- TEST_PROGRAM_START (R240): A write of MXE.RUN.GO under TEST_OWN starts a program at ENTRY. -/
  | testProgramStart (e : Fin 32) (value : W32)
  /-- PROGRAM_STORE_WRITE (R284): A write of PROG_DATA3 stores the staged 128-bit word at ADDR and increments ADDR. -/
  | programStoreWrite (e : Fin 32) (value : W32)
  /-- ENGINE_HALT (R243): Setting HALT stops the engine in HALTED after the instruction in hand retires. -/
  | engineHalt (e : Fin 32)
  /-- ENGINE_STEP (R243): A write of STEP runs one instruction of a HALTED engine. -/
  | engineStep (e : Fin 32)
  /-- ENGINE_RESUME (R243): Clearing HALT returns a HALTED engine to RUNNING. -/
  | engineResume (e : Fin 32)
  /-- ENGINE_RESET (R244): Engine reset abandons instructions, aborts feed descriptors, clears the engine, and abandons its rounds. -/
  | engineReset (e : Fin 32)
  /-- VX_NOP (R256): VX operation NOP does nothing and clears LAST. -/
  | vxNop (e : Fin 32) (y : Bool)
  /-- ADD (R256): VX operation ADD writes A + B. -/
  | add (e : Fin 32) (y : Bool)
  /-- SUB (R256): VX operation SUB writes A − B. -/
  | sub (e : Fin 32) (y : Bool)
  /-- MUL (R256): VX operation MUL writes A × B. -/
  | mul (e : Fin 32) (y : Bool)
  /-- FMA (R256): VX operation FMA writes A × B + D, rounded once. -/
  | fma (e : Fin 32) (y : Bool)
  /-- MAX (R256): VX operation MAX writes the larger element. -/
  | max (e : Fin 32) (y : Bool)
  /-- MIN (R256): VX operation MIN writes the smaller element. -/
  | min (e : Fin 32) (y : Bool)
  /-- SEL (R256): VX operation SEL selects A or B by mask. -/
  | sel (e : Fin 32) (y : Bool)
  /-- MOV (R256): VX operation MOV copies A with format conversion. -/
  | mov (e : Fin 32) (y : Bool)
  /-- ABS (R256): VX operation ABS writes abs(A). -/
  | abs (e : Fin 32) (y : Bool)
  /-- NEG (R256): VX operation NEG writes −A. -/
  | neg (e : Fin 32) (y : Bool)
  /-- EXP (R257): VX operation EXP writes e^A. -/
  | exp (e : Fin 32) (y : Bool)
  /-- LOG (R257): VX operation LOG writes ln A. -/
  | log (e : Fin 32) (y : Bool)
  /-- RCP (R257): VX operation RCP writes 1 / A. -/
  | rcp (e : Fin 32) (y : Bool)
  /-- RSQRT (R257): VX operation RSQRT writes 1 / √A. -/
  | rsqrt (e : Fin 32) (y : Bool)
  /-- SILU (R257): VX operation SILU writes A / (1 + e^−A). -/
  | silu (e : Fin 32) (y : Bool)
  /-- GELU (R257): VX operation GELU writes the tanh form of GELU. -/
  | gelu (e : Fin 32) (y : Bool)
  /-- SIGM (R257): VX operation SIGM writes the logistic function of A. -/
  | sigm (e : Fin 32) (y : Bool)
  /-- TANH (R257): VX operation TANH writes tanh A. -/
  | tanh (e : Fin 32) (y : Bool)
  /-- F2I (R256): VX operation F2I converts FP32 to INT32 with saturation. -/
  | f2i (e : Fin 32) (y : Bool)
  /-- I2F (R256): VX operation I2F converts INT32 to FP32. -/
  | i2f (e : Fin 32) (y : Bool)
  /-- ROTP (R256): VX operation ROTP rotates element pairs by cosine and sine pairs. -/
  | rotp (e : Fin 32) (y : Bool)
  /-- AND (R256): VX operation AND writes the bitwise AND. -/
  | and (e : Fin 32) (y : Bool)
  /-- OR (R256): VX operation OR writes the bitwise OR. -/
  | or (e : Fin 32) (y : Bool)
  /-- XOR (R256): VX operation XOR writes the bitwise XOR. -/
  | xor (e : Fin 32) (y : Bool)
  /-- SHL (R256): VX operation SHL shifts left. -/
  | shl (e : Fin 32) (y : Bool)
  /-- SHR (R256): VX operation SHR shifts right logically. -/
  | shr (e : Fin 32) (y : Bool)
  /-- SRA (R256): VX operation SRA shifts right arithmetically. -/
  | sra (e : Fin 32) (y : Bool)
  /-- CMPEQ (R256): VX operation CMPEQ writes an equality mask. -/
  | cmpeq (e : Fin 32) (y : Bool)
  /-- CMPNE (R256): VX operation CMPNE writes an inequality mask. -/
  | cmpne (e : Fin 32) (y : Bool)
  /-- CMPLT (R256): VX operation CMPLT writes a less-than mask. -/
  | cmplt (e : Fin 32) (y : Bool)
  /-- CMPLE (R256): VX operation CMPLE writes a less-or-equal mask. -/
  | cmple (e : Fin 32) (y : Bool)
  /-- CMPGT (R256): VX operation CMPGT writes a greater-than mask. -/
  | cmpgt (e : Fin 32) (y : Bool)
  /-- CMPGE (R256): VX operation CMPGE writes a greater-or-equal mask. -/
  | cmpge (e : Fin 32) (y : Bool)
  /-- ISNAN (R256): VX operation ISNAN writes a NaN mask. -/
  | isnan (e : Fin 32) (y : Bool)
  /-- MAND (R256): VX operation MAND ANDs two masks. -/
  | mand (e : Fin 32) (y : Bool)
  /-- MOR (R256): VX operation MOR ORs two masks. -/
  | mor (e : Fin 32) (y : Bool)
  /-- MANDN (R256): VX operation MANDN writes Ma AND NOT Mb. -/
  | mandn (e : Fin 32) (y : Bool)
  /-- MNOT (R256): VX operation MNOT inverts a mask. -/
  | mnot (e : Fin 32) (y : Bool)
  /-- MFILL (R256): VX operation MFILL fills mask positions with an immediate bit. -/
  | mfill (e : Fin 32) (y : Bool)
  /-- ROWSET (R256): VX operation ROWSET writes a row set from a mask. -/
  | rowset (e : Fin 32) (y : Bool)
  /-- RSUM (R259): VX operation RSUM sums the active elements in the lane-end tree. -/
  | rsum (e : Fin 32) (y : Bool)
  /-- RMAX (R262): VX operation RMAX reduces to the maximum. -/
  | rmax (e : Fin 32) (y : Bool)
  /-- RMIN (R262): VX operation RMIN reduces to the minimum. -/
  | rmin (e : Fin 32) (y : Bool)
  /-- RARGMAX (R262): VX operation RARGMAX gives the position of the maximum. -/
  | rargmax (e : Fin 32) (y : Bool)
  /-- RARGMIN (R262): VX operation RARGMIN gives the position of the minimum. -/
  | rargmin (e : Fin 32) (y : Bool)
  /-- RBAND (R261): VX operation RBAND reduces by bitwise AND. -/
  | rband (e : Fin 32) (y : Bool)
  /-- RBOR (R261): VX operation RBOR reduces by bitwise OR. -/
  | rbor (e : Fin 32) (y : Bool)
  /-- TSUM (R263): Tile-axis operation TSUM sums accumulator rows or columns. -/
  | tsum (e : Fin 32) (y : Bool)
  /-- TSUMSQ (R263): Tile-axis operation TSUMSQ sums squares along an axis. -/
  | tsumsq (e : Fin 32) (y : Bool)
  /-- TMAX (R263): Tile-axis operation TMAX gives maxima along an axis. -/
  | tmax (e : Fin 32) (y : Bool)
  /-- TMIN (R263): Tile-axis operation TMIN gives minima along an axis. -/
  | tmin (e : Fin 32) (y : Bool)
  /-- TARGMAX (R263): Tile-axis operation TARGMAX gives argmax positions along an axis. -/
  | targmax (e : Fin 32) (y : Bool)
  /-- TARGMIN (R263): Tile-axis operation TARGMIN gives argmin positions along an axis. -/
  | targmin (e : Fin 32) (y : Bool)
  /-- SCAN (R256): VX operation SCAN writes inclusive prefix sums. -/
  | scan (e : Fin 32) (y : Bool)
  /-- FINDGE (R260): VX operation FINDGE gives the first active index with A ≥ B. -/
  | findge (e : Fin 32) (y : Bool)
  /-- KTH (R263): VX operation KTH gives the K-th largest active value. -/
  | kth (e : Fin 32) (y : Bool)
  /-- PERM (R265): VX operation PERM gathers A by an index vector. -/
  | perm (e : Fin 32) (y : Bool)
  /-- BCAST (R265): VX operation BCAST broadcasts element j. -/
  | bcast (e : Fin 32) (y : Bool)
  /-- COMPRESS (R265): VX operation COMPRESS packs active elements and sets CNT. -/
  | compress (e : Fin 32) (y : Bool)
  /-- EXPAND (R265): VX operation EXPAND scatters elements to active positions and sets CNT. -/
  | expand (e : Fin 32) (y : Bool)
  /-- SCMB (R271): VX operation SCMB merges a tag's stack combine slots into attention output. -/
  | scmb (e : Fin 32) (y : Bool)
  /-- RNG (R264): VX operation RNG writes Philox uniform values. -/
  | rng (e : Fin 32) (y : Bool)
  /-- SUMMARY (R267): VX operation SUMMARY posts a summary to the keeper and waits for a branch word. -/
  | summary (e : Fin 32) (y : Bool)
  /-- BRANCH_WORD (R268): The keeper answers a summary with a branch word from the program's branch table, and the sequencer continues,
  branches or ends. -/
  | branchWord (e : Fin 32) (y : Bool)
  /-- BRANCH_CMD (R268): A write of VXE.BRANCH_CMD under TEST_OWN supplies the branch word for a waiting context. -/
  | branchCmd (e : Fin 32) (value : W32)
  /-- FIGURE (R273): FG instruction runs a fused chain of moves through its inputs and writes one destination. -/
  | figure (e : Fin 32) (y : Bool)
  /-- Y_PROGRAM_YIELD (R279): On the keeper's claim, a PROMPT or CUSTOM program yields at its next yield point and keeps its state. -/
  | yProgramYield (e : Fin 32) (row : Option (Fin 256))
  /-- Y_PROGRAM_RESUME (R279): When the keeper lifts its claim, a yielded Y program resumes and its tiles are fed again. -/
  | yProgramResume (e : Fin 32)
  /-- FEED (R291): MV instruction FEED enters tiles into the engine-feed pump's feed queue. -/
  | feed (e : Fin 32) (y : Bool)
  /-- SCALE (R291): MV instruction SCALE moves a scale tile into the free scale-store buffer. -/
  | scale (e : Fin 32) (y : Bool)
  /-- GET (R292): MV instruction GET copies from a DVA into the tile store through a COPY descriptor. -/
  | get (e : Fin 32) (y : Bool)
  /-- PUT (R292): MV instruction PUT copies from the tile store to a DVA through a COPY descriptor. -/
  | put (e : Fin 32) (y : Bool)
  /-- ROWIN (R292): MV instruction ROWIN copies from the tile store to the row buffer. -/
  | rowin (e : Fin 32) (y : Bool)
  /-- ROWOUT (R292): MV instruction ROWOUT copies from the row buffer to the tile store. -/
  | rowout (e : Fin 32) (y : Bool)
  /-- END (R238): SY instruction END ends the program and reports it to the keeper. -/
  | endCmd (e : Fin 32) (y : Bool)
  /-- FENCE (R300): SY instruction FENCE completes when every earlier instruction has completed. -/
  | fence (e : Fin 32) (y : Bool)
  /-- SIGNAL (R302): SY instruction SIGNAL adds VALUE to a target engine's sync counter once earlier instructions have completed. -/
  | signal (e : Fin 32) (y : Bool)
  /-- WAIT (R301): SY instruction WAIT completes when its counter reaches VALUE, and subtracts VALUE. -/
  | wait (e : Fin 32) (y : Bool)
  /-- NOTIFY (R304): SY instruction NOTIFY posts a word to the keeper's mailbox. -/
  | notify (e : Fin 32) (y : Bool)
  /-- JUMP (R300): SY instruction JUMP continues at TARGET. -/
  | jump (e : Fin 32) (y : Bool)
  /-- KEEPER_COUNTER_ADD (R301): The keeper adds to a context-G sync counter of an engine. -/
  | keeperCounterAdd (e : Fin 32) (ctr : Fin 16) (value : W16)
  /-- SQ_DOORBELL (R399): A write of SQ_DB publishes submission entries, or is dropped with a DOORBELL fault record. -/
  | sqDoorbell (t : Fin 64) (value : W32)
  /-- TR_DOORBELL (R400): A write of TR_DB frees token ring slots, or is dropped with a DOORBELL fault record. -/
  | trDoorbell (t : Fin 64) (value : W32)
  /-- SUBMISSION_TAKE (R314): The keeper takes the entry at the ring head, reads its token words or parameter block, and writes its ACCEPT
  journal record. -/
  | submissionTake (t : Fin 64) (host : Option (List Byte))
  /-- OPEN (R325): Entry OPEN creates a session in PARKED with its model, adapter and time-to-live values. -/
  | openCmd (h : W32)
  /-- APPEND (R347): Entry APPEND extends a session's history by prefix links, copies and prompt rows. -/
  | append (h : W32)
  /-- GENERATE (R336): Entry GENERATE makes the session generate tokens until a stop condition. -/
  | generate (h : W32)
  /-- PARK (R326): Entry PARK sets the session's suspended mark at its next round boundary. -/
  | park (h : W32)
  /-- RESUME (R326): Entry RESUME clears the suspended mark and may start a wake, EXACT or lossy. -/
  | resume (h : W32)
  /-- CLOSE (R325): Entry CLOSE completes outstanding work, frees the session's state, and makes it GONE. -/
  | close (h : W32)
  /-- CANCEL (R320): Entry CANCEL completes the named or all outstanding requests CANCELLED at the boundary. -/
  | cancel (h : W32)
  /-- KV_IMPORT (R356): Entry KV_IMPORT loads a session's key/value state from a host buffer. -/
  | kvImport (h : W32) (data : Option (List Byte))
  /-- KV_EXPORT (R357): Entry KV_EXPORT wakes the session if needed and writes its key/value state to a host buffer. -/
  | kvExport (h : W32)
  /-- ADAPTER_BIND (R352): Entry ADAPTER_BIND changes the session's adapter, for running requests when NOW = 1. -/
  | adapterBind (h : W32)
  /-- PURGE (R325): Entry PURGE discards a session's, or the tenant's, requests and state, completing them PURGED. -/
  | purge (h : W32)
  /-- SETTLE_COMPLETE (R329): Settling writes its last compressed private page, frees the banked pages, and the session is SETTLED. -/
  | settleComplete (h : W32)
  /-- SINK_COMPLETE (R325): The copy to the sump completes and frees the spread space, or is abandoned with SUMP_REFUSED. -/
  | sinkComplete (h : W32)
  /-- WAKE_COMPLETE (R330): The last page of a wake reaches the banked pool, and the session becomes ACTIVE or PARKED. -/
  | wakeComplete (h : W32)
  /-- ADAPTER_INSTALL (R351): ADP_CMD INSTALL creates a new current version of an adapter and pins its object. -/
  | adapterInstall
  /-- ADAPTER_RETIRE (R354): ADP_CMD RETIRE leaves an adapter with no current version. -/
  | adapterRetire
  /-- ADAPTER_VERSION_FREE (R353): A version that is no longer current and no longer referred to is freed, and its pin released. -/
  | adapterVersionFree (adapter : W16) (version : W16)
  /-- PROMPT_PROGRAM_START (R358): The keeper runs a chunk of a session's prompt rows as a PROMPT program on an idle engine. -/
  | promptProgramStart (e : Fin 32) (entry : Fin 64) (h : W32) (count : Fin 65)
  /-- YRUN (R360): A write of KPR.YRUN.GO requests a CUSTOM program from the registry, or refuses it with PART_RANGE. -/
  | yrun (q : Fin 4) (value : W32) (meets : Bool)
  /-- CUSTOM_PROGRAM_START (R360): Once its partition is free, the keeper grants the partition and starts a queued CUSTOM program. -/
  | customProgramStart (q : Fin 4)
  /-- TEST_WIN (R363): A write of KPR.WIN_CTRL.TEST_WIN requests the test window and stops sealing. -/
  | testWin (q : Fin 4) (value : W32)
  /-- TEST_WINDOW_ACTIVE (R363): Once no round is in flight, the test window opens and ACTIVE reads 1. -/
  | testWindowActive (q : Fin 4)
  /-- WIN_DATA (R363): A read or write of WIN_DATA accesses the command window word at OFFSET and adds 4 to OFFSET. -/
  | winData (q : Fin 4) (value : Option W32)
  /-- TAG_CPL_POP (R363): A write of TAG_CPL_POP removes the oldest queued tag completion. -/
  | tagCplPop (q : Fin 4)
  /-- SESSION_QUERY (R325): A write of SES.QUERY_HANDLE copies a session's record into QUERY0–3 as one snapshot. -/
  | sessionQuery (q : Fin 4) (handle : W32)
  /-- FRAME_ENQUEUE (R369): A frame joins its Quadrille queue, and an empty ensemble queue joins the active list. -/
  | frameEnqueue (i : Fin 17) (queue : Fin 67) (len : W32) (bytes : List Byte)
  /-- FRAME_SEND (R367): The scheduler starts the next eligible frame in strict queue order. -/
  | frameSend (i : Fin 17) (delay : W32)
  /-- SHAPER_TICK (R371): A shaper adds RATE / 65,536 bytes of credit, up to BURST, every 1 ns tick. -/
  | shaperTick (i : Fin 17) (queue : Fin 67)
  /-- QUEUE_CONFIG_WRITE (R370): A write of Q_CFG sets quantum, shaper or limit, and clearing ENABLE removes the queue from the active
  list. -/
  | queueConfigWrite (i : Fin 17) (value : W32)
  /-- SHAPER_BURST_WRITE (R372): A write of BURST clamps the shaper's credit to the new burst. -/
  | shaperBurstWrite (i : Fin 17) (value : W32)
  /-- GATE_LIST_COMMIT (R374): A write of GL_BASE_HI commits the pending gate list and computes its start. -/
  | gateListCommit (i : Fin 17) (hi : W32)
  /-- GATE_LIST_CANCEL (R377): A write of GL_CTRL.CANCEL withdraws the pending commit. -/
  | gateListCancel (i : Fin 17)
  /-- HOST_READ_COMPLETION (R397): The completions of a host read arrive; the read succeeds, or fails on UR, CA or poison. -/
  | hostReadCompletion (t : Fin 64) (data : Option (List Byte))
  /-- COMPLETION_TIMEOUT (R397): Part of a host read times out and the whole read fails. -/
  | completionTimeout (t : Fin 64)
  /-- FUNCTION_ENABLE (R409): A write of 1 to a tenant's CTRL.ENABLE makes it READY, latches the enable, or sets RING_CFG. -/
  | functionEnable (t : Fin 64)
  /-- FUNCTION_DISABLE (R409): A write of 0 to a tenant's CTRL.ENABLE starts shut-down, or clears the latched enable. -/
  | functionDisable (t : Fin 64)
  /-- D3HOT_ENTRY (R394): A tenant function entering D3hot acts as a write of 0 to ENABLE. -/
  | d3hotEntry (fn : Fin 66)
  /-- FLR (R411): Function Level Reset of a tenant starts shut-down, abandoning its outstanding reads at once. -/
  | flr (t : Fin 64)
  /-- PF_FLR (R415): An FLR of the PF removes every tenant function and then starts a warm device reset. -/
  | pfFlr (flashOk : Bool)
  /-- SHUTDOWN_COMPLETE (R411): A tenant's rounds have ended and its reads are done; its work is kept or discarded and its state changes. -/
  | shutdownComplete (t : Fin 64)
  /-- VF_DISABLE (R415): Clearing VF Enable, or lowering NumVFs, acts as an FLR on each function it removes. -/
  | vfDisable (port : Fin 2) (num : Fin 65)
  /-- FUNCTION_PROVISIONED (R409): A function becomes present and provisioned, and enters DETACHED or OFF. -/
  | functionProvisioned (t : Fin 64)
  /-- DISCARD (R416): A write of FUNC_CMD.DISCARD discards a detached function's kept work. -/
  | discard
  /-- ATS_TRANSLATION (R417): A translation completion fills an entry of the address translation cache, or fails the access. -/
  | atsTranslation (chunk : Fin 2097152) (ok : Bool)
  /-- INVALIDATE_REQUEST (R418): An ATS Invalidate Request stops use of the covered entries. -/
  | invalidateRequest (itag : Fin 32) (chunks : List Nat)
  /-- INVALIDATE_COMPLETION (R418): Once accesses under the invalidated entries have completed, the QK20 sends the Invalidate Completion. -/
  | invalidateCompletion (itag : Fin 32)
  /-- PARTNER_VIOLATION (R420): A PCIe partner protocol violation is answered with UR, CA, a discard or a drop, and is logged and counted. -/
  | partnerViolation (code : Fin 8) (fn : Fin 66) (port : Fin 2) (write : Bool) (addr : W64)
  /-- PCIE_LINK_TRAIN (R390): A host port trains or retrains to a width, rate and FLIT mode. -/
  | pcieLinkTrain (port : Fin 2) (width : Fin 17) (rate : Fin 7) (flit : Bool)
  /-- GET_VERSION (R508): SPDM request GET_VERSION is answered with version 1.4. -/
  | getVersion
  /-- GET_CAPABILITIES (R508): SPDM request GET_CAPABILITIES is answered with the supported capabilities. -/
  | getCapabilities
  /-- NEGOTIATE_ALGORITHMS (R508): SPDM request NEGOTIATE_ALGORITHMS selects SLH-DSA, SHA3-512 and raw measurements. -/
  | negotiateAlgorithms
  /-- GET_DIGESTS (R508): SPDM request GET_DIGESTS returns slot 0's digest. -/
  | getDigests
  /-- GET_CERTIFICATE (R509): SPDM request GET_CERTIFICATE returns the slot-0 chain. -/
  | getCertificate (slot : Byte) (off : W32) (len : W32)
  /-- CHALLENGE (R508): SPDM request CHALLENGE is answered with a signed response and measurement summary. -/
  | challenge (slot : Byte) (summary : Byte) (nonce : List Byte)
  /-- GET_MEASUREMENTS (R510): SPDM request GET_MEASUREMENTS returns measurement blocks, signed on request. -/
  | getMeasurements (index : Byte) (signed : Bool) (nonce : List Byte)
  /-- SPDM_UNSUPPORTED (R508): Any other SPDM request is answered with ERROR UnsupportedRequest. -/
  | spdmUnsupported (arg : Byte)
  /-- PORT_ENABLE (R432): A write of 1 to a Glith port's CTRL.ENABLE starts training from OFF. -/
  | portEnable (p : Fin 12)
  /-- PORT_DISABLE (R432): A write of 0 to a Glith port's CTRL.ENABLE takes the port OFF. -/
  | portDisable (p : Fin 12)
  /-- PORT_TRAIN (R428): A port trains its lanes, adapts equalisation, locks, deskews and sends HELLO. -/
  | portTrain (p : Fin 12) (lanes : Fin 16) (snr : List Byte)
  /-- TRAINING_TIMEOUT (R428): Training does not complete within 150 ms, is counted and retried, and FAULT follows after four failures. -/
  | trainingTimeout (p : Fin 12)
  /-- HELLO (R429): A HELLO frame is checked; the port enters READY or MISMATCH, or resumes after a retrain with credits and replay. -/
  | hello (p : Fin 12) (payload : List Byte)
  /-- PORT_RETRAIN (R430): A write of PORT_CMD.RETRAIN retrains a READY port, keeping its sequence state. -/
  | portRetrain (p : Fin 12)
  /-- LANE_LOCK_LOSS (R430): An active Glith lane loses lock and the port retrains. -/
  | laneLockLoss (p : Fin 12) (lane : Fin 4)
  /-- WRITE (R447): A WRITE request frame is checked at its destination and applied as a copy, and ACKR is sent. -/
  | write (p : Fin 12) (frame : List Byte)
  /-- READ (R447): A READ request frame is checked and answered with RDATA. -/
  | read (p : Fin 12) (frame : List Byte)
  /-- REDUCE (R447): A REDUCE request frame is checked, applied in the memory-side adders, and answered with ACKR. -/
  | reduce (p : Fin 12) (frame : List Byte)
  /-- ATOMIC (R447): An ATOMIC request frame is checked and applied, and the old value returns in RDATA. -/
  | atomic (p : Fin 12) (frame : List Byte)
  /-- RDATA (R446): An RDATA reply completes its request at the source pump. -/
  | rdata (p : Fin 12) (frame : List Byte)
  /-- ACKR (R446): An ACKR reply completes its request at the source pump. -/
  | ackr (p : Fin 12) (frame : List Byte)
  /-- MSG (R447): A MSG frame delivers 16 B to the destination keeper's mailbox, including ABANDON. -/
  | msg (p : Fin 12) (frame : List Byte)
  /-- LINKCTL (R441): A LINKCTL frame delivers ACK, credits or a NAK, and a NAK triggers replay. -/
  | linkctl (p : Fin 12) (frame : List Byte)
  /-- FRAME_FORWARD (R443): A frame for another device is forwarded by override or dimension order, or discarded with UNREACHABLE. -/
  | frameForward (p : Fin 12)
  /-- ACK_TIMER (R436): No acknowledging frame leaves within 200 ns of acceptance, and the port sends a LINKCTL. -/
  | ackTimer (p : Fin 12)
  /-- REPLAY_TIMEOUT (R441): No acknowledgement advances within TIMEOUT_NS, and the port replays from the oldest unacknowledged frame. -/
  | replayTimeout (p : Fin 12)
  /-- REQUEST_TIMEOUT (R446): A remote request has no reply within REQ_TIMEOUT, and its descriptor ends PEER_ERROR. -/
  | requestTimeout (tid : W16)
  /-- LINK_PORT_RESET (R433): Link port reset discards the port's replay buffer, frames, credits and sequence state. -/
  | linkPortReset (p : Fin 12)
  /-- JOURNAL_WRITE_COMPLETE (R459): Every copy of a journal record has been applied, and the next record of the session may start. -/
  | journalWriteComplete (h : W32)
  /-- JOURNAL_COMPACT (R463): The keeper replaces a session's records up to a JSEQ with one HISTORY record and frees them. -/
  | journalCompact (h : W32)
  /-- JOURNAL_REMIRROR (R465): The keeper writes a new journal copy from the surviving one after a copy is lost. -/
  | journalRemirror (h : W32)
  /-- REBUILD (R467): The keeper rebuilds lost key/value entries by running rebuild rows from the journal's token words. -/
  | rebuild (h : W32)
  /-- PUMP_HANG_TIMEOUT (R472): A pump withholds its acknowledge for 1 ms unprompted; its descriptors end ABORTED and it is retired. -/
  | pumpHangTimeout (page : Fin 10) (pump : Fin 8)
  /-- HEARTBEAT (R474): A keeper core posts a heartbeat to the management core. -/
  | heartbeat (arg : Fin 4)
  /-- HEARTBEAT_TIMEOUT (R474): No heartbeat arrives for 200 µs, and the keeper is declared failed. -/
  | heartbeatTimeout (q : Fin 4)
  /-- STACK_RETIRE (R476): A stack whose base die stops responding is retired; lines are withdrawn, the system pool is re-placed, and
  entries rebuilt. -/
  | stackRetire (st : Fin 20)
  /-- ROUND_STALL (R473): No instruction of a round retires for 10 ms; the round is abandoned and its engines are reset. -/
  | roundStall (num : W64)
  /-- REFETCH (R482): The tier manager takes MIG_LOCK of an object with a poisoned tile and reads the tile's golden bytes. -/
  | refetch (fn : Fin 65) (obj : W16) (tile : W16)
  /-- REFETCH_GOLDEN_DONE (R482): The golden read completes; the tile is rewritten and restaged, or the refetch fails and quarantines. -/
  | refetchGoldenDone (fn : Fin 65) (obj : W16) (tile : W16) (golden : Option (List Byte))
  /-- UNLOAD (R486): A write of RAS.MODEL_CMD.UNLOAD completes a quarantined model's requests MODEL_QUARANTINED. -/
  | unload
  /-- WARM (R479): A write of RAS.RESET_CMD.WARM starts a warm device reset. -/
  | warm (flashOk : Bool)
  /-- QUAD (R479): A write of RAS.RESET_CMD.QUAD starts a reset of the selected quadrant. -/
  | quad (q : Fin 4)
  /-- WARM_RST (R520): A falling edge on WARM_RST# starts a warm device reset, which completes after the rising edge. -/
  | warmRst (flashOk : Bool)
  /-- INJECTION_ENABLE (R489): A write of INJ_CTRL with KEY 0x1A7E enables error injection. -/
  | injectionEnable (value : W32)
  /-- INJECT_CORRUPT (R490): INJ_CMD GO with KIND 1 to 3 corrupts byte-symbols of a column or Well word. -/
  | injectCorrupt (kind : Fin 3) (target : Bool)
  /-- INJECT_POISON (R490): INJ_CMD GO with KIND 4 poisons a column or makes a Well word uncorrectable. -/
  | injectPoison (target : Bool)
  /-- INJECT_PART_FAILURE (R490): INJ_CMD GO with KIND 5 fails a part, which is then handled as a real failure. -/
  | injectPartFailure
  /-- PERST (R493): Deasserting PERST# starts a cold boot through the boot lock point, image checks, loading and bring-up to READY. -/
  | perst (prof : Fin 4) (flashOk : Bool)
  /-- COMMIT (R500): A write of SEC.SVN_CMD.COMMIT blows fuse bits until the counter equals the running SVN, or reports why not. -/
  | commit (reached : Fin 65)
  /-- PROFILE_SELECT (R505): A write of SEC.PROFILE_SELECT.GO at quiesce runs a warm reset under a new profile. -/
  | profileSelect (profile : Fin 4) (flashOk : Bool)
  /-- LOAD (R502): A write of SEC.RCV_CMD.LOAD reads an image from host memory for verification. -/
  | load (flash : Bool)
  /-- LOAD_COMPLETE (R502): The loaded image is verified, and is run, flashed or rejected, with RESULT and PF vector 3. -/
  | loadComplete (data : Option (List Byte))
  /-- FLASH_WRITE_COMPLETE (R503): The write of an image to the slot completes, releasing any warm reset that waits at order 6. -/
  | flashWriteComplete (ok : Bool) (readOk : Bool)
  /-- UNLOCK_CHAL (R513): JTAG instruction UNLOCK_CHAL shifts out a fresh nonce and the serial number. -/
  | unlockChal
  /-- UNLOCK_RESP (R513): JTAG instruction UNLOCK_RESP checks a debug key and signature and unlocks the port or counts a failure. -/
  | unlockResp (key : List Byte) (sig : List Byte)
  /-- BYPASS (R512): JTAG instruction BYPASS selects the bypass register. -/
  | bypass
  /-- IDCODE (R512): JTAG instruction IDCODE returns the part number and version. -/
  | idcode
  /-- SAMPLE_PRELOAD (R512): JTAG instruction SAMPLE/PRELOAD samples or preloads the boundary scan register. -/
  | samplePreload (data : List Byte)
  /-- EXTEST (R512): JTAG instruction EXTEST drives the boundary scan register onto the pins. -/
  | extest
  /-- CLAMP (R512): JTAG instruction CLAMP holds the pins from the boundary scan register. -/
  | clamp
  /-- HIGHZ (R512): JTAG instruction HIGHZ places outputs in high impedance. -/
  | highz
  /-- DEBUG_ACCESS (R514): A debug instruction on an unlocked port reads or changes device state outside the security block. -/
  | debugAccess (op : DebugOp)
  /-- VAUX_GOOD (R522): VAUX comes into range; the package drives THERM_TRIP# and ALERT#, samples MADDR, and the management bus answers. -/
  | vauxGood (maddr : Fin 4) (mv : W16)
  /-- VIN_RAMP (R522): VIN rises above 10.8 V and the package starts the IOD, stack and VDD_C rails. -/
  | vinRamp
  /-- VIN_LOSS (R523): VIN falls below 10.8 V, or VAUX leaves its range, and the package removes the VIN rails and logs the cause. -/
  | vinLoss (vaux : Bool)
  /-- VIN_LOW (R523): VIN lies between 10.8 V and 11.4 V, and ALERT bit VIN_LOW is set. -/
  | vinLow (mv : W16)
  /-- THERMAL_TRIP (R525): A die, stack or regulator reaches its trip temperature; THERM_TRIP# goes low and the VIN rails are removed. -/
  | thermalTrip (cause : Fin 5) (unit : Fin 32) (temp : Byte)
  /-- MGMT_BUS_READ (R521): A management bus read returns bytes of the PKG page. -/
  | mgmtBusRead (off : Fin 4096) (len : Fin 257)
  /-- MGMT_BUS_WRITE (R521): A management bus write is refused with NACK. -/
  | mgmtBusWrite (arg : Fin 4096) (arg2 : List Byte)
  /-- I3C_ADDRESS_ASSIGN (R521): SETDASA or ENTDAA assigns a dynamic address and the bus switches to I3C Basic SDR. -/
  | i3cAddressAssign (addr : Fin 128)
  /-- UNCORRECTABLE_CODEWORD (R426): A Glith receiver meets an FEC codeword it cannot correct, or a frame whose CRC fails; it discards
  every frame the codeword overlaps, counts it in GLL.FEC_UNCORR, and sends a NAK for RX_EXPECT. -/
  | uncorrectableCodeword (p : Fin 12)
  /-- PERST_ASSERTION (R520): PERST# goes low and the QK20 enters cold reset, holding every die in reset while JTAG stays usable. -/
  | perstAssertion
  /-- RETURN_TO_D0 (R394): A function returns from D3hot to D0; for the PF or proxy function, the requests that waited are then issued on
  its port. -/
  | returnToD0 (fn : Fin 66)
  /-- VAUX_LOSS (R521): VAUX falls while VIN is off; the management bus stops answering and drops its dynamic I3C address, and the package
  loses its standby state. -/
  | vauxLoss
  deriving DecidableEq, Repr

end Sys2Proof
end

