-- ==== Sys2Proof/WellFormed.lean ====
section
/-! DEFINITION. Which commands are well formed: the granule exists and the byte strings have lengths that the event can have. A meaning is total
on the others too. -/
namespace Sys2Proof

/-- Does a Cistern have the granule: its row, or its local granule (R75, R83)? -/
def granWf : Gran → Bool
  | .spread _ _ l => decide (l < 128 * 49152)
  | .at _ _ _ row _ => decide (row < 49152)

/-- A descriptor handed over has 64 bytes (R190). -/
def srcWf : DescSrc → Bool
  | .queue _ => true
  | .direct _ desc => decide (desc.length = 64)

/-- Host data that one command brings: at most 48 MiB, the length of the image slot (R503). -/
def bytesWf : Option (List Byte) → Bool
  | none => true
  | some d => decide (d.length ≤ 50331648)

/-- A model's metadata: a head dimension code and at least one layer (R126). -/
def metaWf (m : ModelMeta) : Bool := decide (m.hdim < 4 ∧ 0 < m.layers)

/-- A debug access names a place that exists, with at most a column of data (R514). -/
def debugWf : DebugOp → Bool
  | .readCol g _ => granWf g
  | .writeCol g _ data => granWf g && decide (data.length ≤ 32)
  | .readReg _ | .writeReg _ _ | .readWell _ _ | .writeWell _ _ _ | .readStore _ _ | .writeStore _ _ _ => true

/-- Is a command well formed? -/
def WellFormed (i : Instr) : Bool :=
  match i with
  | .sealRound .. => true
  | .kvTailWrite _ _ _ _ _ data => decide (data.length % 2 = 0)
  | .layerBoundary => true
  | .sampling .. => true
  | .roundBoundary .. => true
  | .deadlineExpiry .. => true
  | .timeToLiveExpiry .. => true
  | .tokenDelivery _ count => decide (count ≠ 0#32)
  | .tokenIrqDelayExpiry .. => true
  | .hostTimePublish .. => true
  | .hostTimeCopyUpdate .. => true
  | .hostTimeStale => true
  | .telemetryWindowClose _ samples => decide (samples.length ≤ 512)
  | .slotVersionMigrate .. => true
  | .registerWrite _ _ data => decide (data.length ≤ 4096)
  | .registerReadClear .. => true
  | .pairLoRead .. => true
  | .errorInject .. => true
  | .columnRead g _ => granWf g
  | .columnWrite g off data => granWf g && decide (data.length ≠ 0 ∧ off.toNat + data.length ≤ 256)
  | .addFp32 g _ data => granWf g && decide (data.length ≤ 512)
  | .addBf16 g _ data => granWf g && decide (data.length ≤ 512)
  | .addInt32 g _ data => granWf g && decide (data.length ≤ 512)
  | .addInt64 g _ data => granWf g && decide (data.length ≤ 512)
  | .minFp32 g _ data => granWf g && decide (data.length ≤ 512)
  | .maxFp32 g _ data => granWf g && decide (data.length ≤ 512)
  | .minBf16 g _ data => granWf g && decide (data.length ≤ 512)
  | .maxBf16 g _ data => granWf g && decide (data.length ≤ 512)
  | .minInt32 g _ data => granWf g && decide (data.length ≤ 512)
  | .maxInt32 g _ data => granWf g && decide (data.length ≤ 512)
  | .minInt64 g _ data => granWf g && decide (data.length ≤ 512)
  | .maxInt64 g _ data => granWf g && decide (data.length ≤ 512)
  | .swap32 g _ data => granWf g && decide (data.length ≤ 512)
  | .swap64 g _ data => granWf g && decide (data.length ≤ 512)
  | .cas32 g _ data => granWf g && decide (data.length ≤ 512)
  | .cas64 g _ data => granWf g && decide (data.length ≤ 512)
  | .fetchAddInt32 g _ data => granWf g && decide (data.length ≤ 512)
  | .fetchAddInt64 g _ data => granWf g && decide (data.length ≤ 512)
  | .scrubRead .. => true
  | .stackTempRead .. => true
  | .retrainRequest .. => true
  | .chCmdRetrain .. => true
  | .chCmdMapOut .. => true
  | .marginEnter .. => true
  | .marginExit .. => true
  | .marginMeasure .. => true
  | .marginMeasureDone .. => true
  | .retrainStart .. => true
  | .retrainComplete .. => true
  | .retrainTimeout .. => true
  | .mapOutStart .. => true
  | .kvRunMove .. => true
  | .mapoutGranuleCopy .. => true
  | .channelLost .. => true
  | .stackBringUp .. => true
  | .stackResume .. => true
  | .laneRepair .. => true
  | .rowRepair .. => true
  | .repairComplete .. => true
  | .slotWeightWrite .. => true
  | .runRingPublish _ _ bytes _ => decide (bytes.length ≤ 16384)
  | .tagOpen _ _ query record _ => decide (query.length ≤ 65536) && decide (record.length = 0 ∨ record.length = 64)
  | .tagRelease .. => true
  | .unitTagStart .. => true
  | .queryBroadcast .. => true
  | .bktNop .. => true
  | .bktInit .. => true
  | .bktZero .. => true
  | .bktQk .. => true
  | .bktMask .. => true
  | .bktSmax .. => true
  | .bktPv .. => true
  | .bktNext .. => true
  | .bktBr .. => true
  | .bktMaxx .. => true
  | .bktSendacc .. => true
  | .bktEnd .. => true
  | .windlassProg .. => true
  | .windlassStart .. => true
  | .windlassPagelist .. => true
  | .windlassQuery .. => true
  | .maxUp .. => true
  | .maxDown .. => true
  | .accUp .. => true
  | .windlassDone .. => true
  | .windlassPoison .. => true
  | .tagComplete .. => true
  | .combineSlotCarry .. => true
  | .yieldService .. => true
  | .microprogramWrite .. => true
  | .bucketUnitTimeout .. => true
  | .objCreate .. => true
  | .objRelease .. => true
  | .objPin .. => true
  | .objUnpin .. => true
  | .objPromote .. => true
  | .objDemote .. => true
  | .objSetPref .. => true
  | .objQuery .. => true
  | .objectLoadDone .. => true
  | .objectFreed .. => true
  | .tileMoveComplete .. => true
  | .promotion .. => true
  | .eviction .. => true
  | .sliceModeChange .. => true
  | .sliceSwitchComplete .. => true
  | .quotaFloorWrite .. => true
  | .sumpChunksWrite .. => true
  | .scheduleInstall _ _ md => metaWf md
  | .primingStage .. => true
  | .pumpNop _ src => srcWf src
  | .pumpCopy _ src host => srcWf src && bytesWf host
  | .pumpFill _ src => srcWf src
  | .pumpAdder _ src host => srcWf src && bytesWf host
  | .pumpCompress _ src host => srcWf src && bytesWf host
  | .compressSecondPass id => decide (id < 2 ^ 64)
  | .pumpExpand _ src host => srcWf src && bytesWf host
  | .pumpFence _ src => srcWf src
  | .pumpSqDoorbell .. => true
  | .pumpQueueResume .. => true
  | .tableCommit .. => true
  | .tableGenerationDrain .. => true
  | .feedExpand .. => true
  | .latchFill .. => true
  | .mma .. => true
  | .accset .. => true
  | .programStart .. => true
  | .testProgramStart .. => true
  | .programStoreWrite .. => true
  | .engineHalt .. => true
  | .engineStep .. => true
  | .engineResume .. => true
  | .engineReset .. => true
  | .vxNop .. => true
  | .add .. => true
  | .sub .. => true
  | .mul .. => true
  | .fma .. => true
  | .max .. => true
  | .min .. => true
  | .sel .. => true
  | .mov .. => true
  | .abs .. => true
  | .neg .. => true
  | .exp .. => true
  | .log .. => true
  | .rcp .. => true
  | .rsqrt .. => true
  | .silu .. => true
  | .gelu .. => true
  | .sigm .. => true
  | .tanh .. => true
  | .f2i .. => true
  | .i2f .. => true
  | .rotp .. => true
  | .and .. => true
  | .or .. => true
  | .xor .. => true
  | .shl .. => true
  | .shr .. => true
  | .sra .. => true
  | .cmpeq .. => true
  | .cmpne .. => true
  | .cmplt .. => true
  | .cmple .. => true
  | .cmpgt .. => true
  | .cmpge .. => true
  | .isnan .. => true
  | .mand .. => true
  | .mor .. => true
  | .mandn .. => true
  | .mnot .. => true
  | .mfill .. => true
  | .rowset .. => true
  | .rsum .. => true
  | .rmax .. => true
  | .rmin .. => true
  | .rargmax .. => true
  | .rargmin .. => true
  | .rband .. => true
  | .rbor .. => true
  | .tsum .. => true
  | .tsumsq .. => true
  | .tmax .. => true
  | .tmin .. => true
  | .targmax .. => true
  | .targmin .. => true
  | .scan .. => true
  | .findge .. => true
  | .kth .. => true
  | .perm .. => true
  | .bcast .. => true
  | .compress .. => true
  | .expand .. => true
  | .scmb .. => true
  | .rng .. => true
  | .summary .. => true
  | .branchWord .. => true
  | .branchCmd .. => true
  | .figure .. => true
  | .yProgramYield .. => true
  | .yProgramResume .. => true
  | .feed .. => true
  | .scale .. => true
  | .get .. => true
  | .put .. => true
  | .rowin .. => true
  | .rowout .. => true
  | .endCmd .. => true
  | .fence .. => true
  | .signal .. => true
  | .wait .. => true
  | .notify .. => true
  | .jump .. => true
  | .keeperCounterAdd .. => true
  | .sqDoorbell .. => true
  | .trDoorbell .. => true
  | .submissionTake _ host => bytesWf host
  | .openCmd .. => true
  | .append .. => true
  | .generate .. => true
  | .park .. => true
  | .resume .. => true
  | .close .. => true
  | .cancel .. => true
  | .kvImport _ data => bytesWf data
  | .kvExport .. => true
  | .adapterBind .. => true
  | .purge .. => true
  | .settleComplete .. => true
  | .sinkComplete .. => true
  | .wakeComplete .. => true
  | .adapterInstall => true
  | .adapterRetire => true
  | .adapterVersionFree .. => true
  | .promptProgramStart .. => true
  | .yrun .. => true
  | .customProgramStart .. => true
  | .testWin .. => true
  | .testWindowActive .. => true
  | .winData .. => true
  | .tagCplPop .. => true
  | .sessionQuery .. => true
  | .frameEnqueue _ _ len bytes => decide (bytes.length ≤ len.toNat)
  | .frameSend .. => true
  | .shaperTick .. => true
  | .queueConfigWrite .. => true
  | .shaperBurstWrite .. => true
  | .gateListCommit .. => true
  | .gateListCancel .. => true
  | .hostReadCompletion _ data => bytesWf data
  | .completionTimeout .. => true
  | .functionEnable .. => true
  | .functionDisable .. => true
  | .d3hotEntry .. => true
  | .flr .. => true
  | .pfFlr .. => true
  | .shutdownComplete .. => true
  | .vfDisable .. => true
  | .functionProvisioned .. => true
  | .discard => true
  | .atsTranslation .. => true
  | .invalidateRequest _ chunks => chunks.all (fun c => decide (c < 2 ^ 31))
  | .invalidateCompletion .. => true
  | .partnerViolation .. => true
  | .pcieLinkTrain .. => true
  | .getVersion => true
  | .getCapabilities => true
  | .negotiateAlgorithms => true
  | .getDigests => true
  | .getCertificate .. => true
  | .challenge _ _ nonce => decide (nonce.length = 32)
  | .getMeasurements _ signed nonce => decide (nonce.length = if signed then 32 else 0)
  | .spdmUnsupported .. => true
  | .portEnable .. => true
  | .portDisable .. => true
  | .portTrain _ _ snr => decide (snr.length = 4)
  | .trainingTimeout .. => true
  | .hello _ payload => decide (payload.length = 32)
  | .portRetrain .. => true
  | .laneLockLoss .. => true
  | .write _ frame => decide (frame.length ≤ 4224)
  | .read _ frame => decide (frame.length ≤ 4224)
  | .reduce _ frame => decide (frame.length ≤ 4224)
  | .atomic _ frame => decide (frame.length ≤ 4224)
  | .rdata _ frame => decide (frame.length ≤ 4224)
  | .ackr _ frame => decide (frame.length ≤ 4224)
  | .msg _ frame => decide (frame.length ≤ 4224)
  | .linkctl _ frame => decide (frame.length ≤ 4224)
  | .frameForward .. => true
  | .ackTimer .. => true
  | .replayTimeout .. => true
  | .requestTimeout .. => true
  | .linkPortReset .. => true
  | .journalWriteComplete .. => true
  | .journalCompact .. => true
  | .journalRemirror .. => true
  | .rebuild .. => true
  | .pumpHangTimeout .. => true
  | .heartbeat .. => true
  | .heartbeatTimeout .. => true
  | .stackRetire .. => true
  | .roundStall .. => true
  | .refetch .. => true
  | .refetchGoldenDone .. => true
  | .unload => true
  | .warm .. => true
  | .quad .. => true
  | .warmRst .. => true
  | .injectionEnable .. => true
  | .injectCorrupt .. => true
  | .injectPoison .. => true
  | .injectPartFailure => true
  | .perst .. => true
  | .commit .. => true
  | .profileSelect .. => true
  | .load .. => true
  | .loadComplete data => bytesWf data
  | .flashWriteComplete .. => true
  | .unlockChal => true
  | .unlockResp key sig => decide (key.length = 64 ∧ sig.length = 29792)
  | .bypass => true
  | .idcode => true
  | .samplePreload data => decide (data.length ≤ 4096)
  | .extest => true
  | .clamp => true
  | .highz => true
  | .debugAccess op => debugWf op
  | .vauxGood .. => true
  | .vinRamp => true
  | .vinLoss .. => true
  | .vinLow .. => true
  | .thermalTrip .. => true
  | .mgmtBusRead .. => true
  | .mgmtBusWrite _ arg2 => decide (arg2.length ≤ 256)
  | .i3cAddressAssign .. => true
  | .uncorrectableCodeword .. => true
  | .perstAssertion => true
  | .returnToD0 .. => true
  | .vauxLoss => true

end Sys2Proof
end

