-- ==== Sys2Proof/Decode.lean ====
section
/-! DEFINITION. The commands that words spell. The opcode table gives no row any bits: a command is an event of the block, and no word spells
one. -/
namespace Sys2Proof

/-- The command that a word of `nbits` bits spells: none, for every row of the table has no bits. [DESIGN CHOICE: log entry 6] -/
def decodeTableWord (_ _ : Nat) : Option Instr := none

end Sys2Proof
end

