-- ==== Sys2Proof/Machine/Bits.lean ====
section
/-! DEFINITION. Byte order, bit fields and small list helpers (R6, R7). -/
namespace Sys2Proof.Machine

/-- The natural number a byte string spells, least significant byte first (R7). -/
def leNat : List Byte → Nat
  | [] => 0
  | b :: bs => b.toNat + 256 * leNat bs

/-- `n` bytes of `x`, least significant first (R7). -/
def leBytes : Nat → Nat → List Byte
  | 0, _ => []
  | n + 1, x => BitVec.ofNat 8 x :: leBytes n (x / 256)

/-- `n` bytes of `bs` from offset `o`; bytes beyond the end read zero. -/
def slice (bs : List Byte) (o n : Nat) : List Byte :=
  let t := (bs.drop o).take n
  t ++ List.replicate (n - t.length) 0#8

/-- The number in the `n` bytes at offset `o` of a record. -/
def leAt (bs : List Byte) (o n : Nat) : Nat := leNat (slice bs o n)

/-- `bs` with `v` laid over it from offset `o`. -/
def overlay (bs : List Byte) (o : Nat) (v : List Byte) : List Byte :=
  bs.take o ++ v ++ bs.drop (o + v.length)

/-- `x` with bits [msb:lsb] replaced by the low bits of `v`. -/
def setBitsNat (x msb lsb v : Nat) : Nat :=
  x - bitsOf x msb lsb * 2 ^ lsb + (v % 2 ^ (msb + 1 - lsb)) * 2 ^ lsb

/-- Saturating increment of a count whose largest value is `mx`. -/
def satAdd (mx x n : Nat) : Nat := min mx (x + n)

/-- Rounded-up quotient. -/
def ceilDiv (a b : Nat) : Nat := (a + b - 1) / b

/-- The signed value of the low `w` bits of `x`, in two's complement. -/
def toSigned (w x : Nat) : Int :=
  let y := x % 2 ^ w
  if y < 2 ^ (w - 1) then (y : Int) else (y : Int) - 2 ^ w

/-- The two's complement `w`-bit pattern of an integer. -/
def ofSigned (w : Nat) (z : Int) : Nat := (z % (2 ^ w : Int)).toNat

/-- The element at index `i` of a list replaced by `v`; past the end nothing changes. -/
def setAt {α : Type} (l : List α) (i : Nat) (v : α) : List α := l.set i v

/-- Split a byte string into elements of `n` bytes; `k` bounds their number. -/
def chunksOf (n : Nat) : Nat → List Byte → List (List Byte)
  | 0, _ => []
  | k + 1, bs => if bs.length = 0 then [] else bs.take n :: chunksOf n k (bs.drop n)

/-- The numbers 0, 1, … below `n` satisfying `p`. -/
def rangeP (n : Nat) (p : Nat → Bool) : List Nat := (List.range n).filter p

/-- How many numbers below `n` satisfy `p`. -/
def countP (n : Nat) (p : Nat → Bool) : Nat := (rangeP n p).length

/-- The sum of `f` over the numbers below `n`. -/
def sumTo (n : Nat) (f : Nat → Nat) : Nat := (List.range n).foldl (fun a i => a + f i) 0

/-- The median of a list (the lower middle element of an even number of elements); 0 of none. -/
def median (l : List Nat) : Nat :=
  let s := l.foldr (fun x acc => (acc.takeWhile (· < x)) ++ x :: (acc.dropWhile (· < x))) []
  (s.drop ((s.length - 1) / 2)).headD 0

end Sys2Proof.Machine
end

