-- ==== Sys2Proof/Machine/Keccak.lean ====
section
/-! DEFINITION. SHAKE256 and SHA3-512 (FIPS 202, named by R346 and R508). -/
namespace Sys2Proof.Machine

/-- Lane (x, y) of a Keccak state of 25 lanes. -/
def kLane (a : List W64) (x y : Nat) : W64 := a.getD (x % 5 + 5 * (y % 5)) 0#64

/-- The round constants of the iota step. -/
def kRC : List W64 :=
  [0x0000000000000001#64, 0x0000000000008082#64, 0x800000000000808A#64, 0x8000000080008000#64, 0x000000000000808B#64,
   0x0000000080000001#64, 0x8000000080008081#64, 0x8000000000008009#64, 0x000000000000008A#64, 0x0000000000000088#64,
   0x0000000080008009#64, 0x000000008000000A#64, 0x000000008000808B#64, 0x800000000000008B#64, 0x8000000000008089#64,
   0x8000000000008003#64, 0x8000000000008002#64, 0x8000000000000080#64, 0x000000000000800A#64, 0x800000008000000A#64,
   0x8000000080008081#64, 0x8000000000008080#64, 0x0000000080000001#64, 0x8000000080008008#64]

/-- The rotation offsets of the rho step, by x + 5y. -/
def kRot : List Nat := [0, 1, 62, 28, 27, 36, 44, 6, 55, 20, 3, 10, 43, 25, 39, 41, 45, 15, 21, 8, 18, 2, 61, 56, 14]

/-- One round of Keccak-f[1600]: theta, rho, pi, chi, iota. -/
def kRound (a : List W64) (rc : W64) : List W64 :=
  let c := (List.range 5).map (fun x => kLane a x 0 ^^^ kLane a x 1 ^^^ kLane a x 2 ^^^ kLane a x 3 ^^^ kLane a x 4)
  let d := (List.range 5).map (fun x => c.getD ((x + 4) % 5) 0#64 ^^^ (c.getD ((x + 1) % 5) 0#64).rotateLeft 1)
  let t := (List.range 25).map (fun i => a.getD i 0#64 ^^^ d.getD (i % 5) 0#64)
  -- lane (y, 2x + 3y) of the result takes lane (x, y): lane (X, Y) comes from x = X + 3Y, y = X
  let b := (List.range 25).map (fun i =>
    let x := (i % 5 + 3 * (i / 5)) % 5
    let y := i % 5
    (kLane t x y).rotateLeft (kRot.getD (x + 5 * y) 0))
  let e := (List.range 25).map (fun i => kLane b i (i / 5) ^^^ (~~~ kLane b (i % 5 + 1) (i / 5) &&& kLane b (i % 5 + 2) (i / 5)))
  match e with
  | l :: ls => (l ^^^ rc) :: ls
  | [] => []

/-- Keccak-f[1600]. -/
def keccakF (a : List W64) : List W64 := kRC.foldl kRound a

/-- Absorb a padded message, `rate` bytes at a time. -/
def kAbsorb (rate : Nat) (a : List W64) (blocks : List (List Byte)) : List W64 :=
  blocks.foldl (fun a b => keccakF ((List.range 25).map (fun i => a.getD i 0#64 ^^^ BitVec.ofNat 64 (if 8 * i < rate then leAt b (8 * i) 8 else 0)))) a

/-- Keccak with a rate, a domain byte and an output of at most one block. -/
def keccak (rate dom out : Nat) (msg : List Byte) : List Byte :=
  let n := msg.length + 1
  let pad := ceilDiv n rate * rate - n
  let m := msg ++ BitVec.ofNat 8 dom :: List.replicate pad 0#8
  let m' := setAt m (m.length - 1) (m.getD (m.length - 1) 0#8 ||| 0x80#8)
  let a := kAbsorb rate (List.replicate 25 0#64) (chunksOf rate (m'.length / rate) m')
  (a.flatMap (fun l => leBytes 8 l.toNat)).take out

/-- SHAKE256 with `out` ≤ 136 output bytes. -/
def shake256 (out : Nat) (msg : List Byte) : List Byte := keccak 136 0x1F out msg

/-- SHA3-512. -/
def sha3_512 (msg : List Byte) : List Byte := keccak 72 0x06 64 msg

end Sys2Proof.Machine
end

