-- ==== Sys2Proof/Config.lean ====
section
/-! DEFINITION. What an implementation of the QK20 fixes: the profiles (R30, R82, R387), the constants of the spec,
and the free values, opaque constants of which nothing can be proved but what the spec says. -/
namespace Sys2Proof

/-- The free value drawn at draw number `n`: no proof can see it. Every value the spec leaves open after an effect it
gives is drawn from here, at the counter `State.free`, and cut to the width the spec gives it. [DESIGN CHOICE: log entry 7] -/
opaque Config.freeNat : Nat → Nat

/-- The factory nominal scale of a block's stopwatch (R44): nanoseconds per tick with 24 fraction bits. [DESIGN CHOICE: log entry 31] -/
opaque Config.nominalScale : Nat → Nat

/-- Spare rows that a bank of an HBM4 stack has for post-package repair (R113: a count set by the stack). [PRESUMED: log entry 40] -/
opaque Config.spareRows : Nat → Nat

/-- SLH-DSA signature verification (FIPS 205, named by R499, R508 and R513): key, message, signature. [PRESUMED: log entry 113] -/
opaque Config.slhVerify : List Byte → List Byte → List Byte → Bool

/-- An SLH-DSA signature of a message by the part's key, at a draw number (signing is randomised). [PRESUMED: log entry 113] -/
opaque Config.slhSign : Nat → List Byte → List Byte

/-- The part's fixed contents: its device certificate chain, its serial number, its fused key hashes, by index. [PRESUMED: log entry 113] -/
opaque Config.partBytes : Nat → List Byte

/-- The four operating profiles (R30). -/
inductive Profile where
  | state | sprint | balance | fabric
  deriving DecidableEq, Repr

/-- The profile code: P0 STATE, P1 SPRINT, P2 BALANCE, P3 FABRIC. -/
def Profile.num : Profile → Nat
  | .state => 0 | .sprint => 1 | .balance => 2 | .fabric => 3

/-- The profile of a two-bit code. -/
def Profile.ofNum (n : Nat) : Profile :=
  if n % 4 = 0 then .state else if n % 4 = 1 then .sprint else if n % 4 = 2 then .balance else .fabric

/-- BANKED_ROWS of a profile (R82). -/
def Profile.bankedRows : Profile → Nat
  | .state => 33864 | .sprint => 19352 | .balance => 26608 | .fabric => 21768

/-- Spread lines per pseudo-channel: 16 per spread row (R82). -/
def Profile.spreadLines (p : Profile) : Nat := 16 * (48384 - p.bankedRows)

end Sys2Proof
end

