-- ==== Sys2Proof/Machine/RegMap.lean ====
section
/-! DEFINITION. The register map: every register of every page, with the place, access code and reset value of
each field, as the register tables of the chapters give them (R9, R53, R58, R70). Reserved bits are in no field. -/
namespace Sys2Proof.Machine

/-- Register access codes (R9). -/
inductive Acc where
  | RO | RW | WO | W1C | W1S | RC | RWL
  deriving DecidableEq, Repr

/-- A field: the offset of its register, its bits, its access code and its reset value. -/
structure Fld where
  off : Nat
  msb : Nat
  lsb : Nat
  acc : Acc
  reset : Nat
  deriving DecidableEq, Repr

/-- The same field of the register `n` bytes further on (register arrays). -/
def Fld.shift (f : Fld) (n : Nat) : Fld := { f with off := f.off + n }

/-- A register, or an array of `count` of them every `stride` bytes. -/
structure Reg where
  name : String
  off : Nat
  count : Nat
  stride : Nat
  flds : List Fld
  deriving DecidableEq, Repr

/-- Page kinds: the block types of R56, with the two kinds of CIS and of GLL page and the tenant pages apart. -/
inductive PageKind where
  | dir | top | pci | sec | pwr | pkg | tel | ras | qdr | pmp | gll | glr | kpr | ses | wel | tir | cmp | mxe | vxe | cis | cisq | bkt | tnt0 | tnt1 | tnt2 | tnt3 | tnt4 | msix
  deriving DecidableEq, Repr

/-- A number for each page kind, part of a register key. -/
def PageKind.num : PageKind → Nat
  | .dir => 0
  | .top => 1
  | .pci => 2
  | .sec => 3
  | .pwr => 4
  | .pkg => 5
  | .tel => 6
  | .ras => 7
  | .qdr => 8
  | .pmp => 9
  | .gll => 10
  | .glr => 11
  | .kpr => 12
  | .ses => 13
  | .wel => 14
  | .tir => 15
  | .cmp => 16
  | .mxe => 17
  | .vxe => 18
  | .cis => 19
  | .cisq => 20
  | .bkt => 21
  | .tnt0 => 22
  | .tnt1 => 23
  | .tnt2 => 24
  | .tnt3 => 25
  | .tnt4 => 26
  | .msix => 27

/-- The block type code of a page kind (R56). -/
def PageKind.typeCode : PageKind → Nat
  | .dir => 0x01
  | .top => 0x02
  | .pci => 0x03
  | .sec => 0x04
  | .pwr => 0x05
  | .pkg => 0x06
  | .tel => 0x07
  | .ras => 0x08
  | .qdr => 0x09
  | .pmp => 0x0a
  | .gll => 0x0b
  | .glr => 0x0b
  | .kpr => 0x10
  | .ses => 0x11
  | .wel => 0x12
  | .tir => 0x13
  | .cmp => 0x14
  | .mxe => 0x15
  | .vxe => 0x16
  | .cis => 0x20
  | .cisq => 0x20
  | .bkt => 0x21
  | .tnt0 => 0x30
  | .tnt1 => 0x30
  | .tnt2 => 0x30
  | .tnt3 => 0x30
  | .tnt4 => 0x30
  | .msix => 0xF0

/-- Header field ENABLE (R58). -/
def F.hdr_ENABLE : Fld := ⟨0x008, 0, 0, .RW, 1⟩
/-- Header field RESET (R58). -/
def F.hdr_RESET : Fld := ⟨0x008, 1, 1, .W1S, 0⟩
/-- Header field ERR_IRQ_EN (R58). -/
def F.hdr_ERR_IRQ_EN : Fld := ⟨0x008, 2, 2, .RW, 0⟩
/-- Header field STATE (R58). -/
def F.hdr_STATE : Fld := ⟨0x00c, 3, 0, .RO, 1⟩
/-- Header field ERR_STATUS (R58). -/
def F.hdr_ERR_STATUS : Fld := ⟨0x010, 31, 0, .W1C, 0⟩
/-- Header field ERR_MASK (R58). -/
def F.hdr_ERR_MASK : Fld := ⟨0x014, 31, 0, .RW, 0⟩
/-- Header field EVT_COUNT (R58). -/
def F.hdr_EVT_COUNT : Fld := ⟨0x01c, 31, 0, .RC, 0⟩
/-- Header field SCRUB_EN (R58). -/
def F.hdr_SCRUB_EN : Fld := ⟨0x008, 16, 16, .RW, 1⟩
/-- Header field AUTO_RETRAIN (R58). -/
def F.hdr_AUTO_RETRAIN : Fld := ⟨0x008, 17, 17, .RW, 1⟩
/-- Header field TEST_OWN (R58). -/
def F.hdr_TEST_OWN : Fld := ⟨0x008, 16, 16, .RW, 0⟩
/-- Header field HALT (R58). -/
def F.hdr_HALT : Fld := ⟨0x008, 17, 17, .RW, 0⟩
/-- Header field STEP (R58). -/
def F.hdr_STEP : Fld := ⟨0x008, 18, 18, .W1S, 0⟩

/-! Fields of the dir pages. -/
def F.dir_DIR_INFO_ENTRIES : Fld := ⟨0x040, 15, 0, .RO, 177⟩
def F.dir_ERR_PEND_PEND : Fld := ⟨0x080, 31, 0, .RO, 0⟩
def F.dir_BAD_ACCESS_COUNT : Fld := ⟨0x0a0, 15, 0, .RC, 0⟩
def F.dir_BAD_ADDR_OFFSET : Fld := ⟨0x0a4, 25, 0, .RO, 0⟩
def F.dir_BAD_ADDR_WRITE : Fld := ⟨0x0a4, 31, 31, .RO, 0⟩
/-! Fields of the top pages. -/
def F.top_HOST_TIME_LO_NS_LO : Fld := ⟨0x040, 31, 0, .RW, 0⟩
def F.top_HOST_TIME_HI_NS_HI : Fld := ⟨0x044, 31, 0, .RW, 0⟩
def F.top_HOST_TIME_STATUS_VALID : Fld := ⟨0x048, 0, 0, .RO, 0⟩
def F.top_HOST_TIME_STATUS_REGRESSED : Fld := ⟨0x048, 1, 1, .W1C, 0⟩
def F.top_HOST_TIME_STATUS_STALE : Fld := ⟨0x048, 2, 2, .RO, 0⟩
def F.top_HOST_TIME_STATUS_REGRESS_COUNT : Fld := ⟨0x048, 31, 16, .RC, 0⟩
def F.top_HOST_TIME_CFG_STALE_LIMIT_US : Fld := ⟨0x04c, 15, 0, .RW, 1000⟩
def F.top_HOST_TIME_CFG_STALE_IRQ : Fld := ⟨0x04c, 16, 16, .RW, 1⟩
/-! Fields of the pci pages. -/
def F.pci_LINK_CFG_MODE : Fld := ⟨0x040, 0, 0, .RWL, 0⟩
def F.pci_LINK_CFG_MAX_RATE : Fld := ⟨0x040, 3, 1, .RWL, 6⟩
def F.pci_PORT_SEL_PORT : Fld := ⟨0x044, 0, 0, .RW, 0⟩
def F.pci_LINK_STATUS_UP : Fld := ⟨0x048, 0, 0, .RO, 0⟩
def F.pci_LINK_STATUS_WIDTH : Fld := ⟨0x048, 5, 1, .RO, 0⟩
def F.pci_LINK_STATUS_RATE : Fld := ⟨0x048, 8, 6, .RO, 0⟩
def F.pci_LINK_STATUS_FLIT : Fld := ⟨0x048, 9, 9, .RO, 0⟩
def F.pci_LINK_STATUS_RETRAINING : Fld := ⟨0x048, 10, 10, .RO, 0⟩
def F.pci_RETRAINS_COUNT : Fld := ⟨0x04c, 31, 0, .RC, 0⟩
def F.pci_VIOL_COUNT_COUNT : Fld := ⟨0x050, 31, 0, .RC, 0⟩
def F.pci_VIOL_LAST_LO_CODE : Fld := ⟨0x054, 7, 0, .RO, 0⟩
def F.pci_VIOL_LAST_LO_FUNC : Fld := ⟨0x054, 14, 8, .RO, 0⟩
def F.pci_VIOL_LAST_LO_PORT : Fld := ⟨0x054, 15, 15, .RO, 0⟩
def F.pci_VIOL_LAST_HI_ADDR : Fld := ⟨0x058, 31, 0, .RO, 0⟩
def F.pci_IDS_VENDOR : Fld := ⟨0x05c, 15, 0, .RWL, 0⟩
def F.pci_IDS_SUBSYS : Fld := ⟨0x05c, 31, 16, .RWL, 0⟩
def F.pci_ATC_STATUS_VALUE : Fld := ⟨0x060, 31, 0, .RO, 0⟩
def F.pci_ATC_INVAL_VALUE : Fld := ⟨0x064, 31, 0, .RC, 0⟩
def F.pci_ATS_FAULTS_VALUE : Fld := ⟨0x068, 31, 0, .RC, 0⟩
def F.pci_FUNC_SEL_FUNC : Fld := ⟨0x06c, 6, 0, .RW, 1⟩
def F.pci_FUNC_STATUS_STATE : Fld := ⟨0x070, 3, 0, .RO, 6⟩
def F.pci_FUNC_STATUS_ENABLE_LATCHED : Fld := ⟨0x070, 4, 4, .RO, 0⟩
def F.pci_FUNC_STATUS_KEPT : Fld := ⟨0x070, 5, 5, .RO, 0⟩
def F.pci_FUNC_STATUS_FLR : Fld := ⟨0x070, 6, 6, .RO, 0⟩
def F.pci_FUNC_STATUS_PORT : Fld := ⟨0x070, 7, 7, .RO, 0⟩
def F.pci_FUNC_STATUS_PENDING : Fld := ⟨0x070, 27, 8, .RO, 0⟩
def F.pci_FUNC_CMD_DISCARD : Fld := ⟨0x074, 0, 0, .WO, 0⟩
def F.pci_FUNC_CHANGED_LO_TENANT : Fld := ⟨0x078, 31, 0, .W1C, 0⟩
def F.pci_FUNC_CHANGED_HI_TENANT : Fld := ⟨0x07c, 31, 0, .W1C, 0⟩
/-! Fields of the sec pages. -/
def F.sec_BOOT_STATUS_STAGE : Fld := ⟨0x040, 3, 0, .RO, 0⟩
def F.sec_BOOT_STATUS_LOCKED : Fld := ⟨0x040, 4, 4, .RO, 0⟩
def F.sec_BOOT_STATUS_FROM_HOST : Fld := ⟨0x040, 5, 5, .RO, 0⟩
def F.sec_BOOT_STATUS_PROFILE : Fld := ⟨0x040, 7, 6, .RO, 0⟩
def F.sec_BOOT_STATUS_CAUSE : Fld := ⟨0x040, 11, 8, .RO, 0⟩
def F.sec_BOOT_STATUS_SVN : Fld := ⟨0x040, 19, 12, .RO, 0⟩
def F.sec_IMAGE_VERSION_VERSION : Fld := ⟨0x044, 31, 0, .RO, 0⟩
def F.sec_FUSE_STATUS_COUNTER : Fld := ⟨0x048, 6, 0, .RO, 0⟩
def F.sec_FUSE_STATUS_PROD : Fld := ⟨0x048, 7, 7, .RO, 0⟩
def F.sec_FUSE_STATUS_DEBUG_DISABLE : Fld := ⟨0x048, 8, 8, .RO, 0⟩
def F.sec_SVN_CMD_COMMIT : Fld := ⟨0x04c, 0, 0, .W1S, 0⟩
def F.sec_SVN_CMD_RESULT : Fld := ⟨0x04c, 2, 1, .RO, 0⟩
def F.sec_PROFILE_SELECT_PROFILE : Fld := ⟨0x050, 1, 0, .RW, 0⟩
def F.sec_PROFILE_SELECT_GO : Fld := ⟨0x050, 2, 2, .W1S, 0⟩
def F.sec_PROFILE_SELECT_RESULT : Fld := ⟨0x050, 4, 3, .RO, 0⟩
def F.sec_RCV_ADDR_LO_ADDR : Fld := ⟨0x054, 31, 0, .RW, 0⟩
def F.sec_RCV_ADDR_HI_ADDR : Fld := ⟨0x058, 31, 0, .RW, 0⟩
def F.sec_RCV_LEN_BYTES : Fld := ⟨0x05c, 25, 0, .RW, 0⟩
def F.sec_RCV_CMD_LOAD : Fld := ⟨0x060, 0, 0, .W1S, 0⟩
def F.sec_RCV_CMD_FLASH : Fld := ⟨0x060, 1, 1, .RW, 1⟩
def F.sec_RCV_STATUS_RESULT : Fld := ⟨0x064, 2, 0, .RO, 0⟩
def F.sec_RCV_STATUS_CAUSE : Fld := ⟨0x064, 6, 3, .RO, 0⟩
def F.sec_DEBUG_STATUS_UNLOCKED : Fld := ⟨0x068, 0, 0, .RO, 0⟩
def F.sec_DEBUG_STATUS_FAILS : Fld := ⟨0x068, 4, 1, .RO, 0⟩
def F.sec_DEBUG_STATUS_LOCKED_OUT : Fld := ⟨0x068, 5, 5, .RO, 0⟩
def F.sec_MEAS_SEL_INDEX : Fld := ⟨0x06c, 3, 0, .RW, 1⟩
def F.sec_MEAS_DATA_BYTES : Fld := ⟨0x070, 31, 0, .RO, 0⟩
/-! Fields of the pwr pages. -/
def F.pwr_PKG_LIMIT_WATTS : Fld := ⟨0x040, 11, 0, .RW, 2400⟩
def F.pwr_DIE_SEL_DIE : Fld := ⟨0x044, 1, 0, .RW, 0⟩
def F.pwr_DIE_LIMIT_WATTS : Fld := ⟨0x048, 8, 0, .RW, 0⟩
def F.pwr_VDD_CFG_VMIN : Fld := ⟨0x04c, 9, 0, .RW, 650⟩
def F.pwr_VDD_CFG_VMAX : Fld := ⟨0x04c, 19, 10, .RW, 750⟩
def F.pwr_VDD_CFG_VSTEP : Fld := ⟨0x04c, 25, 20, .RW, 5⟩
def F.pwr_DIE_STATUS_VDD : Fld := ⟨0x050, 9, 0, .RO, 750⟩
def F.pwr_DIE_STATUS_POWER : Fld := ⟨0x050, 20, 10, .RO, 0⟩
def F.pwr_DIE_STATUS_ENGINE : Fld := ⟨0x050, 31, 21, .RO, 0⟩
def F.pwr_PKG_POWER_VALUE : Fld := ⟨0x054, 31, 0, .RO, 0⟩
def F.pwr_THROTTLED_VALUE : Fld := ⟨0x058, 31, 0, .RC, 0⟩
/-! Fields of the pkg pages. -/
def F.pkg_VIN_MV : Fld := ⟨0x040, 15, 0, .RO, 0⟩
def F.pkg_VIN_AMPS_DIV8 : Fld := ⟨0x040, 31, 16, .RO, 0⟩
def F.pkg_VAUX_MV : Fld := ⟨0x044, 15, 0, .RO, 0⟩
def F.pkg_TEMP_TJ0 : Fld := ⟨0x048, 7, 0, .RO, 0⟩
def F.pkg_TEMP_TJ1 : Fld := ⟨0x048, 15, 8, .RO, 0⟩
def F.pkg_TEMP_TJ2 : Fld := ⟨0x048, 23, 16, .RO, 0⟩
def F.pkg_TEMP_TJ3 : Fld := ⟨0x048, 31, 24, .RO, 0⟩
def F.pkg_TEMP_IOD_TJ : Fld := ⟨0x04c, 7, 0, .RO, 0⟩
def F.pkg_TEMP_IOD_REG : Fld := ⟨0x04c, 15, 8, .RO, 0⟩
def F.pkg_TJ_ALERT_TJ : Fld := ⟨0x050, 7, 0, .RW, 105⟩
def F.pkg_ALERT_STATUS_STACK_CRIT : Fld := ⟨0x054, 0, 0, .W1C, 0⟩
def F.pkg_ALERT_STATUS_TJ_HIGH : Fld := ⟨0x054, 1, 1, .W1C, 0⟩
def F.pkg_ALERT_STATUS_OVER_POWER : Fld := ⟨0x054, 2, 2, .W1C, 0⟩
def F.pkg_ALERT_STATUS_VIN_LOW : Fld := ⟨0x054, 3, 3, .W1C, 0⟩
def F.pkg_ALERT_MASK_STACK_CRIT : Fld := ⟨0x058, 0, 0, .RW, 0⟩
def F.pkg_ALERT_MASK_TJ_HIGH : Fld := ⟨0x058, 1, 1, .RW, 0⟩
def F.pkg_ALERT_MASK_OVER_POWER : Fld := ⟨0x058, 2, 2, .RW, 0⟩
def F.pkg_ALERT_MASK_VIN_LOW : Fld := ⟨0x058, 3, 3, .RW, 0⟩
def F.pkg_TRIP_LOG_VALID : Fld := ⟨0x05c, 0, 0, .W1C, 0⟩
def F.pkg_TRIP_LOG_CAUSE : Fld := ⟨0x05c, 3, 1, .RO, 0⟩
def F.pkg_TRIP_LOG_UNIT : Fld := ⟨0x05c, 8, 4, .RO, 0⟩
def F.pkg_TRIP_LOG_TEMP : Fld := ⟨0x05c, 16, 9, .RO, 0⟩
def F.pkg_STRAPS_PROF : Fld := ⟨0x060, 1, 0, .RO, 0⟩
def F.pkg_STRAPS_MADDR : Fld := ⟨0x060, 3, 2, .RO, 0⟩
def F.pkg_STRAPS_I3C : Fld := ⟨0x060, 4, 4, .RO, 0⟩
/-! Fields of the tel pages. -/
def F.tel_RING_BASE_LO_ADDR : Fld := ⟨0x040, 31, 0, .RW, 0⟩
def F.tel_RING_BASE_HI_ADDR : Fld := ⟨0x044, 31, 0, .RW, 0⟩
def F.tel_RING_CFG_SIZE_LOG2 : Fld := ⟨0x048, 4, 0, .RW, 12⟩
def F.tel_RING_CFG_ENABLE : Fld := ⟨0x048, 5, 5, .RW, 0⟩
def F.tel_RING_CFG_KIND_EN : Fld := ⟨0x048, 13, 6, .RW, 255⟩
def F.tel_RING_CFG_IRQ_THRESH : Fld := ⟨0x048, 31, 14, .RW, 64⟩
def F.tel_RING_TAIL_VALUE : Fld := ⟨0x04c, 31, 0, .RO, 0⟩
def F.tel_RING_HEAD_VALUE : Fld := ⟨0x050, 31, 0, .RW, 0⟩
def F.tel_OVERRUN_VALUE : Fld := ⟨0x054, 31, 0, .RC, 0⟩
def F.tel_WINDOW_WINDOW_US : Fld := ⟨0x058, 15, 0, .RW, 100⟩
/-! Fields of the ras pages. -/
def F.ras_GUARD_COVERED : Fld := ⟨0x040, 0, 0, .RO, 1⟩
def F.ras_GUARD_RECOVERING : Fld := ⟨0x040, 1, 1, .RO, 0⟩
def F.ras_GUARD_QUADS : Fld := ⟨0x040, 5, 2, .RO, 15⟩
def F.ras_RETIRED0_MASK : Fld := ⟨0x044, 31, 0, .RO, 0⟩
def F.ras_RETIRED1_MASK : Fld := ⟨0x048, 31, 0, .RO, 0⟩
def F.ras_JOURNAL_USED_PCT0 : Fld := ⟨0x04c, 7, 0, .RO, 0⟩
def F.ras_JOURNAL_USED_PCT1 : Fld := ⟨0x04c, 15, 8, .RO, 0⟩
def F.ras_JOURNAL_USED_PCT2 : Fld := ⟨0x04c, 23, 16, .RO, 0⟩
def F.ras_JOURNAL_USED_PCT3 : Fld := ⟨0x04c, 31, 24, .RO, 0⟩
def F.ras_RESET_CMD_WARM : Fld := ⟨0x050, 0, 0, .W1S, 0⟩
def F.ras_RESET_CMD_QUAD : Fld := ⟨0x050, 1, 1, .W1S, 0⟩
def F.ras_RESET_CMD_QUADRANT : Fld := ⟨0x050, 3, 2, .RW, 0⟩
def F.ras_LAST_RESET_SCOPE : Fld := ⟨0x054, 2, 0, .RO, 6⟩
def F.ras_LAST_RESET_CAUSE : Fld := ⟨0x054, 6, 3, .RO, 0⟩
def F.ras_LAST_RESET_QUAD : Fld := ⟨0x054, 8, 7, .RO, 0⟩
def F.ras_REBUILDS_COUNT : Fld := ⟨0x058, 31, 0, .RC, 0⟩
def F.ras_ABANDONED_COUNT : Fld := ⟨0x05c, 31, 0, .RC, 0⟩
def F.ras_MODEL_SEL_MODEL : Fld := ⟨0x060, 7, 0, .RW, 0⟩
def F.ras_MODEL_STATUS_QUARANTINED : Fld := ⟨0x064, 0, 0, .RO, 0⟩
def F.ras_MODEL_STATUS_REASON : Fld := ⟨0x064, 2, 1, .RO, 0⟩
def F.ras_MODEL_STATUS_OBJ : Fld := ⟨0x064, 18, 3, .RO, 0⟩
def F.ras_MODEL_STATUS_STALL : Fld := ⟨0x064, 19, 19, .RO, 0⟩
def F.ras_MODEL_CMD_UNLOAD : Fld := ⟨0x068, 0, 0, .W1S, 0⟩
def F.ras_LOG_TAIL_VALUE : Fld := ⟨0x070, 31, 0, .RO, 0⟩
def F.ras_LOG_HEAD_VALUE : Fld := ⟨0x074, 31, 0, .RW, 0⟩
def F.ras_LOG_LOST_VALUE : Fld := ⟨0x078, 31, 0, .RC, 0⟩
def F.ras_LOG_SEL_INDEX : Fld := ⟨0x07c, 9, 0, .RW, 0⟩
def F.ras_LOG_DATA_BYTES : Fld := ⟨0x080, 31, 0, .RO, 0⟩
def F.ras_INJ_CTRL_ENABLE : Fld := ⟨0x0a0, 0, 0, .RW, 0⟩
def F.ras_INJ_CTRL_KEY : Fld := ⟨0x0a0, 31, 16, .WO, 0⟩
def F.ras_INJ_ADDR_LO_ADDR : Fld := ⟨0x0a4, 31, 0, .RW, 0⟩
def F.ras_INJ_ADDR_HI_ADDR : Fld := ⟨0x0a8, 31, 0, .RW, 0⟩
def F.ras_INJ_CMD_KIND : Fld := ⟨0x0ac, 2, 0, .RW, 0⟩
def F.ras_INJ_CMD_TARGET : Fld := ⟨0x0ac, 3, 3, .RW, 0⟩
def F.ras_INJ_CMD_GO : Fld := ⟨0x0ac, 4, 4, .W1S, 0⟩
def F.ras_INJ_STATUS_RESULT : Fld := ⟨0x0b0, 1, 0, .RO, 0⟩
/-! Fields of the qdr pages. -/
def F.qdr_Q_SEL_QUEUE : Fld := ⟨0x040, 6, 0, .RW, 0⟩
def F.qdr_Q_CFG_QUANTUM : Fld := ⟨0x044, 19, 0, .RW, 0⟩
def F.qdr_Q_CFG_SHAPE_EN : Fld := ⟨0x044, 20, 20, .RW, 0⟩
def F.qdr_Q_CFG_ENABLE : Fld := ⟨0x044, 21, 21, .RW, 1⟩
def F.qdr_Q_CFG_LIMIT : Fld := ⟨0x044, 31, 22, .RW, 256⟩
def F.qdr_Q_RATE_VALUE : Fld := ⟨0x048, 31, 0, .RW, 0⟩
def F.qdr_Q_BURST_VALUE : Fld := ⟨0x04c, 31, 0, .RW, 0⟩
def F.qdr_Q_CREDIT_VALUE : Fld := ⟨0x050, 31, 0, .RO, 0⟩
def F.qdr_Q_DEFICIT_VALUE : Fld := ⟨0x054, 31, 0, .RO, 0⟩
def F.qdr_Q_DEPTH_VALUE : Fld := ⟨0x058, 31, 0, .RO, 0⟩
def F.qdr_Q_HWM_DEPTH_VALUE : Fld := ⟨0x05c, 31, 0, .RC, 0⟩
def F.qdr_Q_HWM_DELAY_VALUE : Fld := ⟨0x060, 31, 0, .RC, 0⟩
def F.qdr_Q_BYTES_LO_COUNT : Fld := ⟨0x064, 31, 0, .RO, 0⟩
def F.qdr_Q_BYTES_HI_COUNT : Fld := ⟨0x068, 31, 0, .RO, 0⟩
def F.qdr_SAMPLE_MASK_LO_QUEUES : Fld := ⟨0x06c, 31, 0, .RW, 0⟩
def F.qdr_SAMPLE_MASK_HI_QUEUES : Fld := ⟨0x070, 31, 0, .RW, 0⟩
def F.qdr_GL_CTRL_CANCEL : Fld := ⟨0x074, 0, 0, .W1S, 0⟩
def F.qdr_GL_CTRL_SAMPLE_LEAD : Fld := ⟨0x074, 4, 2, .RW, 7⟩
def F.qdr_GL_BASE_LO_NS : Fld := ⟨0x078, 31, 0, .RW, 0⟩
def F.qdr_GL_BASE_HI_NS : Fld := ⟨0x07c, 31, 0, .RW, 0⟩
def F.qdr_GL_CYCLE_VALUE : Fld := ⟨0x080, 31, 0, .RW, 0⟩
def F.qdr_GL_LEN_VALUE : Fld := ⟨0x084, 31, 0, .RW, 0⟩
def F.qdr_GL_STATUS_OPER : Fld := ⟨0x088, 0, 0, .RO, 0⟩
def F.qdr_GL_STATUS_PENDING : Fld := ⟨0x088, 1, 1, .RO, 0⟩
def F.qdr_GL_STATUS_CUR : Fld := ⟨0x088, 7, 2, .RO, 0⟩
def F.qdr_GL_START_LO_VALUE : Fld := ⟨0x08c, 31, 0, .RO, 0⟩
def F.qdr_GL_START_HI_VALUE : Fld := ⟨0x090, 31, 0, .RO, 0⟩
def F.qdr_GL_SKIPPED_VALUE : Fld := ⟨0x094, 31, 0, .RC, 0⟩
def F.qdr_GL_E0_DURATION : Fld := ⟨0x200, 31, 0, .RW, 0⟩
def F.qdr_GL_E1_CLASS1 : Fld := ⟨0x204, 0, 0, .RW, 0⟩
def F.qdr_GL_E1_FLOOR : Fld := ⟨0x204, 1, 1, .RW, 0⟩
def F.qdr_GL_E2_ENSEMBLE : Fld := ⟨0x208, 31, 0, .RW, 0⟩
def F.qdr_GL_E3_ENSEMBLE : Fld := ⟨0x20c, 31, 0, .RW, 0⟩
/-! Fields of the pmp pages. -/
def F.pmp_SQ_SEL_QUEUE : Fld := ⟨0x040, 1, 0, .RW, 0⟩
def F.pmp_SQ_BASE_LO_DVA : Fld := ⟨0x044, 31, 0, .RW, 0⟩
def F.pmp_SQ_BASE_HI_DVA : Fld := ⟨0x048, 31, 0, .RW, 0⟩
def F.pmp_SQ_CFG_SIZE_LOG2 : Fld := ⟨0x04c, 3, 0, .RW, 4⟩
def F.pmp_SQ_CFG_PUMP : Fld := ⟨0x04c, 6, 4, .RW, 0⟩
def F.pmp_SQ_CFG_ENABLE : Fld := ⟨0x04c, 7, 7, .RW, 0⟩
def F.pmp_SQ_TAIL_INDEX : Fld := ⟨0x050, 11, 0, .RW, 0⟩
def F.pmp_SQ_HEAD_INDEX : Fld := ⟨0x054, 11, 0, .RO, 0⟩
def F.pmp_SQ_STATUS_STOPPED : Fld := ⟨0x058, 0, 0, .W1C, 0⟩
def F.pmp_SQ_STATUS_REASON : Fld := ⟨0x058, 2, 1, .RO, 0⟩
def F.pmp_PUMP_SEL_PUMP : Fld := ⟨0x05c, 2, 0, .RW, 0⟩
def F.pmp_PUMP_STATUS_CHAINS : Fld := ⟨0x060, 2, 0, .RO, 0⟩
def F.pmp_PUMP_STATUS_QUEUE_KIB : Fld := ⟨0x060, 18, 3, .RO, 0⟩
def F.pmp_BYTES_LO_COUNT : Fld := ⟨0x064, 31, 0, .RO, 0⟩
def F.pmp_BYTES_HI_COUNT : Fld := ⟨0x068, 31, 0, .RO, 0⟩
def F.pmp_MISMATCH_SHORT : Fld := ⟨0x06c, 7, 0, .RC, 0⟩
def F.pmp_MISMATCH_LONG : Fld := ⟨0x06c, 15, 8, .RC, 0⟩
def F.pmp_MISMATCH_OVERRUN : Fld := ⟨0x06c, 23, 16, .RC, 0⟩
def F.pmp_MISMATCH_UNDERRUN : Fld := ⟨0x06c, 31, 24, .RC, 0⟩
def F.pmp_DROPPED_COUNT : Fld := ⟨0x070, 31, 0, .RC, 0⟩
def F.pmp_FEED_STALL_COUNT : Fld := ⟨0x074, 31, 0, .RC, 0⟩
/-! Fields of the gll pages. -/
def F.gll_PORT_CFG_MIN_WIDTH : Fld := ⟨0x040, 1, 0, .RW, 0⟩
def F.gll_PORT_CFG_MEDIA : Fld := ⟨0x040, 2, 2, .RW, 0⟩
def F.gll_PORT_CFG_EXPECT_EN : Fld := ⟨0x040, 3, 3, .RW, 0⟩
def F.gll_PORT_CFG_EXPECT_DEV : Fld := ⟨0x040, 15, 4, .RW, 0⟩
def F.gll_PORT_CFG_EXPECT_PORT : Fld := ⟨0x040, 19, 16, .RW, 0⟩
def F.gll_PORT_STATUS_WIDTH : Fld := ⟨0x044, 2, 0, .RO, 0⟩
def F.gll_PORT_STATUS_LANES_UP : Fld := ⟨0x044, 6, 3, .RO, 0⟩
def F.gll_PORT_STATUS_NBR_DEV : Fld := ⟨0x044, 18, 7, .RO, 0⟩
def F.gll_PORT_STATUS_NBR_PORT : Fld := ⟨0x044, 22, 19, .RO, 0⟩
def F.gll_PORT_STATUS_NBR_VALID : Fld := ⟨0x044, 23, 23, .RO, 0⟩
def F.gll_PORT_CMD_RETRAIN : Fld := ⟨0x048, 0, 0, .W1S, 0⟩
def F.gll_REPLAY_CFG_TIMEOUT_NS : Fld := ⟨0x04c, 15, 0, .RW, 2000⟩
def F.gll_REPLAY_CFG_RETRY_LIMIT : Fld := ⟨0x04c, 19, 16, .RW, 8⟩
def F.gll_SEQ_STATUS_TX_NEXT : Fld := ⟨0x050, 11, 0, .RO, 0⟩
def F.gll_SEQ_STATUS_RX_EXPECT : Fld := ⟨0x050, 23, 12, .RO, 0⟩
def F.gll_VL_SEL_VL : Fld := ⟨0x054, 2, 0, .RW, 0⟩
def F.gll_VL_CREDIT_ADVERTISED : Fld := ⟨0x058, 11, 0, .RW, 1024⟩
def F.gll_VL_CREDIT_TX_CREDIT : Fld := ⟨0x058, 23, 12, .RO, 0⟩
def F.gll_FEC_CORR_COUNT : Fld := ⟨0x05c, 31, 0, .RC, 0⟩
def F.gll_FEC_UNCORR_COUNT : Fld := ⟨0x060, 31, 0, .RC, 0⟩
def F.gll_REPLAYS_COUNT : Fld := ⟨0x064, 31, 0, .RC, 0⟩
def F.gll_NAKS_COUNT : Fld := ⟨0x068, 31, 0, .RC, 0⟩
def F.gll_TRAIN_FAILS_COUNT : Fld := ⟨0x06c, 31, 0, .RC, 0⟩
def F.gll_VIOL_COUNT_COUNT : Fld := ⟨0x070, 31, 0, .RC, 0⟩
def F.gll_VIOL_LAST_CODE : Fld := ⟨0x074, 3, 0, .RO, 0⟩
def F.gll_VIOL_LAST_SEQ : Fld := ⟨0x074, 15, 4, .RO, 0⟩
def F.gll_BYTES_TX_LO_COUNT : Fld := ⟨0x078, 31, 0, .RO, 0⟩
def F.gll_BYTES_TX_HI_COUNT : Fld := ⟨0x07c, 31, 0, .RO, 0⟩
def F.gll_BYTES_RX_LO_COUNT : Fld := ⟨0x080, 31, 0, .RO, 0⟩
def F.gll_BYTES_RX_HI_COUNT : Fld := ⟨0x084, 31, 0, .RO, 0⟩
def F.gll_LANE_SEL_LANE : Fld := ⟨0x088, 1, 0, .RW, 0⟩
def F.gll_LANE_STATUS_LOCK : Fld := ⟨0x08c, 0, 0, .RO, 0⟩
def F.gll_LANE_STATUS_SNR : Fld := ⟨0x08c, 8, 1, .RO, 0⟩
def F.gll_DEV_ID_DEV : Fld := ⟨0x100, 11, 0, .RW, 0⟩
def F.gll_TOPO_X_M1 : Fld := ⟨0x104, 3, 0, .RW, 0⟩
def F.gll_TOPO_Y_M1 : Fld := ⟨0x104, 7, 4, .RW, 0⟩
def F.gll_TOPO_Z_M1 : Fld := ⟨0x104, 11, 8, .RW, 0⟩
def F.gll_TOPO_WRAP : Fld := ⟨0x104, 14, 12, .RW, 7⟩
def F.gll_TOPO_DOR_EN : Fld := ⟨0x104, 15, 15, .RW, 1⟩
def F.gll_REQ_TIMEOUT_VALUE : Fld := ⟨0x108, 31, 0, .RW, 1000000⟩
def F.gll_UNREACH_VALUE : Fld := ⟨0x10c, 31, 0, .RC, 0⟩
def F.gll_LATE_REPLY_VALUE : Fld := ⟨0x110, 31, 0, .RC, 0⟩
def F.gll_WIN_W0_OBJ_FIRST : Fld := ⟨0x140, 15, 0, .RW, 0⟩
def F.gll_WIN_W0_OBJ_LAST : Fld := ⟨0x140, 31, 16, .RW, 0⟩
def F.gll_WIN_W1_VALID : Fld := ⟨0x144, 0, 0, .RW, 0⟩
def F.gll_WIN_W1_OPS : Fld := ⟨0x144, 4, 1, .RW, 0⟩
/-! Fields of the glr pages. -/
def F.glr_ROUTE_VALID : Fld := ⟨0x800, 0, 0, .RW, 0⟩
def F.glr_ROUTE_PORT : Fld := ⟨0x800, 4, 1, .RW, 0⟩
def F.glr_ROUTE_ALT_VALID : Fld := ⟨0x800, 5, 5, .RW, 0⟩
def F.glr_ROUTE_ALT_PORT : Fld := ⟨0x800, 9, 6, .RW, 0⟩
def F.glr_ROUTE_DATELINE : Fld := ⟨0x800, 10, 10, .RW, 0⟩
def F.glr_ROUTE_VALID2 : Fld := ⟨0x800, 16, 16, .RW, 0⟩
def F.glr_ROUTE_PORT2 : Fld := ⟨0x800, 20, 17, .RW, 0⟩
def F.glr_ROUTE_ALT_VALID2 : Fld := ⟨0x800, 21, 21, .RW, 0⟩
def F.glr_ROUTE_ALT_PORT2 : Fld := ⟨0x800, 25, 22, .RW, 0⟩
def F.glr_ROUTE_DATELINE2 : Fld := ⟨0x800, 26, 26, .RW, 0⟩
/-! Fields of the kpr pages. -/
def F.kpr_KSTATE_SEALER : Fld := ⟨0x040, 0, 0, .RO, 0⟩
def F.kpr_KSTATE_IN_FLIGHT : Fld := ⟨0x040, 2, 1, .RO, 0⟩
def F.kpr_KSTATE_READY : Fld := ⟨0x040, 22, 3, .RO, 0⟩
def F.kpr_LAST_ROUND_LO_ROUND : Fld := ⟨0x044, 31, 0, .RO, 0⟩
def F.kpr_LAST_ROUND_HI_ROUND : Fld := ⟨0x048, 31, 0, .RO, 0⟩
def F.kpr_PROMPT_PENDING_TOKENS : Fld := ⟨0x04c, 31, 0, .RO, 0⟩
def F.kpr_SPEC_OFFERED_COUNT : Fld := ⟨0x050, 31, 0, .RC, 0⟩
def F.kpr_SPEC_ACCEPTED_COUNT : Fld := ⟨0x054, 31, 0, .RC, 0⟩
def F.kpr_PROG_SEL_ENTRY : Fld := ⟨0x058, 5, 0, .RW, 0⟩
def F.kpr_PROG_ENTRY_ADDR : Fld := ⟨0x05c, 13, 0, .RW, 0⟩
def F.kpr_PROG_ENTRY_CLASS : Fld := ⟨0x05c, 15, 14, .RW, 0⟩
def F.kpr_PROG_ENTRY_FUNC : Fld := ⟨0x05c, 22, 16, .RW, 0⟩
def F.kpr_PROG_ENTRY_VALID : Fld := ⟨0x05c, 23, 23, .RW, 0⟩
def F.kpr_PROG_PART_ACC : Fld := ⟨0x060, 3, 0, .RW, 0⟩
def F.kpr_PROG_PART_ROWS : Fld := ⟨0x060, 12, 4, .RW, 0⟩
def F.kpr_PROG_PART_RS : Fld := ⟨0x060, 20, 13, .RW, 0⟩
def F.kpr_PROG_PART_FRAMES : Fld := ⟨0x060, 27, 21, .RW, 0⟩
def F.kpr_PROG_BRTAB_LO_DVA : Fld := ⟨0x064, 31, 0, .RW, 0⟩
def F.kpr_PROG_BRTAB_HI_DVA : Fld := ⟨0x068, 31, 0, .RW, 0⟩
def F.kpr_PROG_BRN_ENTRIES : Fld := ⟨0x06c, 11, 0, .RW, 0⟩
def F.kpr_YRUN_PROG : Fld := ⟨0x070, 5, 0, .RW, 0⟩
def F.kpr_YRUN_ENGINE : Fld := ⟨0x070, 8, 6, .RW, 0⟩
def F.kpr_YRUN_GO : Fld := ⟨0x070, 9, 9, .W1S, 0⟩
def F.kpr_YRUN_STATUS_STATE : Fld := ⟨0x074, 1, 0, .RO, 0⟩
def F.kpr_YRUN_STATUS_CAUSE : Fld := ⟨0x074, 5, 2, .RO, 0⟩
def F.kpr_YRUN_STATUS_PC : Fld := ⟨0x074, 19, 6, .RO, 0⟩
def F.kpr_WIN_CTRL_TEST_WIN : Fld := ⟨0x080, 0, 0, .RW, 0⟩
def F.kpr_WIN_CTRL_ACTIVE : Fld := ⟨0x080, 1, 1, .RO, 0⟩
def F.kpr_WIN_CTRL_STACK : Fld := ⟨0x080, 6, 2, .RW, 0⟩
def F.kpr_WIN_CTRL_CPL_EMPTY : Fld := ⟨0x080, 7, 7, .RO, 1⟩
def F.kpr_WIN_ADDR_OFFSET : Fld := ⟨0x084, 23, 0, .RW, 0⟩
def F.kpr_WIN_DATA_WORD : Fld := ⟨0x088, 31, 0, .RW, 0⟩
def F.kpr_TAG_CPL_BYTES : Fld := ⟨0x08c, 31, 0, .RO, 0⟩
def F.kpr_TAG_CPL_POP_POP : Fld := ⟨0x09c, 0, 0, .W1S, 0⟩
def F.kpr_PROG_BASE_ROW_BASE : Fld := ⟨0x0a0, 7, 0, .RW, 0⟩
def F.kpr_PROG_BASE_FRAME_BASE : Fld := ⟨0x0a0, 13, 8, .RW, 0⟩
/-! Fields of the ses pages. -/
def F.ses_STATE_SEL_STATE : Fld := ⟨0x040, 2, 0, .RW, 0⟩
def F.ses_STATE_COUNT_SESSIONS : Fld := ⟨0x044, 20, 0, .RO, 0⟩
def F.ses_TTL_SEL_TTL : Fld := ⟨0x048, 1, 0, .RW, 0⟩
def F.ses_TTL_DEF_LO_NS : Fld := ⟨0x04c, 31, 0, .RW, 0⟩
def F.ses_TTL_DEF_HI_NS : Fld := ⟨0x050, 31, 0, .RW, 0⟩
def F.ses_SETTLE_SLOT_SLOT_BYTES : Fld := ⟨0x054, 15, 0, .RW, 164⟩
def F.ses_TEN_SEL_VALUE : Fld := ⟨0x058, 20, 0, .RW, 0⟩
def F.ses_TEN_CAP_VALUE : Fld := ⟨0x05c, 20, 0, .RW, 1048576⟩
def F.ses_TEN_USED_VALUE : Fld := ⟨0x060, 20, 0, .RO, 0⟩
def F.ses_QUERY_HANDLE_HANDLE : Fld := ⟨0x064, 31, 0, .RW, 0⟩
def F.ses_QUERY0_STATE : Fld := ⟨0x068, 3, 0, .RO, 0⟩
def F.ses_QUERY0_SUSPENDED : Fld := ⟨0x068, 4, 4, .RO, 0⟩
def F.ses_QUERY0_LEAD : Fld := ⟨0x068, 5, 5, .RO, 0⟩
def F.ses_QUERY0_SHARE : Fld := ⟨0x068, 6, 6, .RO, 0⟩
def F.ses_QUERY0_VALID : Fld := ⟨0x068, 7, 7, .RO, 0⟩
def F.ses_QUERY0_MODEL : Fld := ⟨0x068, 15, 8, .RO, 0⟩
def F.ses_QUERY0_ADAPTER : Fld := ⟨0x068, 27, 16, .RO, 0⟩
def F.ses_QUERY0_ADP_VALID : Fld := ⟨0x068, 28, 28, .RO, 0⟩
def F.ses_QUERY1_VALUE : Fld := ⟨0x06c, 31, 0, .RO, 0⟩
def F.ses_QUERY2_VALUE : Fld := ⟨0x070, 31, 0, .RO, 0⟩
def F.ses_QUERY3_VALUE : Fld := ⟨0x074, 31, 0, .RO, 0⟩
def F.ses_ADP_SEL_ADAPTER : Fld := ⟨0x078, 11, 0, .RW, 0⟩
def F.ses_ADP_CFG_OBJ : Fld := ⟨0x07c, 15, 0, .RW, 0⟩
def F.ses_ADP_CFG_MODEL : Fld := ⟨0x07c, 23, 16, .RW, 0⟩
def F.ses_ADP_CFG_RANK_M1 : Fld := ⟨0x07c, 31, 24, .RW, 0⟩
def F.ses_ADP_CMD_OP : Fld := ⟨0x080, 1, 0, .WO, 0⟩
def F.ses_ADP_STATUS_CUR_VER : Fld := ⟨0x084, 15, 0, .RO, 0⟩
def F.ses_ADP_STATUS_RETIRED : Fld := ⟨0x084, 16, 16, .RO, 0⟩
def F.ses_ADP_STATUS_BUSY : Fld := ⟨0x084, 17, 17, .RO, 0⟩
def F.ses_ADP_STATUS_RESULT : Fld := ⟨0x084, 19, 18, .RO, 0⟩
def F.ses_ADP_STATUS_PRESENT : Fld := ⟨0x084, 24, 20, .RO, 0⟩
/-! Fields of the wel pages. -/
def F.wel_SLICE_MODE_LO_SCRATCH : Fld := ⟨0x040, 31, 0, .RW, 0⟩
def F.wel_SLICE_MODE_HI_SCRATCH : Fld := ⟨0x044, 31, 0, .RW, 0⟩
def F.wel_SLICE_STATUS_BUSY : Fld := ⟨0x048, 0, 0, .RO, 0⟩
def F.wel_SLICE_STATUS_LAST_REFUSED : Fld := ⟨0x048, 6, 1, .RO, 0⟩
def F.wel_FRAMES_CACHE_USED : Fld := ⟨0x04c, 12, 0, .RO, 0⟩
def F.wel_FRAMES_SCRATCH_USED : Fld := ⟨0x04c, 25, 13, .RO, 0⟩
def F.wel_DIRTY_GRANULES_COUNT : Fld := ⟨0x050, 19, 0, .RO, 0⟩
def F.wel_HITS_COUNT : Fld := ⟨0x054, 31, 0, .RC, 0⟩
def F.wel_WB_GRANULES_COUNT : Fld := ⟨0x058, 31, 0, .RC, 0⟩
def F.wel_CE_COUNT_COUNT : Fld := ⟨0x05c, 31, 0, .RC, 0⟩
def F.wel_CE_THRESH_CORRECTIONS : Fld := ⟨0x060, 15, 0, .RW, 256⟩
/-! Fields of the tir pages. -/
def F.tir_POOL_SEL_POOL : Fld := ⟨0x040, 2, 0, .RW, 0⟩
def F.tir_POOL_TOTAL_UNITS : Fld := ⟨0x044, 31, 0, .RO, 0⟩
def F.tir_POOL_FREE_UNITS : Fld := ⟨0x048, 31, 0, .RO, 0⟩
def F.tir_POOL_WM_LOW : Fld := ⟨0x04c, 7, 0, .RW, 4⟩
def F.tir_POOL_WM_HIGH : Fld := ⟨0x04c, 15, 8, .RW, 8⟩
def F.tir_SYS_LINES_LINES : Fld := ⟨0x050, 31, 0, .RO, 4096⟩
def F.tir_QUOTA_SEL_FUNC : Fld := ⟨0x054, 6, 0, .RW, 0⟩
def F.tir_QUOTA_SEL_TIER : Fld := ⟨0x054, 9, 8, .RW, 0⟩
def F.tir_QUOTA_FLOOR_UNITS : Fld := ⟨0x058, 31, 0, .RW, 0⟩
def F.tir_QUOTA_CAP_UNITS : Fld := ⟨0x05c, 31, 0, .RW, 4294967295⟩
def F.tir_QUOTA_USED_UNITS : Fld := ⟨0x060, 31, 0, .RO, 0⟩
def F.tir_QUOTA_STATUS_REFUSED : Fld := ⟨0x064, 0, 0, .W1C, 0⟩
def F.tir_SUMP_TBL_LO_ADDR : Fld := ⟨0x068, 31, 0, .RW, 0⟩
def F.tir_SUMP_TBL_HI_ADDR : Fld := ⟨0x06c, 31, 0, .RW, 0⟩
def F.tir_SUMP_CHUNKS_COUNT : Fld := ⟨0x070, 20, 0, .RW, 0⟩
def F.tir_PRIME_CFG_FRAMES : Fld := ⟨0x074, 5, 0, .RW, 32⟩
def F.tir_MODEL_SEL_MODEL : Fld := ⟨0x078, 7, 0, .RW, 0⟩
def F.tir_MODEL_PRIME_LEAD : Fld := ⟨0x07c, 3, 0, .RW, 1⟩
def F.tir_MODEL_PRIME_LEAD_MAX : Fld := ⟨0x07c, 7, 4, .RW, 3⟩
def F.tir_MODEL_PRIME_MISS_THRESH : Fld := ⟨0x07c, 15, 8, .RW, 16⟩
def F.tir_MODEL_PRIME_INSTALLED : Fld := ⟨0x07c, 16, 16, .RO, 0⟩
def F.tir_MODEL_PRIME_SCHED_BAD : Fld := ⟨0x07c, 17, 17, .RO, 0⟩
def F.tir_MODEL_SCHED_LO_DVA : Fld := ⟨0x080, 31, 0, .RW, 0⟩
def F.tir_MODEL_SCHED_HI_DVA : Fld := ⟨0x084, 31, 0, .RW, 0⟩
def F.tir_MODEL_MISS_COUNT : Fld := ⟨0x088, 31, 0, .RC, 0⟩
def F.tir_MODEL_RAISES_COUNT : Fld := ⟨0x08c, 31, 0, .RO, 0⟩
def F.tir_MOVES_COUNT : Fld := ⟨0x090, 31, 0, .RC, 0⟩
def F.tir_EVICTIONS_COUNT : Fld := ⟨0x094, 31, 0, .RC, 0⟩
def F.tir_SUMP_DIRECT_COUNT : Fld := ⟨0x098, 31, 0, .RC, 0⟩
def F.tir_OBJ_ATTR_ATTR : Fld := ⟨0x100, 13, 4, .RW, 0⟩
def F.tir_OBJ_SIZE_TILES_M1 : Fld := ⟨0x104, 15, 0, .RW, 0⟩
def F.tir_OBJ_SIZE_HOME_QUAD : Fld := ⟨0x104, 17, 16, .RW, 0⟩
def F.tir_OBJ_COMP_TBL_SLOT : Fld := ⟨0x108, 3, 0, .RW, 0⟩
def F.tir_OBJ_COMP_SLOT_BYTES : Fld := ⟨0x108, 31, 16, .RW, 0⟩
def F.tir_OBJ_GOLD_LO_GOLDEN : Fld := ⟨0x10c, 31, 0, .RW, 0⟩
def F.tir_OBJ_GOLD_HI_GOLDEN : Fld := ⟨0x110, 31, 0, .RW, 0⟩
def F.tir_OBJ_CMD_OBJ : Fld := ⟨0x114, 15, 0, .WO, 0⟩
def F.tir_OBJ_CMD_OP : Fld := ⟨0x114, 19, 16, .WO, 0⟩
def F.tir_OBJ_CMD_PROMOTE : Fld := ⟨0x114, 20, 20, .WO, 0⟩
def F.tir_OBJ_CMD_TIER : Fld := ⟨0x114, 22, 21, .WO, 0⟩
def F.tir_OBJ_STATUS_BUSY : Fld := ⟨0x118, 0, 0, .RO, 0⟩
def F.tir_OBJ_STATUS_DROPPED : Fld := ⟨0x118, 1, 1, .W1C, 0⟩
def F.tir_OBJ_STATUS_RESULT : Fld := ⟨0x118, 5, 2, .RO, 0⟩
def F.tir_OBJ_STATUS_OBJ : Fld := ⟨0x118, 31, 16, .RO, 0⟩
def F.tir_OBJ_QUERY_ENTRY : Fld := ⟨0x120, 31, 0, .RO, 0⟩
/-! Fields of the cmp pages. -/
def F.cmp_TBL_SEL_SLOT : Fld := ⟨0x040, 3, 0, .RW, 0⟩
def F.cmp_TBL_DATA_BYTES : Fld := ⟨0x044, 31, 0, .RW, 0⟩
def F.cmp_TBL_CMD_COMMIT : Fld := ⟨0x074, 0, 0, .WO, 0⟩
def F.cmp_TBL_STATUS_CUR_GEN : Fld := ⟨0x078, 11, 0, .RO, 0⟩
def F.cmp_TBL_STATUS_RET_GEN : Fld := ⟨0x078, 23, 12, .RO, 0⟩
def F.cmp_TBL_STATUS_HELD : Fld := ⟨0x078, 24, 24, .RO, 0⟩
def F.cmp_TBL_REFS_REFS : Fld := ⟨0x07c, 15, 0, .RO, 0⟩
def F.cmp_STRICT_LO_TENANT : Fld := ⟨0x080, 31, 0, .RW, 0⟩
def F.cmp_STRICT_HI_TENANT : Fld := ⟨0x084, 31, 0, .RW, 0⟩
def F.cmp_TEN_SEL_FUNC : Fld := ⟨0x088, 6, 0, .RW, 0⟩
def F.cmp_TEN_MISMATCH_SHORT : Fld := ⟨0x08c, 7, 0, .RC, 0⟩
def F.cmp_TEN_MISMATCH_LONG : Fld := ⟨0x08c, 15, 8, .RC, 0⟩
def F.cmp_TEN_MISMATCH_OVERRUN : Fld := ⟨0x08c, 23, 16, .RC, 0⟩
def F.cmp_TEN_MISMATCH_UNDERRUN : Fld := ⟨0x08c, 31, 24, .RC, 0⟩
/-! Fields of the mxe pages. -/
def F.mxe_PROG_ADDR_ADDR : Fld := ⟨0x040, 13, 0, .RW, 0⟩
def F.mxe_PROG_DATA_BITS : Fld := ⟨0x044, 31, 0, .RW, 0⟩
def F.mxe_RUN_ENTRY : Fld := ⟨0x054, 13, 0, .RW, 0⟩
def F.mxe_RUN_CLASS : Fld := ⟨0x054, 15, 14, .RW, 0⟩
def F.mxe_RUN_GO : Fld := ⟨0x054, 16, 16, .W1S, 0⟩
def F.mxe_PC_PC : Fld := ⟨0x058, 13, 0, .RO, 0⟩
def F.mxe_ROUND_LO_ROUND : Fld := ⟨0x05c, 31, 0, .RO, 0⟩
def F.mxe_ROUND_HI_ROUND : Fld := ⟨0x060, 31, 0, .RO, 0⟩
def F.mxe_FLAGS_NAN : Fld := ⟨0x064, 0, 0, .RC, 0⟩
def F.mxe_FLAGS_INF : Fld := ⟨0x064, 1, 1, .RC, 0⟩
def F.mxe_LATCH_STATUS_FULL : Fld := ⟨0x068, 1, 0, .RO, 0⟩
def F.mxe_LATCH_STATUS_POISON_WAIT : Fld := ⟨0x068, 2, 2, .RO, 0⟩
def F.mxe_LATCH_STATUS_PLANES : Fld := ⟨0x068, 7, 3, .RO, 0⟩
def F.mxe_HANDSHAKES_LO_COUNT : Fld := ⟨0x06c, 31, 0, .RO, 0⟩
def F.mxe_HANDSHAKES_HI_COUNT : Fld := ⟨0x070, 31, 0, .RO, 0⟩
def F.mxe_BUSY_LO_COUNT : Fld := ⟨0x074, 31, 0, .RO, 0⟩
def F.mxe_BUSY_HI_COUNT : Fld := ⟨0x078, 31, 0, .RO, 0⟩
def F.mxe_LATCH_WAIT_NS_NS : Fld := ⟨0x07c, 31, 0, .RC, 0⟩
def F.mxe_POISON_WAITS_COUNT : Fld := ⟨0x080, 31, 0, .RC, 0⟩
def F.mxe_ECC_CE_COUNT : Fld := ⟨0x084, 31, 0, .RC, 0⟩
def F.mxe_RATE_MHZ : Fld := ⟨0x088, 11, 0, .RO, 0⟩
/-! Fields of the vxe pages. -/
def F.vxe_VX_CFG_DDC_MODE : Fld := ⟨0x040, 0, 0, .RW, 0⟩
def F.vxe_VX_FLAGS_G_LAST : Fld := ⟨0x044, 7, 0, .RO, 0⟩
def F.vxe_VX_FLAGS_G_STICKY : Fld := ⟨0x044, 15, 8, .RC, 0⟩
def F.vxe_VX_FLAGS_G_CNT : Fld := ⟨0x044, 28, 16, .RO, 0⟩
def F.vxe_VX_FLAGS_Y_LAST : Fld := ⟨0x048, 7, 0, .RO, 0⟩
def F.vxe_VX_FLAGS_Y_STICKY : Fld := ⟨0x048, 15, 8, .RC, 0⟩
def F.vxe_VX_FLAGS_Y_CNT : Fld := ⟨0x048, 28, 16, .RO, 0⟩
def F.vxe_Y_PART_ACC : Fld := ⟨0x04c, 3, 0, .RW, 0⟩
def F.vxe_Y_PART_ROW_BASE : Fld := ⟨0x04c, 11, 4, .RW, 0⟩
def F.vxe_Y_PART_ROWS : Fld := ⟨0x04c, 20, 12, .RW, 0⟩
def F.vxe_Y_PART_RS : Fld := ⟨0x04c, 28, 21, .RW, 0⟩
def F.vxe_Y_FRAMES_BASE : Fld := ⟨0x050, 5, 0, .RW, 0⟩
def F.vxe_Y_FRAMES_COUNT : Fld := ⟨0x050, 12, 6, .RW, 0⟩
def F.vxe_Y_STATUS_STATE : Fld := ⟨0x054, 1, 0, .RO, 0⟩
def F.vxe_Y_STATUS_WAIT_BRANCH : Fld := ⟨0x054, 2, 2, .RO, 0⟩
def F.vxe_Y_STATUS_PC : Fld := ⟨0x054, 16, 3, .RO, 0⟩
def F.vxe_Y_STATUS_CAUSE : Fld := ⟨0x054, 20, 17, .RO, 0⟩
def F.vxe_Y_STATUS_FUNC : Fld := ⟨0x054, 27, 21, .RO, 0⟩
def F.vxe_SUMMARY_LO_SUMMARY : Fld := ⟨0x058, 31, 0, .RO, 0⟩
def F.vxe_SUMMARY_HI_SUMMARY : Fld := ⟨0x05c, 31, 0, .RO, 0⟩
def F.vxe_BRANCH_WORD : Fld := ⟨0x060, 31, 0, .RO, 0⟩
def F.vxe_BRANCH_CMD_WORD : Fld := ⟨0x064, 31, 0, .WO, 0⟩
def F.vxe_VOPS_LO_COUNT : Fld := ⟨0x068, 31, 0, .RO, 0⟩
def F.vxe_VOPS_HI_COUNT : Fld := ⟨0x06c, 31, 0, .RO, 0⟩
def F.vxe_FIGURES_COUNT : Fld := ⟨0x070, 31, 0, .RC, 0⟩
def F.vxe_RANGE_COUNT_COUNT : Fld := ⟨0x074, 31, 0, .RC, 0⟩
def F.vxe_REG_CE_COUNT : Fld := ⟨0x078, 31, 0, .RC, 0⟩
/-! Fields of the cis pages. -/
def F.cis_GEOMETRY_CHANNELS : Fld := ⟨0x040, 5, 0, .RO, 32⟩
def F.cis_GEOMETRY_BANKS : Fld := ⟨0x040, 11, 6, .RO, 32⟩
def F.cis_GEOMETRY_ROWS_DIV16 : Fld := ⟨0x040, 27, 12, .RO, 3072⟩
def F.cis_GEOMETRY_CORE_DIES_DIV4 : Fld := ⟨0x040, 31, 28, .RO, 4⟩
def F.cis_REGION_BANKED_ROWS : Fld := ⟨0x044, 15, 0, .RO, 0⟩
def F.cis_REGION_RESERVE_ROWS : Fld := ⟨0x044, 31, 16, .RO, 768⟩
def F.cis_LINK_THRESH_RETRIES : Fld := ⟨0x048, 15, 0, .RW, 64⟩
def F.cis_CE_THRESH_CORRECTIONS : Fld := ⟨0x04c, 15, 0, .RW, 256⟩
def F.cis_CH_STATE_CH0 : Fld := ⟨0x050, 3, 0, .RO, 0⟩
def F.cis_CH_STATE_CH1 : Fld := ⟨0x050, 7, 4, .RO, 0⟩
def F.cis_CH_STATE_CH2 : Fld := ⟨0x050, 11, 8, .RO, 0⟩
def F.cis_CH_STATE_CH3 : Fld := ⟨0x050, 15, 12, .RO, 0⟩
def F.cis_CH_STATE_CH4 : Fld := ⟨0x050, 19, 16, .RO, 0⟩
def F.cis_CH_STATE_CH5 : Fld := ⟨0x050, 23, 20, .RO, 0⟩
def F.cis_CH_STATE_CH6 : Fld := ⟨0x050, 27, 24, .RO, 0⟩
def F.cis_CH_STATE_CH7 : Fld := ⟨0x050, 31, 28, .RO, 0⟩
def F.cis_CH_CMD_CHANNEL : Fld := ⟨0x060, 4, 0, .WO, 0⟩
def F.cis_CH_CMD_OP : Fld := ⟨0x060, 7, 5, .WO, 0⟩
def F.cis_CH_CMD_STATUS_BUSY : Fld := ⟨0x064, 0, 0, .RO, 0⟩
def F.cis_CH_CMD_STATUS_RESULT : Fld := ⟨0x064, 3, 1, .RO, 0⟩
def F.cis_CH_CMD_STATUS_CHANNEL : Fld := ⟨0x064, 8, 4, .RO, 0⟩
def F.cis_RETIRED_MASK_CH : Fld := ⟨0x068, 31, 0, .RO, 0⟩
def F.cis_THERM_TEMP_C : Fld := ⟨0x070, 7, 0, .RO, 0⟩
def F.cis_THERM_MAX_C : Fld := ⟨0x070, 15, 8, .RC, 0⟩
def F.cis_THERM_LEVEL : Fld := ⟨0x070, 19, 16, .RO, 0⟩
def F.cis_THERM_CFG_PACE_TEMP : Fld := ⟨0x074, 7, 0, .RW, 95⟩
def F.cis_THERM_CFG_STEP_C : Fld := ⟨0x074, 11, 8, .RW, 2⟩
def F.cis_THERM_CFG_MIN_RATE : Fld := ⟨0x074, 15, 12, .RW, 2⟩
def F.cis_THERM_CFG_CRIT_TEMP : Fld := ⟨0x074, 23, 16, .RO, 105⟩
def F.cis_CE_COUNT_COUNT : Fld := ⟨0x080, 31, 0, .RC, 0⟩
def F.cis_UE_COUNT_COUNT : Fld := ⟨0x084, 31, 0, .RC, 0⟩
def F.cis_ERR_ADDR_LO_COLUMN : Fld := ⟨0x088, 4, 0, .RO, 0⟩
def F.cis_ERR_ADDR_LO_ROW : Fld := ⟨0x088, 20, 5, .RO, 0⟩
def F.cis_ERR_ADDR_LO_BANK : Fld := ⟨0x088, 25, 21, .RO, 0⟩
def F.cis_ERR_ADDR_LO_PC : Fld := ⟨0x088, 31, 26, .RO, 0⟩
def F.cis_ERR_ADDR_HI_VALID : Fld := ⟨0x08c, 0, 0, .RO, 0⟩
def F.cis_ERR_ADDR_HI_POISON : Fld := ⟨0x08c, 1, 1, .RO, 0⟩
def F.cis_ERR_ADDR_HI_BUCKET : Fld := ⟨0x08c, 2, 2, .RO, 0⟩
def F.cis_SCRUB_CFG_PERIOD_H : Fld := ⟨0x090, 15, 0, .RW, 24⟩
def F.cis_LINK_RETRY_COUNT : Fld := ⟨0x094, 31, 0, .RC, 0⟩
def F.cis_ADD_OPS_COUNT : Fld := ⟨0x098, 31, 0, .RC, 0⟩
def F.cis_MARGIN_CTRL_CHANNEL : Fld := ⟨0x0a0, 4, 0, .RW, 0⟩
def F.cis_MARGIN_CTRL_LANE : Fld := ⟨0x0a0, 11, 5, .RW, 0⟩
def F.cis_MARGIN_CTRL_START : Fld := ⟨0x0a0, 12, 12, .W1S, 0⟩
def F.cis_MARGIN_RESULT_LEFT : Fld := ⟨0x0a4, 7, 0, .RO, 0⟩
def F.cis_MARGIN_RESULT_RIGHT : Fld := ⟨0x0a4, 15, 8, .RO, 0⟩
def F.cis_MARGIN_RESULT_VLOW : Fld := ⟨0x0a4, 23, 16, .RO, 0⟩
def F.cis_MARGIN_RESULT_VHIGH : Fld := ⟨0x0a4, 31, 24, .RO, 0⟩
def F.cis_REPAIR_CTRL_OP : Fld := ⟨0x0b0, 1, 0, .WO, 0⟩
def F.cis_REPAIR_CTRL_CHANNEL : Fld := ⟨0x0b0, 6, 2, .WO, 0⟩
def F.cis_REPAIR_CTRL_TARGET : Fld := ⟨0x0b0, 13, 7, .WO, 0⟩
def F.cis_REPAIR_CTRL_ROW : Fld := ⟨0x0b0, 29, 14, .WO, 0⟩
def F.cis_REPAIR_STATUS_BUSY : Fld := ⟨0x0b4, 0, 0, .RO, 0⟩
def F.cis_REPAIR_STATUS_RESULT : Fld := ⟨0x0b4, 2, 1, .RO, 0⟩
def F.cis_REPAIR_STATUS_ROWS_REPAIRED : Fld := ⟨0x0b4, 31, 16, .RO, 0⟩
def F.cis_SPARE_LANES_CH0 : Fld := ⟨0x0b8, 1, 0, .RO, 2⟩
def F.cis_SPARE_LANES_CH1 : Fld := ⟨0x0b8, 3, 2, .RO, 2⟩
def F.cis_SPARE_LANES_CH2 : Fld := ⟨0x0b8, 5, 4, .RO, 2⟩
def F.cis_SPARE_LANES_CH3 : Fld := ⟨0x0b8, 7, 6, .RO, 2⟩
def F.cis_SPARE_LANES_CH4 : Fld := ⟨0x0b8, 9, 8, .RO, 2⟩
def F.cis_SPARE_LANES_CH5 : Fld := ⟨0x0b8, 11, 10, .RO, 2⟩
def F.cis_SPARE_LANES_CH6 : Fld := ⟨0x0b8, 13, 12, .RO, 2⟩
def F.cis_SPARE_LANES_CH7 : Fld := ⟨0x0b8, 15, 14, .RO, 2⟩
def F.cis_SPARE_LANES_CH8 : Fld := ⟨0x0b8, 17, 16, .RO, 2⟩
def F.cis_SPARE_LANES_CH9 : Fld := ⟨0x0b8, 19, 18, .RO, 2⟩
def F.cis_SPARE_LANES_CH10 : Fld := ⟨0x0b8, 21, 20, .RO, 2⟩
def F.cis_SPARE_LANES_CH11 : Fld := ⟨0x0b8, 23, 22, .RO, 2⟩
def F.cis_SPARE_LANES_CH12 : Fld := ⟨0x0b8, 25, 24, .RO, 2⟩
def F.cis_SPARE_LANES_CH13 : Fld := ⟨0x0b8, 27, 26, .RO, 2⟩
def F.cis_SPARE_LANES_CH14 : Fld := ⟨0x0b8, 29, 28, .RO, 2⟩
def F.cis_SPARE_LANES_CH15 : Fld := ⟨0x0b8, 31, 30, .RO, 2⟩
def F.cis_PC_LAT_LAT_EVEN : Fld := ⟨0x100, 15, 0, .RO, 0⟩
def F.cis_PC_LAT_LAT_ODD : Fld := ⟨0x100, 31, 16, .RO, 0⟩
/-! Fields of the cisq pages. -/
def F.cisq_HASH_CFG_CUR_VER : Fld := ⟨0x040, 1, 0, .RW, 0⟩
def F.cisq_HASH_CFG_RECORDED : Fld := ⟨0x040, 7, 4, .RO, 0⟩
def F.cisq_SPREAD_LINES_LINES : Fld := ⟨0x044, 31, 0, .RO, 0⟩
def F.cisq_SPREAD_CAP_MIB : Fld := ⟨0x048, 31, 0, .RO, 0⟩
def F.cisq_WITHDRAWN_LINES_LINES : Fld := ⟨0x04c, 31, 0, .RO, 0⟩
def F.cisq_RESERVE_USED_GRANULES : Fld := ⟨0x050, 19, 0, .RO, 0⟩
def F.cisq_RESERVE_SIZE_GRANULES : Fld := ⟨0x054, 19, 0, .RO, 98304⟩
def F.cisq_SLOT_W_W0 : Fld := ⟨0x100, 3, 0, .RW, 8⟩
def F.cisq_SLOT_W_W1 : Fld := ⟨0x100, 7, 4, .RW, 8⟩
def F.cisq_SLOT_W_W2 : Fld := ⟨0x100, 11, 8, .RW, 8⟩
def F.cisq_SLOT_W_W3 : Fld := ⟨0x100, 15, 12, .RW, 8⟩
def F.cisq_SLOT_W_W4 : Fld := ⟨0x100, 19, 16, .RW, 8⟩
def F.cisq_SLOT_W_W5 : Fld := ⟨0x100, 23, 20, .RW, 8⟩
def F.cisq_SLOT_W_W6 : Fld := ⟨0x100, 27, 24, .RW, 8⟩
def F.cisq_SLOT_W_W7 : Fld := ⟨0x100, 31, 28, .RW, 8⟩
def F.cisq_EXC_W0_VALID : Fld := ⟨0x200, 0, 0, .RO, 0⟩
def F.cisq_EXC_W0_LOST : Fld := ⟨0x200, 1, 1, .RO, 0⟩
def F.cisq_EXC_W0_STACK : Fld := ⟨0x200, 4, 2, .RO, 0⟩
def F.cisq_EXC_W0_CHANNEL : Fld := ⟨0x200, 9, 5, .RO, 0⟩
def F.cisq_EXC_W0_SURVIVORS : Fld := ⟨0x200, 18, 10, .RO, 0⟩
def F.cisq_EXC_W1_RES_BASE : Fld := ⟨0x204, 19, 0, .RO, 0⟩
def F.cisq_EXC_W2_MOVED_MARK : Fld := ⟨0x208, 23, 0, .RO, 0⟩
/-! Fields of the bkt pages. -/
def F.bkt_BUDGET_GRANTS : Fld := ⟨0x040, 9, 0, .RW, 0⟩
def F.bkt_ACTIVITY_UNITS_STARTED : Fld := ⟨0x044, 10, 0, .RO, 0⟩
def F.bkt_ACTIVITY_TAGS_OPEN : Fld := ⟨0x044, 19, 11, .RO, 0⟩
def F.bkt_PROG_ADDR_ADDR : Fld := ⟨0x048, 7, 0, .RW, 0⟩
def F.bkt_PROG_ADDR_PC : Fld := ⟨0x048, 13, 8, .RW, 0⟩
def F.bkt_PROG_ADDR_ALL : Fld := ⟨0x048, 14, 14, .RW, 0⟩
def F.bkt_PROG_DATA_WORD : Fld := ⟨0x04c, 31, 0, .RW, 1476395008⟩
def F.bkt_COL_OPS_LO_COUNT : Fld := ⟨0x050, 31, 0, .RO, 0⟩
def F.bkt_COL_OPS_HI_COUNT : Fld := ⟨0x054, 31, 0, .RO, 0⟩
def F.bkt_YIELD_COUNT_COUNT : Fld := ⟨0x058, 31, 0, .RC, 0⟩
def F.bkt_YIELD_MAX_NS_NS : Fld := ⟨0x05c, 15, 0, .RC, 0⟩
def F.bkt_WL_UTIL_PEAK_PCT : Fld := ⟨0x060, 7, 0, .RO, 0⟩
def F.bkt_WL_UTIL_PEAK_PC : Fld := ⟨0x060, 13, 8, .RO, 0⟩
def F.bkt_WL_UTIL_MEAN_PCT : Fld := ⟨0x060, 21, 14, .RO, 0⟩
def F.bkt_POISON_LOG_LO_PAGE_SLOT : Fld := ⟨0x064, 12, 0, .RO, 0⟩
def F.bkt_POISON_LOG_LO_BP : Fld := ⟨0x064, 16, 13, .RO, 0⟩
def F.bkt_POISON_LOG_LO_PC : Fld := ⟨0x064, 22, 17, .RO, 0⟩
def F.bkt_POISON_LOG_LO_ROW : Fld := ⟨0x064, 25, 23, .RO, 0⟩
def F.bkt_POISON_LOG_LO_COLUMN : Fld := ⟨0x064, 30, 26, .RO, 0⟩
def F.bkt_POISON_LOG_LO_HALF : Fld := ⟨0x064, 31, 31, .RO, 0⟩
def F.bkt_POISON_LOG_HI_TAG : Fld := ⟨0x068, 7, 0, .RO, 0⟩
def F.bkt_POISON_LOG_HI_UE : Fld := ⟨0x068, 8, 8, .RO, 0⟩
def F.bkt_POISON_LOG_HI_VALID : Fld := ⟨0x068, 9, 9, .RO, 0⟩
def F.bkt_PC_SEL_PC : Fld := ⟨0x070, 5, 0, .RW, 0⟩
def F.bkt_UNIT_BUSY_UNIT : Fld := ⟨0x074, 15, 0, .RO, 0⟩
def F.bkt_UNIT_BUSY_QUEUED : Fld := ⟨0x074, 23, 16, .RO, 0⟩
def F.bkt_RING_FILL_BYTES : Fld := ⟨0x078, 14, 0, .RO, 0⟩
/-! Fields of the tnt0 pages. -/
def F.tnt0_T_CTRL_KEEP_WORK : Fld := ⟨0x040, 0, 0, .RW, 1⟩
def F.tnt0_T_CTRL_SQ_IRQ : Fld := ⟨0x040, 1, 1, .RW, 0⟩
def F.tnt0_T_CTRL_FLOG_IRQ : Fld := ⟨0x040, 2, 2, .RW, 1⟩
def F.tnt0_T_CTRL_STATE_IRQ : Fld := ⟨0x040, 3, 3, .RW, 1⟩
def F.tnt0_SQ_BASE_LO_ADDR : Fld := ⟨0x044, 31, 0, .RW, 0⟩
def F.tnt0_SQ_BASE_HI_ADDR : Fld := ⟨0x048, 31, 0, .RW, 0⟩
def F.tnt0_SQ_CFG_SIZE_LOG2 : Fld := ⟨0x04c, 4, 0, .RW, 8⟩
def F.tnt0_TR_BASE_LO_ADDR : Fld := ⟨0x050, 31, 0, .RW, 0⟩
def F.tnt0_TR_BASE_HI_ADDR : Fld := ⟨0x054, 31, 0, .RW, 0⟩
def F.tnt0_TR_CFG_SIZE_LOG2 : Fld := ⟨0x058, 4, 0, .RW, 12⟩
def F.tnt0_SHADOW_LO_ADDR : Fld := ⟨0x05c, 31, 0, .RW, 0⟩
def F.tnt0_SHADOW_HI_ADDR : Fld := ⟨0x060, 31, 0, .RW, 0⟩
def F.tnt0_SQ_HEAD_INDEX : Fld := ⟨0x064, 19, 0, .RO, 0⟩
def F.tnt0_TR_TAIL_INDEX : Fld := ⟨0x068, 19, 0, .RO, 0⟩
def F.tnt0_TR_IRQ_CNT_VALUE : Fld := ⟨0x06c, 23, 0, .RW, 1⟩
def F.tnt0_TR_IRQ_DELAY_VALUE : Fld := ⟨0x070, 23, 0, .RW, 0⟩
def F.tnt0_KEPT_SESSIONS_COUNT : Fld := ⟨0x074, 20, 0, .RO, 0⟩
def F.tnt0_PEND_RECORDS_COUNT : Fld := ⟨0x078, 20, 0, .RO, 0⟩
/-! Fields of the tnt1 pages. -/
def F.tnt1_SQ_DB_INDEX : Fld := ⟨0x040, 19, 0, .RW, 0⟩
def F.tnt1_TR_DB_INDEX : Fld := ⟨0x044, 19, 0, .RW, 0⟩
/-! Fields of the tnt2 pages. -/
def F.tnt2_FLOG_TAIL_VALUE : Fld := ⟨0x040, 31, 0, .RO, 0⟩
def F.tnt2_FLOG_HEAD_VALUE : Fld := ⟨0x044, 31, 0, .RW, 0⟩
def F.tnt2_FLOG_LOST_VALUE : Fld := ⟨0x048, 31, 0, .RC, 0⟩
def F.tnt2_BAD_ACCESS_VALUE : Fld := ⟨0x04c, 31, 0, .RC, 0⟩
/-! Fields of the tnt3 pages. -/
def F.tnt3_FLOG_REC_RECORD : Fld := ⟨0x100, 31, 0, .RO, 0⟩
/-! Fields of the tnt4 pages. -/
def F.tnt4_OBJ_ATTR_ATTR : Fld := ⟨0x040, 13, 4, .RW, 0⟩
def F.tnt4_OBJ_SIZE_TILES_M1 : Fld := ⟨0x044, 15, 0, .RW, 0⟩
def F.tnt4_OBJ_SIZE_HOME_QUAD : Fld := ⟨0x044, 17, 16, .RW, 0⟩
def F.tnt4_OBJ_COMP_TBL_SLOT : Fld := ⟨0x048, 3, 0, .RW, 0⟩
def F.tnt4_OBJ_COMP_SLOT_BYTES : Fld := ⟨0x048, 31, 16, .RW, 0⟩
def F.tnt4_OBJ_GOLD_LO_GOLDEN : Fld := ⟨0x04c, 31, 0, .RW, 0⟩
def F.tnt4_OBJ_GOLD_HI_GOLDEN : Fld := ⟨0x050, 31, 0, .RW, 0⟩
def F.tnt4_OBJ_CMD_OBJ : Fld := ⟨0x054, 15, 0, .WO, 0⟩
def F.tnt4_OBJ_CMD_OP : Fld := ⟨0x054, 19, 16, .WO, 0⟩
def F.tnt4_OBJ_CMD_PROMOTE : Fld := ⟨0x054, 20, 20, .WO, 0⟩
def F.tnt4_OBJ_CMD_TIER : Fld := ⟨0x054, 22, 21, .WO, 0⟩
def F.tnt4_OBJ_STATUS_BUSY : Fld := ⟨0x058, 0, 0, .RO, 0⟩
def F.tnt4_OBJ_STATUS_DROPPED : Fld := ⟨0x058, 1, 1, .W1C, 0⟩
def F.tnt4_OBJ_STATUS_RESULT : Fld := ⟨0x058, 5, 2, .RO, 0⟩
def F.tnt4_OBJ_STATUS_OBJ : Fld := ⟨0x058, 31, 16, .RO, 0⟩
def F.tnt4_OBJ_QUERY_ENTRY : Fld := ⟨0x060, 31, 0, .RO, 0⟩

/-- The block registers of the dir pages. -/
def dirRegs : List Reg := [
  ⟨"DIR_INFO", 0x040, 1, 4, [F.dir_DIR_INFO_ENTRIES]⟩,
  ⟨"ERR_PEND", 0x080, 8, 4, [F.dir_ERR_PEND_PEND]⟩,
  ⟨"BAD_ACCESS", 0x0a0, 1, 4, [F.dir_BAD_ACCESS_COUNT]⟩,
  ⟨"BAD_ADDR", 0x0a4, 1, 4, [F.dir_BAD_ADDR_OFFSET, F.dir_BAD_ADDR_WRITE]⟩]

/-- The block registers of the top pages. -/
def topRegs : List Reg := [
  ⟨"HOST_TIME_LO", 0x040, 1, 4, [F.top_HOST_TIME_LO_NS_LO]⟩,
  ⟨"HOST_TIME_HI", 0x044, 1, 4, [F.top_HOST_TIME_HI_NS_HI]⟩,
  ⟨"HOST_TIME_STATUS", 0x048, 1, 4, [F.top_HOST_TIME_STATUS_VALID, F.top_HOST_TIME_STATUS_REGRESSED, F.top_HOST_TIME_STATUS_STALE, F.top_HOST_TIME_STATUS_REGRESS_COUNT]⟩,
  ⟨"HOST_TIME_CFG", 0x04c, 1, 4, [F.top_HOST_TIME_CFG_STALE_LIMIT_US, F.top_HOST_TIME_CFG_STALE_IRQ]⟩]

/-- The block registers of the pci pages. -/
def pciRegs : List Reg := [
  ⟨"LINK_CFG", 0x040, 1, 4, [F.pci_LINK_CFG_MODE, F.pci_LINK_CFG_MAX_RATE]⟩,
  ⟨"PORT_SEL", 0x044, 1, 4, [F.pci_PORT_SEL_PORT]⟩,
  ⟨"LINK_STATUS", 0x048, 1, 4, [F.pci_LINK_STATUS_UP, F.pci_LINK_STATUS_WIDTH, F.pci_LINK_STATUS_RATE, F.pci_LINK_STATUS_FLIT, F.pci_LINK_STATUS_RETRAINING]⟩,
  ⟨"RETRAINS", 0x04c, 1, 4, [F.pci_RETRAINS_COUNT]⟩,
  ⟨"VIOL_COUNT", 0x050, 1, 4, [F.pci_VIOL_COUNT_COUNT]⟩,
  ⟨"VIOL_LAST_LO", 0x054, 1, 4, [F.pci_VIOL_LAST_LO_CODE, F.pci_VIOL_LAST_LO_FUNC, F.pci_VIOL_LAST_LO_PORT]⟩,
  ⟨"VIOL_LAST_HI", 0x058, 1, 4, [F.pci_VIOL_LAST_HI_ADDR]⟩,
  ⟨"IDS", 0x05c, 1, 4, [F.pci_IDS_VENDOR, F.pci_IDS_SUBSYS]⟩,
  ⟨"ATC_STATUS", 0x060, 1, 4, [F.pci_ATC_STATUS_VALUE]⟩,
  ⟨"ATC_INVAL", 0x064, 1, 4, [F.pci_ATC_INVAL_VALUE]⟩,
  ⟨"ATS_FAULTS", 0x068, 1, 4, [F.pci_ATS_FAULTS_VALUE]⟩,
  ⟨"FUNC_SEL", 0x06c, 1, 4, [F.pci_FUNC_SEL_FUNC]⟩,
  ⟨"FUNC_STATUS", 0x070, 1, 4, [F.pci_FUNC_STATUS_STATE, F.pci_FUNC_STATUS_ENABLE_LATCHED, F.pci_FUNC_STATUS_KEPT, F.pci_FUNC_STATUS_FLR, F.pci_FUNC_STATUS_PORT, F.pci_FUNC_STATUS_PENDING]⟩,
  ⟨"FUNC_CMD", 0x074, 1, 4, [F.pci_FUNC_CMD_DISCARD]⟩,
  ⟨"FUNC_CHANGED_LO", 0x078, 1, 4, [F.pci_FUNC_CHANGED_LO_TENANT]⟩,
  ⟨"FUNC_CHANGED_HI", 0x07c, 1, 4, [F.pci_FUNC_CHANGED_HI_TENANT]⟩]

/-- The block registers of the sec pages. -/
def secRegs : List Reg := [
  ⟨"BOOT_STATUS", 0x040, 1, 4, [F.sec_BOOT_STATUS_STAGE, F.sec_BOOT_STATUS_LOCKED, F.sec_BOOT_STATUS_FROM_HOST, F.sec_BOOT_STATUS_PROFILE, F.sec_BOOT_STATUS_CAUSE, F.sec_BOOT_STATUS_SVN]⟩,
  ⟨"IMAGE_VERSION", 0x044, 1, 4, [F.sec_IMAGE_VERSION_VERSION]⟩,
  ⟨"FUSE_STATUS", 0x048, 1, 4, [F.sec_FUSE_STATUS_COUNTER, F.sec_FUSE_STATUS_PROD, F.sec_FUSE_STATUS_DEBUG_DISABLE]⟩,
  ⟨"SVN_CMD", 0x04c, 1, 4, [F.sec_SVN_CMD_COMMIT, F.sec_SVN_CMD_RESULT]⟩,
  ⟨"PROFILE_SELECT", 0x050, 1, 4, [F.sec_PROFILE_SELECT_PROFILE, F.sec_PROFILE_SELECT_GO, F.sec_PROFILE_SELECT_RESULT]⟩,
  ⟨"RCV_ADDR_LO", 0x054, 1, 4, [F.sec_RCV_ADDR_LO_ADDR]⟩,
  ⟨"RCV_ADDR_HI", 0x058, 1, 4, [F.sec_RCV_ADDR_HI_ADDR]⟩,
  ⟨"RCV_LEN", 0x05c, 1, 4, [F.sec_RCV_LEN_BYTES]⟩,
  ⟨"RCV_CMD", 0x060, 1, 4, [F.sec_RCV_CMD_LOAD, F.sec_RCV_CMD_FLASH]⟩,
  ⟨"RCV_STATUS", 0x064, 1, 4, [F.sec_RCV_STATUS_RESULT, F.sec_RCV_STATUS_CAUSE]⟩,
  ⟨"DEBUG_STATUS", 0x068, 1, 4, [F.sec_DEBUG_STATUS_UNLOCKED, F.sec_DEBUG_STATUS_FAILS, F.sec_DEBUG_STATUS_LOCKED_OUT]⟩,
  ⟨"MEAS_SEL", 0x06c, 1, 4, [F.sec_MEAS_SEL_INDEX]⟩,
  ⟨"MEAS_DATA", 0x070, 16, 4, [F.sec_MEAS_DATA_BYTES]⟩]

/-- The block registers of the pwr pages. -/
def pwrRegs : List Reg := [
  ⟨"PKG_LIMIT", 0x040, 1, 4, [F.pwr_PKG_LIMIT_WATTS]⟩,
  ⟨"DIE_SEL", 0x044, 1, 4, [F.pwr_DIE_SEL_DIE]⟩,
  ⟨"DIE_LIMIT", 0x048, 1, 4, [F.pwr_DIE_LIMIT_WATTS]⟩,
  ⟨"VDD_CFG", 0x04c, 1, 4, [F.pwr_VDD_CFG_VMIN, F.pwr_VDD_CFG_VMAX, F.pwr_VDD_CFG_VSTEP]⟩,
  ⟨"DIE_STATUS", 0x050, 1, 4, [F.pwr_DIE_STATUS_VDD, F.pwr_DIE_STATUS_POWER, F.pwr_DIE_STATUS_ENGINE]⟩,
  ⟨"PKG_POWER", 0x054, 1, 4, [F.pwr_PKG_POWER_VALUE]⟩,
  ⟨"THROTTLED", 0x058, 1, 4, [F.pwr_THROTTLED_VALUE]⟩]

/-- The block registers of the pkg pages. -/
def pkgRegs : List Reg := [
  ⟨"VIN", 0x040, 1, 4, [F.pkg_VIN_MV, F.pkg_VIN_AMPS_DIV8]⟩,
  ⟨"VAUX", 0x044, 1, 4, [F.pkg_VAUX_MV]⟩,
  ⟨"TEMP", 0x048, 1, 4, [F.pkg_TEMP_TJ0, F.pkg_TEMP_TJ1, F.pkg_TEMP_TJ2, F.pkg_TEMP_TJ3]⟩,
  ⟨"TEMP_IOD", 0x04c, 1, 4, [F.pkg_TEMP_IOD_TJ, F.pkg_TEMP_IOD_REG]⟩,
  ⟨"TJ_ALERT", 0x050, 1, 4, [F.pkg_TJ_ALERT_TJ]⟩,
  ⟨"ALERT_STATUS", 0x054, 1, 4, [F.pkg_ALERT_STATUS_STACK_CRIT, F.pkg_ALERT_STATUS_TJ_HIGH, F.pkg_ALERT_STATUS_OVER_POWER, F.pkg_ALERT_STATUS_VIN_LOW]⟩,
  ⟨"ALERT_MASK", 0x058, 1, 4, [F.pkg_ALERT_MASK_STACK_CRIT, F.pkg_ALERT_MASK_TJ_HIGH, F.pkg_ALERT_MASK_OVER_POWER, F.pkg_ALERT_MASK_VIN_LOW]⟩,
  ⟨"TRIP_LOG", 0x05c, 1, 4, [F.pkg_TRIP_LOG_VALID, F.pkg_TRIP_LOG_CAUSE, F.pkg_TRIP_LOG_UNIT, F.pkg_TRIP_LOG_TEMP]⟩,
  ⟨"STRAPS", 0x060, 1, 4, [F.pkg_STRAPS_PROF, F.pkg_STRAPS_MADDR, F.pkg_STRAPS_I3C]⟩]

/-- The block registers of the tel pages. -/
def telRegs : List Reg := [
  ⟨"RING_BASE_LO", 0x040, 1, 4, [F.tel_RING_BASE_LO_ADDR]⟩,
  ⟨"RING_BASE_HI", 0x044, 1, 4, [F.tel_RING_BASE_HI_ADDR]⟩,
  ⟨"RING_CFG", 0x048, 1, 4, [F.tel_RING_CFG_SIZE_LOG2, F.tel_RING_CFG_ENABLE, F.tel_RING_CFG_KIND_EN, F.tel_RING_CFG_IRQ_THRESH]⟩,
  ⟨"RING_TAIL", 0x04c, 1, 4, [F.tel_RING_TAIL_VALUE]⟩,
  ⟨"RING_HEAD", 0x050, 1, 4, [F.tel_RING_HEAD_VALUE]⟩,
  ⟨"OVERRUN", 0x054, 1, 4, [F.tel_OVERRUN_VALUE]⟩,
  ⟨"WINDOW", 0x058, 1, 4, [F.tel_WINDOW_WINDOW_US]⟩]

/-- The block registers of the ras pages. -/
def rasRegs : List Reg := [
  ⟨"GUARD", 0x040, 1, 4, [F.ras_GUARD_COVERED, F.ras_GUARD_RECOVERING, F.ras_GUARD_QUADS]⟩,
  ⟨"RETIRED0", 0x044, 1, 4, [F.ras_RETIRED0_MASK]⟩,
  ⟨"RETIRED1", 0x048, 1, 4, [F.ras_RETIRED1_MASK]⟩,
  ⟨"JOURNAL_USED", 0x04c, 1, 4, [F.ras_JOURNAL_USED_PCT0, F.ras_JOURNAL_USED_PCT1, F.ras_JOURNAL_USED_PCT2, F.ras_JOURNAL_USED_PCT3]⟩,
  ⟨"RESET_CMD", 0x050, 1, 4, [F.ras_RESET_CMD_WARM, F.ras_RESET_CMD_QUAD, F.ras_RESET_CMD_QUADRANT]⟩,
  ⟨"LAST_RESET", 0x054, 1, 4, [F.ras_LAST_RESET_SCOPE, F.ras_LAST_RESET_CAUSE, F.ras_LAST_RESET_QUAD]⟩,
  ⟨"REBUILDS", 0x058, 1, 4, [F.ras_REBUILDS_COUNT]⟩,
  ⟨"ABANDONED", 0x05c, 1, 4, [F.ras_ABANDONED_COUNT]⟩,
  ⟨"MODEL_SEL", 0x060, 1, 4, [F.ras_MODEL_SEL_MODEL]⟩,
  ⟨"MODEL_STATUS", 0x064, 1, 4, [F.ras_MODEL_STATUS_QUARANTINED, F.ras_MODEL_STATUS_REASON, F.ras_MODEL_STATUS_OBJ, F.ras_MODEL_STATUS_STALL]⟩,
  ⟨"MODEL_CMD", 0x068, 1, 4, [F.ras_MODEL_CMD_UNLOAD]⟩,
  ⟨"LOG_TAIL", 0x070, 1, 4, [F.ras_LOG_TAIL_VALUE]⟩,
  ⟨"LOG_HEAD", 0x074, 1, 4, [F.ras_LOG_HEAD_VALUE]⟩,
  ⟨"LOG_LOST", 0x078, 1, 4, [F.ras_LOG_LOST_VALUE]⟩,
  ⟨"LOG_SEL", 0x07c, 1, 4, [F.ras_LOG_SEL_INDEX]⟩,
  ⟨"LOG_DATA", 0x080, 8, 4, [F.ras_LOG_DATA_BYTES]⟩,
  ⟨"INJ_CTRL", 0x0a0, 1, 4, [F.ras_INJ_CTRL_ENABLE, F.ras_INJ_CTRL_KEY]⟩,
  ⟨"INJ_ADDR_LO", 0x0a4, 1, 4, [F.ras_INJ_ADDR_LO_ADDR]⟩,
  ⟨"INJ_ADDR_HI", 0x0a8, 1, 4, [F.ras_INJ_ADDR_HI_ADDR]⟩,
  ⟨"INJ_CMD", 0x0ac, 1, 4, [F.ras_INJ_CMD_KIND, F.ras_INJ_CMD_TARGET, F.ras_INJ_CMD_GO]⟩,
  ⟨"INJ_STATUS", 0x0b0, 1, 4, [F.ras_INJ_STATUS_RESULT]⟩]

/-- The block registers of the qdr pages. -/
def qdrRegs : List Reg := [
  ⟨"Q_SEL", 0x040, 1, 4, [F.qdr_Q_SEL_QUEUE]⟩,
  ⟨"Q_CFG", 0x044, 1, 4, [F.qdr_Q_CFG_QUANTUM, F.qdr_Q_CFG_SHAPE_EN, F.qdr_Q_CFG_ENABLE, F.qdr_Q_CFG_LIMIT]⟩,
  ⟨"Q_RATE", 0x048, 1, 4, [F.qdr_Q_RATE_VALUE]⟩,
  ⟨"Q_BURST", 0x04c, 1, 4, [F.qdr_Q_BURST_VALUE]⟩,
  ⟨"Q_CREDIT", 0x050, 1, 4, [F.qdr_Q_CREDIT_VALUE]⟩,
  ⟨"Q_DEFICIT", 0x054, 1, 4, [F.qdr_Q_DEFICIT_VALUE]⟩,
  ⟨"Q_DEPTH", 0x058, 1, 4, [F.qdr_Q_DEPTH_VALUE]⟩,
  ⟨"Q_HWM_DEPTH", 0x05c, 1, 4, [F.qdr_Q_HWM_DEPTH_VALUE]⟩,
  ⟨"Q_HWM_DELAY", 0x060, 1, 4, [F.qdr_Q_HWM_DELAY_VALUE]⟩,
  ⟨"Q_BYTES_LO", 0x064, 1, 4, [F.qdr_Q_BYTES_LO_COUNT]⟩,
  ⟨"Q_BYTES_HI", 0x068, 1, 4, [F.qdr_Q_BYTES_HI_COUNT]⟩,
  ⟨"SAMPLE_MASK_LO", 0x06c, 1, 4, [F.qdr_SAMPLE_MASK_LO_QUEUES]⟩,
  ⟨"SAMPLE_MASK_HI", 0x070, 1, 4, [F.qdr_SAMPLE_MASK_HI_QUEUES]⟩,
  ⟨"GL_CTRL", 0x074, 1, 4, [F.qdr_GL_CTRL_CANCEL, F.qdr_GL_CTRL_SAMPLE_LEAD]⟩,
  ⟨"GL_BASE_LO", 0x078, 1, 4, [F.qdr_GL_BASE_LO_NS]⟩,
  ⟨"GL_BASE_HI", 0x07c, 1, 4, [F.qdr_GL_BASE_HI_NS]⟩,
  ⟨"GL_CYCLE", 0x080, 1, 4, [F.qdr_GL_CYCLE_VALUE]⟩,
  ⟨"GL_LEN", 0x084, 1, 4, [F.qdr_GL_LEN_VALUE]⟩,
  ⟨"GL_STATUS", 0x088, 1, 4, [F.qdr_GL_STATUS_OPER, F.qdr_GL_STATUS_PENDING, F.qdr_GL_STATUS_CUR]⟩,
  ⟨"GL_START_LO", 0x08c, 1, 4, [F.qdr_GL_START_LO_VALUE]⟩,
  ⟨"GL_START_HI", 0x090, 1, 4, [F.qdr_GL_START_HI_VALUE]⟩,
  ⟨"GL_SKIPPED", 0x094, 1, 4, [F.qdr_GL_SKIPPED_VALUE]⟩,
  ⟨"GL_E0", 0x200, 64, 16, [F.qdr_GL_E0_DURATION]⟩,
  ⟨"GL_E1", 0x204, 64, 16, [F.qdr_GL_E1_CLASS1, F.qdr_GL_E1_FLOOR]⟩,
  ⟨"GL_E2", 0x208, 64, 16, [F.qdr_GL_E2_ENSEMBLE]⟩,
  ⟨"GL_E3", 0x20c, 64, 16, [F.qdr_GL_E3_ENSEMBLE]⟩]

/-- The block registers of the pmp pages. -/
def pmpRegs : List Reg := [
  ⟨"SQ_SEL", 0x040, 1, 4, [F.pmp_SQ_SEL_QUEUE]⟩,
  ⟨"SQ_BASE_LO", 0x044, 1, 4, [F.pmp_SQ_BASE_LO_DVA]⟩,
  ⟨"SQ_BASE_HI", 0x048, 1, 4, [F.pmp_SQ_BASE_HI_DVA]⟩,
  ⟨"SQ_CFG", 0x04c, 1, 4, [F.pmp_SQ_CFG_SIZE_LOG2, F.pmp_SQ_CFG_PUMP, F.pmp_SQ_CFG_ENABLE]⟩,
  ⟨"SQ_TAIL", 0x050, 1, 4, [F.pmp_SQ_TAIL_INDEX]⟩,
  ⟨"SQ_HEAD", 0x054, 1, 4, [F.pmp_SQ_HEAD_INDEX]⟩,
  ⟨"SQ_STATUS", 0x058, 1, 4, [F.pmp_SQ_STATUS_STOPPED, F.pmp_SQ_STATUS_REASON]⟩,
  ⟨"PUMP_SEL", 0x05c, 1, 4, [F.pmp_PUMP_SEL_PUMP]⟩,
  ⟨"PUMP_STATUS", 0x060, 1, 4, [F.pmp_PUMP_STATUS_CHAINS, F.pmp_PUMP_STATUS_QUEUE_KIB]⟩,
  ⟨"BYTES_LO", 0x064, 1, 4, [F.pmp_BYTES_LO_COUNT]⟩,
  ⟨"BYTES_HI", 0x068, 1, 4, [F.pmp_BYTES_HI_COUNT]⟩,
  ⟨"MISMATCH", 0x06c, 1, 4, [F.pmp_MISMATCH_SHORT, F.pmp_MISMATCH_LONG, F.pmp_MISMATCH_OVERRUN, F.pmp_MISMATCH_UNDERRUN]⟩,
  ⟨"DROPPED", 0x070, 1, 4, [F.pmp_DROPPED_COUNT]⟩,
  ⟨"FEED_STALL", 0x074, 1, 4, [F.pmp_FEED_STALL_COUNT]⟩]

/-- The block registers of the gll pages. -/
def gllRegs : List Reg := [
  ⟨"PORT_CFG", 0x040, 1, 4, [F.gll_PORT_CFG_MIN_WIDTH, F.gll_PORT_CFG_MEDIA, F.gll_PORT_CFG_EXPECT_EN, F.gll_PORT_CFG_EXPECT_DEV, F.gll_PORT_CFG_EXPECT_PORT]⟩,
  ⟨"PORT_STATUS", 0x044, 1, 4, [F.gll_PORT_STATUS_WIDTH, F.gll_PORT_STATUS_LANES_UP, F.gll_PORT_STATUS_NBR_DEV, F.gll_PORT_STATUS_NBR_PORT, F.gll_PORT_STATUS_NBR_VALID]⟩,
  ⟨"PORT_CMD", 0x048, 1, 4, [F.gll_PORT_CMD_RETRAIN]⟩,
  ⟨"REPLAY_CFG", 0x04c, 1, 4, [F.gll_REPLAY_CFG_TIMEOUT_NS, F.gll_REPLAY_CFG_RETRY_LIMIT]⟩,
  ⟨"SEQ_STATUS", 0x050, 1, 4, [F.gll_SEQ_STATUS_TX_NEXT, F.gll_SEQ_STATUS_RX_EXPECT]⟩,
  ⟨"VL_SEL", 0x054, 1, 4, [F.gll_VL_SEL_VL]⟩,
  ⟨"VL_CREDIT", 0x058, 1, 4, [F.gll_VL_CREDIT_ADVERTISED, F.gll_VL_CREDIT_TX_CREDIT]⟩,
  ⟨"FEC_CORR", 0x05c, 1, 4, [F.gll_FEC_CORR_COUNT]⟩,
  ⟨"FEC_UNCORR", 0x060, 1, 4, [F.gll_FEC_UNCORR_COUNT]⟩,
  ⟨"REPLAYS", 0x064, 1, 4, [F.gll_REPLAYS_COUNT]⟩,
  ⟨"NAKS", 0x068, 1, 4, [F.gll_NAKS_COUNT]⟩,
  ⟨"TRAIN_FAILS", 0x06c, 1, 4, [F.gll_TRAIN_FAILS_COUNT]⟩,
  ⟨"VIOL_COUNT", 0x070, 1, 4, [F.gll_VIOL_COUNT_COUNT]⟩,
  ⟨"VIOL_LAST", 0x074, 1, 4, [F.gll_VIOL_LAST_CODE, F.gll_VIOL_LAST_SEQ]⟩,
  ⟨"BYTES_TX_LO", 0x078, 1, 4, [F.gll_BYTES_TX_LO_COUNT]⟩,
  ⟨"BYTES_TX_HI", 0x07c, 1, 4, [F.gll_BYTES_TX_HI_COUNT]⟩,
  ⟨"BYTES_RX_LO", 0x080, 1, 4, [F.gll_BYTES_RX_LO_COUNT]⟩,
  ⟨"BYTES_RX_HI", 0x084, 1, 4, [F.gll_BYTES_RX_HI_COUNT]⟩,
  ⟨"LANE_SEL", 0x088, 1, 4, [F.gll_LANE_SEL_LANE]⟩,
  ⟨"LANE_STATUS", 0x08c, 1, 4, [F.gll_LANE_STATUS_LOCK, F.gll_LANE_STATUS_SNR]⟩,
  ⟨"DEV_ID", 0x100, 1, 4, [F.gll_DEV_ID_DEV]⟩,
  ⟨"TOPO", 0x104, 1, 4, [F.gll_TOPO_X_M1, F.gll_TOPO_Y_M1, F.gll_TOPO_Z_M1, F.gll_TOPO_WRAP, F.gll_TOPO_DOR_EN]⟩,
  ⟨"REQ_TIMEOUT", 0x108, 1, 4, [F.gll_REQ_TIMEOUT_VALUE]⟩,
  ⟨"UNREACH", 0x10c, 1, 4, [F.gll_UNREACH_VALUE]⟩,
  ⟨"LATE_REPLY", 0x110, 1, 4, [F.gll_LATE_REPLY_VALUE]⟩,
  ⟨"WIN_W0", 0x140, 16, 8, [F.gll_WIN_W0_OBJ_FIRST, F.gll_WIN_W0_OBJ_LAST]⟩,
  ⟨"WIN_W1", 0x144, 16, 8, [F.gll_WIN_W1_VALID, F.gll_WIN_W1_OPS]⟩]

/-- The block registers of the glr pages. -/
def glrRegs : List Reg := [
  ⟨"ROUTE", 0x800, 512, 4, [F.glr_ROUTE_VALID, F.glr_ROUTE_PORT, F.glr_ROUTE_ALT_VALID, F.glr_ROUTE_ALT_PORT, F.glr_ROUTE_DATELINE, F.glr_ROUTE_VALID2, F.glr_ROUTE_PORT2, F.glr_ROUTE_ALT_VALID2, F.glr_ROUTE_ALT_PORT2, F.glr_ROUTE_DATELINE2]⟩]

/-- The block registers of the kpr pages. -/
def kprRegs : List Reg := [
  ⟨"KSTATE", 0x040, 1, 4, [F.kpr_KSTATE_SEALER, F.kpr_KSTATE_IN_FLIGHT, F.kpr_KSTATE_READY]⟩,
  ⟨"LAST_ROUND_LO", 0x044, 1, 4, [F.kpr_LAST_ROUND_LO_ROUND]⟩,
  ⟨"LAST_ROUND_HI", 0x048, 1, 4, [F.kpr_LAST_ROUND_HI_ROUND]⟩,
  ⟨"PROMPT_PENDING", 0x04c, 1, 4, [F.kpr_PROMPT_PENDING_TOKENS]⟩,
  ⟨"SPEC_OFFERED", 0x050, 1, 4, [F.kpr_SPEC_OFFERED_COUNT]⟩,
  ⟨"SPEC_ACCEPTED", 0x054, 1, 4, [F.kpr_SPEC_ACCEPTED_COUNT]⟩,
  ⟨"PROG_SEL", 0x058, 1, 4, [F.kpr_PROG_SEL_ENTRY]⟩,
  ⟨"PROG_ENTRY", 0x05c, 1, 4, [F.kpr_PROG_ENTRY_ADDR, F.kpr_PROG_ENTRY_CLASS, F.kpr_PROG_ENTRY_FUNC, F.kpr_PROG_ENTRY_VALID]⟩,
  ⟨"PROG_PART", 0x060, 1, 4, [F.kpr_PROG_PART_ACC, F.kpr_PROG_PART_ROWS, F.kpr_PROG_PART_RS, F.kpr_PROG_PART_FRAMES]⟩,
  ⟨"PROG_BRTAB_LO", 0x064, 1, 4, [F.kpr_PROG_BRTAB_LO_DVA]⟩,
  ⟨"PROG_BRTAB_HI", 0x068, 1, 4, [F.kpr_PROG_BRTAB_HI_DVA]⟩,
  ⟨"PROG_BRN", 0x06c, 1, 4, [F.kpr_PROG_BRN_ENTRIES]⟩,
  ⟨"YRUN", 0x070, 1, 4, [F.kpr_YRUN_PROG, F.kpr_YRUN_ENGINE, F.kpr_YRUN_GO]⟩,
  ⟨"YRUN_STATUS", 0x074, 1, 4, [F.kpr_YRUN_STATUS_STATE, F.kpr_YRUN_STATUS_CAUSE, F.kpr_YRUN_STATUS_PC]⟩,
  ⟨"WIN_CTRL", 0x080, 1, 4, [F.kpr_WIN_CTRL_TEST_WIN, F.kpr_WIN_CTRL_ACTIVE, F.kpr_WIN_CTRL_STACK, F.kpr_WIN_CTRL_CPL_EMPTY]⟩,
  ⟨"WIN_ADDR", 0x084, 1, 4, [F.kpr_WIN_ADDR_OFFSET]⟩,
  ⟨"WIN_DATA", 0x088, 1, 4, [F.kpr_WIN_DATA_WORD]⟩,
  ⟨"TAG_CPL", 0x08c, 4, 4, [F.kpr_TAG_CPL_BYTES]⟩,
  ⟨"TAG_CPL_POP", 0x09c, 1, 4, [F.kpr_TAG_CPL_POP_POP]⟩,
  ⟨"PROG_BASE", 0x0a0, 1, 4, [F.kpr_PROG_BASE_ROW_BASE, F.kpr_PROG_BASE_FRAME_BASE]⟩]

/-- The block registers of the ses pages. -/
def sesRegs : List Reg := [
  ⟨"STATE_SEL", 0x040, 1, 4, [F.ses_STATE_SEL_STATE]⟩,
  ⟨"STATE_COUNT", 0x044, 1, 4, [F.ses_STATE_COUNT_SESSIONS]⟩,
  ⟨"TTL_SEL", 0x048, 1, 4, [F.ses_TTL_SEL_TTL]⟩,
  ⟨"TTL_DEF_LO", 0x04c, 1, 4, [F.ses_TTL_DEF_LO_NS]⟩,
  ⟨"TTL_DEF_HI", 0x050, 1, 4, [F.ses_TTL_DEF_HI_NS]⟩,
  ⟨"SETTLE_SLOT", 0x054, 1, 4, [F.ses_SETTLE_SLOT_SLOT_BYTES]⟩,
  ⟨"TEN_SEL", 0x058, 1, 4, [F.ses_TEN_SEL_VALUE]⟩,
  ⟨"TEN_CAP", 0x05c, 1, 4, [F.ses_TEN_CAP_VALUE]⟩,
  ⟨"TEN_USED", 0x060, 1, 4, [F.ses_TEN_USED_VALUE]⟩,
  ⟨"QUERY_HANDLE", 0x064, 1, 4, [F.ses_QUERY_HANDLE_HANDLE]⟩,
  ⟨"QUERY0", 0x068, 1, 4, [F.ses_QUERY0_STATE, F.ses_QUERY0_SUSPENDED, F.ses_QUERY0_LEAD, F.ses_QUERY0_SHARE, F.ses_QUERY0_VALID, F.ses_QUERY0_MODEL, F.ses_QUERY0_ADAPTER, F.ses_QUERY0_ADP_VALID]⟩,
  ⟨"QUERY1", 0x06c, 1, 4, [F.ses_QUERY1_VALUE]⟩,
  ⟨"QUERY2", 0x070, 1, 4, [F.ses_QUERY2_VALUE]⟩,
  ⟨"QUERY3", 0x074, 1, 4, [F.ses_QUERY3_VALUE]⟩,
  ⟨"ADP_SEL", 0x078, 1, 4, [F.ses_ADP_SEL_ADAPTER]⟩,
  ⟨"ADP_CFG", 0x07c, 1, 4, [F.ses_ADP_CFG_OBJ, F.ses_ADP_CFG_MODEL, F.ses_ADP_CFG_RANK_M1]⟩,
  ⟨"ADP_CMD", 0x080, 1, 4, [F.ses_ADP_CMD_OP]⟩,
  ⟨"ADP_STATUS", 0x084, 1, 4, [F.ses_ADP_STATUS_CUR_VER, F.ses_ADP_STATUS_RETIRED, F.ses_ADP_STATUS_BUSY, F.ses_ADP_STATUS_RESULT, F.ses_ADP_STATUS_PRESENT]⟩]

/-- The block registers of the wel pages. -/
def welRegs : List Reg := [
  ⟨"SLICE_MODE_LO", 0x040, 1, 4, [F.wel_SLICE_MODE_LO_SCRATCH]⟩,
  ⟨"SLICE_MODE_HI", 0x044, 1, 4, [F.wel_SLICE_MODE_HI_SCRATCH]⟩,
  ⟨"SLICE_STATUS", 0x048, 1, 4, [F.wel_SLICE_STATUS_BUSY, F.wel_SLICE_STATUS_LAST_REFUSED]⟩,
  ⟨"FRAMES", 0x04c, 1, 4, [F.wel_FRAMES_CACHE_USED, F.wel_FRAMES_SCRATCH_USED]⟩,
  ⟨"DIRTY_GRANULES", 0x050, 1, 4, [F.wel_DIRTY_GRANULES_COUNT]⟩,
  ⟨"HITS", 0x054, 1, 4, [F.wel_HITS_COUNT]⟩,
  ⟨"WB_GRANULES", 0x058, 1, 4, [F.wel_WB_GRANULES_COUNT]⟩,
  ⟨"CE_COUNT", 0x05c, 1, 4, [F.wel_CE_COUNT_COUNT]⟩,
  ⟨"CE_THRESH", 0x060, 1, 4, [F.wel_CE_THRESH_CORRECTIONS]⟩]

/-- The block registers of the tir pages. -/
def tirRegs : List Reg := [
  ⟨"POOL_SEL", 0x040, 1, 4, [F.tir_POOL_SEL_POOL]⟩,
  ⟨"POOL_TOTAL", 0x044, 1, 4, [F.tir_POOL_TOTAL_UNITS]⟩,
  ⟨"POOL_FREE", 0x048, 1, 4, [F.tir_POOL_FREE_UNITS]⟩,
  ⟨"POOL_WM", 0x04c, 1, 4, [F.tir_POOL_WM_LOW, F.tir_POOL_WM_HIGH]⟩,
  ⟨"SYS_LINES", 0x050, 1, 4, [F.tir_SYS_LINES_LINES]⟩,
  ⟨"QUOTA_SEL", 0x054, 1, 4, [F.tir_QUOTA_SEL_FUNC, F.tir_QUOTA_SEL_TIER]⟩,
  ⟨"QUOTA_FLOOR", 0x058, 1, 4, [F.tir_QUOTA_FLOOR_UNITS]⟩,
  ⟨"QUOTA_CAP", 0x05c, 1, 4, [F.tir_QUOTA_CAP_UNITS]⟩,
  ⟨"QUOTA_USED", 0x060, 1, 4, [F.tir_QUOTA_USED_UNITS]⟩,
  ⟨"QUOTA_STATUS", 0x064, 1, 4, [F.tir_QUOTA_STATUS_REFUSED]⟩,
  ⟨"SUMP_TBL_LO", 0x068, 1, 4, [F.tir_SUMP_TBL_LO_ADDR]⟩,
  ⟨"SUMP_TBL_HI", 0x06c, 1, 4, [F.tir_SUMP_TBL_HI_ADDR]⟩,
  ⟨"SUMP_CHUNKS", 0x070, 1, 4, [F.tir_SUMP_CHUNKS_COUNT]⟩,
  ⟨"PRIME_CFG", 0x074, 1, 4, [F.tir_PRIME_CFG_FRAMES]⟩,
  ⟨"MODEL_SEL", 0x078, 1, 4, [F.tir_MODEL_SEL_MODEL]⟩,
  ⟨"MODEL_PRIME", 0x07c, 1, 4, [F.tir_MODEL_PRIME_LEAD, F.tir_MODEL_PRIME_LEAD_MAX, F.tir_MODEL_PRIME_MISS_THRESH, F.tir_MODEL_PRIME_INSTALLED, F.tir_MODEL_PRIME_SCHED_BAD]⟩,
  ⟨"MODEL_SCHED_LO", 0x080, 1, 4, [F.tir_MODEL_SCHED_LO_DVA]⟩,
  ⟨"MODEL_SCHED_HI", 0x084, 1, 4, [F.tir_MODEL_SCHED_HI_DVA]⟩,
  ⟨"MODEL_MISS", 0x088, 1, 4, [F.tir_MODEL_MISS_COUNT]⟩,
  ⟨"MODEL_RAISES", 0x08c, 1, 4, [F.tir_MODEL_RAISES_COUNT]⟩,
  ⟨"MOVES", 0x090, 1, 4, [F.tir_MOVES_COUNT]⟩,
  ⟨"EVICTIONS", 0x094, 1, 4, [F.tir_EVICTIONS_COUNT]⟩,
  ⟨"SUMP_DIRECT", 0x098, 1, 4, [F.tir_SUMP_DIRECT_COUNT]⟩,
  ⟨"OBJ_ATTR", 0x100, 1, 4, [F.tir_OBJ_ATTR_ATTR]⟩,
  ⟨"OBJ_SIZE", 0x104, 1, 4, [F.tir_OBJ_SIZE_TILES_M1, F.tir_OBJ_SIZE_HOME_QUAD]⟩,
  ⟨"OBJ_COMP", 0x108, 1, 4, [F.tir_OBJ_COMP_TBL_SLOT, F.tir_OBJ_COMP_SLOT_BYTES]⟩,
  ⟨"OBJ_GOLD_LO", 0x10c, 1, 4, [F.tir_OBJ_GOLD_LO_GOLDEN]⟩,
  ⟨"OBJ_GOLD_HI", 0x110, 1, 4, [F.tir_OBJ_GOLD_HI_GOLDEN]⟩,
  ⟨"OBJ_CMD", 0x114, 1, 4, [F.tir_OBJ_CMD_OBJ, F.tir_OBJ_CMD_OP, F.tir_OBJ_CMD_PROMOTE, F.tir_OBJ_CMD_TIER]⟩,
  ⟨"OBJ_STATUS", 0x118, 1, 4, [F.tir_OBJ_STATUS_BUSY, F.tir_OBJ_STATUS_DROPPED, F.tir_OBJ_STATUS_RESULT, F.tir_OBJ_STATUS_OBJ]⟩,
  ⟨"OBJ_QUERY", 0x120, 8, 4, [F.tir_OBJ_QUERY_ENTRY]⟩]

/-- The block registers of the cmp pages. -/
def cmpRegs : List Reg := [
  ⟨"TBL_SEL", 0x040, 1, 4, [F.cmp_TBL_SEL_SLOT]⟩,
  ⟨"TBL_DATA", 0x044, 12, 4, [F.cmp_TBL_DATA_BYTES]⟩,
  ⟨"TBL_CMD", 0x074, 1, 4, [F.cmp_TBL_CMD_COMMIT]⟩,
  ⟨"TBL_STATUS", 0x078, 1, 4, [F.cmp_TBL_STATUS_CUR_GEN, F.cmp_TBL_STATUS_RET_GEN, F.cmp_TBL_STATUS_HELD]⟩,
  ⟨"TBL_REFS", 0x07c, 1, 4, [F.cmp_TBL_REFS_REFS]⟩,
  ⟨"STRICT_LO", 0x080, 1, 4, [F.cmp_STRICT_LO_TENANT]⟩,
  ⟨"STRICT_HI", 0x084, 1, 4, [F.cmp_STRICT_HI_TENANT]⟩,
  ⟨"TEN_SEL", 0x088, 1, 4, [F.cmp_TEN_SEL_FUNC]⟩,
  ⟨"TEN_MISMATCH", 0x08c, 1, 4, [F.cmp_TEN_MISMATCH_SHORT, F.cmp_TEN_MISMATCH_LONG, F.cmp_TEN_MISMATCH_OVERRUN, F.cmp_TEN_MISMATCH_UNDERRUN]⟩]

/-- The block registers of the mxe pages. -/
def mxeRegs : List Reg := [
  ⟨"PROG_ADDR", 0x040, 1, 4, [F.mxe_PROG_ADDR_ADDR]⟩,
  ⟨"PROG_DATA", 0x044, 4, 4, [F.mxe_PROG_DATA_BITS]⟩,
  ⟨"RUN", 0x054, 1, 4, [F.mxe_RUN_ENTRY, F.mxe_RUN_CLASS, F.mxe_RUN_GO]⟩,
  ⟨"PC", 0x058, 1, 4, [F.mxe_PC_PC]⟩,
  ⟨"ROUND_LO", 0x05c, 1, 4, [F.mxe_ROUND_LO_ROUND]⟩,
  ⟨"ROUND_HI", 0x060, 1, 4, [F.mxe_ROUND_HI_ROUND]⟩,
  ⟨"FLAGS", 0x064, 1, 4, [F.mxe_FLAGS_NAN, F.mxe_FLAGS_INF]⟩,
  ⟨"LATCH_STATUS", 0x068, 1, 4, [F.mxe_LATCH_STATUS_FULL, F.mxe_LATCH_STATUS_POISON_WAIT, F.mxe_LATCH_STATUS_PLANES]⟩,
  ⟨"HANDSHAKES_LO", 0x06c, 1, 4, [F.mxe_HANDSHAKES_LO_COUNT]⟩,
  ⟨"HANDSHAKES_HI", 0x070, 1, 4, [F.mxe_HANDSHAKES_HI_COUNT]⟩,
  ⟨"BUSY_LO", 0x074, 1, 4, [F.mxe_BUSY_LO_COUNT]⟩,
  ⟨"BUSY_HI", 0x078, 1, 4, [F.mxe_BUSY_HI_COUNT]⟩,
  ⟨"LATCH_WAIT_NS", 0x07c, 1, 4, [F.mxe_LATCH_WAIT_NS_NS]⟩,
  ⟨"POISON_WAITS", 0x080, 1, 4, [F.mxe_POISON_WAITS_COUNT]⟩,
  ⟨"ECC_CE", 0x084, 1, 4, [F.mxe_ECC_CE_COUNT]⟩,
  ⟨"RATE", 0x088, 1, 4, [F.mxe_RATE_MHZ]⟩]

/-- The block registers of the vxe pages. -/
def vxeRegs : List Reg := [
  ⟨"VX_CFG", 0x040, 1, 4, [F.vxe_VX_CFG_DDC_MODE]⟩,
  ⟨"VX_FLAGS_G", 0x044, 1, 4, [F.vxe_VX_FLAGS_G_LAST, F.vxe_VX_FLAGS_G_STICKY, F.vxe_VX_FLAGS_G_CNT]⟩,
  ⟨"VX_FLAGS_Y", 0x048, 1, 4, [F.vxe_VX_FLAGS_Y_LAST, F.vxe_VX_FLAGS_Y_STICKY, F.vxe_VX_FLAGS_Y_CNT]⟩,
  ⟨"Y_PART", 0x04c, 1, 4, [F.vxe_Y_PART_ACC, F.vxe_Y_PART_ROW_BASE, F.vxe_Y_PART_ROWS, F.vxe_Y_PART_RS]⟩,
  ⟨"Y_FRAMES", 0x050, 1, 4, [F.vxe_Y_FRAMES_BASE, F.vxe_Y_FRAMES_COUNT]⟩,
  ⟨"Y_STATUS", 0x054, 1, 4, [F.vxe_Y_STATUS_STATE, F.vxe_Y_STATUS_WAIT_BRANCH, F.vxe_Y_STATUS_PC, F.vxe_Y_STATUS_CAUSE, F.vxe_Y_STATUS_FUNC]⟩,
  ⟨"SUMMARY_LO", 0x058, 1, 4, [F.vxe_SUMMARY_LO_SUMMARY]⟩,
  ⟨"SUMMARY_HI", 0x05c, 1, 4, [F.vxe_SUMMARY_HI_SUMMARY]⟩,
  ⟨"BRANCH", 0x060, 1, 4, [F.vxe_BRANCH_WORD]⟩,
  ⟨"BRANCH_CMD", 0x064, 1, 4, [F.vxe_BRANCH_CMD_WORD]⟩,
  ⟨"VOPS_LO", 0x068, 1, 4, [F.vxe_VOPS_LO_COUNT]⟩,
  ⟨"VOPS_HI", 0x06c, 1, 4, [F.vxe_VOPS_HI_COUNT]⟩,
  ⟨"FIGURES", 0x070, 1, 4, [F.vxe_FIGURES_COUNT]⟩,
  ⟨"RANGE_COUNT", 0x074, 1, 4, [F.vxe_RANGE_COUNT_COUNT]⟩,
  ⟨"REG_CE", 0x078, 1, 4, [F.vxe_REG_CE_COUNT]⟩]

/-- The block registers of the cis pages. -/
def cisRegs : List Reg := [
  ⟨"GEOMETRY", 0x040, 1, 4, [F.cis_GEOMETRY_CHANNELS, F.cis_GEOMETRY_BANKS, F.cis_GEOMETRY_ROWS_DIV16, F.cis_GEOMETRY_CORE_DIES_DIV4]⟩,
  ⟨"REGION", 0x044, 1, 4, [F.cis_REGION_BANKED_ROWS, F.cis_REGION_RESERVE_ROWS]⟩,
  ⟨"LINK_THRESH", 0x048, 1, 4, [F.cis_LINK_THRESH_RETRIES]⟩,
  ⟨"CE_THRESH", 0x04c, 1, 4, [F.cis_CE_THRESH_CORRECTIONS]⟩,
  ⟨"CH_STATE", 0x050, 4, 4, [F.cis_CH_STATE_CH0, F.cis_CH_STATE_CH1, F.cis_CH_STATE_CH2, F.cis_CH_STATE_CH3, F.cis_CH_STATE_CH4, F.cis_CH_STATE_CH5, F.cis_CH_STATE_CH6, F.cis_CH_STATE_CH7]⟩,
  ⟨"CH_CMD", 0x060, 1, 4, [F.cis_CH_CMD_CHANNEL, F.cis_CH_CMD_OP]⟩,
  ⟨"CH_CMD_STATUS", 0x064, 1, 4, [F.cis_CH_CMD_STATUS_BUSY, F.cis_CH_CMD_STATUS_RESULT, F.cis_CH_CMD_STATUS_CHANNEL]⟩,
  ⟨"RETIRED_MASK", 0x068, 1, 4, [F.cis_RETIRED_MASK_CH]⟩,
  ⟨"THERM", 0x070, 1, 4, [F.cis_THERM_TEMP_C, F.cis_THERM_MAX_C, F.cis_THERM_LEVEL]⟩,
  ⟨"THERM_CFG", 0x074, 1, 4, [F.cis_THERM_CFG_PACE_TEMP, F.cis_THERM_CFG_STEP_C, F.cis_THERM_CFG_MIN_RATE, F.cis_THERM_CFG_CRIT_TEMP]⟩,
  ⟨"CE_COUNT", 0x080, 1, 4, [F.cis_CE_COUNT_COUNT]⟩,
  ⟨"UE_COUNT", 0x084, 1, 4, [F.cis_UE_COUNT_COUNT]⟩,
  ⟨"ERR_ADDR_LO", 0x088, 1, 4, [F.cis_ERR_ADDR_LO_COLUMN, F.cis_ERR_ADDR_LO_ROW, F.cis_ERR_ADDR_LO_BANK, F.cis_ERR_ADDR_LO_PC]⟩,
  ⟨"ERR_ADDR_HI", 0x08c, 1, 4, [F.cis_ERR_ADDR_HI_VALID, F.cis_ERR_ADDR_HI_POISON, F.cis_ERR_ADDR_HI_BUCKET]⟩,
  ⟨"SCRUB_CFG", 0x090, 1, 4, [F.cis_SCRUB_CFG_PERIOD_H]⟩,
  ⟨"LINK_RETRY", 0x094, 1, 4, [F.cis_LINK_RETRY_COUNT]⟩,
  ⟨"ADD_OPS", 0x098, 1, 4, [F.cis_ADD_OPS_COUNT]⟩,
  ⟨"MARGIN_CTRL", 0x0a0, 1, 4, [F.cis_MARGIN_CTRL_CHANNEL, F.cis_MARGIN_CTRL_LANE, F.cis_MARGIN_CTRL_START]⟩,
  ⟨"MARGIN_RESULT", 0x0a4, 1, 4, [F.cis_MARGIN_RESULT_LEFT, F.cis_MARGIN_RESULT_RIGHT, F.cis_MARGIN_RESULT_VLOW, F.cis_MARGIN_RESULT_VHIGH]⟩,
  ⟨"REPAIR_CTRL", 0x0b0, 1, 4, [F.cis_REPAIR_CTRL_OP, F.cis_REPAIR_CTRL_CHANNEL, F.cis_REPAIR_CTRL_TARGET, F.cis_REPAIR_CTRL_ROW]⟩,
  ⟨"REPAIR_STATUS", 0x0b4, 1, 4, [F.cis_REPAIR_STATUS_BUSY, F.cis_REPAIR_STATUS_RESULT, F.cis_REPAIR_STATUS_ROWS_REPAIRED]⟩,
  ⟨"SPARE_LANES", 0x0b8, 2, 4, [F.cis_SPARE_LANES_CH0, F.cis_SPARE_LANES_CH1, F.cis_SPARE_LANES_CH2, F.cis_SPARE_LANES_CH3, F.cis_SPARE_LANES_CH4, F.cis_SPARE_LANES_CH5, F.cis_SPARE_LANES_CH6, F.cis_SPARE_LANES_CH7, F.cis_SPARE_LANES_CH8, F.cis_SPARE_LANES_CH9, F.cis_SPARE_LANES_CH10, F.cis_SPARE_LANES_CH11, F.cis_SPARE_LANES_CH12, F.cis_SPARE_LANES_CH13, F.cis_SPARE_LANES_CH14, F.cis_SPARE_LANES_CH15]⟩,
  ⟨"PC_LAT", 0x100, 32, 4, [F.cis_PC_LAT_LAT_EVEN, F.cis_PC_LAT_LAT_ODD]⟩]

/-- The block registers of the cisq pages. -/
def cisqRegs : List Reg := [
  ⟨"HASH_CFG", 0x040, 1, 4, [F.cisq_HASH_CFG_CUR_VER, F.cisq_HASH_CFG_RECORDED]⟩,
  ⟨"SPREAD_LINES", 0x044, 1, 4, [F.cisq_SPREAD_LINES_LINES]⟩,
  ⟨"SPREAD_CAP", 0x048, 1, 4, [F.cisq_SPREAD_CAP_MIB]⟩,
  ⟨"WITHDRAWN_LINES", 0x04c, 1, 4, [F.cisq_WITHDRAWN_LINES_LINES]⟩,
  ⟨"RESERVE_USED", 0x050, 1, 4, [F.cisq_RESERVE_USED_GRANULES]⟩,
  ⟨"RESERVE_SIZE", 0x054, 1, 4, [F.cisq_RESERVE_SIZE_GRANULES]⟩,
  ⟨"SLOT_W", 0x100, 32, 4, [F.cisq_SLOT_W_W0, F.cisq_SLOT_W_W1, F.cisq_SLOT_W_W2, F.cisq_SLOT_W_W3, F.cisq_SLOT_W_W4, F.cisq_SLOT_W_W5, F.cisq_SLOT_W_W6, F.cisq_SLOT_W_W7]⟩,
  ⟨"EXC_W0", 0x200, 16, 16, [F.cisq_EXC_W0_VALID, F.cisq_EXC_W0_LOST, F.cisq_EXC_W0_STACK, F.cisq_EXC_W0_CHANNEL, F.cisq_EXC_W0_SURVIVORS]⟩,
  ⟨"EXC_W1", 0x204, 16, 16, [F.cisq_EXC_W1_RES_BASE]⟩,
  ⟨"EXC_W2", 0x208, 16, 16, [F.cisq_EXC_W2_MOVED_MARK]⟩,
  ⟨"EXC_W3", 0x20c, 16, 16, []⟩]

/-- The block registers of the bkt pages. -/
def bktRegs : List Reg := [
  ⟨"BUDGET", 0x040, 1, 4, [F.bkt_BUDGET_GRANTS]⟩,
  ⟨"ACTIVITY", 0x044, 1, 4, [F.bkt_ACTIVITY_UNITS_STARTED, F.bkt_ACTIVITY_TAGS_OPEN]⟩,
  ⟨"PROG_ADDR", 0x048, 1, 4, [F.bkt_PROG_ADDR_ADDR, F.bkt_PROG_ADDR_PC, F.bkt_PROG_ADDR_ALL]⟩,
  ⟨"PROG_DATA", 0x04c, 1, 4, [F.bkt_PROG_DATA_WORD]⟩,
  ⟨"COL_OPS_LO", 0x050, 1, 4, [F.bkt_COL_OPS_LO_COUNT]⟩,
  ⟨"COL_OPS_HI", 0x054, 1, 4, [F.bkt_COL_OPS_HI_COUNT]⟩,
  ⟨"YIELD_COUNT", 0x058, 1, 4, [F.bkt_YIELD_COUNT_COUNT]⟩,
  ⟨"YIELD_MAX_NS", 0x05c, 1, 4, [F.bkt_YIELD_MAX_NS_NS]⟩,
  ⟨"WL_UTIL", 0x060, 1, 4, [F.bkt_WL_UTIL_PEAK_PCT, F.bkt_WL_UTIL_PEAK_PC, F.bkt_WL_UTIL_MEAN_PCT]⟩,
  ⟨"POISON_LOG_LO", 0x064, 1, 4, [F.bkt_POISON_LOG_LO_PAGE_SLOT, F.bkt_POISON_LOG_LO_BP, F.bkt_POISON_LOG_LO_PC, F.bkt_POISON_LOG_LO_ROW, F.bkt_POISON_LOG_LO_COLUMN, F.bkt_POISON_LOG_LO_HALF]⟩,
  ⟨"POISON_LOG_HI", 0x068, 1, 4, [F.bkt_POISON_LOG_HI_TAG, F.bkt_POISON_LOG_HI_UE, F.bkt_POISON_LOG_HI_VALID]⟩,
  ⟨"PC_SEL", 0x070, 1, 4, [F.bkt_PC_SEL_PC]⟩,
  ⟨"UNIT_BUSY", 0x074, 1, 4, [F.bkt_UNIT_BUSY_UNIT, F.bkt_UNIT_BUSY_QUEUED]⟩,
  ⟨"RING_FILL", 0x078, 1, 4, [F.bkt_RING_FILL_BYTES]⟩]

/-- The block registers of the tnt0 pages. -/
def tnt0Regs : List Reg := [
  ⟨"T_CTRL", 0x040, 1, 4, [F.tnt0_T_CTRL_KEEP_WORK, F.tnt0_T_CTRL_SQ_IRQ, F.tnt0_T_CTRL_FLOG_IRQ, F.tnt0_T_CTRL_STATE_IRQ]⟩,
  ⟨"SQ_BASE_LO", 0x044, 1, 4, [F.tnt0_SQ_BASE_LO_ADDR]⟩,
  ⟨"SQ_BASE_HI", 0x048, 1, 4, [F.tnt0_SQ_BASE_HI_ADDR]⟩,
  ⟨"SQ_CFG", 0x04c, 1, 4, [F.tnt0_SQ_CFG_SIZE_LOG2]⟩,
  ⟨"TR_BASE_LO", 0x050, 1, 4, [F.tnt0_TR_BASE_LO_ADDR]⟩,
  ⟨"TR_BASE_HI", 0x054, 1, 4, [F.tnt0_TR_BASE_HI_ADDR]⟩,
  ⟨"TR_CFG", 0x058, 1, 4, [F.tnt0_TR_CFG_SIZE_LOG2]⟩,
  ⟨"SHADOW_LO", 0x05c, 1, 4, [F.tnt0_SHADOW_LO_ADDR]⟩,
  ⟨"SHADOW_HI", 0x060, 1, 4, [F.tnt0_SHADOW_HI_ADDR]⟩,
  ⟨"SQ_HEAD", 0x064, 1, 4, [F.tnt0_SQ_HEAD_INDEX]⟩,
  ⟨"TR_TAIL", 0x068, 1, 4, [F.tnt0_TR_TAIL_INDEX]⟩,
  ⟨"TR_IRQ_CNT", 0x06c, 1, 4, [F.tnt0_TR_IRQ_CNT_VALUE]⟩,
  ⟨"TR_IRQ_DELAY", 0x070, 1, 4, [F.tnt0_TR_IRQ_DELAY_VALUE]⟩,
  ⟨"KEPT_SESSIONS", 0x074, 1, 4, [F.tnt0_KEPT_SESSIONS_COUNT]⟩,
  ⟨"PEND_RECORDS", 0x078, 1, 4, [F.tnt0_PEND_RECORDS_COUNT]⟩]

/-- The block registers of the tnt1 pages. -/
def tnt1Regs : List Reg := [
  ⟨"SQ_DB", 0x040, 1, 4, [F.tnt1_SQ_DB_INDEX]⟩,
  ⟨"TR_DB", 0x044, 1, 4, [F.tnt1_TR_DB_INDEX]⟩]

/-- The block registers of the tnt2 pages. -/
def tnt2Regs : List Reg := [
  ⟨"FLOG_TAIL", 0x040, 1, 4, [F.tnt2_FLOG_TAIL_VALUE]⟩,
  ⟨"FLOG_HEAD", 0x044, 1, 4, [F.tnt2_FLOG_HEAD_VALUE]⟩,
  ⟨"FLOG_LOST", 0x048, 1, 4, [F.tnt2_FLOG_LOST_VALUE]⟩,
  ⟨"BAD_ACCESS", 0x04c, 1, 4, [F.tnt2_BAD_ACCESS_VALUE]⟩]

/-- The block registers of the tnt3 pages. -/
def tnt3Regs : List Reg := [
  ⟨"FLOG_REC", 0x100, 512, 4, [F.tnt3_FLOG_REC_RECORD]⟩]

/-- The block registers of the tnt4 pages. -/
def tnt4Regs : List Reg := [
  ⟨"OBJ_ATTR", 0x040, 1, 4, [F.tnt4_OBJ_ATTR_ATTR]⟩,
  ⟨"OBJ_SIZE", 0x044, 1, 4, [F.tnt4_OBJ_SIZE_TILES_M1, F.tnt4_OBJ_SIZE_HOME_QUAD]⟩,
  ⟨"OBJ_COMP", 0x048, 1, 4, [F.tnt4_OBJ_COMP_TBL_SLOT, F.tnt4_OBJ_COMP_SLOT_BYTES]⟩,
  ⟨"OBJ_GOLD_LO", 0x04c, 1, 4, [F.tnt4_OBJ_GOLD_LO_GOLDEN]⟩,
  ⟨"OBJ_GOLD_HI", 0x050, 1, 4, [F.tnt4_OBJ_GOLD_HI_GOLDEN]⟩,
  ⟨"OBJ_CMD", 0x054, 1, 4, [F.tnt4_OBJ_CMD_OBJ, F.tnt4_OBJ_CMD_OP, F.tnt4_OBJ_CMD_PROMOTE, F.tnt4_OBJ_CMD_TIER]⟩,
  ⟨"OBJ_STATUS", 0x058, 1, 4, [F.tnt4_OBJ_STATUS_BUSY, F.tnt4_OBJ_STATUS_DROPPED, F.tnt4_OBJ_STATUS_RESULT, F.tnt4_OBJ_STATUS_OBJ]⟩,
  ⟨"OBJ_QUERY", 0x060, 8, 4, [F.tnt4_OBJ_QUERY_ENTRY]⟩]

/-- The block registers of a page kind. The MSI-X page is laid out as the PCIe specification requires. -/
def blockRegs : PageKind → List Reg
  | .dir => dirRegs
  | .top => topRegs
  | .pci => pciRegs
  | .sec => secRegs
  | .pwr => pwrRegs
  | .pkg => pkgRegs
  | .tel => telRegs
  | .ras => rasRegs
  | .qdr => qdrRegs
  | .pmp => pmpRegs
  | .gll => gllRegs
  | .glr => glrRegs
  | .kpr => kprRegs
  | .ses => sesRegs
  | .wel => welRegs
  | .tir => tirRegs
  | .cmp => cmpRegs
  | .mxe => mxeRegs
  | .vxe => vxeRegs
  | .cis => cisRegs
  | .cisq => cisqRegs
  | .bkt => bktRegs
  | .tnt0 => tnt0Regs
  | .tnt1 => tnt1Regs
  | .tnt2 => tnt2Regs
  | .tnt3 => tnt3Regs
  | .tnt4 => tnt4Regs
  | .msix => []

end Sys2Proof.Machine
end

