-- ==== Sys2Proof/Machine/SMap.lean ====
section
/-! DEFINITION. Sparse maps by natural-number key in one canonical form: keys strictly rising, and no
entry equal to what an unlisted key reads as. Memory, registers and tables are held in them. -/
namespace Sys2Proof.Machine

/-- A sparse map: key and value pairs, keys strictly rising. -/
abbrev SMap (α : Type) := List (Nat × α)

/-- The listed value at key `k`, if there is one. -/
def SMap.find {α : Type} : SMap α → Nat → Option α
  | [], _ => none
  | (j, v) :: m, k => if j = k then some v else SMap.find m k

/-- The value at key `k`; an unlisted key reads as `d`. -/
def SMap.get {α : Type} (m : SMap α) (d : α) (k : Nat) : α := (SMap.find m k).getD d

/-- List `v` at key `k`, in its place in the order. -/
def SMap.put {α : Type} : SMap α → Nat → α → SMap α
  | [], k, v => [(k, v)]
  | (j, w) :: m, k, v =>
    if j = k then (k, v) :: m else if k < j then (k, v) :: (j, w) :: m else (j, w) :: SMap.put m k v

/-- Remove the entry of key `k`. -/
def SMap.del {α : Type} (m : SMap α) (k : Nat) : SMap α := m.filter (fun e => e.1 != k)

/-- Write `v` at key `k`, keeping the canonical form: writing the default removes the entry. -/
def SMap.set {α : Type} [DecidableEq α] (m : SMap α) (d : α) (k : Nat) (v : α) : SMap α :=
  if v = d then SMap.del m k else SMap.put m k v

/-- Write at key `k` a function of the value held there. -/
def SMap.upd {α : Type} [DecidableEq α] (m : SMap α) (d : α) (k : Nat) (f : α → α) : SMap α :=
  SMap.set m d k (f (SMap.get m d k))

/-- Keep only the entries whose key satisfies `p`: every other key reads as its default again. -/
def SMap.keep {α : Type} (m : SMap α) (p : Nat → Bool) : SMap α := m.filter (fun e => p e.1)

/-- The keys rise strictly. -/
def SMap.sorted {α : Type} : SMap α → Bool
  | [] => true
  | [_] => true
  | (j, _) :: (k, w) :: m => decide (j < k) && SMap.sorted ((k, w) :: m)

/-- The canonical form: keys strictly rising and no entry equal to the default. -/
def SMap.wf {α : Type} [DecidableEq α] (d : α) (m : SMap α) : Bool :=
  SMap.sorted m && m.all (fun e => decide (e.2 ≠ d))

/-- Write `vs` at consecutive keys from `k`. -/
def SMap.setList {α : Type} [DecidableEq α] (m : SMap α) (d : α) (k : Nat) : List α → SMap α
  | [] => m
  | v :: vs => SMap.setList (SMap.set m d k v) d (k + 1) vs

/-- The `n` values at consecutive keys from `k`. -/
def SMap.getList {α : Type} (m : SMap α) (d : α) (k : Nat) : Nat → List α
  | 0 => []
  | n + 1 => SMap.get m d k :: SMap.getList m d (k + 1) n

end Sys2Proof.Machine
end

