-- ==== Sys2Proof/Machine/TyBase.lean ====
section
/-! DEFINITION. Types that several blocks share: pages, log records, and what leaves the device. -/
namespace Sys2Proof.Machine

/-- A register page: its kind and its instance (R57). The instance of a tenant page is the tenant, of an MSI-X page the
function (0 PF, 1–64 tenants, 65 proxy). -/
structure Page where
  kind : PageKind
  inst : Nat
  deriving DecidableEq, Repr

/-- A record of the error log (R488) or of a tenant's fault log (R422): both are 32 bytes laid out alike. In a fault
record `kind` holds KIND in its low byte and STATUS in its high byte. -/
structure LogRec where
  kind : W16 := 0
  source : W16 := 0
  detail : W32 := 0
  addr : W64 := 0
  arg : W64 := 0
  stamp : W64 := 0
  deriving DecidableEq, Repr

/-- An SPDM response (R508, R510): the fields that the spec gives it. Their byte layout is the SPDM specification's. [PRESUMED: log entry 116] -/
inductive SpdmResp where
  /-- VERSION: the versions spoken, as major and minor. -/
  | version (major minor : Nat)
  /-- CAPABILITIES: CERT_CAP, CHAL_CAP, MEAS_CAP = signed, MEAS_FRESH_CAP; DataTransferSize and MaxSPDMmsgSize. -/
  | capabilities (cert chal measSigned fresh : Bool) (transfer maxMsg : Nat)
  /-- ALGORITHMS: whether SLH-DSA-SHAKE-256f, SHA3-512 and raw measurements are selected. -/
  | algorithms (slh sha3 raw : Bool)
  /-- DIGESTS of the slots named. -/
  | digests (slots : List (Nat × List Byte))
  /-- CERTIFICATE: a portion of a slot's chain, and the bytes that remain. -/
  | certificate (slot : Nat) (portion : List Byte) (remain : Nat)
  /-- CHALLENGE_AUTH: the chain's digest, the measurement summary, and the signature. -/
  | challengeAuth (slot : Nat) (digest summary sig : List Byte)
  /-- MEASUREMENTS: blocks of index, value type and value, and a signature when one was asked for; the number of blocks there
  are. -/
  | measurements (total : Nat) (blocks : List (Nat × Nat × List Byte)) (sig : Option (List Byte))
  /-- ERROR: InvalidRequest, or UnsupportedRequest. -/
  | error (unsupported : Bool)
  deriving DecidableEq, Repr

/-- What a block sends out of the device, in the order it is sent: TLPs, frames and pin answers. Host memory and the
link partner lie outside the model. [DESIGN CHOICE: log entries 10, 37, 121] -/
inductive Egress where
  /-- An MSI-X message of a function's vector: address and data as its table entry holds them. -/
  | msix (fn vec : Nat) (addr : W64) (data : W32)
  /-- A posted write to host memory by a function. -/
  | hostWrite (fn : Nat) (addr : W64) (data : List Byte)
  /-- A posted write of `len` zero bytes whose TLPs carry the Poisoned bit (R195). -/
  | hostPoison (fn : Nat) (addr : W64) (len : Nat)
  /-- A read request to host memory by a function. -/
  | hostRead (fn : Nat) (addr : W64) (len : Nat)
  /-- The completion data of a register read by a function. -/
  | regData (fn : Nat) (data : List Byte)
  /-- A completion without data: 1 UR, 4 CA. -/
  | cplStatus (fn : Nat) (status : Nat)
  /-- An Invalidate Completion of a function for a tag. -/
  | invalCpl (fn itag : Nat)
  /-- A column answer to the requester: the data, and its poison mark (R91, R93). -/
  | column (data : List Byte) (poison : Bool)
  /-- The old value an adder operation returns (R96), or none for a malformed operation (R97). -/
  | adder (old : Option (List Byte)) (poison : Bool)
  /-- A Glith frame sent on a port. -/
  | frame (port : Nat) (bytes : List Byte)
  /-- A link-level act of a port: 1 training pattern, 2 HELLO, 3 LINKCTL. -/
  | link (port act : Nat) (bytes : List Byte)
  /-- An SPDM response in the DOE mailbox. -/
  | spdm (msg : SpdmResp)
  /-- What TDO shifts out for a JTAG instruction. -/
  | jtag (data : List Byte)
  /-- The management bus answer: acknowledged or not, and bytes. -/
  | mgmt (ack : Bool) (data : List Byte)
  /-- A command or answer between the device's own blocks that software can observe: a code and bytes. -/
  | note (code : Nat) (data : List Byte)
  deriving DecidableEq, Repr

end Sys2Proof.Machine
end

