-- ==== Sys2Proof/Machine/TyBkt.lean ====
section
/-! DEFINITION. Types of in-stack attention (chapter 5): run entries, tags, bucket units, windlass transfers. -/
namespace Sys2Proof.Machine

/-- A run entry taken from a pseudo-channel's ring (R127). -/
structure RunEntry where
  pc : Nat
  bp : Nat
  pages : Nat
  slots : List Nat
  last : Nat
  tail : Bool
  deriving DecidableEq, Repr

/-- A tag's life (R146): not allocated, open, complete. -/
inductive TagLife where
  | free | opened | complete
  deriving DecidableEq, Repr

/-- A tag of a base die (R126, R129, R145). [DESIGN CHOICE: log entry 54] -/
structure BktTag where
  life : TagLife := .free
  /-- Its place in the order of OPENs (R131). -/
  order : Nat := 0
  /-- The tag record as it stood at OPEN. -/
  record : List Byte := []
  /-- The units that run it, as pseudo-channel × 16 + bank pair. -/
  units : List Nat := []
  /-- Pseudo-channels whose query has been broadcast, whose MAX_UP has passed, and whose MAX_DOWN has been issued. -/
  cast : List Nat := []
  maxUp : List Nat := []
  maxDown : List Nat := []
  /-- ACC_UP chunks passed, by pseudo-channel. -/
  accUp : SMap Nat := []
  /-- Pseudo-channels whose MAX_UP, or whose ACC_UP series, the base die has issued. -/
  maxIssued : List Nat := []
  accIssued : List Nat := []
  /-- Units that have reported DONE. -/
  dones : List Nat := []
  poison : Bool := false
  /-- Bank pairs whose units have met poison (R472). -/
  bad : List Nat := []
  nan : Bool := false
  /-- A misuse has made the tag's result undefined (R154). -/
  tainted : Bool := false
  deriving DecidableEq, Repr

/-- A windlass transfer waiting for the bus (R133): its type, unit, tag, index and payload. -/
structure Xfer where
  typ : Nat
  unit : Nat
  tag : Nat
  index : Nat
  data : List Byte := []
  deriving DecidableEq, Repr

/-- Where a unit stands in its tag. -/
inductive UnitPhase where
  | idle | started | running | atMax | atAcc
  deriving DecidableEq, Repr

/-- A bucket unit (R116). Scores by token × 8 + head, ACC by head × D + dimension. -/
structure BktUnit where
  /-- The tags it holds: the current one first, then the queued ones in the order of their OPENs. -/
  tags : List Nat := []
  /-- START has been sent for the first tag. -/
  sent : Bool := false
  phase : UnitPhase := .idle
  scale : BitVec 32 := 0
  shape : Nat := 0
  entry : Nat := 0
  pages : Nat := 0
  last : Nat := 0
  mask : BitVec 64 := 0
  tail : Bool := false
  /-- TAIL_VALID applies to this run. -/
  slots : List Nat := []
  /-- Query chunks latched for the current tag and for the next one, by INDEX. -/
  q0 : SMap (List Byte) := []
  q1 : SMap (List Byte) := []
  sc : SMap (BitVec 32) := []
  m : List (BitVec 32) := List.replicate 8 0xFF800000#32
  l : List (BitVec 32) := List.replicate 8 0#32
  acc : SMap (BitVec 32) := []
  page : Nat := 0
  nt : Nat := 0
  done : Bool := false
  poisoned : Bool := false
  pc : Nat := 0
  gaveMax : Bool := false
  gaveAcc : Bool := false
  nan : Bool := false
  corrected : Nat := 0
  ops : Nat := 0
  /-- Its copy of the micro-program store. -/
  prog : SMap (BitVec 32) := []
  deriving DecidableEq, Repr

/-- The bucket units, windlass buses and command windows of the stacks. -/
structure BktState where
  /-- Query areas by (stack × 256 + tag) × 4096 + byte. -/
  query : SMap Byte := []
  /-- Tag records by (stack × 256 + tag) × 64 + byte. -/
  record : SMap Byte := []
  /-- Run rings by (stack × 64 + pc) × 16384 + byte, with their published tails and heads. -/
  ring : SMap Byte := []
  tail : SMap Nat := []
  head : SMap Nat := []
  /-- Entries consumed from the rings, by stack × 256 + tag. -/
  entries : SMap (List RunEntry) := []
  tags : SMap BktTag := []
  /-- Combine slots by (stack × 256 + tag) × 2064 + word. -/
  slots : SMap (BitVec 32) := []
  /-- Units by (stack × 64 + pc) × 16 + bank pair. -/
  units : SMap BktUnit := []
  /-- Micro-program stores by (stack × 64 + pc) × 256 + address; an unlisted word is END (R136). -/
  store : SMap (BitVec 32) := []
  /-- Transfers waiting for a bus, by stack × 64 + pc, in the order they were issued. -/
  bus : SMap (List Xfer) := []
  /-- OPENs so far. -/
  opens : Nat := 0
  /-- Bank pairs retired (R472), as (stack × 64 + pc) × 16 + bank pair. -/
  retired : List Nat := []
  deriving DecidableEq, Repr

end Sys2Proof.Machine
end

