-- ==== Sys2Proof/Machine/TyBoot.lean ====
section
/-! DEFINITION. Types of boot and trust (chapter 16), of the package and its pins (chapter 17), and of the host port (chapter 13). -/
namespace Sys2Proof.Machine

/-- What the JTAG instruction register selects (R512). -/
inductive JtagIr where
  | bypass | idcode | sample | extest | clamp | highz | chal | resp | debug
  deriving DecidableEq, Repr

/-- The security block, the flash, the fuses, the pins and rails, and the host port. [DESIGN CHOICE: log entry 5] [PRESUMED: log entry 122] -/
structure BootState where
  /-- PERST# is low. -/
  perst : Bool := true
  /-- VAUX is good; VIN is applied and its rails are on; a thermal trip holds them off (R522 to R525). -/
  vaux : Bool := true
  vin : Bool := true
  tripped : Bool := false
  /-- Orders 1 to 7 of R493 are passed, and order 8 is under way: its stacks come up. -/
  running : Bool := false
  /-- The ROM is in recovery (R501). -/
  recovery : Bool := false
  /-- The image slot of the flash, from its first byte, and the board configuration region's first 16 bytes (R496). -/
  slot : List Byte := []
  board : List Byte := []
  /-- An image whose write to the slot is under way (R502, R503); `true`: the ROM goes on to run it once it is written. -/
  writing : Option (List Byte × Bool) := none
  /-- A warm device reset waits at order 6 for that write (R503). -/
  warmWaits : Bool := false
  /-- A LOAD whose host read is outstanding (R502). -/
  loading : Bool := false
  /-- SVN of the image verified last, and measurements 2 to 8 by index (R510). -/
  svn : Nat := 0
  fromHost : Bool := false
  meas : SMap (List Byte) := []
  /-- The profile blobs of the running image (R498), by profile: their digests. -/
  blobs : List (List Byte) := []
  /-- The fused counter, and the PROD and DEBUG_DISABLE fuses (R500, SEC.FUSE_STATUS). -/
  fuse : Nat := 0
  prod : Bool := false
  debugDis : Bool := false
  /-- A profile that PROFILE_SELECT has chosen for the warm reset under way (R505). -/
  newProfile : Option Nat := none
  /-- The nonce of the last UNLOCK_CHAL since cold reset (R513). -/
  nonce : Option (List Byte) := none
  /-- NEGOTIATE_ALGORITHMS has been answered (R508). -/
  negotiated : Bool := false
  /-- The JTAG instruction in force, and the boundary scan register (R512). -/
  ir : JtagIr := .idcode
  bsr : List Byte := []
  /-- The dynamic address of the management bus (R521). -/
  dyn : Option Nat := none
  /-- Entries of the address translation cache, oldest first, as sump chunk numbers; chunks whose last
  translation failed; Invalidate Requests not yet completed, as tags (R417 to R419). -/
  atc : List Nat := []
  atcBad : List Nat := []
  invals : List Nat := []
  deriving DecidableEq, Repr

end Sys2Proof.Machine
end

