-- ==== Sys2Proof/Machine/Rs.lean ====
section
/-! DEFINITION. The cistern code: a Reed–Solomon code over GF(2^8) on a 32-byte column with four check bytes, and the
poison mark (R90, R92). -/
namespace Sys2Proof.Machine

/-- Multiply by x in GF(2^8) with field polynomial x^8 + x^4 + x^3 + x^2 + 1. -/
def gfX (a : Nat) : Nat := if a < 128 then 2 * a else (2 * a) ^^^ 0x11D

/-- Product in GF(2^8): the low `n` bits of `b` times `a`. -/
def gfMulN : Nat → Nat → Nat → Nat
  | 0, _, _ => 0
  | n + 1, a, b => (if b % 2 = 1 then a else 0) ^^^ gfMulN n (gfX a) (b / 2)

/-- Product in GF(2^8). -/
def gfMul (a b : Nat) : Nat := gfMulN 8 a b

/-- A power in GF(2^8). -/
def gfPow (a : Nat) : Nat → Nat
  | 0 => 1
  | n + 1 => gfMul a (gfPow a n)

/-- Inverse in GF(2^8): a^254. -/
def gfInv (a : Nat) : Nat := gfPow a 254

/-- One step of the division by g(x) = x^4 + 0x0F x^3 + 0x36 x^2 + 0x78 x + 0x40, the product of x − α^i for i = 0–3:
the four remainder coefficients, x^3 first, and the next data byte. -/
def rsStep (r : Nat × Nat × Nat × Nat) (d : Nat) : Nat × Nat × Nat × Nat :=
  let f := d ^^^ r.1
  (r.2.1 ^^^ gfMul 0x0F f, r.2.2.1 ^^^ gfMul 0x36 f, r.2.2.2 ^^^ gfMul 0x78 f, gfMul 0x40 f)

/-- The four check bytes of a column's data (R90). -/
def rsCheck (data : List Byte) : List Byte :=
  let r := data.foldl (fun r d => rsStep r d.toNat) (0, 0, 0, 0)
  [BitVec.ofNat 8 r.1, BitVec.ofNat 8 r.2.1, BitVec.ofNat 8 r.2.2.1, BitVec.ofNat 8 r.2.2.2]

/-- A column: 32 data bytes, then the four check bytes. -/
abbrev Column := List Byte

/-- The column of zeros, a code word (R112). -/
def zeroCol : Column := List.replicate 36 0#8

/-- The code word of a column's data. -/
def encodeCol (data : List Byte) : Column := slice data 0 32 ++ rsCheck (slice data 0 32)

/-- Syndrome i: the received word at α^i, byte 0 being the coefficient of x^35. -/
def syndrome (bytes : List Byte) (i : Nat) : Nat :=
  bytes.foldl (fun a b => gfMul a (gfPow 2 i) ^^^ b.toNat) 0

/-- The four syndromes. -/
def syndromes (bytes : List Byte) : List Nat := (List.range 4).map (syndrome bytes)

/-- The check bytes that replace the zeros of an all-zero column in the definition of poison, first check byte first
(R92). [DEDUCED: log entry 38] -/
def poisonCheck : List Byte := [0xE3#8, 0x1B#8, 0x5C#8, 0xA6#8]

/-- The poison syndrome (R92). -/
def poisonSyndrome : List Nat := syndromes (List.replicate 32 0#8 ++ poisonCheck)

/-- A column poisoned: its data kept, and its check bytes set so that the syndrome is the poison syndrome. [DEDUCED: log entry 38] -/
def poisonCol (data : List Byte) : Column :=
  slice data 0 32 ++ List.zipWith (fun a b => a ^^^ b) (rsCheck (slice data 0 32)) poisonCheck

/-- The locator of byte position i: α^(35 − i). -/
def locator (i : Nat) : Nat := gfPow 2 (35 - i)

/-- The single-byte error, position and value, with syndromes `s`, if there is one. -/
def findOne (s0 s1 s2 s3 : Nat) : Option (Nat × Nat) :=
  ((List.range 36).find? (fun i =>
    let x := locator i
    gfMul s0 x == s1 && gfMul s1 x == s2 && gfMul s2 x == s3)).map (fun i => (i, s0))

/-- The values of the errors at positions i < j that give syndromes s0 and s1. -/
def solveTwo (s0 s1 i j : Nat) : Nat × Nat :=
  let x := locator i
  let y := locator j
  let ej := gfMul (s1 ^^^ gfMul x s0) (gfInv (x ^^^ y))
  (s0 ^^^ ej, ej)

/-- Positions i < j at which two byte errors give the syndromes. -/
def findTwo (s0 s1 s2 s3 : Nat) : Option (Nat × Nat) :=
  ((List.range 36).flatMap (fun j => (List.range j).map (fun i => (i, j)))).find? (fun p =>
    let x := locator p.1
    let y := locator p.2
    let e := solveTwo s0 s1 p.1 p.2
    gfMul e.1 (gfMul x x) ^^^ gfMul e.2 (gfMul y y) == s2
      && gfMul e.1 (gfMul x (gfMul x x)) ^^^ gfMul e.2 (gfMul y (gfMul y y)) == s3)

/-- What decoding a column finds (R90 to R93). -/
inductive ColDec where
  | clean
  | fixed (c : Column)
  | poisoned
  | uncorrectable
  deriving DecidableEq, Repr

/-- Exclusive-or byte `v` into position `i`. -/
def xorAt (bytes : List Byte) (i v : Nat) : List Byte :=
  bytes.modify i (fun b => b ^^^ BitVec.ofNat 8 v)

/-- Decode a column: poison is recognised before a correction is attempted (R92); every error confined to one or two
bytes is corrected (R90). -/
def decodeCol (c : Column) : ColDec :=
  match syndromes c with
  | [0, 0, 0, 0] => .clean
  | [s0, s1, s2, s3] =>
    if [s0, s1, s2, s3] = poisonSyndrome then .poisoned
    else
      match (if s0 = 0 then none else findOne s0 s1 s2 s3) with
      | some (i, v) => .fixed (xorAt c i v)
      | none =>
        match findTwo s0 s1 s2 s3 with
        | some (i, j) =>
          let e := solveTwo s0 s1 i j
          .fixed (xorAt (xorAt c i e.1) j e.2)
        | none => .uncorrectable
  | _ => .clean

end Sys2Proof.Machine
end

