-- ==== Sys2Proof/Machine/TyCis.lean ====
section
/-! DEFINITION. Types of host time (chapter 2) and of the Cisterns (chapter 4). -/
namespace Sys2Proof.Machine

/-- A block's stopwatch (R44): its count, its scale (none: the factory nominal value) and its reference. -/
structure Stopwatch where
  count : Nat := 0
  scale : Option Nat := none
  refHost : Nat := 0
  refCount : Nat := 0
  haveRef : Bool := false
  deriving DecidableEq, Repr

/-- Channel states (R102). -/
inductive ChState where
  | off | online | retrainPending | retraining | margin | migrating | retired | lost
  deriving DecidableEq, Repr

/-- The code of a channel state (R102). -/
def ChState.code : ChState → Nat
  | .off => 0 | .online => 1 | .retrainPending => 2 | .retraining => 3
  | .margin => 4 | .migrating => 5 | .retired => 6 | .lost => 7

/-- A channel: its state, a map-out latched during a retrain, a map-out in progress, a retrain pending while it
migrates (R102). -/
structure Chan where
  st : ChState := .off
  mapLatched : Bool := false
  moving : Bool := false
  retrainPend : Bool := false
  deriving DecidableEq, Repr

/-- An exception entry (R105). -/
structure ExcEntry where
  valid : Bool := false
  lost : Bool := false
  stack : Nat := 0
  channel : Nat := 0
  survivors : Nat := 0
  resBase : Nat := 0
  movedMark : Nat := 0
  deriving DecidableEq, Repr

/-- A controller request that waits for a parked channel (R104): a read, a write or an adder operation of a granule. -/
inductive ColReq where
  | read (col : Nat)
  | write (off : Nat) (data : List Byte)
  | adder (op off : Nat) (data : List Byte)
  deriving DecidableEq, Repr

/-- A held request: the channel it waits for and the granule it names. -/
structure HeldReq where
  stack : Nat
  channel : Nat
  gran : Gran
  req : ColReq
  deriving DecidableEq, Repr

/-- A repair under way in a stack (R113). -/
structure Repair where
  rowOp : Bool
  channel : Nat
  target : Nat
  row : Nat
  deriving DecidableEq, Repr

/-- A stripe of reserve filled with poisoned columns (R109): in the pseudo-channels `pcs` of a quadrant, the granules at the
reserve offsets from `lo` to `hi - 1`. `top` is the local granule that reserve offset 98,304 names (R106). [DESIGN CHOICE: log entry 48] -/
structure Fill where
  quad : Nat
  pcs : List Nat
  lo : Nat
  hi : Nat
  top : Nat
  deriving DecidableEq, Repr

/-- The stacks, their base dies and the quadrants' spread hashes. [DEDUCED: log entry 28] -/
structure CisState where
  /-- Columns by index ((stack × 64 + pc) × 32 + bank) × 49,152 × 32 + row × 32 + column: 32 data bytes, then the four
  check bytes. An unlisted column is zero with valid check bytes (R112), or poisoned inside a filled stripe (R109). -/
  cols : SMap Column := []
  /-- Stripes filled with poisoned columns (R109). -/
  fills : List Fill := []
  /-- Channels by stack × 32 + channel. -/
  chan : SMap Chan := []
  /-- Exception entries by quadrant × 16 + index. -/
  exc : SMap ExcEntry := []
  /-- Lines withdrawn, by quadrant (R108). -/
  withdrawn : SMap Nat := []
  /-- RESERVE_USED by quadrant (R105). -/
  resUsed : SMap Nat := []
  /-- Channels with a retrain pending, as stack × 32 + channel, in order of their requests (R103). -/
  retrainQ : List Nat := []
  /-- Requests that wait for a parked channel, oldest first (R104). -/
  held : List HeldReq := []
  /-- Requests held at bank pairs for a yield point (R147). -/
  yield : List HeldReq := []
  /-- Corrections in this window by stack × 64 + pseudo-channel (R91). -/
  ceWin : SMap Nat := []
  /-- Interface retries in this window by stack × 32 + channel (R102). -/
  linkWin : SMap Nat := []
  /-- The next column of each stack's scrub pass (R95). -/
  scrubAt : SMap Nat := []
  /-- Stacks in self-refresh (R114). -/
  selfRefresh : List Nat := []
  /-- Repairs under way by stack (R113). -/
  repair : SMap (Option Repair) := []
  /-- Spare rows used by (stack × 64 + pc) × 32 + bank (R113). -/
  rowsUsed : SMap Nat := []
  /-- A margin measurement under way in a stack. -/
  measuring : List Nat := []
  /-- Consecutive windows in which a quadrant pseudo-channel was slow, and not slow, by quadrant × 320 + index. -/
  slowRun : SMap Nat := []
  fastRun : SMap Nat := []
  /-- Stacks handed over for retirement (R110), and stacks whose weights wait for a free slot-table version (R476). -/
  dead : List Nat := []
  weightPend : List Nat := []
  deriving DecidableEq, Repr

end Sys2Proof.Machine
end

