-- ==== Sys2Proof/Machine/TyEng.lean ====
section
/-! DEFINITION. Types of the matrix and vector engines (chapters 8 to 10). -/
namespace Sys2Proof.Machine

/-- Where a latched or staged tile came from: the function, object and 64 KiB unit of a priming entry, or a tile-store
address. -/
inductive TileSrc where
  | object (fn obj unit : Nat)
  | frame (addr : Nat)
  | pump
  deriving DecidableEq, Repr

/-- A tile in a weight latch (R224): its bytes, its poison mark (R225), the scale plane bound to it and the scale-store
buffer that holds the plane (R223), its source, and whether an absent table or a bad size filled it with zeros (R213). -/
structure LatchTile where
  data : List Byte := []
  poison : Bool := false
  plane : Option (List Byte) := none
  scaleBuf : Option Nat := none
  src : TileSrc := .pump
  bad : Nat := 0
  /-- The feed entry was a Y program's. -/
  y : Bool := false
  deriving DecidableEq, Repr

/-- A buffer of the scale store (R223): its planes in order, how many are bound, and how many bound tiles are still
latched. -/
structure ScaleBuf where
  planes : List (List Byte) := []
  bound : Nat := 0
  live : Nat := 0
  deriving DecidableEq, Repr

/-- A staged priming frame (R186, R211): the frame, its source, the bytes it holds when it is a compressed unit (none: a
plain tile), and its schedule layer and kind. -/
structure Staged where
  frame : Nat
  src : TileSrc
  comp : Bool := false
  /-- A PACKED unit's group starts and ends within its staged bytes. -/
  words : List Nat := []
  /-- Error of the unit: 0 none, 1 TBL_STALE, 2 MALFORMED (R213). -/
  bad : Nat := 0
  model : Nat := 0
  layer : Nat := 0
  /-- The generation a compressed unit references (R213). -/
  tbl : Option (Nat × Nat) := none
  deriving DecidableEq, Repr

/-- An entry of the feed queue (R291): a SCALE or a FEED tile, from priming frames or from a tile-store address. -/
structure FeedEntry where
  scale : Bool
  prime : Bool
  wide : Bool
  addr : Nat
  y : Bool
  deriving DecidableEq, Repr

/-- A register context of a vector engine with its program (R238, R247, R279, R301): the program's state, its next
address, round, class and function; its V registers by register × 128 + element, its mask bits by mask × 8,192 +
position, its sync counters. -/
structure ProgCtx where
  /-- The address the program started at. -/
  entry : Nat := 0
  /-- The last summary posted and its type, for the branch word (R361). -/
  summary : Nat := 0
  sumInt : Bool := false
  /-- What a yielded program had in the latches, the scale store and the feed queue (R293). -/
  saved : Option (List (Option LatchTile) × Nat × List ScaleBuf × Nat × List FeedEntry) := none
  started : Bool := false
  yielded : Bool := false
  claimed : Bool := false
  waitBranch : Bool := false
  pc : Nat := 0
  round : Nat := 0
  cls : Nat := 0
  func : Nat := 0
  /-- Started through MXE.RUN (R240). -/
  test : Bool := false
  v : SMap (BitVec 32) := []
  m : SMap Bool := []
  sc : SMap Nat := []
  /-- The next row of a row-repeat instruction that yielded between rows, and the flags its rows have raised (R279). -/
  row : Option Nat := none
  rowFlags : Nat := 0
  /-- The MX instruction in hand has found no filled latch, or a poisoned tile (R224, R225). -/
  waited : Bool := false
  poisonWaited : Bool := false
  /-- A GET or PUT of the program ended other than OK (R292). -/
  faulted : Bool := false
  /-- A misuse has made the program's results undefined (R245, R283). -/
  tainted : Bool := false
  /-- The function of the context's last program, for the zeroing of R276. -/
  lastFunc : Nat := 0
  deriving DecidableEq, Repr

/-- A matrix engine with the vector engine beside it (R217, R247). -/
structure Eng where
  latch : List (Option LatchTile) := [none, none]
  cur : Nat := 0
  scale : List ScaleBuf := [{}, {}]
  /-- The scale-store buffer that binds next. -/
  bind : Nat := 0
  /-- Row-buffer bytes by row × 16,384 + byte. -/
  rows : SMap Byte := []
  /-- Accumulators by tile × 65,536 + row × 256 + column, and which tiles are INT32. -/
  acc : SMap (BitVec 32) := []
  accInt : List Bool := [false, false, false, false]
  /-- Row sets by set × 256 + row. -/
  rs : SMap Bool := []
  /-- The words of the program store written since it was cleared (R241). -/
  prog : SMap (BitVec 128) := []
  /-- The keeper has loaded the store with the firmware's programs (R241), whose words are free: the draw of its first word. -/
  fw : Option Nat := none
  feed : List FeedEntry := []
  staged : List Staged := []
  /-- The smoothing queue of the engine-feed pump (R211): expanded units, and the frames they came from. -/
  smooth : List (LatchTile × Nat) := []
  g : ProgCtx := {}
  y : ProgCtx := {}
  /-- The function each resource was last granted to, plus one (R276): accumulator tile t as t, row set k as 16 + k, row r as
  256 + r, frame f as 1,024 + f. -/
  granted : SMap Nat := []
  /-- The cause that put the engine into FAULT: c of its MXE page, 32 + c of its VXE page (R472). -/
  faultCause : Nat := 0
  deriving DecidableEq, Repr

end Sys2Proof.Machine
end

