-- ==== Sys2Proof/Machine/TyGll.lean ====
section
/-! DEFINITION. Types of the Quadrille schedulers (chapter 12) and of the Glith link (chapter 14). -/
namespace Sys2Proof.Machine

/-- A Glith frame but for its trailer (R434). -/
structure Frm where
  typ : Nat
  vl : Nat := 0
  last : Bool := false
  seq : Nat := 0
  dst : Nat := 0
  src : Nat := 0
  tid : Nat := 0
  op : Nat := 0
  func : Nat := 0
  status : Nat := 0
  hops : Nat := 0
  addr : Nat := 0
  arg : Nat := 0
  payload : List Byte := []
  deriving DecidableEq, Repr

/-- PLEN (R434). -/
def Frm.plen (f : Frm) : Nat := f.payload.length / 32
/-- The length of a frame in bytes (R434). -/
def Frm.len (f : Frm) : Nat := 40 + 32 * f.plen
/-- The credits a frame uses (R438). -/
def Frm.credits (f : Frm) : Nat := 2 + f.plen

/-- What a queue of a scheduler holds: a Glith frame, or the bytes of another egress's frame. -/
inductive QLoad where
  | glith (f : Frm)
  | raw (bytes : List Byte)
  deriving DecidableEq, Repr

/-- A queued frame: its length as R364 counts it, and what it carries. -/
structure QFrame where
  len : Nat
  load : QLoad
  deriving DecidableEq, Repr

/-- A queue of a scheduler (R369, R371, R379): its frames, its credit in 1/65,536 B, its deficit, its freshness, and its
measurements in the present telemetry window. -/
structure QQueue where
  frames : List QFrame := []
  credit : Int := 0
  deficit : Nat := 0
  fresh : Bool := false
  maxDepth : Nat := 0
  sumDelay : Nat := 0
  maxDelay : Nat := 0
  sent : Nat := 0
  sentBytes : Nat := 0
  lowCredit : Int := 0
  deriving DecidableEq, Repr

/-- An entry of a gate list (R373). -/
structure GateEntry where
  dur : Nat
  class1 : Bool
  floor : Bool
  ens : Nat
  deriving DecidableEq, Repr

/-- A gate list in force (R373). -/
structure GateList where
  start : Nat
  cycle : Nat
  entries : List GateEntry
  deriving DecidableEq, Repr

/-- A Quadrille scheduler: its active ensemble queues in order, its operational gate list and current entry, the pending
commit's base and start, and the time of the last publication it took (R369, R374 to R376). -/
structure Qdr where
  active : List Nat := []
  oper : Option GateList := none
  cur : Nat := 0
  pend : Option (Nat × Option Nat) := none
  last : Nat := 0
  deriving DecidableEq, Repr

/-- A Glith port beside its registers (R428, R438 to R441). Credits are listed by virtual lane. -/
structure GPort where
  /-- It has trained and sent HELLO. -/
  trained : Bool := false
  /-- Consecutive failed training attempts (R431). -/
  fails : Nat := 0
  /-- Width before the retrain (R431). -/
  oldWidth : Nat := 0
  /-- Waits to go OFF once the frames it holds have left (R432). -/
  disabling : Bool := false
  /-- The credits the partner advertised. -/
  txMax : SMap Nat := []
  /-- Receive credits in use, and credits to be returned. -/
  rxUsed : SMap Nat := []
  owed : SMap Nat := []
  /-- Frames not yet acknowledged, oldest first. -/
  unacked : List Frm := []
  /-- A NAK is outstanding for RX_EXPECT, and how many have been sent for it (R440, R449). -/
  nakOut : Bool := false
  nakCount : Nat := 0
  /-- Replays without the acknowledged sequence advancing (R430). -/
  replays : Nat := 0
  /-- An acknowledgement waits to leave (R436). -/
  ackDue : Bool := false
  /-- Accepted frames for other devices, with the port they came in on (R443). -/
  rxq : List Frm := []
  deriving DecidableEq, Repr

/-- A frame of this device that waits to join a port's queue. -/
structure OutFrame where
  port : Nat
  queue : Nat
  frame : Frm
  deriving DecidableEq, Repr

/-- The schedulers and the link. -/
structure LinkState where
  /-- Schedulers by instance. -/
  qdr : SMap Qdr := []
  /-- Queues by instance × 128 + queue: 0–63 ensemble, 64 class 0, 65 class 1, 66 floor. -/
  queues : SMap QQueue := []
  ports : SMap GPort := []
  /-- Frames that wait to join their queue, oldest first. -/
  out : List OutFrame := []
  deriving DecidableEq, Repr

/-- The telemetry (R381 to R385): schedulers whose next QUEUE records carry HWM, and each block's window length in force (ns)
and the number of its open window, once it has one; windows in succession over PKG_LIMIT (R524). -/
structure TelState where
  hwm : List Nat := []
  wins : SMap (Nat × Nat) := []
  overTime : Nat := 0
  deriving DecidableEq, Repr

end Sys2Proof.Machine
end

