-- ==== Sys2Proof/Machine/TyPmp.lean ====
section
/-! DEFINITION. Types of pumps and decoding tables (chapter 7). -/
namespace Sys2Proof.Machine

/-- A generation of a decoding table: its number (0: none), its 48 bytes and the references held on it, over all pumps
(R207). -/
structure TblGen where
  num : Nat := 0
  data : List Byte := []
  refs : Nat := 0
  deriving DecidableEq, Repr

/-- A decoding table slot (R207): the current and the retiring generation, a held write, and the number of the
descriptor whose first pass made it (0: a commit made it). -/
structure TblSlot where
  cur : TblGen := {}
  ret : TblGen := {}
  held : Option (List Byte) := none
  heldBy : Nat := 0
  deriving DecidableEq, Repr

/-- A PF queue of a pump page beside its registers: whether the last fetched descriptor's chain goes on, the number of
that chain, whether it has failed, and how many of its descriptors ended OK (R194, R196, R198). -/
structure PmpQueue where
  chain : Bool := false
  chainId : Nat := 0
  failed : Bool := false
  ok : Nat := 0
  deriving DecidableEq, Repr

/-- A request of a link pump that waits for its reply (R445, R446): its transaction identifier, the peer, its frame type,
the peer address, the bytes asked for or sent, and their place in the descriptor. -/
structure PeerReq where
  tid : Nat
  dev : Nat
  typ : Nat
  addr : Nat
  len : Nat
  off : Nat
  deriving DecidableEq, Repr

/-- A descriptor in flight beyond the step that fetched it: one whose peer requests wait for replies, or one whose table
write is held (R209). -/
structure Flying where
  id : Nat
  page : Nat
  pump : Nat
  queue : Option Nat
  /-- The descriptor's 64 bytes. -/
  desc : List Byte
  /-- Its chain, and how many of the chain's descriptors ended OK before it. -/
  chainId : Nat := 0
  okBefore : Nat := 0
  /-- Transient pins it holds, as object keys (R199). -/
  pins : List Nat := []
  /-- The table slot and generation it references. -/
  table : Option (Nat × Nat) := none
  /-- The slot whose held write it waits for (R209). -/
  waits : Option Nat := none
  /-- Its held contents were replaced: it completes TBL_STALE (R209). -/
  stale : Bool := false
  reqs : List PeerReq := []
  /-- The first failure so far: status, reply status and address. -/
  bad : Option (Nat × Nat × Nat) := none
  poison : Bool := false
  old : Nat := 0
  /-- The source bytes a waiting COMPRESS has read. -/
  data : List Byte := []
  /-- The round in flight that a class-0 descriptor serves, 0 for none (R365, R478). -/
  round : Nat := 0
  deriving DecidableEq, Repr

/-- The pumps, the decoding tables and the tile stores. -/
structure PmpState where
  slots : SMap TblSlot := []
  queues : SMap PmpQueue := []
  flying : List Flying := []
  nextId : Nat := 1
  /-- Pumps retired (R472), as page × 8 + pump. -/
  retired : List Nat := []
  /-- Next transaction identifier of the link pumps. -/
  nextTid : Nat := 0
  /-- Transaction identifiers of requests that have timed out (R446). -/
  late : List Nat := []
  /-- Rounds of which a remote request has ended other than OK (R478). -/
  lostRounds : List Nat := []
  /-- Tile-store bytes by engine × 2^22 + byte, and their uncorrectable 64-bit words by engine × 2^19 + word (R218). -/
  store : SMap Byte := []
  storeBad : SMap Bool := []
  deriving DecidableEq, Repr

end Sys2Proof.Machine
end

