-- ==== Sys2Proof/Machine/TyMem.lean ====
section
/-! DEFINITION. Types of the tiers (chapter 6): objects, tiles, Well frames, spread lines, moves. -/
namespace Sys2Proof.Machine

/-- Object states (R168). -/
inductive ObjState where
  | free | creating | ready | migrating | releasing | quarantined
  deriving DecidableEq, Repr

/-- The code of an object state (R78). -/
def ObjState.code : ObjState → Nat
  | .free => 0 | .creating => 1 | .ready => 2 | .migrating => 3 | .releasing => 4 | .quarantined => 5

/-- An object table entry (R78), with the two kinds of pin it counts kept apart (R169). -/
structure Obj where
  st : ObjState := .free
  layout : Nat := 0
  full : Bool := false
  pref : Nat := 0
  comp : Nat := 0
  gold : Nat := 0
  readOnly : Bool := false
  tilesM1 : Nat := 0
  home : Nat := 0
  /-- Slot-table versions recorded, two bits per quadrant (R47). -/
  slotVer : Nat := 0
  tblSlot : Nat := 0
  tblGen : Nat := 0
  slotBytes : Nat := 0
  golden : BitVec 64 := 0
  lastUse : BitVec 64 := 0
  /-- Command pins and transient pins. -/
  pins : Nat := 0
  transient : Nat := 0
  migLock : Bool := false
  /-- A RELEASE waits for the tile move under way (R168). -/
  releaseWaits : Bool := false
  deriving DecidableEq, Repr

/-- A place in the stacks: position `pos` (of 256 granules) of a spread line of a quadrant or of a full-spread line
(R159), or four page slots of a bank pair (R89). -/
inductive StackLoc where
  | spread (q line pos : Nat)
  | full (line pos : Nat)
  | banked (st pc bp slot : Nat)
  deriving DecidableEq, Repr

/-- Where a tile's copies lie (R156): its backing place in the stacks, its Well frame (quadrant × 4,096 + frame), its sump
unit; `gold` when only the golden source holds it (R174). [DESIGN CHOICE: log entry 62] -/
structure TileRec where
  stack : Option StackLoc := none
  well : Option Nat := none
  sump : Option Nat := none
  gold : Bool := false
  /-- The stack tile has been written since its sump copy was made (R173). -/
  dirty : Bool := false
  /-- Every copy has been destroyed: it reads poisoned until it is written (R455). -/
  lost : Bool := false
  deriving DecidableEq, Repr

/-- A Well frame: the tile it holds (key + 1, 0 for none) and its dirty granules (R173). -/
structure Frame where
  owner : Nat := 0
  dirty : List Nat := []
  deriving DecidableEq, Repr

/-- A spread line in use: the slot-table versions of its tiles, two bits per quadrant, whether it is a full-spread line,
and the positions taken (R159). -/
structure LineRec where
  ver : Nat := 0
  full : Bool := false
  used : List Nat := []
  deriving DecidableEq, Repr

/-- A tile move, waiting or under way (R172): the tile, the tier it moves to (0 Well, 1 stack, 2 sump) and, for the Well,
the quadrant of the access. -/
structure Move where
  fn : Nat
  obj : Nat
  tile : Nat
  dest : Nat
  quad : Nat
  active : Bool := false
  deriving DecidableEq, Repr

/-- A piece of data read or to be written: bytes of one column, and their poison mark. -/
abbrev Piece := List Byte × Bool

/-- An entry of a priming schedule (R184): kind 0 DENSE, 1 EXPERT, 2 ADAPTER. -/
structure SchedEntry where
  src : Nat
  tiles : Nat
  engine : Nat
  kind : Nat
  sel : Nat
  deriving DecidableEq, Repr

/-- A priming schedule (R184): its DVA in the PF space, LAYER_FIRST, and its entries. -/
structure Schedule where
  dva : Nat
  first : List Nat
  entries : List SchedEntry
  deriving DecidableEq, Repr

/-- The tiers. [DESIGN CHOICE: log entry 29] -/
structure MemState where
  /-- Object table entries by function × 65,536 + index (R78). -/
  objs : SMap Obj := []
  /-- Tiles by (function × 65,536 + index) × 65,536 + tile. -/
  tiles : SMap TileRec := []
  /-- Well frames by quadrant × 4,096 + frame. -/
  frames : SMap Frame := []
  /-- Well bytes by (quadrant × 4,096 + frame) × 65,536 + byte. -/
  well : SMap Byte := []
  /-- Well words in error, by byte key div 8: 1, 2 or 3 bits inverted, or 4 uncorrectable (R163, R490). -/
  wellBad : SMap Nat := []
  /-- Spread lines in use, by quadrant × 2^20 + line. -/
  lines : SMap LineRec := []
  /-- Page slots in use, by bank pair × 8,192 + slot. -/
  slots : SMap Bool := []
  /-- Sump units in use (their owner + 1), their bytes by unit × 65,536 + byte, and their poisoned 32-byte pieces. -/
  sumpUse : SMap Nat := []
  sump : SMap Byte := []
  sumpBad : SMap Bool := []
  /-- The bytes a golden source holds for a tile that has left the stack without a sump copy (R174), by tile key × 65,536
  + byte. -/
  goldBytes : SMap Byte := []
  /-- Moves waiting and under way, in order. -/
  moves : List Move := []
  /-- Well words corrected in this window, by quadrant (WEL.CE_THRESH). -/
  wellCe : SMap Nat := []
  /-- PRIME_CFG.FRAMES in force, by quadrant: a write takes effect at the next layer boundary. -/
  primeNow : SMap Nat := []
  /-- Slices switching from cache to scratchpad, as quadrant × 64 + slice (R162). -/
  switching : List Nat := []
  /-- Destroyed tiles whose golden bytes are being read, and those of an object that have none (R455). -/
  restoring : List Nat := []
  unrest : List Nat := []
  /-- Tiles under refetch, with the attempts made (R482, R484). -/
  refetch : SMap Nat := []
  deriving DecidableEq, Repr

end Sys2Proof.Machine
end

