-- ==== Sys2Proof/Machine/TySes.lean ====
section
/-! DEFINITION. Types of keepers, sessions, requests, rounds, the journal and the prefix tree (chapters 1, 11, 13, 15). -/
namespace Sys2Proof.Machine

/-- A chunk of a session's prompt rows that runs as a PROMPT program (R358): its engine, the session, its first history
position and its length. -/
structure Chunk where
  engine : Nat
  ses : Nat
  first : Nat
  count : Nat
  deriving DecidableEq, Repr

/-- A keeper core (R304, R358, R363). -/
structure Keeper where
  /-- PROMPT programs running for the keeper's sessions. -/
  chunks : List Chunk := []
  /-- Objects whose feed met an absent generation (5, TBL_STALE) or a bad size or strict flag (3, MALFORMED) (R213, R215):
  function, object, status. -/
  feedFaults : List (Nat × Nat × Nat) := []
  /-- The CUSTOM program asked for through YRUN: its registry entry and engine (R360). -/
  yrun : Option (Nat × Nat) := none
  /-- Mailbox entries, oldest first. -/
  mailbox : List (List Byte) := []
  /-- Queued tag completions of the test window, oldest first (R363). -/
  cpl : List (List Byte) := []
  /-- The keeper core has stopped (R490) or has been declared failed (R474). -/
  failed : Bool := false
  deriving DecidableEq, Repr

/-- Session states (R325). -/
inductive SesState where
  | gone | active | parked | settled | sunk | settling | sinking | waking
  deriving DecidableEq, Repr

/-- The code of a session state (R325). -/
def SesState.code : SesState → Nat
  | .gone => 0 | .active => 1 | .parked => 2 | .settled => 3 | .sunk => 4 | .settling => 5 | .sinking => 6 | .waking => 7

/-- Request types (R310). -/
def tOpen : Nat := 1
def tAppend : Nat := 2
def tGenerate : Nat := 3
def tPark : Nat := 4
def tResume : Nat := 5
def tClose : Nat := 6
def tCancel : Nat := 7
def tImport : Nat := 8
def tExport : Nat := 9
def tBind : Nat := 10
def tPurge : Nat := 11

/-- A page of a (session, layer, key/value head): its bank pair and page slot, and the prefix node that owns it (R121,
R347). -/
structure KvPage where
  pair : Nat
  slot : Nat
  node : Option Nat := none
  deriving DecidableEq, Repr

/-- An outstanding request (R310 to R320): its entry, the parameter block and token words read with it, the adapter
version it binds, the last round sealed before its acceptance, and its progress. -/
structure Req where
  entry : List Byte
  params : List Byte := []
  toks : List Nat := []
  adp : Option Nat := none
  ver : Nat := 0
  round : Nat := 0
  started : Bool := false
  /-- APPEND's tokens not yet in the history. -/
  left : List Nat := []
  /-- Tokens generated, and the tool mark (R336, R337). -/
  gen : List Nat := []
  tool : Bool := false
  /-- When it became ready, in the keeper's order (R17). -/
  order : Nat := 0
  deriving DecidableEq, Repr

/-- A request's TYPE, RTAG, DEADLINE and first FLAGS bit (R310, R311). -/
def Req.typ (r : Req) : Nat := leAt r.entry 0 1
def Req.rtag (r : Req) : Nat := leAt r.entry 2 1
def Req.deadline (r : Req) : Nat := leAt r.entry 8 8
def Req.flag (r : Req) : Bool := bitOf (leAt r.entry 1 1) 0
/-- MAX_NEW of a GENERATE (R311). -/
def Req.maxNew (r : Req) : Nat := leAt r.entry 0x18 3

/-- Lost key/value entries of a session to be rebuilt (R466): a (layer, head) and a span of positions. -/
structure Lost where
  layer : Nat
  head : Nat
  first : Nat
  count : Nat
  deriving DecidableEq, Repr

/-- A session. -/
structure Session where
  st : SesState := .gone
  /-- Host time of its last round, and of its entry into its state (R328, R43). -/
  lastRound : BitVec 64 := 0
  entered : BitVec 64 := 0
  /-- The quadrant whose keeper owns it. -/
  owner : Nat := 0
  model : Nat := 0
  lead : Bool := false
  share : Bool := false
  notify : Bool := false
  /-- Adapter bound, and the TTLs of R327. -/
  adapter : Option Nat := none
  ttl : List Nat := []
  suspended : Bool := false
  /-- When it last became ready, in the keepers' order (R17). -/
  ready : Nat := 0
  hist : List Nat := []
  /-- Prefix nodes linked, in block order, and whether the whole history is linked blocks and APPEND tokens (R347). -/
  links : List Nat := []
  allLinked : Bool := true
  /-- Outstanding requests, oldest first. -/
  reqs : List Req := []
  /-- The last valid parameter block (R335). -/
  params : List Byte := []
  /-- Pages by layer × 65,536 + head, in position order. -/
  runs : SMap (List KvPage) := []
  /-- The settled or sunk copy: its private pages, as (layer × 65,536 + head, page), in order, the size of one, its spread
  tiles with the slot-table version they were placed under, or its sump units. -/
  kept : List (Nat × Nat) := []
  keptSize : Nat := 0
  spread : List StackLoc := []
  ver : Nat := 0
  sump : List Nat := []
  /-- A wake has been noted while a move was under way, EXACT was asked of it, and the pages hold settled values (R325,
  R330, R357). -/
  wake : Bool := false
  exact : Bool := false
  lossy : Bool := false
  /-- Lost entries, those under rebuild, and how many of the rebuild rows have run (R466 to R468). -/
  lost : List Lost := []
  rebuilt : Nat := 0
  rebuilding : Bool := false
  /-- The tokens of the next round carry REBUILT. -/
  markRebuilt : Bool := false
  /-- The pool or a cap cannot hold more (R332). -/
  kvLimit : Bool := false
  /-- Next record number, commit slot, next journal sequence number (R460, R462). -/
  rnum : Nat := 0
  slot : Nat := 0
  jseq : Nat := 0
  /-- Its model was unloaded: APPEND and GENERATE complete MODEL_QUARANTINED (R486). -/
  unloaded : Bool := false
  /-- CLOSE, PURGE or TTL_GONE has taken the session: it becomes GONE once its last records are journalled. -/
  closing : Bool := false
  /-- Of a draft session (R341): the tree built so far, as tokens and parents (255: the root), and whether it is done. -/
  tree : List (Nat × Nat) := []
  treeDone : Bool := false
  deriving DecidableEq, Repr

/-- Private pages a session holds (R181, R325). -/
def Session.pageCount (x : Session) : Nat := x.runs.foldl (fun a e => a + (e.2.filter (fun p => p.node.isNone)).length) 0

/-- The tenant of a handle; a draft session (R341) stands beside its target at handle + 2^32. [DESIGN CHOICE: log entry 87] -/
def sesTenant (h : Nat) : Nat := h % 2 ^ 32 / 2 ^ 26

/-- The first `n` tokens of the running APPEND join the history. -/
def Session.takePrompt (x : Session) (n : Nat) : Session :=
  match x.reqs with
  | r :: rs => { x with hist := x.hist ++ r.left.take n, reqs := { r with left := r.left.drop n } :: rs }
  | [] => x

/-- The kinds of row of a round (R15, R340, R341, R468). -/
inductive RowKind where
  | gen | node (k : Nat) | prompt | rebuild | draft (tip : Nat)
  deriving DecidableEq, Repr

/-- A row of a round: its session, history position, the tail slot its keys and values take, token, kind, and its
row-buffer row. [DEDUCED: log entry 86] -/
structure Row where
  ses : Nat
  pos : Nat
  slot : Nat
  tok : Nat
  kind : RowKind
  row : Nat
  deriving DecidableEq, Repr

/-- A token that sampling emits: its number, SPEC, and LOGP (R321, R342). -/
structure Emit where
  tok : Nat
  spec : Bool
  logp : Nat
  /-- The draft node it matched. -/
  node : Option Nat := none
  deriving DecidableEq, Repr

/-- A round in flight (R13 to R29). -/
structure Round where
  num : Nat
  model : Nat
  rows : List Row
  /-- The next layer to run, whether the round has the engines, and the engines whose programs run or have run it. -/
  layer : Nat := 0
  holds : Bool := false
  engines : List Nat := []
  /-- Engines used by the round so far. -/
  used : List Nat := []
  /-- Draft trees by session, and what has been sampled by session (R342); `none`: sampling ended without a token. -/
  trees : SMap (List (Nat × Nat)) := []
  emits : SMap (Option (List Emit × Bool)) := []
  /-- (session × 2^32 + layer × 65,536 + head) whose keys and values have been written (R21). -/
  written : List Nat := []
  /-- Devices the round addressed (R478). -/
  peers : List Nat := []
  /-- Host time at its sealing, and its priming misses (R382). -/
  sealed : BitVec 64 := 0
  misses : Nat := 0
  deriving DecidableEq, Repr

/-- A model (R185, R473, R484 to R486): resident from its first installed schedule, the schedule in force and the one that
takes effect at its next sealing, its quarantine, recent stalls as (round, program address), and priming misses of the
window (R188). -/
structure Model where
  md : ModelMeta := {}
  sched : Option Schedule := none
  next : Option Schedule := none
  quarantined : Bool := false
  reason : Nat := 0
  obj : Nat := 0
  stall : Bool := false
  /-- A schedule fit to end the quarantine has been installed (R485). -/
  fit : Bool := false
  stalls : List (Nat × Nat) := []
  misses : Nat := 0
  /-- The next layer and tile to stage, by engine (R186). -/
  prime : SMap (Nat × Nat) := []
  deriving DecidableEq, Repr

/-- An adapter number (R351 to R354): its current version, its last version number, RETIRED, and its versions present as
(version, object, model, rank). -/
structure Adapter where
  cur : Nat := 0
  last : Nat := 0
  retired : Bool := false
  model : Nat := 0
  vers : List (Nat × Nat × Nat × Nat) := []
  deriving DecidableEq, Repr

/-- A prefix node (R346). PARENT is a node key + 1, 0 for block 0. -/
structure PNode where
  key : List Byte
  parent : Nat
  refs : Nat
  tenant : Nat
  model : Nat
  adapter : Option Nat
  ver : Nat
  block : Nat
  /-- Pages by layer × 65,536 + head. -/
  pages : SMap (List KvPage)
  lastUse : BitVec 64
  toks : List Nat
  deriving DecidableEq, Repr

/-- A token-ring record on its way (R321, R462): its session, its record number, its bytes; `entry`: it refuses the entry
at the ring head, which the head passes once the record is written (R315). -/
structure PRec where
  ses : Nat
  rnum : Nat
  bytes : List Byte
  entry : Bool := false
  deriving DecidableEq, Repr

/-- What completing a journal write does (R459): accepts an entry for a tenant, makes records pending, records an effect,
or frees what a HISTORY record replaces. -/
inductive JWhat where
  | accept (tenant : Nat) (req : Req)
  | records (rs : List PRec)
  | effect
  | history
  deriving DecidableEq, Repr

/-- A journal record (R460, R461): its bytes with FLAGS zero, its session, its JSEQ, the quadrants of its good copies, and
what its completion does. -/
structure JRec where
  ses : Nat
  jseq : Nat
  bytes : List Byte
  copies : List Nat
  what : JWhat
  done : Bool := false
  deriving DecidableEq, Repr

/-- A tenant function beside its registers (R398 to R416). [DEDUCED: log entry 94] -/
structure Ten where
  /-- A read of the entry at SQ_HEAD is outstanding, and the entry read. -/
  reading : Bool := false
  entry : Option (List Byte) := none
  /-- PURGE requests with TENANT = 1 that are outstanding, each with the handle its entry names. -/
  purges : List (Nat × Req) := []
  /-- The entry's journal record is being written, or its MALFORMED record waits for the ring. -/
  taking : Bool := false
  refusing : Bool := false
  /-- Records journalled and not committed, in journal order. -/
  pend : List PRec := []
  /-- Records published since the last token-ring interrupt (R408). -/
  unsignalled : Nat := 0
  /-- KEEP_WORK as sampled at entry to QUIESCING (R410), and reads still outstanding at order 3 (R411). -/
  keep : Bool := true
  /-- The function is present on PCIe (R392). -/
  present : Bool := false
  d3 : Bool := false
  deriving DecidableEq, Repr

/-- Sessions, rounds, models and the journal. -/
structure SesAll where
  rounds : List Round := []
  /-- Number of the last round sealed on the device (R14). -/
  lastNum : Nat := 0
  models : SMap Model := []
  adapters : SMap Adapter := []
  nodes : SMap PNode := []
  /-- Journal records, oldest first within a session. -/
  journal : List JRec := []
  /-- The commit table by slot (R462), and the slots given out, as handle + 1. -/
  commit : SMap Nat := []
  slots : SMap Nat := []
  tens : SMap Ten := []
  /-- Journal regions in which acceptance has stopped (R464). -/
  full : List Nat := []
  /-- Order in which requests became ready. -/
  nextOrder : Nat := 1
  /-- Poison completions by bank pair, as (round number, pair) (R472). -/
  pairPoison : List (Nat × Nat) := []
  /-- Engine FAULT causes, as (round number, engine, cause) (R472). -/
  engFaults : List (Nat × Nat × Nat) := []
  /-- A round has ended and no layer or sealing has followed: retrains may start (R103). -/
  roundEnd : Bool := false
  deriving DecidableEq, Repr

end Sys2Proof.Machine
end

