-- ==== Sys2Proof/Machine/State.lean ====
section
/-! DEFINITION. The state of the block, what can stop a step, and the state right after reset. -/
namespace Sys2Proof.Machine
open Sys2Proof

/-- Why a step stops with a fault. -/
inductive Fault where
  /-- Raised by a command that names a granule which no pseudo-channel of a Cistern has: its row or its local granule lies beyond the last one
  (R75, R83). Safe: the device has no such granule, so no claim about one can be proved. -/
  | noGranule
  deriving DecidableEq, Repr

/-- Why a step has no meaning. -/
inductive Refusal where
  /-- Raised by an arm of `exec` whose command has no meaning yet: safe, since no claim about it can be proved. -/
  | notModelled (mnemonic : String)
  deriving DecidableEq, Repr

/-- The machine. -/
structure State where
  /-- Registers by `regKey`; an unlisted one holds its reset value. -/
  regs : SMap W32 := []
  /-- Staging registers of the _LO/_HI pairs, by the key of the _LO register (R66). -/
  stage : SMap W32 := []
  /-- Read latches of the pairs, by the key of the _LO register (R66). -/
  latch : SMap W32 := []
  /-- The held value of host time (R36). -/
  hostTime : W64 := 0
  /-- Publications on their way to a block, oldest first, by block (R41). -/
  inflight : SMap (List W64) := []
  /-- Copies of host time by block (R41). -/
  copies : SMap W64 := []
  /-- Stopwatches by block (R44). -/
  watches : SMap Stopwatch := []
  /-- The error log's 1,024 slots (R487). -/
  errLog : SMap LogRec := []
  /-- Fault records by tenant × 64 + slot (R422). -/
  flog : SMap LogRec := []
  /-- The profile in force (R30). -/
  profile : Profile := .state
  cis : CisState := {}
  bkt : BktState := {}
  mem : MemState := {}
  pmp : PmpState := {}
  /-- Matrix and vector engines by number 8 × quadrant + e. -/
  engs : SMap Eng := []
  link : LinkState := {}
  tel : TelState := {}
  /-- Sessions by handle (tenant × 2^26 + index). -/
  sess : SMap Session := []
  /-- Rounds, models, adapters, the journal, the prefix tree and the tenant functions. -/
  ses : SesAll := {}
  /-- Keeper cores by quadrant. -/
  keepers : SMap Keeper := []
  /-- Boot, trust, the package and the host port. -/
  boot : BootState := {}
  /-- Functions in D3hot (R394): 0 the PF, 65 the proxy; requests that wait for them. -/
  d3hot : List Nat := []
  waiting : List Egress := []
  /-- What has left the device, oldest first. -/
  egress : List Egress := []
  /-- The model's own counter of free values drawn. -/
  free : Nat := 0
  /-- The commands waiting, first in, first out. -/
  pending : List Instr := []
  deriving DecidableEq, Repr

/-- The machine held in cold reset with its supplies good (R479, R492): every register at its reset value, no memory listed, no command
waiting. [DESIGN CHOICE: log entries 4, 5] -/
def State.reset : State := {}

/-- The outcome of a command. -/
abbrev Out := Host.Outcome State Fault Refusal

end Sys2Proof.Machine
end

