-- ==== Sys2Proof/Machine/Ops.lean ====
section
/-! DEFINITION. The shared operations: registers and their fields, error causes and interrupts, the logs, host time,
free values. -/
namespace Sys2Proof.Machine
open Sys2Proof

/-! ## Registers -/

/-- The key of a register: page kind, instance, window bank, offset. -/
def regKey (pg : Page) (bank off : Nat) : Nat :=
  ((pg.kind.num * 256 + pg.inst) * 65536 + bank) * 4096 + off

/-- The register of a page that stands at an offset: its row and its index in the row. -/
def findReg : List Reg → Nat → Option (Reg × Nat)
  | [], _ => none
  | r :: rs, off =>
    if r.off ≤ off && off < r.off + r.count * r.stride && (off - r.off) % r.stride == 0
    then some (r, (off - r.off) / r.stride) else findReg rs off

/-- The word the reset values of a register's fields make. -/
def fldsReset (fs : List Fld) : Nat := fs.foldl (fun a f => a + f.reset * 2 ^ f.lsb) 0

/-- Default time-to-live values (R327): ACTIVE 60 s, PARKED 3,600 s, SETTLED 86,400 s, in ns, by TTL_SEL code. [DEDUCED: log entry 98] -/
def ttlDefault (bank : Nat) : Nat :=
  if bank = 0 then 60000000000 else if bank = 1 then 3600000000000 else 86400000000000

/-- The header's CTRL register at reset: ENABLE is 1 except on tenant pages 0 and link ports; the stack pages add
SCRUB_EN and AUTO_RETRAIN. -/
def ctrlReset : PageKind → Nat
  | .tnt0 | .gll => 0
  | .cis => 0x30001
  | _ => 1

/-- The reset value of a register (R9 and the register tables). An MSI-X table entry resets masked, as the PCIe specification has it
(R393). [DESIGN CHOICE: log entry 4] [PRESUMED: log entry 11] -/
def resetWord (pg : Page) (bank off : Nat) : W32 :=
  BitVec.ofNat 32 <|
    if pg.kind = .msix then (if off < 0x800 ∧ off % 16 = 12 then 1 else 0)
    else if off = 0x008 then ctrlReset pg.kind
    else if off = 0x00C then (if pg.kind = .tnt0 then 6 else if pg.kind = .gll then 0 else 1)
    else if off < 0x040 then 0
    else if pg.kind = .ses && off = 0x04C then ttlDefault bank % 2 ^ 32
    else if pg.kind = .ses && off = 0x050 then ttlDefault bank / 2 ^ 32
    else match findReg (blockRegs pg.kind) off with
      | some (r, _) => fldsReset r.flds
      | none => 0

/-- The word a register holds. -/
def State.reg (s : State) (pg : Page) (bank off : Nat) : W32 :=
  SMap.get s.regs (resetWord pg bank off) (regKey pg bank off)

/-- Set the word a register holds. -/
def State.setReg (s : State) (pg : Page) (bank off : Nat) (v : W32) : State :=
  { s with regs := SMap.set s.regs (resetWord pg bank off) (regKey pg bank off) v }

/-- The value of a field of a register in a window bank. -/
def State.fldB (s : State) (pg : Page) (bank : Nat) (f : Fld) : Nat :=
  bitsOf (s.reg pg bank f.off).toNat f.msb f.lsb

/-- Set a field of a register in a window bank; the register's other fields keep their values. -/
def State.setFldB (s : State) (pg : Page) (bank : Nat) (f : Fld) (v : Nat) : State :=
  s.setReg pg bank f.off (BitVec.ofNat 32 (setBitsNat (s.reg pg bank f.off).toNat f.msb f.lsb v))

/-- The value of a field. -/
def State.fld (s : State) (pg : Page) (f : Fld) : Nat := s.fldB pg 0 f

/-- A one-bit field as a truth value. -/
def State.flag (s : State) (pg : Page) (f : Fld) : Bool := s.fld pg f == 1

/-- Set a field. -/
def State.setFld (s : State) (pg : Page) (f : Fld) (v : Nat) : State := s.setFldB pg 0 f v

/-- Add to a saturating count (every count of the register tables saturates). -/
def State.bumpB (s : State) (pg : Page) (bank : Nat) (f : Fld) (n : Nat) : State :=
  s.setFldB pg bank f (satAdd (2 ^ (f.msb + 1 - f.lsb) - 1) (s.fldB pg bank f) n)

/-- Add to a saturating count. -/
def State.bump (s : State) (pg : Page) (f : Fld) (n : Nat) : State := s.bumpB pg 0 f n

/-- Add to a 64-bit count held in a _LO/_HI pair, wrapping. -/
def State.bump64B (s : State) (pg : Page) (bank : Nat) (lo hi : Fld) (n : Nat) : State :=
  let v := s.fldB pg bank lo + 2 ^ 32 * s.fldB pg bank hi + n
  (s.setFldB pg bank lo (v % 2 ^ 32)).setFldB pg bank hi (v / 2 ^ 32)

/-- The 64-bit value of a _LO/_HI pair. -/
def State.pairB (s : State) (pg : Page) (bank : Nat) (lo hi : Fld) : Nat :=
  s.fldB pg bank lo + 2 ^ 32 * s.fldB pg bank hi

/-- Return every register of the pages that satisfy `p` to its reset value, with their staging registers and read
latches (R67); `p` sees the page kind's number, the instance and the offset. -/
def State.resetRegs (s : State) (p : Nat → Nat → Nat → Bool) : State :=
  let keep := fun k => !(p (k / 2 ^ 36) (k / 2 ^ 28 % 256) (k % 4096))
  { s with regs := SMap.keep s.regs keep, stage := SMap.keep s.stage keep, latch := SMap.keep s.latch keep }

/-! ## Pages by block -/

def pgTop : Page := ⟨.top, 0⟩
def pgDir : Page := ⟨.dir, 0⟩
def pgPci : Page := ⟨.pci, 0⟩
def pgSec : Page := ⟨.sec, 0⟩
def pgPwr : Page := ⟨.pwr, 0⟩
def pgPkg : Page := ⟨.pkg, 0⟩
def pgTel : Page := ⟨.tel, 0⟩
def pgRas : Page := ⟨.ras, 0⟩
/-- The page of a stack's base die. -/
def pgCis (st : Nat) : Page := ⟨.cis, st⟩
/-- The page of a quadrant's spread hash; its instance number is 32 + q. -/
def pgCisQ (q : Nat) : Page := ⟨.cisq, q⟩
def pgBkt (st : Nat) : Page := ⟨.bkt, st⟩
def pgWel (q : Nat) : Page := ⟨.wel, q⟩
def pgTir (q : Nat) : Page := ⟨.tir, q⟩
def pgPmp (i : Nat) : Page := ⟨.pmp, i⟩
def pgCmp (q : Nat) : Page := ⟨.cmp, q⟩
def pgMxe (e : Nat) : Page := ⟨.mxe, e⟩
def pgVxe (e : Nat) : Page := ⟨.vxe, e⟩
def pgSes (q : Nat) : Page := ⟨.ses, q⟩
def pgKpr (q : Nat) : Page := ⟨.kpr, q⟩
def pgQdr (i : Nat) : Page := ⟨.qdr, i⟩
def pgGll (p : Nat) : Page := ⟨.gll, p⟩
def pgTnt (t : Nat) : Page := ⟨.tnt0, t⟩

/-! ## Free values -/

/-- Draw a free value: a number nothing constrains, and the state with the draw counted. [DESIGN CHOICE: log entry 7] -/
def State.draw (s : State) : Nat × State := (Config.freeNat s.free, { s with free := s.free + 1 })

/-- Draw `n` free bytes. [DESIGN CHOICE: log entry 7] -/
def State.drawBytes (s : State) (n : Nat) : List Byte × State :=
  ((List.range n).map (fun i => BitVec.ofNat 8 (Config.freeNat (s.free + i))), { s with free := s.free + n })

/-! ## Interrupts and error causes -/

/-- The function that a host request is issued by, if the item is one. -/
def Egress.requester : Egress → Option Nat
  | .msix fn _ _ _ => some fn
  | .hostWrite fn _ _ => some fn
  | .hostPoison fn _ _ => some fn
  | .hostRead fn _ _ => some fn
  | _ => none

/-- The host port a function's requests use (R395). -/
def State.portOf (s : State) (fn : Nat) : Nat := if s.fld pgPci F.pci_LINK_CFG_MODE = 1 ∧ fn ≥ 33 then 1 else 0

/-- Send something out of the device. A host request waits while the PF or proxy function of its port is in D3hot
(R394). [DESIGN CHOICE: log entry 10] -/
def State.emit (s : State) (e : Egress) : State :=
  match e.requester with
  | some fn =>
    if s.d3hot.contains (if s.portOf fn = 1 then 65 else 0) then { s with waiting := s.waiting ++ [e] }
    else { s with egress := s.egress ++ [e] }
  | none => { s with egress := s.egress ++ [e] }

/-- Raise MSI-X vector `vec` of a function (R407): the message leaves, unless the vector's table entry is masked, when
its pending bit is set. The table stands in the function's MSI-X page as the PCIe specification requires: entry `vec` at
16 × vec, its mask in bit 0 of the fourth word, the pending-bit array at 0x800. [PRESUMED: log entry 11] -/
def State.irq (s : State) (fn vec : Nat) : State :=
  let pg : Page := ⟨.msix, fn⟩
  if bitOf (s.reg pg 0 (16 * vec + 12)).toNat 0 then
    s.setReg pg 0 0x800 (BitVec.ofNat 32 (setBitsNat (s.reg pg 0 0x800).toNat vec vec 1))
  else
    let a := (s.reg pg 0 (16 * vec)).toNat + 2 ^ 32 * (s.reg pg 0 (16 * vec + 4)).toNat
    s.emit (.msix fn vec (BitVec.ofNat 64 a) (s.reg pg 0 (16 * vec + 8)))

/-- The function that owns a page's error interrupt (R61), and the vector it raises (R407). [DEDUCED: log entry 26] -/
def errVector (pg : Page) : Nat × Nat :=
  match pg.kind with
  | .tnt0 | .tnt1 | .tnt2 | .tnt3 | .tnt4 => (pg.inst + 1, 2)
  | .pci => if pg.inst = 1 then (65, 0) else (0, 1)
  | _ => (0, 1)

/-- Is the page's error pending (R61)? -/
def State.errPending (s : State) (pg : Page) : Bool :=
  (s.reg pg 0 0x010) &&& ~~~ (s.reg pg 0 0x014) != 0#32

/-- After ERR_STATUS or ERR_MASK has changed: raise the owning function's error interrupt if the page's error has
become pending and ERR_IRQ_EN is 1 (R61). [DEDUCED: log entry 22] -/
def State.errEdge (s : State) (pg : Page) (wasPending : Bool) : State :=
  if !wasPending && s.errPending pg && s.flag pg F.hdr_ERR_IRQ_EN then
    s.irq (errVector pg).1 (errVector pg).2
  else s

/-- Error cause `c` occurs on a page: its ERR_STATUS bit is set and, if the page's error becomes pending, the error
interrupt is raised once (R61). -/
def State.raise (s : State) (pg : Page) (c : Nat) : State :=
  let was := s.errPending pg
  (s.setReg pg 0 0x010 (s.reg pg 0 0x010 ||| BitVec.ofNat 32 (2 ^ c))).errEdge pg was

/-- Count a page's counted event (R58, EVT_COUNT). -/
def State.event (s : State) (pg : Page) : State := s.bump pg F.hdr_EVT_COUNT 1

/-! ## Logs -/

/-- SOURCE of a log record: type code in [15:8], instance in [7:0] (R422, R488). [DEDUCED: log entry 26] -/
def sourceOf (pg : Page) : W16 :=
  BitVec.ofNat 16 (pg.kind.typeCode * 256 + (if pg.kind = .cisq then 32 + pg.inst else pg.inst))

/-- Write an error-log record at LOG_TAIL, or drop it, count it in LOG_LOST and set cause LOG_LOST when 1,023 records are
unread (R487). The IOD holds the log, so the stamp is its held host time. [DEDUCED: log entries 26, 27] -/
def State.logErr (s : State) (kind : Nat) (src : Page) (detail addr arg : Nat) : State :=
  let tail := s.fld pgRas F.ras_LOG_TAIL_VALUE
  let head := s.fld pgRas F.ras_LOG_HEAD_VALUE
  if (tail + 1024 - head % 1024) % 1024 = 1023 then
    (s.bump pgRas F.ras_LOG_LOST_VALUE 1).raise pgRas 5
  else
    let r : LogRec := ⟨BitVec.ofNat 16 kind, sourceOf src, BitVec.ofNat 32 detail, BitVec.ofNat 64 addr,
      BitVec.ofNat 64 arg, s.hostTime⟩
    ({ s with errLog := SMap.set s.errLog {} (tail % 1024) r }.setFld pgRas F.ras_LOG_TAIL_VALUE ((tail + 1) % 1024)).event pgRas

/-! ## Tenant functions -/

/-- STATE.BLOCK_STATE of a tenant page 0: ENABLE_LATCHED and FLR (R412, R415). -/
def fEnableLatched : Fld := ⟨0x00C, 4, 4, .RO, 0⟩
def fFlr : Fld := ⟨0x00C, 5, 5, .RO, 0⟩

/-- Function states (R409). -/
def fnOff : Nat := 0
def fnReady : Nat := 2
def fnQuiescing : Nat := 3
def fnNotProvisioned : Nat := 6
def fnFault : Nat := 7
def fnDetached : Nat := 8

/-- The 64-bit value of a _LO/_HI pair of a page. -/
def State.pair64 (s : State) (pg : Page) (lo hi : Fld) : Nat := s.fld pg lo + 2 ^ 32 * s.fld pg hi

/-- Write a field of a tenant's shadow block, when there is one (R401). [DEDUCED: log entry 102] -/
def State.shadow (s : State) (t off v : Nat) : State :=
  let a := s.pair64 (pgTnt t) F.tnt0_SHADOW_LO_ADDR F.tnt0_SHADOW_HI_ADDR / 64 * 64
  if a = 0 then s else s.emit (.hostWrite (t + 1) (BitVec.ofNat 64 (a + off)) (leBytes 4 v))

/-- The same while the function may issue host requests: not while it is QUIESCING (R411). -/
def State.shadowLive (s : State) (t off v : Nat) : State :=
  if s.fld (pgTnt t) F.hdr_STATE = fnQuiescing then s else s.shadow t off v

/-- A tenant function's state changes (R407, R409): the shadow block, FUNC_CHANGED with PF vector 14, and vector 3. [DEDUCED: log entry 102] -/
def State.setFnState (s : State) (t st : Nat) : State :=
  if s.fld (pgTnt t) F.hdr_STATE = st then s
  else
    let s1 := (s.setFld (pgTnt t) F.hdr_STATE st).shadow t 0x0C st
    let f : Fld := if t < 32 then ⟨0x078, t, t, .W1C, 0⟩ else ⟨0x07C, t - 32, t - 32, .W1C, 0⟩
    let s2 := if s1.flag pgPci f then s1 else (s1.setFld pgPci f 1).irq 0 14
    if s2.flag (pgTnt t) F.tnt0_T_CTRL_STATE_IRQ then s2.irq (t + 1) 3 else s2

/-- Write a fault record for a function (R74, R422, R423). Records for the PF go to the error log. -/
def State.fault (s : State) (fn kind status : Nat) (src : Page) (detail addr cookie : Nat) : State :=
  if fn = 0 then s.logErr (0x100 + kind) src status addr cookie
  else
    let t := fn - 1
    let pg : Page := ⟨.tnt2, t⟩
    let tail := s.fld pg F.tnt2_FLOG_TAIL_VALUE
    let head := s.fld pg F.tnt2_FLOG_HEAD_VALUE
    if (tail + 64 - head % 64) % 64 = 63 then
      (s.bump pg F.tnt2_FLOG_LOST_VALUE 1).raise (pgTnt t) 3
    else
      let r : LogRec := ⟨BitVec.ofNat 16 (kind + 256 * status), sourceOf src, BitVec.ofNat 32 detail, BitVec.ofNat 64 addr,
        BitVec.ofNat 64 cookie, s.hostTime⟩
      let s1 := { s with flog := SMap.set s.flog {} (t * 64 + tail % 64) r }.setFld pg F.tnt2_FLOG_TAIL_VALUE ((tail + 1) % 64)
      let s2 := s1.shadowLive t 0x08 ((tail + 1) % 64)
      if s2.flag (pgTnt t) F.tnt0_T_CTRL_FLOG_IRQ then s2.irq fn 2 else s2

/-! ## Host time -/

/-- The blocks that hold a copy of host time: keepers 0–3, tier managers 4–7, telemetry 8, and Quadrille scheduler `i` as
16 + i (event order table of chapter 2). [DEDUCED: log entry 26] -/
def copyBlocks : List Nat := [0, 1, 2, 3, 4, 5, 6, 7, 8, 16, 17, 18, 19, 20] ++ (List.range 12).map (· + 32)

/-- A block's copy of host time (R41). -/
def State.timeAt (s : State) (blk : Nat) : W64 := SMap.get s.copies 0#64 blk

/-- Has a publication been taken since the last cold reset (R36)? -/
def State.timeValid (s : State) : Bool := s.flag pgTop F.top_HOST_TIME_STATUS_VALID

/-- The quadrant of a stack. -/
def quadOf (st : Nat) : Nat := st / 5

end Sys2Proof.Machine
end

