-- ==== Sys2Proof/Machine/Access.lean ====
section
/-! DEFINITION. Where a page stands in its BAR (R53 to R57, R70), when its block registers take accesses (R69, R72), and
what a dropped access leaves (R65, R71). -/
namespace Sys2Proof.Machine
open Sys2Proof

/-- The base of a quadrant's region of the PF BAR0 (R53). -/
def quadBase (n : Nat) : Nat := 0x1000000 + n * 0x400000

/-- The offset of a page in its function's BAR0 (R55, R70, R391). -/
def pageOffset (pg : Page) : Nat :=
  match pg.kind with
  | .dir => 0x0000
  | .top => 0x1000
  | .pci => if pg.inst = 1 then 0 else 0x2000
  | .sec => 0x3000
  | .pwr => 0x4000
  | .pkg => 0x5000
  | .tel => 0x6000
  | .ras => 0x7000
  | .qdr => if pg.inst = 4 then 0x8000
      else if pg.inst < 4 then quadBase pg.inst + 0x7000 else 0x111000 + (pg.inst - 16) * 0x2000
  | .pmp => if pg.inst = 8 then 0x9000 else if pg.inst = 9 then 0xA000
      else quadBase (pg.inst / 2) + 0x4000 + pg.inst % 2 * 0x1000
  | .gll => 0x110000 + pg.inst * 0x2000
  | .glr => 0x100000 + pg.inst * 0x1000
  | .kpr => quadBase pg.inst
  | .ses => quadBase pg.inst + 0x1000
  | .wel => quadBase pg.inst + 0x2000
  | .tir => quadBase pg.inst + 0x3000
  | .cmp => quadBase pg.inst + 0x6000
  | .cisq => quadBase pg.inst + 0x8000
  | .mxe => quadBase (pg.inst / 8) + 0x10000 + pg.inst % 8 * 0x2000
  | .vxe => quadBase (pg.inst / 8) + 0x11000 + pg.inst % 8 * 0x2000
  | .cis => quadBase (pg.inst / 5) + 0x100000 + pg.inst % 5 * 0x10000
  | .bkt => quadBase (pg.inst / 5) + 0x101000 + pg.inst % 5 * 0x10000
  | .tnt0 => 0x0000
  | .tnt1 => 0x1000
  | .tnt2 => 0x2000
  | .tnt3 => 0x3000
  | .tnt4 => 0x4000
  | .msix => if pg.inst = 0 || pg.inst = 65 then 0xF000 else 0x5000

/-- The function whose BAR a page stands in: 0 PF, 1–64 tenants, 65 proxy. -/
def ownerOf (pg : Page) : Nat :=
  match pg.kind with
  | .tnt0 | .tnt1 | .tnt2 | .tnt3 | .tnt4 => pg.inst + 1
  | .pci => if pg.inst = 1 then 65 else 0
  | .msix => pg.inst
  | _ => 0

/-- A dropped register access (R65, R71): the function's bad-access count, the offset or the fault record, and
ERR_STATUS.ACCESS of the page. [DEDUCED: log entry 16] -/
def State.badAccess (s : State) (pg : Page) (off : Nat) (write : Bool) : State :=
  let a := pageOffset pg + off
  let fn := ownerOf pg
  let s1 :=
    if fn = 0 then
      (s.bump pgDir F.dir_BAD_ACCESS_COUNT 1).setReg pgDir 0 0x0A4 (BitVec.ofNat 32 (a % 2 ^ 26 + 2 ^ 31 * b2n write))
    else if fn = 65 then s
    else (s.bump ⟨.tnt2, fn - 1⟩ F.tnt2_BAD_ACCESS_VALUE 1).fault fn 1 0 pg (b2n write) a 0
  if pg.kind = .msix then s1 else s1.raise pg 31

/-- The function state of a tenant (R409). -/
def State.fnState (s : State) (t : Nat) : Nat := s.fld (pgTnt t) F.hdr_STATE

/-- Is the device past order 9 of its boot (R493), its TOP page READY? -/
def State.booted (s : State) : Bool := s.fld pgTop F.hdr_STATE == 2

/-- A command that the booted device alone carries out: earlier, and after a reset until the next boot has passed order 9, the event cannot
happen (R493, R495), and nothing changes. [DESIGN CHOICE: log entry 1] -/
def State.gate (s : State) (k : State → Out) : Out := if s.booted then k s else .next s

/-- A command that is new work for the block of a page: the block takes it while CTRL.ENABLE is 1 (R69), and it waits otherwise. [DESIGN CHOICE: log entry 1] -/
def State.gateOn (s : State) (pg : Page) (k : State → Out) : Out := if s.booted && s.flag pg F.hdr_ENABLE then k s else .next s

/-- The pages that serve before order 9 (R495): DIR, TOP, PCI, SEC, and the MSI-X tables. -/
def PageKind.early : PageKind → Bool
  | .dir | .top | .pci | .sec | .msix => true
  | _ => false

/-- Do the block registers of a page take accesses: the page is neither IN_RESET nor OFFLINE (R69), the device has booted or
serves the page before (R495), and a tenant page's function is provisioned (R72)? -/
def State.pageLive (s : State) (pg : Page) : Bool :=
  let st := s.fld pg F.hdr_STATE
  st != 4 && st != 5 && (pg.kind.early || s.booted) && (if 1 ≤ ownerOf pg ∧ ownerOf pg ≤ 64 then s.fnState (pg.inst) != 6 else true)

/-- A write to a block register acts as `k` when the page takes it, and is dropped otherwise. -/
def State.regWrite (s : State) (pg : Page) (off : Nat) (k : State → State) : State :=
  if s.pageLive pg then k s else s.badAccess pg off true

end Sys2Proof.Machine
end

