-- ==== Sys2Proof/Machine/Float.lean ====
section
/-! DEFINITION. Binary floating point, exact and then rounded once to nearest, ties to even.
Shared by the memory-side adders (R98), the bucket units, the engines and the format conversions (R231, R232). -/
namespace Sys2Proof.Machine

/-- A binary floating-point format. -/
structure FFmt where
  ebits : Nat
  mbits : Nat
  bias : Nat
  /-- The all-ones exponent holds infinities and NaNs. -/
  ieee : Bool
  /-- The all-ones pattern (mantissa too) is the format's NaN, without infinities (E4M3). -/
  onesNaN : Bool
  deriving DecidableEq, Repr

/-- FP32. -/
def fp32 : FFmt := ⟨8, 23, 127, true, false⟩
/-- BF16. -/
def bf16 : FFmt := ⟨8, 7, 127, true, false⟩

/-- FP16. -/
def fp16 : FFmt := ⟨5, 10, 15, true, false⟩
/-- FP8 E4M3: no infinities; the all-ones pattern is the NaN (R231). -/
def e4m3 : FFmt := ⟨4, 3, 7, false, true⟩
/-- FP8 E5M2 (R231). -/
def e5m2 : FFmt := ⟨5, 2, 15, true, false⟩
/-- FP4 E2M1: neither infinities nor NaNs (R231). -/
def e2m1 : FFmt := ⟨2, 1, 1, false, false⟩

/-- A floating-point datum: a NaN, an infinity, or `m * 2^e` with a sign (zero keeps its sign). -/
inductive FVal where
  | nan
  | inf (neg : Bool)
  | fin (neg : Bool) (m : Nat) (e : Int)
  deriving DecidableEq, Repr

/-- Total width of a format. -/
def FFmt.width (f : FFmt) : Nat := 1 + f.ebits + f.mbits

/-- The exponent of the format's least subnormal. -/
def FFmt.qmin (f : FFmt) : Int := 1 - (f.bias : Int) - (f.mbits : Int)

/-- The largest finite magnitude pattern (without the sign). -/
def FFmt.maxMag (f : FFmt) : Nat :=
  if f.ieee then (2 ^ f.ebits - 1) * 2 ^ f.mbits - 1
  else if f.onesNaN then 2 ^ (f.ebits + f.mbits) - 2
  else 2 ^ (f.ebits + f.mbits) - 1

/-- What a bit pattern of a format stands for. -/
def fdec (f : FFmt) (x : Nat) : FVal :=
  let neg := bitOf x (f.ebits + f.mbits)
  let mag := x % 2 ^ (f.ebits + f.mbits)
  let ex := mag / 2 ^ f.mbits
  let m := mag % 2 ^ f.mbits
  if mag > f.maxMag then (if f.ieee && m == 0 then .inf neg else .nan)
  else if ex = 0 then .fin neg m f.qmin
  else .fin neg (m + 2 ^ f.mbits) (f.qmin + (ex : Int) - 1)

/-- `m * 2^(-k)` rounded to an integer, ties to even. -/
def rneShift (m k : Nat) : Nat :=
  let q := m / 2 ^ k
  let r := m % 2 ^ k
  if 2 * r > 2 ^ k || (2 * r == 2 ^ k && q % 2 == 1) then q + 1 else q

/-- The magnitude pattern nearest to `m * 2^e` (ties to even), with exponent range unlimited above. -/
def froundMag (f : FFmt) (m : Nat) (e : Int) : Nat :=
  if m = 0 then 0
  else
    let top : Int := (Nat.log2 m : Int) + e
    let q : Int := max (top - f.mbits) f.qmin
    let r := if q ≤ e then m * 2 ^ (e - q).toNat else rneShift m (q - e).toNat
    if r < 2 ^ f.mbits then r
    else ((q - f.qmin).toNat + 1) * 2 ^ f.mbits + (r - 2 ^ f.mbits)

/-- The sign bit of a format. -/
def fsign (f : FFmt) (neg : Bool) : Nat := b2n neg * 2 ^ (f.ebits + f.mbits)

/-- The canonical quiet NaN: exponent all ones, top mantissa bit set; sign clear (R98, R232). -/
def fcanonNaN (f : FFmt) : Nat :=
  if f.ieee then (2 ^ f.ebits - 1) * 2 ^ f.mbits + 2 ^ (f.mbits - 1) else 2 ^ (f.ebits + f.mbits) - 1

/-- The infinity pattern of a format that has one. -/
def finfPat (f : FFmt) (neg : Bool) : Nat := fsign f neg + (2 ^ f.ebits - 1) * 2 ^ f.mbits

/-- The bit pattern of a datum rounded to nearest even; overflow gives an infinity where the format has one. -/
def fenc (f : FFmt) : FVal → Nat
  | .nan => fcanonNaN f
  | .inf neg => if f.ieee then finfPat f neg else fsign f neg + f.maxMag
  | .fin neg m e =>
    let r := froundMag f m e
    if r > f.maxMag then (if f.ieee then finfPat f neg else fsign f neg + f.maxMag)
    else fsign f neg + r

/-- Did encoding the finite datum exceed the format's largest finite value? -/
def foverflows (f : FFmt) : FVal → Bool
  | .fin _ m e => decide (froundMag f m e > f.maxMag)
  | .inf _ => true
  | .nan => false

/-- The signed integer a finite datum is of `2^e'`, for `e' ≤ e`. -/
def fscaled (neg : Bool) (m : Nat) (e e' : Int) : Int :=
  let a : Int := (m * 2 ^ (e - e').toNat : Nat)
  if neg then -a else a

/-- A signed integer multiple of a power of two as a datum; `zneg` is the sign a zero takes. -/
def fofInt (zneg : Bool) (z : Int) (e : Int) : FVal :=
  if z = 0 then .fin zneg 0 e else .fin (decide (z < 0)) z.natAbs e

/-- Exact sum. An exact zero of opposite signs is +0. -/
def fadd : FVal → FVal → FVal
  | .nan, _ => .nan
  | _, .nan => .nan
  | .inf a, .inf b => if a == b then .inf a else .nan
  | .inf a, .fin .. => .inf a
  | .fin .., .inf b => .inf b
  | .fin na ma ea, .fin nb mb eb =>
    let e := min ea eb
    fofInt (na && nb && ma == 0 && mb == 0) (fscaled na ma ea e + fscaled nb mb eb e) e

/-- Exact product. -/
def fmul : FVal → FVal → FVal
  | .nan, _ => .nan
  | _, .nan => .nan
  | .inf a, .inf b => .inf (a != b)
  | .inf a, .fin nb mb _ => if mb = 0 then .nan else .inf (a != nb)
  | .fin na ma _, .inf b => if ma = 0 then .nan else .inf (na != b)
  | .fin na ma ea, .fin nb mb eb => .fin (na != nb) (ma * mb) (ea + eb)

/-- Negation. -/
def fneg : FVal → FVal
  | .nan => .nan
  | .inf a => .inf (!a)
  | .fin n m e => .fin (!n) m e

/-- Magnitude. -/
def fabs : FVal → FVal
  | .nan => .nan
  | .inf _ => .inf false
  | .fin _ m e => .fin false m e

/-- The quotient of two finite data to 60 bits beyond the first, with a sticky bit: rounding it once to a format of
at most 58 mantissa bits gives the correctly rounded quotient. -/
def fdivFin (na : Bool) (ma : Nat) (ea : Int) (nb : Bool) (mb : Nat) (eb : Int) : FVal :=
  if mb = 0 then (if ma = 0 then .nan else .inf (na != nb))
  else
    let k := 64 + Nat.log2 mb
    let n := ma * 2 ^ k
    let q := n / mb
    let q' := 2 * q + (if n % mb = 0 then 0 else 1)
    .fin (na != nb) q' (ea - eb - (k : Int) - 1)

/-- Quotient. -/
def fdiv : FVal → FVal → FVal
  | .nan, _ => .nan
  | _, .nan => .nan
  | .inf _, .inf _ => .nan
  | .inf a, .fin nb _ _ => .inf (a != nb)
  | .fin na _ _, .inf b => .fin (na != b) 0 0
  | .fin na ma ea, .fin nb mb eb => fdivFin na ma ea nb mb eb

/-- The comparison key of a datum with −0 below +0 (R98): infinities are beyond every finite. Neither is a NaN. -/
def fltTotal : FVal → FVal → Bool
  | .nan, _ => false
  | _, .nan => false
  | .inf a, .inf b => a && !b
  | .inf a, .fin .. => a
  | .fin .., .inf b => !b
  | .fin na ma ea, .fin nb mb eb =>
    let e := min ea eb
    let x := fscaled na ma ea e
    let y := fscaled nb mb eb e
    if x = 0 && y = 0 then na && !nb else decide (x < y)

/-- Numerical less-than: −0 and +0 are equal. -/
def flt : FVal → FVal → Bool
  | .fin na ma ea, .fin nb mb eb =>
    let e := min ea eb
    decide (fscaled na ma ea e < fscaled nb mb eb e)
  | a, b => fltTotal a b

/-- Numerical equality: −0 equals +0, a NaN equals nothing. -/
def feq : FVal → FVal → Bool
  | .nan, _ => false
  | _, .nan => false
  | a, b => !(flt a b) && !(flt b a)

/-- Is the datum a NaN? -/
def fisNaN : FVal → Bool
  | .nan => true
  | _ => false

/-- Is the datum an infinity? -/
def fisInf : FVal → Bool
  | .inf _ => true
  | _ => false

/-- FP32 sum, rounded once. -/
def add32 (a b : W32) : W32 := BitVec.ofNat 32 (fenc fp32 (fadd (fdec fp32 a.toNat) (fdec fp32 b.toNat)))
/-- FP32 product, rounded once. -/
def mul32 (a b : W32) : W32 := BitVec.ofNat 32 (fenc fp32 (fmul (fdec fp32 a.toNat) (fdec fp32 b.toNat)))
/-- FP32 fused multiply and add, rounded once. -/
def fma32 (a b c : W32) : W32 :=
  BitVec.ofNat 32 (fenc fp32 (fadd (fmul (fdec fp32 a.toNat) (fdec fp32 b.toNat)) (fdec fp32 c.toNat)))
/-- FP32 difference, rounded once. -/
def sub32 (a b : W32) : W32 := BitVec.ofNat 32 (fenc fp32 (fadd (fdec fp32 a.toNat) (fneg (fdec fp32 b.toNat))))

/-- The exact sum of a list; a sum of zeros is +0 unless every term is −0 (R234). -/
def fsum (l : List FVal) : FVal := l.foldl fadd (.fin true 0 0)

/-- Conversion into a narrow format (R232): nearest even; overflow and infinities go to the largest finite value of the
sign, a NaN to the canonical NaN, or to +0 in FP4. The truth value is SAT. -/
def fconv (f : FFmt) (v : FVal) : Nat × Bool :=
  match v with
  | .nan => if f.ieee || f.onesNaN then (fcanonNaN f, false) else (0, true)
  | .inf neg => (fsign f neg + f.maxMag, true)
  | .fin neg m e =>
    let r := froundMag f m e
    if r > f.maxMag then (fsign f neg + f.maxMag, true) else (fsign f neg + r, false)

/-- The nearest integer to a finite datum, ties to even. -/
def fnearInt (neg : Bool) (m : Nat) (e : Int) : Int :=
  let a : Nat := if e ≥ 0 then m * 2 ^ e.toNat else rneShift m (-e).toNat
  if neg then -(a : Int) else (a : Int)

end Sys2Proof.Machine
end

