-- ==== Sys2Proof/Machine/Column.lean ====
section
/-! DEFINITION. Where a granule lies (R83 to R85, R88), the exception table (R106), and reads, writes and adder
operations on columns (R86, R87, R91 to R99). -/
namespace Sys2Proof.Machine
open Sys2Proof

/-! ## Places -/

/-- The key of a column: stack, pseudo-channel, bank, row, column (R80). -/
def colIx (st pc bank row col : Nat) : Nat :=
  (((st * 64 + pc) * 32 + bank) * 49152 + row) * 32 + col

/-- The first local granule of the spread region, SB of R106. -/
def State.spreadBase (s : State) : Nat := 128 * (768 + s.profile.bankedRows)

/-- SPREAD_GRANULES of R105. -/
def State.spreadGranules (s : State) : Nat := 8 * s.profile.spreadLines

/-- The weight of slot `i` in version `v` of quadrant `q` (R47). -/
def State.slotWeight (s : State) (q v i : Nat) : Nat :=
  bitsOf (s.reg (pgCisQ q) 0 (0x100 + 0x20 * v + 4 * (i / 8))).toNat (4 * (i % 8) + 3) (4 * (i % 8))

/-- One layer of the placement of R83: slots in rotated order whose weight exceeds `k`; the position left over, or the
place found. -/
def spreadLayer (w : Nat → Nat) (k : Nat) : List Nat → Nat → Nat ⊕ (Nat × Nat)
  | [], n => .inl n
  | s :: ss, n =>
    if w s > k then (if n < 5 then .inr (5 * s + n, k) else spreadLayer w k ss (n - 5))
    else spreadLayer w k ss n

/-- The layers k = k0 … of R83. -/
def spreadLayers (w : Nat → Nat) (order : List Nat) : List Nat → Nat → Option (Nat × Nat)
  | [], _ => none
  | k :: ks, n =>
    match spreadLayer w k order n with
    | .inr r => some r
    | .inl n' => spreadLayers w order ks n'

/-- `spread_locate` of R83: the quadrant pseudo-channel and the granule within the line of position `j` of line `lam`;
none is the address fault. -/
def spreadLocate (w : Nat → Nat) (lam j : Nat) : Option (Nat × Nat) :=
  spreadLayers w ((List.range 64).map (fun i => (i + lam * 37) % 64)) (List.range 8) j

/-- The capacity of a line under a version: 5 × the sum of the weights (R83). -/
def State.lineCap (s : State) (q v : Nat) : Nat := 5 * sumTo 64 (s.slotWeight q v)

/-- The capacity of a full-spread line under four versions (R84). -/
def State.fullLineCap (s : State) (vs : Nat → Nat) : Nat :=
  4 * min (min (s.lineCap 0 (vs 0)) (s.lineCap 1 (vs 1))) (min (s.lineCap 2 (vs 2)) (s.lineCap 3 (vs 3)))

/-- The granule of position `j` of line `lam` in quadrant `q` under version `v` (R83): pseudo-channel and local
granule. -/
def State.spreadGran (s : State) (q v lam j : Nat) : Option (Nat × Nat) :=
  (spreadLocate (s.slotWeight q v) lam j).map (fun r => (r.1, s.spreadBase + 8 * lam + r.2))

/-- `reserve_L` of R106. -/
def State.reserveL (s : State) (o : Nat) : Nat :=
  if o < 98304 then o else s.spreadBase + 8 * s.profile.spreadLines - 1 - (o - 98304)

/-- Entry `k` of a quadrant's exception table. -/
def State.excOf (s : State) (q k : Nat) : ExcEntry := SMap.get s.cis.exc {} (16 * q + k)

/-- Does quadrant pseudo-channel `p` belong to the channel an entry names? -/
def ExcEntry.covers (e : ExcEntry) (p : Nat) : Bool := p / 64 == e.stack && p % 64 / 2 == e.channel

/-- The pseudo-channels that belong to no channel named by entry `k` or by a valid entry of lower index (R106). -/
def State.survivorsOf (s : State) (q k : Nat) : List Nat :=
  rangeP 320 (fun p => !((s.excOf q k).covers p)
    && (List.range k).all (fun i => !((s.excOf q i).valid && (s.excOf q i).covers p)))

/-- `redirect` of R106 over the entries in index order; a nested call can match only an entry of higher index. Returns
the place and the number of redirections taken. -/
def State.redirectFrom (s : State) (q : Nat) : List Nat → Nat → Nat → Nat → Nat × Nat × Nat
  | [], p, l, n => (p, l, n)
  | k :: ks, p, l, n =>
    let e := s.excOf q k
    if e.valid && e.covers p then
      let r := if l ≥ s.spreadBase then l - s.spreadBase else s.spreadGranules + l
      let m := 2 * r + p % 2
      if !e.lost && m ≥ e.movedMark then (p, l, n)
      else
        let t := ((s.survivorsOf q k).drop (m % e.survivors)).headD 0
        s.redirectFrom q ks t (s.reserveL (e.resBase + m / e.survivors)) (n + 1)
    else s.redirectFrom q ks p l n

/-- `redirect` of R106. -/
def State.redirect (s : State) (q p l : Nat) : Nat × Nat × Nat := s.redirectFrom q (List.range 16) p l 0

/-- A granule's place: stack, pseudo-channel, bank, row, first column. -/
structure Place where
  st : Nat
  pc : Nat
  bank : Nat
  row : Nat
  col : Nat
  deriving DecidableEq, Repr

/-- The bank, row and columns of local granule `l` (R85). -/
def granPlace (q p l : Nat) : Place :=
  ⟨5 * q + p / 64, p % 64, bitsOf l 6 2 ^^^ bitsOf l 11 7, l / 128, 8 * (l % 4)⟩

/-- Where a granule lies, after the exception table, and the state with the redirections counted in EVT_COUNT of the
quadrant's CIS page. -/
def State.resolve (s : State) : Gran → Place × State
  | .at st pc bank row k => (⟨st, pc, bank, row, 8 * k⟩, s)
  | .spread q p l =>
    let r := s.redirect q p l
    (granPlace q r.1 r.2.1, if r.2.2 = 0 then s else s.bump (pgCisQ q) F.hdr_EVT_COUNT r.2.2)

/-- The key of column `c` (0–7) of a placed granule. -/
def Place.key (p : Place) (c : Nat) : Nat := colIx p.st p.pc p.bank p.row (p.col + c)

/-! ## Columns -/

/-- The place a column key names. -/
def placeOfKey (k : Nat) : Place :=
  ⟨k / (64 * 32 * 49152 * 32), k / (32 * 49152 * 32) % 64, k / (49152 * 32) % 32, k / 32 % 49152, k % 32⟩

/-- The local granule that holds a column (the inverse of R85's placing). -/
def Place.gran (p : Place) : Nat := p.row * 128 + (p.bank ^^^ p.row % 32) * 4 + p.col / 8

/-- Does a filled stripe cover a column? -/
def Fill.covers (f : Fill) (k : Nat) : Bool :=
  let p := placeOfKey k
  let l := p.gran
  let o := if l < 98304 then l else 98304 + (f.top - l)
  p.st / 5 == f.quad && f.pcs.contains (p.st % 5 * 64 + p.pc) && decide (f.lo ≤ o ∧ o < f.hi) && (decide (l < 98304) || decide (l ≤ f.top))

/-- What an unlisted column holds: poison inside a filled stripe (R109), zero elsewhere (R112). [DEDUCED: log entry 28] -/
def State.colDefault (s : State) (k : Nat) : Column :=
  if s.cis.fills.any (fun f => f.covers k) then poisonCol zeroCol else zeroCol

/-- The column held at a key. [DEDUCED: log entry 28] -/
def State.col (s : State) (k : Nat) : Column := SMap.get s.cis.cols (s.colDefault k) k

/-- Store a column. -/
def State.setCol (s : State) (k : Nat) (c : Column) : State :=
  { s with cis := { s.cis with cols := SMap.set s.cis.cols (s.colDefault k) k c } }

/-- What a column read answers: data, and a poison mark. -/
structure ColRead where
  data : List Byte
  poison : Bool
  deriving DecidableEq, Repr

/-- Record an uncorrectable or poisoned read: UE_COUNT, ERR_ADDR and an error-log record (R93, R151). -/
def State.recordBad (s : State) (k : Nat) (wasPoison bucket : Bool) (tag : Nat) : State :=
  let p := placeOfKey k
  let pg := pgCis p.st
  let lo := p.col + 32 * p.row + 2 ^ 21 * p.bank + 2 ^ 26 * p.pc
  let hi := 1 + 2 * b2n wasPoison + 4 * b2n bucket
  (((s.bump pg F.cis_UE_COUNT_COUNT 1).setReg pg 0 0x088 (BitVec.ofNat 32 lo)).setReg pg 0 0x08C
    (BitVec.ofNat 32 hi)).logErr 2 (if bucket then pgBkt p.st else pg) hi lo tag

/-- Count a corrected column: CE_COUNT, EVT_COUNT, and cause CE_THRESHOLD when the corrections of the pseudo-channel in
this window exceed CE_THRESH (R91). -/
def State.countCe (s : State) (st pc : Nat) : State :=
  let n := SMap.get s.cis.ceWin 0 (st * 64 + pc) + 1
  let s1 := ({ s with cis := { s.cis with ceWin := SMap.set s.cis.ceWin 0 (st * 64 + pc) n } }.bump (pgCis st)
    F.cis_CE_COUNT_COUNT 1).event (pgCis st)
  if n > s1.fld (pgCis st) F.cis_CE_THRESH_CORRECTIONS then s1.raise (pgCis st) 0 else s1

/-- Read and decode the column at a key: a correction is written back and counted; an uncorrectable column is written
back poisoned, marked, counted, logged and raises cause UE; a poisoned column is marked, counted and logged (R91 to
R93). -/
def State.readCol (s : State) (k : Nat) : ColRead × State :=
  let c := s.col k
  let p := placeOfKey k
  match decodeCol c with
  | .clean => (⟨c.take 32, false⟩, s)
  | .fixed c' => (⟨c'.take 32, false⟩, (s.setCol k c').countCe p.st p.pc)
  | .poisoned => (⟨c.take 32, true⟩, s.recordBad k true false 0)
  | .uncorrectable =>
    (⟨c.take 32, true⟩, ((s.setCol k (poisonCol c)).recordBad k false false 0).raise (pgCis p.st) 1)

/-- Write bytes over part of a column, or all of it: a whole column clears poison; a partial write reads, merges and
writes, and leaves a poisoned column poisoned, returning the mark (R86, R94). -/
def State.writeCol (s : State) (k off : Nat) (data : List Byte) : Bool × State :=
  if off = 0 && data.length ≥ 32 then (false, s.setCol k (encodeCol data))
  else
    let r := s.readCol k
    if r.1.poison then (true, r.2)
    else (false, r.2.setCol k (encodeCol (overlay r.1.data off data)))

/-- The pieces of `data` laid from byte `off` of a granule, by column: column, offset in it, bytes. -/
def colPieces : Nat → Nat → List Byte → List (Nat × Nat × List Byte)
  | 0, _, _ => []
  | fuel + 1, off, data =>
    if data.length = 0 then []
    else
      let n := 32 - off % 32
      (off / 32, off % 32, data.take n) :: colPieces fuel (off + n) (data.drop n)

/-- Write `data` from byte `off` of a placed granule, column by column; the poison marks are joined. -/
def State.writeGran (s : State) (p : Place) (off : Nat) (data : List Byte) : Bool × State :=
  (colPieces 8 off data).foldl (fun acc c =>
    let r := acc.2.writeCol (p.key c.1) c.2.1 c.2.2
    (acc.1 || r.1, r.2)) (false, s)

/-- Read `n` bytes from byte `off` of a placed granule; poisoned columns mark the answer. -/
def State.readGran (s : State) (p : Place) (off n : Nat) : ColRead × State :=
  let cols := (List.range 8).filter (fun c => decide (32 * c < off + n ∧ off < 32 * c + 32))
  let r := cols.foldl (fun (acc : (List Byte × Bool) × State) c =>
    let x := acc.2.readCol (p.key c)
    ((acc.1.1 ++ x.1.data, acc.1.2 || x.1.poison), x.2)) (([], false), s)
  (⟨slice r.1.1 (off - 32 * (off / 32)) n, r.1.2⟩, r.2)

/-! ## Memory-side adders -/

/-- Element size in bytes of an adder operation (R96); 0 for a reserved code. -/
def adderSize (op : Nat) : Nat :=
  if op = 0x01 || op = 0x06 || op = 0x07 then 2
  else if op = 0x03 || op = 0x0A || op = 0x0B || op = 0x0D || op = 0x0F || op = 0x11 then 8
  else if op < 0x12 then 4 else 0

/-- Does the operation return the old value (R96)? -/
def adderReturns (op : Nat) : Bool := decide (0x0C ≤ op ∧ op ≤ 0x11)

/-- Floating-point MIN or MAX in a format: −0 lies below +0, and a NaN operand gives the canonical NaN (R98). -/
def fminmax (f : FFmt) (mx : Bool) (a b : Nat) : Nat :=
  let x := fdec f a
  let y := fdec f b
  if fisNaN x || fisNaN y then fcanonNaN f
  else if mx then (if fltTotal x y then b else a) else (if fltTotal y x then b else a)

/-- The new value of an element: `old` in memory, `x` the operand, `y` the new value of a CAS (R98). -/
def adderEval (op old x y : Nat) : Nat :=
  match op with
  | 0x00 => fenc fp32 (fadd (fdec fp32 old) (fdec fp32 x))
  | 0x01 => fenc bf16 (fadd (fdec bf16 old) (fdec bf16 x))
  | 0x02 | 0x10 => (old + x) % 2 ^ 32
  | 0x03 | 0x11 => (old + x) % 2 ^ 64
  | 0x04 => fminmax fp32 false old x
  | 0x05 => fminmax fp32 true old x
  | 0x06 => fminmax bf16 false old x
  | 0x07 => fminmax bf16 true old x
  | 0x08 => if toSigned 32 x < toSigned 32 old then x else old
  | 0x09 => if toSigned 32 x > toSigned 32 old then x else old
  | 0x0A => if toSigned 64 x < toSigned 64 old then x else old
  | 0x0B => if toSigned 64 x > toSigned 64 old then x else old
  | 0x0C | 0x0D => x
  | 0x0E | 0x0F => if old = x then y else old
  | _ => old

/-- An operation over the elements of one column's bytes `old`, element by element. -/
def adderElems (op : Nat) (old data new : List Byte) : List Byte :=
  let n := adderSize op
  ((List.range (old.length / n)).map (fun i =>
    leBytes n (adderEval op (leAt old (n * i) n) (leAt data (n * i) n) (leNat new)))).flatten

/-- Is an adder operation well formed at byte `off` of its granule (R96, R97)? The operand is aligned to its element,
lies within the granule, and has a length the operation allows; a CAS carries the compare value and then the new one. [DEDUCED: log entry 39] -/
def adderOk (op off : Nat) (data : List Byte) : Bool :=
  let n := adderSize op
  let len := if op = 0x0E || op = 0x0F then data.length / 2 else data.length
  n != 0 && off % n == 0 && len != 0 && len % n == 0 && decide (off + len ≤ 256)
    && (!(adderReturns op) || len == n)
    && (!(op = 0x0E || op = 0x0F) || data.length == 2 * n)

/-- One column's indivisible read–modify–write (R99): the old bytes, the poison mark. A poisoned column stays poisoned
(R94). -/
def State.adderCol (s : State) (op k off : Nat) (data new : List Byte) : List Byte × Bool × State :=
  let r := s.readCol k
  let old := slice r.1.data off data.length
  if r.1.poison then (old, true, r.2)
  else (old, false, r.2.setCol k (encodeCol (overlay r.1.data off (adderElems op old data new))))

/-- An adder operation on a placed granule, column by column in order (R99), counted in ADD_OPS: the old value where
the operation returns one, and the poison mark. A malformed operation changes nothing and answers none (R97). [DEDUCED: log entry 39] -/
def State.adder (s : State) (p : Place) (op off : Nat) (data : List Byte) : Option (List Byte) × Bool × State :=
  if adderOk op off data then
    let n := adderSize op
    let cas := op = 0x0E || op = 0x0F
    let x := if cas then data.take n else data
    let y := if cas then data.drop n else []
    let r := (colPieces 9 off x).foldl (fun (acc : List Byte × Bool × State) c =>
      let a := acc.2.2.adderCol op (p.key c.1) c.2.1 c.2.2 y
      (acc.1 ++ a.1, acc.2.1 || a.2.1, a.2.2)) ([], false, s)
    (some (if adderReturns op then r.1 else []), r.2.1, r.2.2.bump (pgCis p.st) F.cis_ADD_OPS_COUNT 1)
  else (none, false, s)

/-! ## Requests to a channel -/

/-- Channel `c` of stack `st`. -/
def State.chanOf (s : State) (st c : Nat) : Chan := SMap.get s.cis.chan {} (st * 32 + c)

/-- Set a channel. -/
def State.setChan (s : State) (st c : Nat) (x : Chan) : State :=
  { s with cis := { s.cis with chan := SMap.set s.cis.chan {} (st * 32 + c) x } }

/-- Is a channel parked, so that requests wait (R102)? -/
def Chan.parked (c : Chan) : Bool :=
  match c.st with
  | .off | .retraining | .margin => true
  | _ => false

/-- Carry out a controller request at a place and send its answer to the requester. [DESIGN CHOICE: log entry 37] -/
def State.serveAt (s : State) (p : Place) : ColReq → State
  | .read c => let r := s.readCol (p.key c); r.2.emit (.column r.1.data r.1.poison)
  | .write off data =>
    let r := s.writeGran p off data
    if r.1 then r.2.emit (.column [] true) else r.2
  | .adder op off data =>
    let r := s.adder p op off data
    r.2.2.emit (.adder r.1 r.2.1)

/-- The key of a bucket unit, and of its bank pair. -/
def unitIx (st pc bp : Nat) : Nat := (st * 64 + pc) * 16 + bp

/-- A bucket unit. -/
def State.unitAt (s : State) (k : Nat) : BktUnit := SMap.get s.bkt.units {} k

/-- Does an ordinary request to a bank pair wait for the unit's yield point (R147): its unit has a started tag, or
earlier requests for the pair are still held? -/
def State.pairHeld (s : State) (k : Nat) : Bool :=
  (s.unitAt k).phase != .idle || s.cis.yield.any (fun h => h.stack * 1024 + h.channel == k)

/-- A controller request to a granule (R87): resolved through the exception table; it waits, in order, while its channel
is parked (R104) or until the yield point of its bank pair's unit (R147), and is carried out otherwise. In `yield` a
request's channel field holds pseudo-channel × 16 + bank pair. -/
def State.request (s : State) (g : Gran) (q : ColReq) : State :=
  let r := s.resolve g
  if r.2.pairHeld (unitIx r.1.st r.1.pc (r.1.bank / 2)) then
    let h : HeldReq := ⟨r.1.st, r.1.pc * 16 + r.1.bank / 2, g, q⟩
    let s1 : State := { r.2 with cis := { r.2.cis with yield := r.2.cis.yield ++ [h] } }
    s1.bump (pgBkt r.1.st) F.bkt_YIELD_COUNT_COUNT 1
  else if (r.2.chanOf r.1.st (r.1.pc / 2)).parked then
    { r.2 with cis := { r.2.cis with held := r.2.cis.held ++ [⟨r.1.st, r.1.pc / 2, g, q⟩] } }
  else r.2.serveAt r.1 q

/-- Release the requests held for a channel, in the order they arrived (R104). -/
def State.releaseHeld (s : State) (st c : Nat) : State :=
  let mine := s.cis.held.filter (fun h => h.stack == st && h.channel == c)
  let rest := s.cis.held.filter (fun h => !(h.stack == st && h.channel == c))
  mine.foldl (fun s h => s.request h.gran h.req) { s with cis := { s.cis with held := rest } }

end Sys2Proof.Machine
end

