-- ==== Sys2Proof/Machine/Transc.lean ====
section
/-! DEFINITION. The transcendental operations (R119, R257). The spec bounds their error and gives no value: a result is a
free value inside the bound. The exact value is enclosed in fixed point with 80 fraction bits, so the enclosure is wider
than the bound allows by less than one part in 2^60. -/
namespace Sys2Proof.Machine
open Sys2Proof

/-- An enclosure of a real number: between `lo * 2^e` and `hi * 2^e`. -/
structure Encl where
  lo : Int
  hi : Int
  e : Int
  deriving DecidableEq, Repr

/-- One in fixed point. -/
def fxOne : Int := 2 ^ 80
/-- ln 2 in fixed point. -/
def fxLn2 : Int := 837963523372001241319907

/-- A finite datum in fixed point, rounded towards −∞. -/
def fxOf (neg : Bool) (m : Nat) (e : Int) : Int :=
  let a : Int := if e + 80 ≥ 0 then ((m * 2 ^ (e + 80).toNat : Nat) : Int) else ((m / 2 ^ (-(e + 80)).toNat : Nat) : Int)
  if neg then -a else a

/-- Product in fixed point, rounded towards −∞. -/
def fxMul (a b : Int) : Int := (a * b) / fxOne
/-- Quotient in fixed point, rounded towards −∞; `b` is positive. -/
def fxDiv (a b : Int) : Int := (a * fxOne) / b

/-- The sum of r^n / n! from the term `t` at index `n` on, `k` terms. -/
def expSeries (r : Int) : Nat → Nat → Int → Int
  | 0, _, _ => 0
  | k + 1, n, t => t + expSeries r k (n + 1) (fxMul t r / ((n : Int) + 1))

/-- An enclosure of e^x for x in fixed point. -/
def expEncl (x : Int) : Encl :=
  let k := x / fxLn2
  let m := expSeries (x - k * fxLn2) 34 0 fxOne
  ⟨m - 4096, m + 4096, k - 80⟩

/-- The sum of z^(2n+1) / (2n+1) from the power `p` on, `k` terms; `z2` is z². -/
def atanhSeries (z2 : Int) : Nat → Nat → Int → Int
  | 0, _, _ => 0
  | k + 1, n, p => p / (2 * (n : Int) + 1) + atanhSeries z2 k (n + 1) (fxMul p z2)

/-- An enclosure of ln of the positive number m * 2^e. -/
def logEncl (m : Nat) (e : Int) : Encl :=
  let b := Nat.log2 m
  let f : Int := if b ≤ 80 then ((m * 2 ^ (80 - b) : Nat) : Int) else ((m / 2 ^ (b - 80) : Nat) : Int)
  let z := fxDiv (f - fxOne) (f + fxOne)
  let y := ((b : Int) + e) * fxLn2 + 2 * atanhSeries (fxMul z z) 30 0 z
  ⟨y - 4096, y + 4096, -80⟩

/-- Bits of the integer square root of `n`, from bit `k - 1` down, below the root `r` found so far. -/
def isqrtGo (n : Nat) : Nat → Nat → Nat
  | 0, r => r
  | k + 1, r => if (r + 2 ^ k) * (r + 2 ^ k) ≤ n then isqrtGo n k (r + 2 ^ k) else isqrtGo n k r

/-- Integer square root of a number below 2^400. -/
def isqrt (n : Nat) : Nat := isqrtGo n 200 0

/-! ## Numbers of FP32 in order -/

/-- The place of an FP32 pattern in the order of values (−0 and +0 share a place). -/
def ord32 (x : Nat) : Int :=
  let m : Int := ((x % 2 ^ 31 : Nat) : Int)
  if bitOf x 31 then -m else m

/-- The FP32 pattern at a place of the order. -/
def ofOrd32 (z : Int) : Nat := if z < 0 then 2 ^ 31 + z.natAbs else z.toNat

/-- Compare the finite FP32 value at place `z` with `a * 2^e`: is it less? -/
def ordLt (z : Int) (a : Int) (e : Int) : Bool := flt (fdec fp32 (ofOrd32 z)) (fofInt false a e)
/-- Is `a * 2^e` less than the FP32 value at place `z`? -/
def ltOrd (a : Int) (e : Int) (z : Int) : Bool := flt (fofInt false a e) (fdec fp32 (ofOrd32 z))

/-- The place of the FP32 value nearest to `a * 2^e`, cut to the largest finite. -/
def nearOrd (a : Int) (e : Int) : Int :=
  let z := ord32 (fenc fp32 (fofInt false a e))
  max (-(2 ^ 31 - 2 ^ 23 - 1)) (min (2 ^ 31 - 2 ^ 23 - 1) z)

/-- The least place at or above `a * 2^e`. -/
def ceilOrd (a : Int) (e : Int) : Int := let z := nearOrd a e; if ordLt z a e then z + 1 else z
/-- The greatest place at or below `a * 2^e`. -/
def floorOrd (a : Int) (e : Int) : Int := let z := nearOrd a e; if ltOrd a e z then z - 1 else z

/-- The FP32 value that the free number `n` picks between `a * 2^e` and `b * 2^e`; counted on
from the middle, and the sign of a zero is free too. [DESIGN CHOICE: log entry 75] -/
def pick32 (a b : Int) (e : Int) (n : Nat) : W32 :=
  let x := ceilOrd a e
  let y := floorOrd b e
  let z := if x ≤ y then x + (max x (min y (nearOrd (a + b) (e - 1))) - x + (n : Int)) % (y - x + 1) else nearOrd a e
  BitVec.ofNat 32 (if z = 0 && n % 2 = 1 then 2 ^ 31 else ofOrd32 z)

/-- Pick within a relative error of 2^−k of an enclosed positive number. -/
def pickRel (v : Encl) (k : Nat) (n : Nat) : W32 :=
  let s : Int := 2 ^ k
  pick32 (v.lo * (s - 1)) (v.hi * (s + 1)) (v.e - k) n

/-- Pick within an absolute error of 2^−k of a number enclosed in fixed point (e = −80). -/
def pickAbs (v : Encl) (k : Nat) (n : Nat) : W32 :=
  let d : Int := 2 ^ (80 - k)
  pick32 (v.lo - d) (v.hi + d) v.e n

/-- Pick within 2^−20 relative or 2^−24 absolute, whichever is larger, of a number enclosed in fixed point. -/
def pickAct (v : Encl) (n : Nat) : W32 :=
  let d : Int := max (2 ^ 56) (max v.lo.natAbs v.hi.natAbs / 2 ^ 20 + 1)
  pick32 (v.lo - d) (v.hi + d) v.e n

/-- Pick within one unit in the last place of an enclosed non-zero number. -/
def pickUlp (v : Encl) (n : Nat) : W32 :=
  let u : Int := max ((Nat.log2 v.lo.natAbs : Int) + v.e - 23) (-149)
  let d : Int := if u ≥ v.e then 2 ^ (u - v.e).toNat else 1
  pick32 (v.lo - d) (v.hi + d) v.e n

/-- The canonical quiet NaN of FP32. -/
def nan32 : W32 := 0x7FC00000#32
/-- ±∞ in FP32. -/
def inf32 (neg : Bool) : W32 := if neg then 0xFF800000#32 else 0x7F800000#32

/-- EXP (R119, R257): +0 below −87, +∞ above 88.72, between them a relative error of at most 2^−21. [DESIGN CHOICE: log entry 75] -/
def expApprox (x : W32) (n : Nat) : W32 :=
  match fdec fp32 x.toNat with
  | .nan => nan32
  | .inf neg => if neg then 0 else inf32 false
  | .fin neg m e =>
    let v := fdec fp32 x.toNat
    if flt v (.fin true 87 0) then 0
    else if flt (.fin false 8872 0) (fmul v (.fin false 100 0)) then inf32 false
    else pickRel (expEncl (fxOf neg m e)) 21 n

/-- LOG (R257): absolute error 2^−21 on [0.5, 2], relative error 2^−21 elsewhere; −∞ for ±0, NaN below 0. [DESIGN CHOICE: log entry 75] -/
def logApprox (x : W32) (n : Nat) : W32 :=
  match fdec fp32 x.toNat with
  | .nan => nan32
  | .inf neg => if neg then nan32 else inf32 false
  | .fin neg m e =>
    if m = 0 then inf32 true
    else if neg then nan32
    else
      let v := logEncl m e
      let a := fdec fp32 x.toNat
      if !(flt a (.fin false 1 (-1))) && !(flt (.fin false 2 0) a) then pickAbs v 21 n
      else
        let d : Int := (max v.lo.natAbs v.hi.natAbs : Nat) / 2 ^ 21
        pick32 (v.lo - d) (v.hi + d) v.e n

/-- RCP (R257): within 1 ulp; ±0 and ±∞ as IEEE 754 divides. -/
def rcpApprox (x : W32) (n : Nat) : W32 :=
  match fdec fp32 x.toNat with
  | .nan => nan32
  | .inf neg => if neg then 0x80000000#32 else 0
  | .fin neg m e =>
    if m = 0 then inf32 neg
    else
      let q : Int := ((2 ^ 100 / m : Nat) : Int)
      if foverflows fp32 (.fin neg q.toNat (-100 - e)) then inf32 neg
      else
        let v : Encl := if neg then ⟨-(q + 1), -q, -100 - e⟩ else ⟨q, q + 1, -100 - e⟩
        pickUlp v n

/-- RSQRT (R257): within 1 ulp; NaN below −0. [DESIGN CHOICE: log entry 75] -/
def rsqrtApprox (x : W32) (n : Nat) : W32 :=
  match fdec fp32 x.toNat with
  | .nan => nan32
  | .inf neg => if neg then nan32 else 0
  | .fin neg m e =>
    if m = 0 then inf32 neg
    else if neg then nan32
    else
      let m' := if e % 2 = 0 then m else 2 * m
      let e' := if e % 2 = 0 then e else e - 1
      let q := isqrt (2 ^ 200 / m')
      pickUlp ⟨(q : Int) - 2, (q : Int) + 2, -100 - e' / 2⟩ n

/-- An enclosure of 1 / (1 + e^(−x)) in fixed point. -/
def sigmEncl (x : Int) : Encl :=
  if x > 60 * fxOne then ⟨fxOne - 2 ^ 10, fxOne, -80⟩
  else if x < -(60 * fxOne) then ⟨0, 2 ^ 10, -80⟩
  else
    let t := expEncl (-x)
    let sh : Int → Int := fun a => if t.e + 80 ≥ 0 then a * 2 ^ (t.e + 80).toNat else a / 2 ^ (-(t.e + 80)).toNat
    ⟨fxDiv fxOne (fxOne + sh t.hi + 1) - 1, fxDiv fxOne (fxOne + sh t.lo) + 1, -80⟩

/-- An enclosure of tanh x = 2 / (1 + e^(−2x)) − 1 in fixed point. -/
def tanhEncl (x : Int) : Encl :=
  let s := sigmEncl (2 * x)
  ⟨2 * s.lo - fxOne, 2 * s.hi - fxOne, -80⟩

/-- SIGM (R257). [DESIGN CHOICE: log entry 75] -/
def sigmApprox (x : W32) (n : Nat) : W32 :=
  match fdec fp32 x.toNat with
  | .nan => nan32
  | .inf neg => pickAct (if neg then ⟨0, 0, -80⟩ else ⟨fxOne, fxOne, -80⟩) n
  | .fin neg m e => pickAct (sigmEncl (fxOf neg m e)) n

/-- TANH (R257). -/
def tanhApprox (x : W32) (n : Nat) : W32 :=
  match fdec fp32 x.toNat with
  | .nan => nan32
  | .inf neg => pickAct (if neg then ⟨-fxOne, -fxOne, -80⟩ else ⟨fxOne, fxOne, -80⟩) n
  | .fin neg m e => pickAct (tanhEncl (fxOf neg m e)) n

/-- SILU (R257); at −∞ the formula has no value and the result is free. -/
def siluApprox (x : W32) (n : Nat) : W32 :=
  match fdec fp32 x.toNat with
  | .nan => nan32
  | .inf neg => if neg then BitVec.ofNat 32 n else inf32 false
  | .fin neg m e =>
    let a := fxOf neg m e
    if a < -(60 * fxOne) then pickAct ⟨-1, 0, -80⟩ n
    else if a > 60 * fxOne then pickAct ⟨a - 2, a + 1, -80⟩ n
    else
    let s := sigmEncl a
    let p := fxMul a s.lo
    let q := fxMul a s.hi
    pickAct ⟨min p q - a.natAbs / 2 ^ 66 - 2, max p q + a.natAbs / 2 ^ 66 + 2, -80⟩ n

/-- GELU in the tanh form (R256, R257); at −∞ the formula has no value and the result is free. [DESIGN CHOICE: log entry 75] -/
def geluApprox (x : W32) (n : Nat) : W32 :=
  match fdec fp32 x.toNat with
  | .nan => nan32
  | .inf neg => if neg then BitVec.ofNat 32 n else inf32 false
  | .fin neg m e =>
    let a := fxOf neg m e
    if a < -(20 * fxOne) then pickAct ⟨-1, 0, -80⟩ n
    else if a > 20 * fxOne then pickAct ⟨a - 2, a + 1, -80⟩ n
    else
    let c := a + fxMul (fxMul a a) a * 44715 / 1000000
    let t := tanhEncl (c * 797885 / 1000000)
    let p := fxMul a (fxOne + t.lo) / 2
    let q := fxMul a (fxOne + t.hi) / 2
    pickAct ⟨min p q - a.natAbs / 2 ^ 50 - 2, max p q + a.natAbs / 2 ^ 50 + 2, -80⟩ n

/-- The `i`-th draw after draw number `d`. -/
def drawAt (d i : Nat) : Nat := Config.freeNat (d + i)

/-- An order of `l` that the free number `n` picks (an arrival order): repeatedly take the element `n mod length`. [DESIGN CHOICE: log entries 53, 76] -/
def arrival {α : Type} : Nat → Nat → List α → List α
  | 0, _, _ => []
  | fuel + 1, n, l =>
    match l with
    | [] => []
    | x :: xs =>
      let i := n % (x :: xs).length
      ((x :: xs).drop i).headD x :: arrival fuel (n / (x :: xs).length) ((x :: xs).eraseIdx i)

end Sys2Proof.Machine
end

