-- ==== Sys2Proof/Machine/Attention.lean ====
section
/-! DEFINITION. In-stack attention (chapter 5): run rings, tags, bucket units and their micro-programs, the windlass
bus, combine slots. -/
namespace Sys2Proof.Machine
open Sys2Proof

/-! ## Access -/

/-- The key of a tag of a stack. -/
def tagIx (st t : Nat) : Nat := st * 256 + t
/-- The key of a pseudo-channel. -/
def pcIx (st pc : Nat) : Nat := st * 64 + pc

/-- A tag of a stack. -/
def State.tagAt (s : State) (st t : Nat) : BktTag := SMap.get s.bkt.tags {} (tagIx st t)
/-- Set a tag. -/
def State.setTag (s : State) (st t : Nat) (x : BktTag) : State :=
  { s with bkt := { s.bkt with tags := SMap.set s.bkt.tags {} (tagIx st t) x } }
/-- Set a bucket unit. -/
def State.setUnit (s : State) (k : Nat) (u : BktUnit) : State :=
  { s with bkt := { s.bkt with units := SMap.set s.bkt.units {} k u } }
/-- The run entries consumed for a tag. -/
def State.entriesOf (s : State) (st t : Nat) : List RunEntry := SMap.get s.bkt.entries [] (tagIx st t)
/-- Set the run entries of a tag. -/
def State.setEntries (s : State) (st t : Nat) (l : List RunEntry) : State :=
  { s with bkt := { s.bkt with entries := SMap.set s.bkt.entries [] (tagIx st t) l } }
/-- A word of a combine slot. -/
def State.slotWord (s : State) (st t w : Nat) : W32 := SMap.get s.bkt.slots 0#32 (tagIx st t * 2064 + w)
/-- Set a word of a combine slot. -/
def State.setSlotWord (s : State) (st t w : Nat) (v : W32) : State :=
  { s with bkt := { s.bkt with slots := SMap.set s.bkt.slots 0#32 (tagIx st t * 2064 + w) v } }
/-- The transfers waiting for a bus. -/
def State.busOf (s : State) (st pc : Nat) : List Xfer := SMap.get s.bkt.bus [] (pcIx st pc)
/-- Set the transfers waiting for a bus. -/
def State.setBus (s : State) (st pc : Nat) (l : List Xfer) : State :=
  { s with bkt := { s.bkt with bus := SMap.set s.bkt.bus [] (pcIx st pc) l } }
/-- Issue a transfer on a bus. -/
def State.issue (s : State) (st pc : Nat) (x : Xfer) : State := s.setBus st pc (s.busOf st pc ++ [x])

/-- A keeper. -/
def State.keeper (s : State) (q : Nat) : Keeper := SMap.get s.keepers {} q
/-- Set a keeper. -/
def State.setKeeper (s : State) (q : Nat) (k : Keeper) : State := { s with keepers := SMap.set s.keepers {} q k }

/-- Post an entry to a keeper's mailbox (R145, R304). -/
def State.post (s : State) (q : Nat) (entry : List Byte) : State :=
  s.setKeeper q { s.keeper q with mailbox := (s.keeper q).mailbox ++ [entry] }

/-! ## The tag record -/

/-- SCALE of a tag record (R126). -/
def BktTag.scale (t : BktTag) : W32 := BitVec.ofNat 32 (leAt t.record 0 4)
/-- HDIM of a tag record. -/
def recHdim (r : List Byte) : Nat := bitsOf (leAt r 4 1) 4 3
/-- The head dimension D. -/
def dimOf (hdim : Nat) : Nat := 64 * 2 ^ hdim
/-- Tokens per page, 8,192 / D (R120). -/
def tppOf (hdim : Nat) : Nat := 8192 / dimOf hdim
/-- PC_MASK of a tag record. -/
def recMask (r : List Byte) : Nat := leAt r 0x10 8
/-- The pseudo-channels that take part. -/
def recPcs (r : List Byte) : List Nat := rangeP 64 (bitOf (recMask r))
/-- TAIL_VALID of a tag record. -/
def recTailValid (r : List Byte) : Bool := bitOf (leAt r 6 1) 0

/-- Is SCALE positive and finite (R129)? -/
def scaleOk (r : List Byte) : Bool :=
  match fdec fp32 (leAt r 0 4) with
  | .fin false m _ => m != 0
  | _ => false

/-- No two entries name the same pseudo-channel and bank pair (R129). -/
def distinctPairs : List RunEntry → Bool
  | [] => true
  | e :: es => es.all (fun f => !(f.pc == e.pc && f.bp == e.bp)) && distinctPairs es

/-- The checks of R129. An entry of more than 32 pages is none that R127 allows. [DEDUCED: log entry 50] -/
def State.tagOk (s : State) (st : Nat) (r : List Byte) (es : List RunEntry) : Bool :=
  scaleOk r && recHdim r != 3 && recMask r != 0
    && (recPcs r).all (fun p => es.any (fun e => e.pc == p))
    && es.all (fun e => e.pages != 0 && decide (e.pages ≤ 32) && e.last != 0 && decide (e.last ≤ tppOf (recHdim r))
        && e.slots.all (fun x => decide (x < s.profile.bankedRows / 8)))
    && distinctPairs es
    && (!(recTailValid r) || (es.filter (fun e => e.tail)).length == 1)
    && es.all (fun e => match (s.chanOf st (e.pc / 2)).st with
        | .online | .retrainPending | .retraining | .migrating => true
        | _ => false)

/-! ## Run rings -/

/-- Write bytes into a pseudo-channel's ring from an offset, wrapping at its end (R127). -/
def State.ringWrite (s : State) (st pc off : Nat) (bytes : List Byte) : State :=
  let f := fun (acc : SMap Byte × Nat) b =>
    (SMap.set acc.1 0#8 (pcIx st pc * 16384 + acc.2 % 16384) b, acc.2 + 1)
  { s with bkt := { s.bkt with ring := (bytes.foldl f (s.bkt.ring, off)).1 } }

/-- The `n` ring bytes from an offset, wrapping. -/
def State.ringRead (s : State) (st pc off n : Nat) : List Byte :=
  (List.range n).map (fun i => SMap.get s.bkt.ring 0#8 (pcIx st pc * 16384 + (off + i) % 16384))

/-- The entry whose bytes stand at an offset of a ring: its tag, the entry, its length in bytes. -/
def State.ringEntry (s : State) (st pc off : Nat) : Nat × RunEntry × Nat :=
  let h := leNat (s.ringRead st pc off 4)
  let n := bitsOf h 17 12
  let slots := (List.range n).map (fun i => leNat (s.ringRead st pc (off + 4 + 2 * i) 2) % 8192)
  (bitsOf h 7 0, ⟨pc, bitsOf h 11 8, n, slots, bitsOf h 25 18, bitOf h 26⟩, 4 + 4 * ((n + 1) / 2))

/-- Consume the complete entries between head and the published tail (R127). An entry that names a tag opened and not
yet released is discarded and counted under MALFORMED (R129). [DESIGN CHOICE: log entry 51] -/
def State.consume (s : State) (st pc : Nat) : Nat → State
  | 0 => s
  | fuel + 1 =>
    let head := SMap.get s.bkt.head 0 (pcIx st pc)
    let tail := SMap.get s.bkt.tail 0 (pcIx st pc)
    let avail := (tail + 16384 - head) % 16384
    let e := s.ringEntry st pc head
    if avail < 4 || avail < e.2.2 then s
    else
      let s1 := { s with bkt := { s.bkt with head := SMap.set s.bkt.head 0 (pcIx st pc) ((head + e.2.2) % 16384) } }
      let s2 := if (s1.tagAt st e.1).life ≠ .free then s1.raise (pgBkt st) 2
        else s1.setEntries st e.1 (s1.entriesOf st e.1 ++ [e.2.1])
      s2.consume st pc fuel

/-- RUN_RING_PUBLISH (R127): the keeper writes `bytes` from the published tail onwards and then RING_TAIL. A tail that is
not a multiple of 4 up to 16,380 is ignored and counted under MALFORMED. [DESIGN CHOICE: log entry 51] -/
def execRunRingPublish (st : Fin 20) (pc : Fin 64) (bytes : List Byte) (tail : W32) (s : State) : Out := s.gate fun s =>
  let old := SMap.get s.bkt.tail 0 (pcIx st pc)
  let s1 := s.ringWrite st pc old bytes
  let t := tail.toNat
  if t % 4 = 0 ∧ t ≤ 16380 then
    .next (State.consume { s1 with bkt := { s1.bkt with tail := SMap.set s1.bkt.tail 0 (pcIx st pc) t } } st pc 4096)
  else .next (s1.raise (pgBkt st) 2)

/-! ## Opening and releasing a tag -/

/-- The 16-byte completion record of a tag (R145). -/
def tagCompletion (tag status flags units : Nat) (cookie : Nat) : List Byte :=
  leBytes 1 tag ++ leBytes 1 status ++ leBytes 1 flags ++ [0#8] ++ leBytes 2 units ++ [0#8, 0#8] ++ leBytes 8 cookie

/-- Is the test window of a keeper active (R363)? -/
def State.winActive (s : State) (q : Nat) : Bool := s.flag (pgKpr q) F.kpr_WIN_CTRL_ACTIVE

/-- Deliver a tag completion to the NOTIFY keeper: into its TAG_CPL queue while the test window is active, into its
mailbox otherwise (R145, R363). -/
def State.postTag (s : State) (q : Nat) (r : List Byte) : State :=
  if s.winActive q then s.setKeeper q { s.keeper q with cpl := (s.keeper q).cpl ++ [r] } else s.post q r

/-- Write consecutive words of a combine slot. [DESIGN CHOICE: log entry 54] -/
def State.setSlotWords (s : State) (st t w : Nat) (vs : List W32) : State :=
  { s with bkt := { s.bkt with slots := SMap.setList s.bkt.slots 0#32 (tagIx st t * 2064 + w) vs } }

/-- The starting values of a combine slot: ACC and SUM +0, MAX −∞ (order 4 of the tag sequence, R143, R146). -/
def State.initSlot (s : State) (st t hdim : Nat) : State :=
  if hdim = 3 then s else s.setSlotWords st t (8 * dimOf hdim) (List.replicate 8 0xFF800000#32)

/-- Remove every word of a combine slot: it reads zero (R146). -/
def State.clearSlot (s : State) (st t : Nat) : State :=
  let b := tagIx st t * 2064
  { s with bkt := { s.bkt with slots := SMap.keep s.bkt.slots (fun k => !(b ≤ k && k < b + 2064)) } }

/-- The START payload of a run entry (R133). -/
def startPayload (r : List Byte) (e : RunEntry) : List Byte :=
  slice r 0 4 ++ slice r 4 1 ++ slice r 5 1 ++ leBytes 1 e.pages ++ leBytes 1 e.last
    ++ (if e.tail && recTailValid r then slice r 8 8 else List.replicate 8 0#8)
    ++ leBytes 2 (b2n e.tail) ++ ((List.range 7).flatMap (fun i => leBytes 2 ((e.slots.drop i).headD 0)))

/-- Send START, and PAGELIST where needed, for the first tag of a unit (order 5 of the tag sequence). -/
def State.sendStart (s : State) (st pc bp : Nat) : State :=
  let k := unitIx st pc bp
  let u := s.unitAt k
  match u.tags with
  | [] => s
  | t :: _ =>
    match (s.entriesOf st t).find? (fun e => e.pc == pc && e.bp == bp) with
    | none => s
    | some e =>
      let s1 := (s.setUnit k { u with sent := true }).issue st pc ⟨2, bp, t, 0, startPayload (s.tagAt st t).record e⟩
      (List.range 2).foldl (fun s i =>
        let l := (e.slots.drop (7 + 16 * i)).take 16
        if l.length = 0 then s else s.issue st pc ⟨3, bp, t, i, l.flatMap (leBytes 2)⟩) s1

/-- Queue a tag at a unit; START is sent at once when the unit holds no other tag (R131). -/
def State.queueTag (s : State) (st t : Nat) (k : Nat) : State :=
  let u := s.unitAt k
  let s1 := s.setUnit k { u with tags := u.tags ++ [t] }
  if u.tags.length = 0 then s1.sendStart st (k / 16 % 64) (k % 16) else s1

/-- Write the query area and the tag record of a tag from byte 0. -/
def State.writeTagArea (s : State) (st t : Nat) (query record : List Byte) : State :=
  let s1 := { s with bkt := { s.bkt with
    query := SMap.setList s.bkt.query 0#8 (tagIx st t * 4096) (query.take 4096)
    record := SMap.setList s.bkt.record 0#8 (tagIx st t * 64) (record.take 60) } }
  if (s.tagAt st t).life = .opened && !(query.isEmpty && record.isEmpty)
  then s1.setTag st t { s1.tagAt st t with tainted := true } else s1

/-- TAG_OPEN (R126, R129, R146): the keeper writes the query area and the record (an empty list leaves one as it stands)
and then `value` to OPEN. [DEDUCED: log entry 50] -/
def execTagOpen (st : Fin 20) (t : Fin 256) (query record : List Byte) (value : W32) (s0 : State) : Out := s0.gateOn (pgBkt st) fun s0 =>
  let s := s0.writeTagArea st t query record
  if value ≠ 1#32 then .next s
  else if (s.tagAt st t).life ≠ .free then .next (s.raise (pgBkt st) 3)
  else
    let r := SMap.getList s.bkt.record 0#8 (tagIx st t * 64) 64
    let es := s.entriesOf st t
    let n := s.bkt.opens
    let s1 := ({ s with bkt := { s.bkt with opens := n + 1 } }).initSlot st t (recHdim r)
    if s.tagOk st r es then
      let us := es.map (fun e => unitIx st e.pc e.bp)
      let s2 := s1.setTag st t { life := .opened, order := n, record := r, units := us }
      .next (us.foldl (fun s k => s.queueTag st t k) s2)
    else
      let s2 := (s1.setTag st t { life := .complete, order := n, record := r }).setEntries st t []
      .next ((s2.postTag (bitsOf (leAt r 7 1) 1 0) (tagCompletion t 2 0 0 (leAt r 0x18 8))).raise (pgBkt st) 2)

/-- TAG_RELEASE (R146): an allocated and complete tag is freed and its slot cleared; one still open sets TAG_BUSY. -/
def execTagRelease (st : Fin 20) (t : Fin 256) (s : State) : Out := s.gate fun s =>
  match (s.tagAt st t).life with
  | .free => .next s
  | .opened => .next (s.raise (pgBkt st) 3)
  | .complete => .next ((s.setTag st t {}).clearSlot st t)

/-! ## The windlass bus -/

/-- The grant priority of a transfer type, lowest first (R135). -/
def xferPrio (typ : Nat) : Nat :=
  if typ = 6 then 1 else if typ = 5 || typ = 7 then 2 else if typ = 2 || typ = 3 || typ = 4 then 3
  else if typ = 8 || typ = 9 then 4 else 5

/-- Does transfer `a` go before `b` (R135)? PROG carries no tag. -/
def State.xferBefore (s : State) (st : Nat) (a b : Xfer) : Bool :=
  let o := fun (x : Xfer) => if x.typ = 1 then 0 else (s.tagAt st x.tag).order
  decide (xferPrio a.typ < xferPrio b.typ) || (xferPrio a.typ == xferPrio b.typ && decide (o a < o b))

/-- The transfer the base die grants next (R135): the first issued of the highest priority. -/
def State.nextXfer (s : State) (st pc : Nat) : Option Xfer :=
  match s.busOf st pc with
  | [] => none
  | x :: xs => some (xs.foldl (fun b y => if s.xferBefore st y b then y else b) x)

/-- Take the next transfer off a bus if it is of type `typ`. -/
def State.takeXfer (s : State) (st pc typ : Nat) : Option (Xfer × State) :=
  match s.nextXfer st pc with
  | none => none
  | some x => if x.typ = typ then some (x, s.setBus st pc ((s.busOf st pc).erase x)) else none

/-- The units of a pseudo-channel whose current tag is `t`, in chain order. -/
def State.chainOf (s : State) (st pc t : Nat) : List Nat :=
  (rangeP 16 (fun j => (s.unitAt (unitIx st pc j)).tags.head? == some t)).map (unitIx st pc)

/-- Is every unit of a tag in a pseudo-channel ready for a reduction: at one of `phases`, or already ENDed (R134, R142)? [DESIGN CHOICE: log entry 52] -/
def State.allReady (s : State) (st pc t : Nat) (ok : UnitPhase → Bool) : Bool :=
  ((s.tagAt st t).units.filter (fun k => k / 16 % 64 == pc)).all (fun k =>
    let u := s.unitAt k
    !(u.tags.contains t) || (u.tags.head? == some t && ok u.phase))

/-- Issue the MAX_UP and then the ACC_UP series of a tag on a pseudo-channel once every unit there is ready (R134). [DESIGN CHOICE: log entry 52] -/
def State.issueReductions (s : State) (st pc t : Nat) : State :=
  let g := s.tagAt st t
  if g.life ≠ .opened || !((recPcs g.record).contains pc) then s
  else if !(g.maxIssued.contains pc) then
    if s.allReady st pc t (fun p => p == .atMax || p == .atAcc) then
      (s.setTag st t { g with maxIssued := g.maxIssued ++ [pc] }).issue st pc ⟨5, 0, t, 0, []⟩
    else s
  else if g.maxUp.contains pc && !(g.accIssued.contains pc)
      && s.allReady st pc t (fun p => p == .atAcc) then
    (List.range (dimOf (recHdim g.record) + 1)).foldl (fun s i => s.issue st pc ⟨7, 0, t, i, []⟩)
      (s.setTag st t { g with accIssued := g.accIssued ++ [pc] })
  else s

/-- WINDLASS_PROG (R133, R136): every unit of the pseudo-channel copies micro-instructions 8 × INDEX onwards. -/
def execWindlassProg (st : Fin 20) (pc : Fin 64) (s : State) : Out :=
  match s.takeXfer st pc 1 with
  | none => .next s
  | some (x, s1) =>
    let ws := (List.range 8).map (fun i => BitVec.ofNat 32 (leAt x.data (4 * i) 4))
    .next ((List.range 16).foldl (fun s j =>
      let u := s.unitAt (unitIx st pc j)
      s.setUnit (unitIx st pc j) { u with prog := SMap.setList u.prog 0x58000000#32 (8 * x.index) ws }) s1)

/-- WINDLASS_START (R133): a unit receives its tag's parameters and its first page slots. -/
def execWindlassStart (st : Fin 20) (pc : Fin 64) (s : State) : Out :=
  match s.takeXfer st pc 2 with
  | none => .next s
  | some (x, s1) =>
    let k := unitIx st pc x.unit
    let d := x.data
    let n := leAt d 6 1
    .next (s1.setUnit k { s1.unitAt k with
      phase := .started, scale := BitVec.ofNat 32 (leAt d 0 4), shape := leAt d 4 1, entry := leAt d 5 1, pages := n,
      last := leAt d 7 1, mask := BitVec.ofNat 64 (leAt d 8 8), tail := bitOf (leAt d 0x10 1) 0,
      slots := (List.range (min n 7)).map (fun i => leAt d (0x12 + 2 * i) 2) })

/-- WINDLASS_PAGELIST (R133): a unit receives further page slots. -/
def execWindlassPagelist (st : Fin 20) (pc : Fin 64) (s : State) : Out :=
  match s.takeXfer st pc 3 with
  | none => .next s
  | some (x, s1) =>
    let k := unitIx st pc x.unit
    let u := s1.unitAt k
    .next (s1.setUnit k { u with slots := u.slots ++ (List.range (x.data.length / 2)).map (fun i => leAt x.data (2 * i) 2) })

/-- WINDLASS_QUERY (R131, R133): the units of the tag latch a chunk of its query, into the current or the next latch. -/
def execWindlassQuery (st : Fin 20) (pc : Fin 64) (s : State) : Out :=
  match s.takeXfer st pc 4 with
  | none => .next s
  | some (x, s1) =>
    .next ((List.range 16).foldl (fun s j =>
      let k := unitIx st pc j
      let u := s.unitAt k
      match u.tags with
      | a :: r =>
        if a = x.tag then s.setUnit k { u with q0 := SMap.set u.q0 [] x.index x.data }
        else if r.head? = some x.tag then s.setUnit k { u with q1 := SMap.set u.q1 [] x.index x.data }
        else s
      | [] => s) s1)

/-- QUERY_BROADCAST (R131): once every unit of the tag in a pseudo-channel holds it as its current or next tag, the base
die issues the QUERY transfers of the query area (R128). -/
def execQueryBroadcast (st : Fin 20) (pc : Fin 64) (t : Fin 256) (s : State) : Out :=
  let g := s.tagAt st t
  let mine := g.units.filter (fun k => k / 16 % 64 == pc.val)
  if g.life = .opened && (recPcs g.record).contains pc.val && !(g.cast.contains pc.val)
      && mine.all (fun k => ((s.unitAt k).tags.take 2).contains t.val) then
    let s1 := s.setTag st t { g with cast := g.cast ++ [pc.val] }
    .next ((List.range (dimOf (recHdim g.record) / 2)).foldl (fun s i =>
      s.issue st pc ⟨4, 0, t, i, SMap.getList s.bkt.query 0#8 (tagIx st t * 4096 + 32 * i) 32⟩) s1)
  else .next s

/-- FP32 maximum as the adders take it (R98). -/
def max32 (a b : W32) : W32 := BitVec.ofNat 32 (fminmax fp32 true a.toNat b.toNat)

/-- MAX_UP (R134, R144): the word passes the chain, each waiting unit of the tag contributing its M, and is combined into
slot MAX; when every pseudo-channel has passed, MAX_DOWN is issued on each. -/
def execMaxUp (st : Fin 20) (pc : Fin 64) (s : State) : Out :=
  match s.takeXfer st pc 5 with
  | none => .next s
  | some (x, s1) =>
    let t := x.tag
    let ks := (s1.chainOf st pc t).filter (fun k => (s1.unitAt k).phase == .atMax && !(s1.unitAt k).gaveMax)
    let word := ks.foldl (fun w k => List.zipWith max32 w (s1.unitAt k).m) (List.replicate 8 0xFF800000#32)
    let s2 := ks.foldl (fun s k => s.setUnit k { s.unitAt k with gaveMax := true }) s1
    let d := dimOf (recHdim (s2.tagAt st t).record)
    let s3 := (List.range 8).foldl (fun s h =>
      s.setSlotWord st t (8 * d + h) (max32 (s.slotWord st t (8 * d + h)) ((word.drop h).headD 0))) s2
    let g := s3.tagAt st t
    let g' := { g with maxUp := g.maxUp ++ [pc.val] }
    let s4 := s3.setTag st t g'
    if (recPcs g.record).all (fun p => g'.maxUp.contains p) then
      let pay := (List.range 8).flatMap (fun h => leBytes 4 (s4.slotWord st t (8 * d + h)).toNat)
      .next ((recPcs g.record).foldl (fun s p => (s.issue st p ⟨6, 0, t, 0, pay⟩).issueReductions st p t) s4)
    else .next (s4.issueReductions st pc t)

/-- The factor of MAX_DOWN for a head (R142): 1 when the slot maximum is −∞, else exp(M − G). -/
def downFactor (m g : W32) (n : Nat) : W32 :=
  if g = 0xFF800000#32 then 0x3F800000#32 else expApprox (sub32 m g) n

/-- Is an FP32 pattern a NaN? -/
def isNaN32 (x : W32) : Bool := fisNaN (fdec fp32 x.toNat)

/-- MAX_DOWN (R142): each unit of the tag that waits at MAXX rescales ACC and L and goes on. -/
def execMaxDown (st : Fin 20) (pc : Fin 64) (s : State) : Out :=
  match s.takeXfer st pc 6 with
  | none => .next s
  | some (x, s1) =>
    let t := x.tag
    let g0 := s1.tagAt st t
    let s2 := s1.setTag st t { g0 with maxDown := g0.maxDown ++ [pc.val] }
    let ks := (s2.chainOf st pc t).filter (fun k => (s2.unitAt k).phase == .atMax)
    .next ((ks.foldl (fun s k =>
      let u := s.unitAt k
      let d := dimOf (bitsOf u.shape 4 3)
      let f := (List.range 8).map (fun h =>
        downFactor ((u.m.drop h).headD 0) (BitVec.ofNat 32 (leAt x.data (4 * h) 4)) (drawAt s.free h))
      let l := List.zipWith mul32 u.l f
      let acc := (List.range (8 * d)).foldl (fun a i => SMap.upd a 0#32 i (fun v => mul32 v ((f.drop (i / d)).headD 0))) u.acc
      let bad := l.any isNaN32 || acc.any (fun e => isNaN32 e.2)
      { s.setUnit k { u with l := l, acc := acc, phase := .running, pc := (u.pc + 1) % 256, nan := u.nan || bad } with
        free := s.free + 8 }) s2).issueReductions st pc t)

/-- ACC_UP (R134, R144): a chunk passes the chain, each waiting unit adding its part in chain order, and is added into the
combine slot; after chunk D the waiting units go on (R142). -/
def execAccUp (st : Fin 20) (pc : Fin 64) (s : State) : Out :=
  match s.takeXfer st pc 7 with
  | none => .next s
  | some (x, s1) =>
    let t := x.tag
    let d := dimOf (recHdim (s1.tagAt st t).record)
    let ks := (s1.chainOf st pc t).filter (fun k => (s1.unitAt k).phase == .atAcc)
    let part := fun (k : Nat) => (List.range 8).map (fun j =>
      if x.index = d then ((s1.unitAt k).l.drop j).headD 0 else SMap.get (s1.unitAt k).acc 0#32 (8 * x.index + j))
    let word := ks.foldl (fun w k => List.zipWith add32 w (part k)) (List.replicate 8 0#32)
    let base := if x.index = d then 8 * d + 8 else 8 * x.index
    let s2 := (List.range 8).foldl (fun s j =>
      s.setSlotWord st t (base + j) (add32 (s.slotWord st t (base + j)) ((word.drop j).headD 0))) s1
    let g := s2.tagAt st t
    let s3 := s2.setTag st t { g with accUp := SMap.set g.accUp 0 pc (x.index + 1) }
    if x.index = d then
      .next (ks.foldl (fun s k =>
        let u := s.unitAt k
        s.setUnit k { u with phase := .running, gaveAcc := true, pc := (u.pc + 1) % 256 }) s3)
    else .next s3

/-- WINDLASS_DONE (R133): a unit's status, NAN and corrections reach the base die. -/
def execWindlassDone (st : Fin 20) (pc : Fin 64) (s : State) : Out :=
  match s.takeXfer st pc 8 with
  | none => .next s
  | some (x, s1) =>
    let g := s1.tagAt st x.tag
    .next (s1.setTag st x.tag { g with
      dones := g.dones ++ [unitIx st pc x.unit], poison := g.poison || leAt x.data 0 1 == 1,
      nan := g.nan || bitOf (leAt x.data 1 1) 0 })

/-- WINDLASS_POISON (R151): the base die records a poisoned location in POISON_LOG and ERR_ADDR, counts it in UE_COUNT,
sets cause UNIT_UE or UNIT_POISON and writes an error-log record. [DEDUCED: log entry 55] -/
def execWindlassPoison (st : Fin 20) (pc : Fin 64) (s : State) : Out :=
  match s.takeXfer st pc 9 with
  | none => .next s
  | some (x, s1) =>
    let slot := leAt x.data 0 2
    let b := leAt x.data 2 1
    let row := bitsOf b 2 0
    let half := bitsOf b 3 3
    let ue := bitOf b 4
    let col := leAt x.data 3 1
    let key := colIx st pc (2 * x.unit + half) (768 + 8 * slot + row) col
    let lo := slot + 2 ^ 13 * x.unit + 2 ^ 17 * pc.val + 2 ^ 23 * row + 2 ^ 26 * col + 2 ^ 31 * half
    let hi := x.tag + 2 ^ 8 * b2n ue + 2 ^ 9
    let s2 := (s1.setReg (pgBkt st) 0 0x064 (BitVec.ofNat 32 lo)).setReg (pgBkt st) 0 0x068 (BitVec.ofNat 32 hi)
    let g := s2.tagAt st x.tag
    let k := pcIx st pc * 16 + x.unit
    let s3 := s2.setTag st x.tag { g with bad := if g.bad.contains k then g.bad else g.bad ++ [k] }
    .next ((s3.recordBad key (!ue) true x.tag).raise (pgBkt st) (if ue then 0 else 1))

/-! ## Bucket units -/

/-- UNIT_TAG_START (R131, R137): a unit whose previous tag has ENDed and which has received START takes its tag and sets M,
L, ACC, the page state and SC as INIT and ZERO do. -/
def execUnitTagStart (st : Fin 20) (pc : Fin 64) (bp : Fin 16) (s : State) : Out :=
  let k := unitIx st pc bp
  let u := s.unitAt k
  if u.phase = .started then
    .next (s.setUnit k { u with
      phase := .running, pc := u.entry, sc := [], m := List.replicate 8 0xFF800000#32, l := List.replicate 8 0#32,
      acc := [], page := 0, nt := if u.pages = 1 then u.last else tppOf (bitsOf u.shape 4 3), done := false,
      poisoned := false, gaveMax := false, gaveAcc := false, nan := false, corrected := 0, ops := 0 })
  else .next s

/-- The micro-instruction a running unit executes next. -/
def BktUnit.word (u : BktUnit) : Nat := (SMap.get u.prog 0x58000000#32 u.pc).toNat

/-- Run `f` on a unit that is running and whose next micro-instruction has opcode `op`; no effect otherwise. -/
def onMicro (st pc bp op : Nat) (s : State) (f : BktUnit → State) : Out :=
  let u := s.unitAt (unitIx st pc bp)
  if u.phase = .running && u.word / 2 ^ 27 == op then .next (f u) else .next s

/-- The unit after its micro-instruction: the next address. -/
def BktUnit.step (u : BktUnit) : BktUnit := { u with pc := (u.pc + 1) % 256 }

/-- BKT_NOP (R137). -/
def execBktNop (st : Fin 20) (pc : Fin 64) (bp : Fin 16) (s : State) : Out :=
  onMicro st pc bp 0x00 s (fun u => s.setUnit (unitIx st pc bp) u.step)

/-- BKT_INIT (R137). -/
def execBktInit (st : Fin 20) (pc : Fin 64) (bp : Fin 16) (s : State) : Out :=
  onMicro st pc bp 0x01 s (fun u => s.setUnit (unitIx st pc bp) { u.step with
    m := List.replicate 8 0xFF800000#32, l := List.replicate 8 0#32, acc := [], page := 0,
    nt := if u.pages = 1 then u.last else tppOf (bitsOf u.shape 4 3), done := false, poisoned := false })

/-- BKT_ZERO (R137). -/
def execBktZero (st : Fin 20) (pc : Fin 64) (bp : Fin 16) (s : State) : Out :=
  onMicro st pc bp 0x02 s (fun u => s.setUnit (unitIx st pc bp) { u.step with sc := [] })

/-- The token of a page, and the first of the 32 dimensions, that column `c` of row `row` holds (R120). -/
def colToken (d row c : Nat) : Nat × Nat := (row * (1024 / d) + c / (d / 32), 32 * (c % (d / 32)))

/-- The columns of a QK or PV instruction below the row's end and below NT (R137, R138): column, token, dimension. -/
def sweepCols (w d nt : Nat) : List (Nat × Nat × Nat) :=
  let row := bitsOf w 26 24
  let col := bitsOf w 23 19
  let cnt := bitsOf w 18 15 + 1
  ((List.range cnt).map (· + col)).filterMap (fun c =>
    if c < 32 && decide ((colToken d row c).1 < nt) then some (c, colToken d row c) else none)

/-- A value of the tag's key or value format (R126). -/
def kvDec (e5 : Bool) (b : Byte) : FVal := if e5 then fdec e5m2 b.toNat else fdec e4m3 b.toNat

/-- Query element (head, dimension) of the current tag (R128). -/
def BktUnit.query (u : BktUnit) (h d : Nat) : FVal :=
  fdec bf16 (leAt (SMap.get u.q0 [] (d / 2)) (16 * (d % 2) + 2 * h) 2)

/-- A unit's read of a column of its pair (R150, R151): a correction is used, written back and counted; an uncorrectable
column is written back poisoned. `none` is poison, with whether it was uncorrectable. -/
def State.unitCol (s : State) (key : Nat) : (Option (List Byte) × Bool × Bool) × State :=
  let c := s.col key
  let p := placeOfKey key
  match decodeCol c with
  | .clean => ((some (c.take 32), false, false), s)
  | .fixed c' => ((some (c'.take 32), true, false), (s.setCol key c').countCe p.st p.pc)
  | .poisoned => ((none, false, false), s)
  | .uncorrectable => ((none, false, true), s.setCol key (poisonCol c))

/-- Count column operations of a stack in COL_OPS. -/
def State.countColOps (s : State) (st n : Nat) : State :=
  s.bump64B (pgBkt st) 0 F.bkt_COL_OPS_LO_COUNT F.bkt_COL_OPS_HI_COUNT n

/-- A QK or PV sweep: `f` is the arithmetic of one column on the unit. At poison the unit sends POISON, sets POISONED and
performs no further column (R139, R151). [DEDUCED: log entry 55] -/
def sweep (st pc bp half : Nat) (f : BktUnit → Nat → Nat → List Byte → BktUnit) :
    List (Nat × Nat × Nat) → BktUnit → State → BktUnit × State
  | [], u, s => (u, s)
  | (c, t, d0) :: cs, u, s =>
    let row := bitsOf u.word 26 24
    let slot := (u.slots.drop u.page).headD 0
    let r := s.unitCol (colIx st pc (2 * bp + half) (768 + 8 * slot + row) c)
    let u1 := { u with ops := u.ops + 1 }
    let s1 := r.2.countColOps st 1
    match r.1 with
    | (some data, fixed, _) =>
      sweep st pc bp half f cs (f { u1 with corrected := u1.corrected + b2n fixed } t d0 data) s1
    | (none, _, ue) =>
      ({ u1 with poisoned := true },
        s1.issue st pc ⟨9, bp, u.tags.headD 0, 0,
          leBytes 2 slot ++ leBytes 1 (row + 8 * half + 16 * b2n ue) ++ leBytes 1 c⟩)

/-- Can a sweep go ahead: the channel is not RETRAINING (R153), and the page's slot has arrived? -/
def State.sweepReady (s : State) (st pc : Nat) (u : BktUnit) : Bool :=
  (s.chanOf st (pc / 2)).st != .retraining && decide (u.page < u.slots.length)

/-- A key column's products join the scores (R117): one FP32 addition of the exact sum of 32 products for each query head. -/
def BktUnit.qkCol (u : BktUnit) (t d0 : Nat) (data : List Byte) : BktUnit :=
  { u with sc := (List.range 8).foldl (fun m h =>
      let prods := (List.range 32).map (fun i => fmul (kvDec (bitOf u.shape 5) ((data.drop i).headD 0)) (u.query h (d0 + i)))
      SMap.upd m 0#32 (8 * t + h) (fun v => BitVec.ofNat 32 (fenc fp32 (fadd (fdec fp32 v.toNat) (fsum prods))))) u.sc }

/-- The columns of a unit's sweep, and whether the QUERY chunks of their dimensions have arrived. -/
def BktUnit.cols (u : BktUnit) : List (Nat × Nat × Nat) := sweepCols u.word (dimOf (bitsOf u.shape 4 3)) u.nt
def BktUnit.queryHere (u : BktUnit) : Bool := u.cols.all (fun c => (List.range 16).all (fun i => (SMap.find u.q0 (c.2.2 / 2 + i)).isSome))

/-- BKT_QK (R117, R138, R139): key column operations; it waits until the QUERY chunks of its dimensions have arrived. -/
def execBktQk (st : Fin 20) (pc : Fin 64) (bp : Fin 16) (s : State) : Out :=
  onMicro st pc bp 0x03 s (fun u =>
    let k := unitIx st pc bp
    if u.poisoned then s.setUnit k u.step
    else if !(s.sweepReady st pc u) || !u.queryHere then s
    else
      let r := sweep st pc bp 0 BktUnit.qkCol u.cols u s
      r.2.setUnit k r.1.step)

/-- Is position `t` of the current page masked (R140)? `tv` is TAIL_VALID of the tag. -/
def BktUnit.masked (u : BktUnit) (tv : Bool) (t : Nat) : Bool :=
  let tpp := tppOf (bitsOf u.shape 4 3)
  let n := (u.pages - 1) * tpp + u.last
  let x := u.page * tpp + t
  decide (t ≥ u.nt) || (u.tail && tv && decide (x + 64 ≥ n) && decide (x < n) && !(bitOf u.mask.toNat (x + 64 - n)))

/-- The scores of masked positions become −∞. -/
def BktUnit.maskAll (u : BktUnit) (tv : Bool) : BktUnit :=
  { u.step with sc := (rangeP (tppOf (bitsOf u.shape 4 3)) (u.masked tv)).foldl (fun m t =>
      SMap.setList m 0#32 (8 * t) (List.replicate 8 0xFF800000#32)) u.sc }

/-- BKT_MASK (R140). -/
def execBktMask (st : Fin 20) (pc : Fin 64) (bp : Fin 16) (s : State) : Out :=
  onMicro st pc bp 0x04 s (fun u =>
    s.setUnit (unitIx st pc bp) (if u.poisoned then u.step else u.maskAll (recTailValid (s.tagAt st (u.tags.headD 0)).record)))

/-- A score scaled for the softmax (R119, R141): +∞ becomes the largest finite value, NaN becomes −∞. -/
def softScore (scale sc : W32) : W32 :=
  let x := mul32 scale sc
  if isNaN32 x then 0xFF800000#32 else if x = 0x7F800000#32 then 0x7F7FFFFF#32 else x

/-- The softmax step of one head (R141): the new M and L, the factor `a` and the probabilities. `n` is the draw number:
draw 0 is for `a`, draws 1 on for the probabilities, and the draw after them for the order of the sum. -/
def smaxHead (m l : W32) (x : List W32) (n : Nat) : W32 × W32 × W32 × List W32 :=
  let mn := x.foldl max32 m
  let r := if mn = 0xFF800000#32 then (0x3F800000#32, x.map (fun _ => 0#32))
    else (expApprox (sub32 m mn) (drawAt n 0), x.mapIdx (fun i v => expApprox (sub32 v mn) (drawAt n (i + 1))))
  let sum := (arrival x.length (drawAt n (x.length + 1)) r.2).foldl add32 0#32
  (mn, add32 (mul32 l r.1) sum, r.1, r.2)

/-- SMAX of every head (R141): the new M and L, the factor of the old sums, and the scores' exponentials. `d`: the first draw of the free
values it uses. -/
def BktUnit.smaxAll (u : BktUnit) (d : Nat) : List (BitVec 32 × BitVec 32 × BitVec 32 × List (BitVec 32)) :=
  let tpp := tppOf (bitsOf u.shape 4 3)
  (List.range 8).map (fun h => smaxHead ((u.m.drop h).headD 0) ((u.l.drop h).headD 0)
    (((List.range tpp).map (fun t => SMap.get u.sc 0#32 (8 * t + h))).map (softScore u.scale)) (d + h * (tpp + 2)))

/-- A unit after SMAX. [DESIGN CHOICE: log entry 53] -/
def BktUnit.smax (u : BktUnit) (d0 : Nat) : BktUnit :=
  let d := dimOf (bitsOf u.shape 4 3)
  let tpp := tppOf (bitsOf u.shape 4 3)
  let rs := u.smaxAll d0
  let sc := (List.range (8 * tpp)).foldl (fun m i =>
    SMap.set m 0#32 i ((((rs.drop (i % 8)).headD (0, 0, 0, [])).2.2.2.drop (i / 8)).headD 0)) u.sc
  let acc := (List.range (8 * d)).foldl (fun m i =>
    SMap.upd m 0#32 i (fun v => mul32 v ((rs.drop (i / d)).headD (0, 0, 0, [])).2.2.1)) u.acc
  let l := rs.map (fun r => r.2.1)
  let bad := ((List.range 8).any (fun h => (List.range tpp).any (fun t => isNaN32 (mul32 u.scale (SMap.get u.sc 0#32 (8 * t + h))))))
    || l.any isNaN32 || acc.any (fun e => isNaN32 e.2)
  { u.step with sc := sc, acc := acc, l := l, m := rs.map (fun r => r.1), nan := u.nan || bad }

/-- BKT_SMAX (R141). -/
def execBktSmax (st : Fin 20) (pc : Fin 64) (bp : Fin 16) (s : State) : Out :=
  onMicro st pc bp 0x05 s (fun u =>
    let k := unitIx st pc bp
    if u.poisoned then s.setUnit k u.step
    else { s.setUnit k (u.smax s.free) with free := s.free + 8 * (tppOf (bitsOf u.shape 4 3) + 2) })

/-- A value column's products join ACC (R118): each a fused multiply–add rounded once. -/
def BktUnit.pvCol (u : BktUnit) (t d0 : Nat) (data : List Byte) : BktUnit :=
  let d := dimOf (bitsOf u.shape 4 3)
  let acc := (List.range 256).foldl (fun m i =>
    let h := i / 32
    let j := i % 32
    SMap.upd m 0#32 (d * h + d0 + j) (fun v =>
      BitVec.ofNat 32 (fenc fp32 (fadd (fdec fp32 v.toNat)
        (fmul (fdec fp32 (SMap.get u.sc 0#32 (8 * t + h)).toNat) (kvDec (bitOf u.shape 6) ((data.drop j).headD 0))))))) u.acc
  { u with acc := acc, nan := u.nan || acc.any (fun e => isNaN32 e.2) }

/-- BKT_PV (R118, R138, R139): value column operations into ACC, each a fused multiply–add rounded once. -/
def execBktPv (st : Fin 20) (pc : Fin 64) (bp : Fin 16) (s : State) : Out :=
  onMicro st pc bp 0x06 s (fun u =>
    let k := unitIx st pc bp
    if u.poisoned then s.setUnit k u.step
    else if !(s.sweepReady st pc u) then s
    else
      let r := sweep st pc bp 1 BktUnit.pvCol u.cols u s
      r.2.setUnit k r.1.step)

/-- BKT_NEXT (R137, R139). -/
def execBktNext (st : Fin 20) (pc : Fin 64) (bp : Fin 16) (s : State) : Out :=
  onMicro st pc bp 0x07 s (fun u =>
    let p := u.page + 1
    s.setUnit (unitIx st pc bp) { u.step with
      page := p
      done := if p = u.pages || u.poisoned then true else u.done
      nt := if p = u.pages then u.nt else if p + 1 = u.pages then u.last else tppOf (bitsOf u.shape 4 3) })

/-- BKT_BR (R137). A reserved condition leaves open whether the branch is taken. [DESIGN CHOICE: log entry 53] -/
def execBktBr (st : Fin 20) (pc : Fin 64) (bp : Fin 16) (s : State) : Out :=
  onMicro st pc bp 0x08 s (fun u =>
    let c := bitsOf u.word 26 24
    let take := if c = 0 then true else if c = 1 then u.done else if c = 2 then !u.done else drawAt s.free 0 % 2 == 1
    let s1 := if c > 2 then { s with free := s.free + 1 } else s
    s1.setUnit (unitIx st pc bp) (if take then { u with pc := bitsOf u.word 7 0 } else u.step))

/-- BKT_MAXX (R142): the unit signals ready, and waits at MAXX for MAX_DOWN. [DESIGN CHOICE: log entry 52] -/
def execBktMaxx (st : Fin 20) (pc : Fin 64) (bp : Fin 16) (s : State) : Out :=
  onMicro st pc bp 0x09 s (fun u =>
    (s.setUnit (unitIx st pc bp) { u with phase := .atMax }).issueReductions st pc (u.tags.headD 0))

/-- BKT_SENDACC (R142): the unit signals ready, and waits for the ACC_UP series. [DESIGN CHOICE: log entry 52] -/
def execBktSendacc (st : Fin 20) (pc : Fin 64) (bp : Fin 16) (s : State) : Out :=
  onMicro st pc bp 0x0A s (fun u =>
    (s.setUnit (unitIx st pc bp) { u with phase := .atAcc }).issueReductions st pc (u.tags.headD 0))

/-- BKT_END (R142): the unit sends DONE and is free for its next tag, whose START the base die then sends. -/
def execBktEnd (st : Fin 20) (pc : Fin 64) (bp : Fin 16) (s : State) : Out :=
  onMicro st pc bp 0x0B s (fun u =>
    let k := unitIx st pc bp
    let t := u.tags.headD 0
    let pay := leBytes 1 (b2n u.poisoned) ++ leBytes 1 (b2n u.nan) ++ leBytes 2 u.corrected ++ leBytes 4 u.ops
    let s1 := (s.setUnit k { u with tags := u.tags.drop 1, sent := false, phase := .idle, q0 := u.q1, q1 := [] }).issue st pc
      ⟨8, bp, t, 0, pay⟩
    (s1.issueReductions st pc t).sendStart st pc bp)

/-! ## Completion, sharing, program store -/

/-- Has a tag finished in every pseudo-channel: its ACC_UP series has passed and every unit is DONE (R145)? -/
def BktTag.finished (g : BktTag) : Bool :=
  (recPcs g.record).all (fun p => SMap.get g.accUp 0 p == dimOf (recHdim g.record) + 1)
    && g.units.all (fun k => g.dones.contains k)

/-- Complete a tag: post its completion record and free its entries. EVT_COUNT counts completed tags (R145). -/
def State.completeTag (s : State) (st t status : Nat) : State :=
  let g := s.tagAt st t
  let d := dimOf (recHdim g.record)
  let empty := (List.range 8).all (fun h => s.slotWord st t (8 * d + h) == 0xFF800000#32)
  let r := tagCompletion t status (b2n g.nan + 2 * b2n empty) g.units.length (leAt g.record 0x18 8)
  let s1 := ((s.setTag st t { g with life := .complete }).setEntries st t []).event (pgBkt st)
  let s2 := s1.postTag (bitsOf (leAt g.record 7 1) 1 0) r
  if g.nan then s2.raise (pgBkt st) 4 else s2

/-- TAG_COMPLETE (R145, R151, R154): the completion of a finished tag is posted; a tag that a misuse has touched completes
with a free slot and free status. It waits while the test window's completion queue holds 64 (R363). -/
def State.tagComplete (s : State) (st : Fin 20) (t : Fin 256) : State :=
  let g := s.tagAt st t
  let q := bitsOf (leAt g.record 7 1) 1 0
  if g.life = .opened && g.finished && !(s.winActive q && decide ((s.keeper q).cpl.length ≥ 64)) then
    if g.tainted then
      let n := 8 * dimOf (recHdim g.record) + 16
      let s1 := s.setSlotWords st t 0 ((List.range n).map (fun i => BitVec.ofNat 32 (drawAt s.free i)))
      (State.completeTag ({ s1 with free := s.free + n + 1 }.setTag st t { g with nan := drawAt s.free n % 2 == 1 }) st t
        (drawAt s.free n / 2 % 4))
    else (s.completeTag st t (if g.poison then 1 else 0))
  else s

/-- YIELD_SERVICE (R147, R149): at the unit's yield point the requests held for its bank pair are served in order. -/
def execYieldService (st : Fin 20) (pc : Fin 64) (bp : Fin 16) (s : State) : Out :=
  let mine := fun (h : HeldReq) => h.stack == st.val && h.channel == pc.val * 16 + bp.val
  let s1 := { s with cis := { s.cis with yield := s.cis.yield.filter (fun h => !(mine h)) } }
  .next ((s.cis.yield.filter mine).foldl (fun s h => let r := s.resolve h.gran; r.2.serveAt r.1 h.req) s1)

/-- MICROPROGRAM_WRITE (R136, R154): the word is stored at ADDR in the selected stores and sent on as PROG transfers, and
ADDR is incremented modulo 256. A started tag of such a pseudo-channel has an undefined result from then on. -/
def execMicroprogramWrite (st : Fin 20) (word : W32) (s : State) : Out :=
  if !(s.pageLive (pgBkt st)) then .next (s.badAccess (pgBkt st) 0x04C true) else
  let a := s.fld (pgBkt st) F.bkt_PROG_ADDR_ADDR
  let pcs := if s.flag (pgBkt st) F.bkt_PROG_ADDR_ALL then List.range 64 else [s.fld (pgBkt st) F.bkt_PROG_ADDR_PC]
  let s1 := pcs.foldl (fun s pc =>
    let s1 := { s with bkt := { s.bkt with store := SMap.set s.bkt.store 0x58000000#32 (pcIx st pc * 256 + a) word } }
    let pay := (SMap.getList s1.bkt.store 0x58000000#32 (pcIx st pc * 256 + a / 8 * 8) 8).flatMap (fun w => leBytes 4 w.toNat)
    let s2 := s1.issue st pc ⟨1, 0, 0, a / 8, pay⟩
    (List.range 16).foldl (fun s j =>
      let u := s.unitAt (unitIx st pc j)
      if u.phase = .idle then s
      else s.setTag st (u.tags.headD 0) { s.tagAt st (u.tags.headD 0) with tainted := true }) s2) s
  .next (s1.setFld (pgBkt st) F.bkt_PROG_ADDR_ADDR ((a + 1) % 256))

end Sys2Proof.Machine
end

