-- ==== Sys2Proof/Machine/Quadrille.lean ====
section
/-! DEFINITION. Quadrille schedulers (R364 to R380): queues, the strict order, the ensemble, shapers and gate lists. -/
namespace Sys2Proof.Machine
open Sys2Proof

/-- The instance number of a scheduler: 0–4 as they stand, then 16 + p for port p (R364). -/
def qdrInst (i : Fin 17) : Nat := if i.val < 5 then i.val else i.val + 11

/-- A scheduler. -/
def State.qdr (s : State) (i : Nat) : Qdr := SMap.get s.link.qdr {} i
/-- Set a scheduler. -/
def State.setQdr (s : State) (i : Nat) (x : Qdr) : State := { s with link := { s.link with qdr := SMap.set s.link.qdr {} i x } }
/-- A queue of a scheduler. -/
def State.queue (s : State) (i q : Nat) : QQueue := SMap.get s.link.queues {} (i * 128 + q)
/-- Set a queue. -/
def State.setQueue (s : State) (i q : Nat) (x : QQueue) : State :=
  { s with link := { s.link with queues := SMap.set s.link.queues {} (i * 128 + q) x } }

/-- Queue numbers: class 0, class 1 and the floor. -/
def qClass0 : Nat := 64
def qClass1 : Nat := 65
def qFloor : Nat := 66

/-- The bytes a queue holds. -/
def QQueue.depth (x : QQueue) : Nat := (x.frames.map (fun f => f.len)).sum

/-- Is a queue shaped? Class 0 never is (R368). -/
def State.shaped (s : State) (i q : Nat) : Bool := q != qClass0 && s.fldB (pgQdr i) q F.qdr_Q_CFG_SHAPE_EN == 1

/-- Does an ensemble queue take frames (R370)? Every other queue does. -/
def State.qEnabled (s : State) (i q : Nat) : Bool := q ≥ 64 || s.fldB (pgQdr i) q F.qdr_Q_CFG_ENABLE == 1

/-- LIMIT of a queue; 0 is taken as 1 (R366). [DESIGN CHOICE: log entry 100] -/
def State.qLimit (s : State) (i q : Nat) : Nat := max 1 (s.fldB (pgQdr i) q F.qdr_Q_CFG_LIMIT)

/-- Is a queue's gate open (R367, R368, R373)? -/
def State.gateOpen (s : State) (i q : Nat) : Bool :=
  q == qClass0 || (match (s.qdr i).oper with
    | none => true
    | some l =>
      match l.entries[(s.qdr i).cur]? with
      | none => true
      | some e => if q = qClass1 then e.class1 else if q = qFloor then e.floor else bitOf e.ens q)

/-- Is a queue's head frame eligible (R367)? [DESIGN CHOICE: log entry 100] -/
def State.eligible (s : State) (i q : Nat) : Bool :=
  s.gateOpen i q && (!(s.shaped i q) || decide ((s.queue i q).credit ≥ 0))

/-! ## Enqueueing -/

/-- Put a frame into a queue: an empty enabled ensemble queue joins the active list, fresh (R369); the depth marks are
kept (R379, R380). -/
def State.enqueue (s : State) (i q : Nat) (f : QFrame) : State :=
  let x := s.queue i q
  let d := x.depth + f.len
  let y : QQueue := { x with frames := x.frames ++ [f], maxDepth := max x.maxDepth d
                             fresh := if q < 64 ∧ x.frames.isEmpty then true else x.fresh }
  let s1 := s.setQueue i q y
  let s2 := if q < 64 && x.frames.isEmpty && s.qEnabled i q then
      s1.setQdr i { s1.qdr i with active := (s1.qdr i).active ++ [q] } else s1
  if d > s2.fldB (pgQdr i) q F.qdr_Q_HWM_DEPTH_VALUE then s2.setFldB (pgQdr i) q F.qdr_Q_HWM_DEPTH_VALUE (min d (2 ^ 32 - 1)) else s2

/-- May a frame join a queue (R366, R370)? -/
def State.qRoom (s : State) (i q : Nat) : Bool :=
  decide ((s.queue i q).frames.length < s.qLimit i q) && s.qEnabled i q

/-! ## Sending -/

/-- A frame leaves its queue: its credit, deficit and measurements, and the event count (R369, R371, R379, R380). -/
def State.dequeue (s : State) (i q k : Nat) (f : QFrame) (delay : Nat) : State :=
  let x := s.queue i q
  let rest := x.frames.eraseIdx k
  let credit := if s.shaped i q then x.credit - (f.len : Int) * 65536 else x.credit
  let deficit := if q < 64 then (if rest.isEmpty then 0 else x.deficit - f.len) else x.deficit
  let y : QQueue := { x with
    frames := rest, credit := credit, deficit := deficit
    sumDelay := x.sumDelay + delay, maxDelay := max x.maxDelay delay, sent := x.sent + 1
    sentBytes := x.sentBytes + f.len, lowCredit := min x.lowCredit credit }
  let s1 := s.setQueue i q y
  let s2 := if q < 64 && rest.isEmpty then s1.setQdr i { s1.qdr i with active := (s1.qdr i).active.filter (· != q) } else s1
  let s3 := (s2.bump64B (pgQdr i) q F.qdr_Q_BYTES_LO_COUNT F.qdr_Q_BYTES_HI_COUNT f.len).event (pgQdr i)
  if delay > s3.fldB (pgQdr i) q F.qdr_Q_HWM_DELAY_VALUE then s3.setFldB (pgQdr i) q F.qdr_Q_HWM_DELAY_VALUE (min delay (2 ^ 32 - 1))
  else s3

/-- What one pass of the ensemble finds (R369): the queue whose head frame is sent, and the state with deficits given and
queues moved. `head` names the frame of a queue that may leave. -/
def State.serveEnsemble (s : State) (i : Nat) (head : State → Nat → Option (Nat × QFrame)) : List Nat → Option (Nat × Nat × QFrame) × State
  | [] => (none, s)
  | q :: qs =>
    match head s q with
    | none => State.serveEnsemble s i head qs
    | some (k, f) =>
      if !(s.eligible i q) then State.serveEnsemble s i head qs
      else
        let rest := (s.qdr i).active.filter (· != q)
        let x := s.queue i q
        let deficit := if x.fresh then x.deficit + s.fldB (pgQdr i) q F.qdr_Q_CFG_QUANTUM else x.deficit
        if f.len ≤ deficit then
          (some (q, k, f), (s.setQueue i q { x with deficit := deficit, fresh := false }).setQdr i
            { s.qdr i with active := q :: rest })
        else
          State.serveEnsemble ((s.setQueue i q { x with deficit := deficit, fresh := true }).setQdr i
            { s.qdr i with active := rest ++ [q] }) i head qs

/-- The next frame a scheduler starts, in strict order: class 0, class 1, the ensemble, the floor (R367). -/
def State.pickFrame (s : State) (i : Nat) (head : State → Nat → Option (Nat × QFrame)) : Option (Nat × Nat × QFrame) × State :=
  let lead := fun (q : Nat) => if s.eligible i q then (head s q).map (fun r => (q, r.1, r.2)) else none
  match lead qClass0 with
  | some r => (some r, s)
  | none => match lead qClass1 with
    | some r => (some r, s)
    | none =>
      let e := s.serveEnsemble i head (s.qdr i).active
      match e.1 with
      | some r => (some r, e.2)
      | none =>
        if e.2.eligible i qFloor then ((head e.2 qFloor).map (fun r => (qFloor, r.1, r.2)), e.2) else (none, e.2)

/-! ## Shapers and queue settings -/

/-- SHAPER_TICK (R371): one tick of 1 ns of a shaped queue. -/
def execShaperTick (i : Fin 17) (queue : Fin 67) (s : State) : Out := s.gate fun s =>
  let n := qdrInst i
  if !(s.shaped n queue) then .next s
  else
    let x := s.queue n queue
    let burst : Int := (s.fldB (pgQdr n) queue F.qdr_Q_BURST_VALUE % 2 ^ 24 : Nat)
    let c := min (x.credit + (s.fldB (pgQdr n) queue F.qdr_Q_RATE_VALUE : Nat)) (burst * 65536)
    .next (s.setQueue n queue { x with credit := c })

/-- QUEUE_CONFIG_WRITE (R370, R372): a write of Q_CFG of the selected queue. -/
def execQueueConfigWrite (i : Fin 17) (value : W32) (s : State) : Out :=
  let n := qdrInst i
  .next (s.regWrite (pgQdr n) 0x044 fun s =>
    let q := s.fld (pgQdr n) F.qdr_Q_SEL_QUEUE
    let v := value.toNat
    if q > 66 then s
    else
      let wasOn := s.qEnabled n q
      let wasShaped := s.shaped n q
      let quantum := if q < 64 then max 256 (bitsOf v 19 0) else s.fldB (pgQdr n) q F.qdr_Q_CFG_QUANTUM
      let shape := if q = qClass0 then 0 else bitsOf v 20 20
      let en := if q < 64 then bitsOf v 21 21 else 1
      let s1 := s.setReg (pgQdr n) q 0x044 (BitVec.ofNat 32 (quantum + 2 ^ 20 * shape + 2 ^ 21 * en + 2 ^ 22 * bitsOf v 31 22))
      let s2 := if shape = 1 ∧ !wasShaped then
          s1.setQueue n q { s1.queue n q with credit := ((s1.fldB (pgQdr n) q F.qdr_Q_BURST_VALUE % 2 ^ 24 * 65536 : Nat) : Int) }
        else s1
      let d := s2.qdr n
      if wasOn && en = 0 then s2.setQdr n { d with active := d.active.filter (· != q) }
      else if !wasOn && en = 1 && !(s2.queue n q).frames.isEmpty then s2.setQdr n { d with active := d.active ++ [q] }
      else s2)

/-- SHAPER_BURST_WRITE (R368, R372): a write of BURST clamps the credit at once. -/
def execShaperBurstWrite (i : Fin 17) (value : W32) (s : State) : Out :=
  let n := qdrInst i
  .next (s.regWrite (pgQdr n) 0x04C fun s =>
    let q := s.fld (pgQdr n) F.qdr_Q_SEL_QUEUE
    if q > 66 ∨ q = qClass0 then s
    else
      let b := value.toNat % 2 ^ 24
      let x := s.queue n q
      (s.setFldB (pgQdr n) q F.qdr_Q_BURST_VALUE b).setQueue n q { x with credit := min x.credit ((b * 65536 : Nat) : Int) })

/-! ## Gate lists -/

/-- The pending list's cycle and entries, as the registers hold them (R373). -/
def State.gateRegs (s : State) (i : Nat) : Nat × List GateEntry :=
  let n := min 64 (max 1 (s.fld (pgQdr i) F.qdr_GL_LEN_VALUE % 128))
  (max 1 (s.fld (pgQdr i) F.qdr_GL_CYCLE_VALUE),
    (List.range n).map (fun k =>
      ⟨s.fld (pgQdr i) (F.qdr_GL_E0_DURATION.shift (16 * k)), s.fld (pgQdr i) (F.qdr_GL_E1_CLASS1.shift (16 * k)) == 1,
        s.fld (pgQdr i) (F.qdr_GL_E1_FLOOR.shift (16 * k)) == 1,
        s.fld (pgQdr i) (F.qdr_GL_E2_ENSEMBLE.shift (16 * k)) + 2 ^ 32 * s.fld (pgQdr i) (F.qdr_GL_E3_ENSEMBLE.shift (16 * k))⟩))

/-- The windows of a gate list within one cycle: start and end offsets, cut at the cycle's end; the last entry stays
current until then (R373). -/
def gateWindows (cycle : Nat) (es : List GateEntry) : List (Nat × Nat) :=
  let n := es.length
  (List.range n).map (fun k =>
    let o := ((es.take k).map (fun e => e.dur)).sum
    let e := if k + 1 = n then cycle else o + (es.getD k ⟨0, false, false, 0⟩).dur
    (min o cycle, min e cycle))

/-- The entry current at time `t ≥ start` (R373). -/
def GateList.at (l : GateList) (t : Nat) : Nat :=
  let o := (t - l.start) % l.cycle
  ((gateWindows l.cycle l.entries).findIdx? (fun w => decide (w.1 ≤ o ∧ o < w.2))).getD 0

/-- Windows of a list whose end lies at or before `t`. -/
def GateList.ended (l : GateList) (t : Nat) : Nat :=
  if t < l.start then 0
  else
    let ws := (gateWindows l.cycle l.entries).filter (fun w => decide (w.1 < w.2))
    (t - l.start) / l.cycle * ws.length + (ws.filter (fun w => decide (w.2 ≤ (t - l.start) % l.cycle))).length

/-- Windows of a list whose start lies at or before `t`. -/
def GateList.begun (l : GateList) (t : Nat) : Nat :=
  if t < l.start then 0
  else
    let ws := (gateWindows l.cycle l.entries).filter (fun w => decide (w.1 < w.2))
    (t - l.start) / l.cycle * ws.length + (ws.filter (fun w => decide (w.1 ≤ (t - l.start) % l.cycle))).length

/-- The start of a list of base `b` and cycle `c` at time `t` (R374). -/
def gateStart (b c t : Nat) : Nat := if b ≥ t then b else b + ceilDiv (t - b) c * c

/-- Set the computed start's registers. -/
def State.setGateStart (s : State) (i st : Nat) : State :=
  (s.setFld (pgQdr i) F.qdr_GL_START_LO_VALUE (st % 2 ^ 32)).setFld (pgQdr i) F.qdr_GL_START_HI_VALUE (st / 2 ^ 32)

/-- What a publication of host time does to a scheduler's gate lists (R374 to R376): a deferred start is computed, a
pending list whose start is reached becomes operational, the current entry changes and skipped entries are counted. -/
def State.gateUpdate (s : State) (i t : Nat) : State :=
  let x := s.qdr i
  let r := s.gateRegs i
  let pend := match x.pend with
    | some (b, none) => some (b, some (gateStart b r.1 t))
    | p => p
  let s1 := match x.pend, pend with
    | some (_, none), some (_, some st) => s.setGateStart i st
    | _, _ => s
  let go := match pend with
    | some (_, some st) => if t ≥ st then some st else none
    | _ => none
  let oper := match go with
    | some st => some ({ start := st, cycle := r.1, entries := r.2 } : GateList)
    | none => x.oper
  match oper with
  | none => s1.setQdr i { x with pend := pend, last := t }
  | some l =>
    let skip := l.ended t - (if go.isSome then 0 else l.begun x.last)
    let cur := l.at t
    let s2 := (s1.setQdr i { x with pend := if go.isSome then none else pend, oper := some l, cur := cur, last := t }).bump
      (pgQdr i) F.qdr_GL_SKIPPED_VALUE skip
    if skip > 0 then s2.raise (pgQdr i) 1 else s2

/-- GATE_LIST_COMMIT (R66, R374, R377): a write of GL_BASE_HI commits the pending list. -/
def execGateListCommit (i : Fin 17) (hi : W32) (s : State) : Out :=
  let n := qdrInst i
  .next (s.regWrite (pgQdr n) 0x07C fun s =>
    let lo := SMap.get s.stage (resetWord (pgQdr n) 0 0x078) (regKey (pgQdr n) 0 0x078)
    let b := lo.toNat + 2 ^ 32 * hi.toNat
    let s1 := (s.setReg (pgQdr n) 0 0x078 lo).setReg (pgQdr n) 0 0x07C hi
    if s.timeValid then
      let st := gateStart b (s1.gateRegs n).1 (s1.timeAt (16 + n)).toNat
      (s1.setQdr n { s1.qdr n with pend := some (b, some st) }).setGateStart n st
    else s1.setQdr n { s1.qdr n with pend := some (b, none) })

/-- GATE_LIST_CANCEL (R377): a write of 1 to GL_CTRL.CANCEL withdraws the pending commit. -/
def execGateListCancel (i : Fin 17) (s : State) : Out :=
  let n := qdrInst i
  .next (s.regWrite (pgQdr n) 0x074 fun s => s.setQdr n { s.qdr n with pend := none })

end Sys2Proof.Machine
end

