-- ==== Sys2Proof/Machine/Link.lean ====
section
/-! DEFINITION. Glith frames on the wire (R434 to R436), routes (R442, R443), and what a port does with the frames it takes
and sends (R438 to R441, R449). -/
namespace Sys2Proof.Machine
open Sys2Proof

/-! ## Frames on the wire -/

/-- CRC-32 with the IEEE polynomial, reflected (R434): one bit. -/
def crcBit (c : Nat) : Nat := if c % 2 = 1 then (c / 2) ^^^ 0xEDB88320 else c / 2

/-- CRC-32 with the IEEE polynomial over bytes. -/
def crc32 (bs : List Byte) : Nat :=
  (bs.foldl (fun c b => crcBit (crcBit (crcBit (crcBit (crcBit (crcBit (crcBit (crcBit (c ^^^ b.toNat))))))))) 0xFFFFFFFF) ^^^ 0xFFFFFFFF

/-- A frame's header and payload (R434). -/
def frmHead (f : Frm) : List Byte :=
  leBytes 1 f.typ ++ leBytes 1 (f.vl % 8 + 8 * b2n f.last) ++ leBytes 2 (f.seq % 4096) ++ leBytes 2 (f.dst % 4096)
    ++ leBytes 2 (f.src % 4096) ++ leBytes 2 f.tid ++ leBytes 1 f.plen ++ leBytes 1 f.op ++ leBytes 1 (f.func % 128)
    ++ leBytes 1 f.status ++ leBytes 1 f.hops ++ [0#8] ++ leBytes 8 f.addr ++ leBytes 8 f.arg ++ f.payload

/-- A frame as it is sent, with its trailer (R434). -/
def frmBytes (f : Frm) (ack cred : Nat) : List Byte :=
  let b := frmHead f ++ leBytes 2 ack ++ leBytes 2 cred
  b ++ leBytes 4 (crc32 b)

/-- Read a frame's header and payload (R434). -/
def frmOf (bs : List Byte) : Frm :=
  { typ := leAt bs 0 1, vl := leAt bs 1 1 % 8, last := bitOf (leAt bs 1 1) 3, seq := leAt bs 2 2 % 4096, dst := leAt bs 4 2 % 4096
    src := leAt bs 6 2 % 4096, tid := leAt bs 8 2, op := leAt bs 0x0B 1, func := leAt bs 0x0C 1 % 128, status := leAt bs 0x0D 1
    hops := leAt bs 0x0E 1, addr := leAt bs 0x10 8, arg := leAt bs 0x18 8
    payload := (bs.drop 32).take (32 * leAt bs 0x0A 1) }

/-- PLEN of a frame's bytes. -/
def frmPlen (bs : List Byte) : Nat := leAt bs 0x0A 1
/-- Offset of a frame's trailer. -/
def frmTrailer (bs : List Byte) : Nat := bs.length - 8
/-- Does a frame's CRC hold, and its length agree with PLEN? -/
def frmCrcOk (bs : List Byte) : Bool :=
  bs.length == 40 + 32 * frmPlen bs && leAt bs (bs.length - 4) 4 == crc32 (bs.take (bs.length - 4))
/-- Is a bit of a frame's header that R434 reserves non-zero? -/
def frmReserved (bs : List Byte) : Bool :=
  leAt bs 1 1 ≥ 16 || leAt bs 2 2 ≥ 4096 || leAt bs 4 2 ≥ 4096 || leAt bs 6 2 ≥ 4096 || leAt bs 0x0C 1 ≥ 128 || leAt bs 0x0F 1 != 0

/-! ## Ports -/

/-- Port states (R432). -/
def pOff : Nat := 0
def pInit : Nat := 1
def pReady : Nat := 2
def pInReset : Nat := 4
def pOffline : Nat := 5
def pFault : Nat := 7
def pRetraining : Nat := 8
def pMismatch : Nat := 9

/-- A port beside its registers. -/
def State.port (s : State) (p : Nat) : GPort := SMap.get s.link.ports {} p
/-- Set a port. -/
def State.setPort (s : State) (p : Nat) (x : GPort) : State :=
  { s with link := { s.link with ports := SMap.set s.link.ports {} p x } }
/-- A port's state (R432). -/
def State.portState (s : State) (p : Nat) : Nat := s.fld (pgGll p) F.hdr_STATE
/-- Set a port's state. -/
def State.setPortState (s : State) (p v : Nat) : State := s.setFld (pgGll p) F.hdr_STATE v
/-- Is a port READY? -/
def State.portReady (s : State) (p : Nat) : Bool := decide (p < 12) && s.portState p == pReady

/-- This device's number (R442). -/
def State.devId (s : State) : Nat := s.fld (pgGll 0) F.gll_DEV_ID_DEV
/-- Next sequence number to send and to accept (SEQ_STATUS). -/
def State.txNext (s : State) (p : Nat) : Nat := s.fld (pgGll p) F.gll_SEQ_STATUS_TX_NEXT
def State.rxExpect (s : State) (p : Nat) : Nat := s.fld (pgGll p) F.gll_SEQ_STATUS_RX_EXPECT
/-- Credits held from the partner for a virtual lane. -/
def State.txCredit (s : State) (p vl : Nat) : Nat := s.fldB (pgGll p) vl F.gll_VL_CREDIT_TX_CREDIT

/-- A violation of the partner (R449). -/
def State.linkViolation (s : State) (p code seq : Nat) : State :=
  let s1 := ((s.bump (pgGll p) F.gll_VIOL_COUNT_COUNT 1).setReg (pgGll p) 0 0x074 (BitVec.ofNat 32 (code + 16 * (seq % 4096)))).raise
    (pgGll p) 2
  s1.logErr 5 (pgGll p) code seq p

/-- The lowest virtual lane with credits to return. -/
def GPort.credOwed (x : GPort) : Option (Nat × Nat) := x.owed.head?

/-- Send bytes of a frame: the trailer carries the acknowledgement and, when credits wait, their return (R436). -/
def State.wire (s : State) (p : Nat) (f : Frm) : State :=
  let x := s.port p
  let ack := (s.rxExpect p + 4095) % 4096 + 0x8000
  let cred := match x.credOwed with
    | some (vl, n) => vl + 8 + 16 * min n 4095
    | none => 0
  let owed := match x.credOwed with
    | some (vl, n) => SMap.set x.owed 0 vl (n - min n 4095)
    | none => x.owed
  let bs := frmBytes f ack cred
  ((s.setPort p { x with owed := owed, ackDue := false }).bump64B (pgGll p) 0 F.gll_BYTES_TX_LO_COUNT F.gll_BYTES_TX_HI_COUNT
    bs.length).emit (.frame p bs)

/-- Send a LINKCTL (R436); `nak` carries a NAK for RX_EXPECT. -/
def State.sendLinkctl (s : State) (p : Nat) (nak : Bool) : State :=
  s.wire p { typ := 0x11, dst := s.fld (pgGll p) F.gll_PORT_STATUS_NBR_DEV, src := s.devId
             arg := if nak then s.rxExpect p + 0x8000 else 0 }

/-- Start a retrain of a READY port (R430). -/
def State.startRetrain (s : State) (p : Nat) : State :=
  if s.portState p ≠ pReady then s
  else
    (((s.setPortState p pRetraining).setPort p { s.port p with
      trained := false, fails := 0, replays := 0, oldWidth := s.fld (pgGll p) F.gll_PORT_STATUS_WIDTH }).raise (pgGll p) 0).emit
      (.link p 1 [])

/-- Send a NAK for RX_EXPECT unless one is outstanding (R440); RETRY_LIMIT of them without the frame arriving is a SEQ
violation and retrains the port (R449). -/
def State.sendNak (s : State) (p : Nat) : State :=
  let x := s.port p
  if x.nakOut then s
  else
    let s1 := ((s.setPort p { x with nakOut := true, nakCount := x.nakCount + 1 }).bump (pgGll p) F.gll_NAKS_COUNT 1).sendLinkctl p true
    if x.nakCount + 1 ≥ max 1 (s.fld (pgGll p) F.gll_REPLAY_CFG_RETRY_LIMIT) then
      let s2 := s1.linkViolation p 4 (s1.rxExpect p)
      (s2.setPort p { s2.port p with nakCount := 0, nakOut := false }).startRetrain p
    else s1

/-- Resend every unacknowledged frame from a sequence number on (R441). -/
def State.replayFrom (s : State) (p seq : Nat) : State :=
  let fs := (s.port p).unacked.dropWhile (fun f => f.seq != seq)
  let s1 := fs.foldl (fun s f => s.wire p f) s
  (s1.bump (pgGll p) F.gll_REPLAYS_COUNT 1).event (pgGll p)

/-- Take the ACK and CRED of a trailer (R438, R439, R449). An ACK of the frame just before the oldest unacknowledged one
acknowledges nothing new. -/
def State.takeTrailer (s : State) (p : Nat) (bs : List Byte) : State :=
  let o := frmTrailer bs
  let a := leAt bs o 2
  let c := leAt bs (o + 2) 2
  let x := s.port p
  let s1 :=
    if bitOf a 15 then
      let sq := a % 4096
      match x.unacked.findIdx? (fun f => f.seq == sq) with
      | some k => s.setPort p { x with unacked := x.unacked.drop (k + 1), replays := 0 }
      | none =>
        let oldest := match x.unacked.head? with
          | some f => f.seq
          | none => s.txNext p
        if (sq + 1) % 4096 = oldest then s else s.linkViolation p 3 sq
    else s
  if bitOf c 3 then
    let vl := c % 8
    let n := s1.txCredit p vl + c / 16
    let mx := SMap.get (s1.port p).txMax 0 vl
    if n > mx then (s1.setFldB (pgGll p) vl F.gll_VL_CREDIT_TX_CREDIT mx).linkViolation p 2 (leAt bs 2 2)
    else s1.setFldB (pgGll p) vl F.gll_VL_CREDIT_TX_CREDIT n
  else s1

/-- A READY or retraining port whose ENABLE has been cleared goes OFF once it holds no frame (R432). [DEDUCED: log entry 107] -/
def State.maybeOff (s : State) (p : Nat) : State :=
  let x := s.port p
  let held := (List.range 67).any (fun q => !(s.queue (16 + p) q).frames.isEmpty)
  if x.disabling && x.unacked.isEmpty && !held then
    (s.setPortState p pOff).setPort p { x with disabling := false, trained := false }
  else s

/-- A receiving port takes a data frame's bytes (R440): the accepted frame, if it is accepted. -/
def State.takeData (s : State) (p : Nat) (bs : List Byte) : Option Frm × State :=
  if !(frmCrcOk bs) then (none, s.sendNak p)
  else
    let f := frmOf bs
    let s0 := s.takeTrailer p bs
    let x := s0.port p
    let exp := s0.rxExpect p
    if f.seq = exp then
      let used := SMap.get x.rxUsed 0 f.vl
      if used + f.credits > s0.fldB (pgGll p) f.vl F.gll_VL_CREDIT_ADVERTISED then
        (none, (s0.sendNak p).linkViolation p 1 f.seq)
      else
        let s1 := (s0.setPort p { x with rxUsed := SMap.set x.rxUsed 0 f.vl (used + f.credits), nakOut := false, nakCount := 0
                                         ackDue := true }).setFld (pgGll p) F.gll_SEQ_STATUS_RX_EXPECT ((exp + 1) % 4096)
        (some f, s1.bump64B (pgGll p) 0 F.gll_BYTES_RX_LO_COUNT F.gll_BYTES_RX_HI_COUNT bs.length)
    else if (exp + 4096 - f.seq) % 4096 ≤ 2047 then (none, s0.setPort p { x with ackDue := true })
    else (none, s0.sendNak p)

/-- A frame has been forwarded or consumed: its credits wait to be returned (R438). -/
def State.giveBack (s : State) (p : Nat) (f : Frm) : State :=
  let x := s.port p
  s.setPort p { x with
    rxUsed := SMap.set x.rxUsed 0 f.vl (SMap.get x.rxUsed 0 f.vl - f.credits)
    owed := SMap.set x.owed 0 f.vl (SMap.get x.owed 0 f.vl + f.credits) }

/-! ## Routes -/

/-- The sizes of the torus (R442). -/
def State.topoSize (s : State) (dim : Nat) : Nat :=
  1 + (match dim with
    | 0 => s.fld (pgGll 0) F.gll_TOPO_X_M1
    | 1 => s.fld (pgGll 0) F.gll_TOPO_Y_M1
    | _ => s.fld (pgGll 0) F.gll_TOPO_Z_M1)

/-- The coordinate of a device in a dimension (R442). -/
def State.coord (s : State) (dim d : Nat) : Nat :=
  match dim with
  | 0 => d % s.topoSize 0
  | 1 => d / s.topoSize 0 % s.topoSize 1
  | _ => d / (s.topoSize 0 * s.topoSize 1)

/-- The route override entry of a device as a word (GLL 12); a PORT of 12–15 makes it not VALID. -/
def State.override (s : State) (dst : Nat) : Nat :=
  let w := (s.reg ⟨.glr, dst / 1024⟩ 0 (0x800 + 4 * (dst % 1024 / 2))).toNat
  let e := if dst % 2 = 0 then w % 65536 else w / 65536
  if bitOf e 0 && bitsOf e 4 1 < 12 then e else 0

/-- The direction dimension-order routing takes (R443): dimension and whether it is the − direction. -/
def State.dorDir (s : State) (dst : Nat) : Option (Nat × Bool) :=
  ((List.range 3).find? (fun m => s.coord m s.devId != s.coord m dst)).map (fun m =>
    let a := s.coord m s.devId
    let b := s.coord m dst
    let n := s.topoSize m
    if bitOf (s.fld (pgGll 0) F.gll_TOPO_WRAP) m then (m, decide ((a + n - b) % n < (b + n - a) % n)) else (m, decide (b < a)))

/-- The port a frame leaves on and its dateline bit (R442, R443 steps 2 to 4). `inDim` is the dimension it came in on, none
at its source. -/
def State.route (s : State) (src dst d : Nat) (inDim : Option Nat) : Option (Nat × Nat) :=
  let e := s.override dst
  if e ≠ 0 then
    let p := bitsOf e 4 1
    let alt := bitsOf e 9 6
    let d' := if bitOf e 10 then 1 else if inDim.isNone then 0 else d
    if s.portReady p then some (p, d') else if bitOf e 5 && s.portReady alt then some (alt, d') else none
  else if s.fld (pgGll 0) F.gll_TOPO_DOR_EN = 1 then
    (s.dorDir dst).bind (fun r =>
      let k := 2 * r.1 + b2n r.2
      let m := (src + dst) % 2
      let p := k + 6 * m
      let q := k + 6 * (1 - m)
      let a := s.coord r.1 s.devId
      let wrap := if r.2 then a == 0 else a + 1 == s.topoSize r.1
      let d' := if wrap then 1 else if inDim = some r.1 then d else 0
      if s.portReady p then some (p, d') else if s.portReady q then some (q, d') else none)
  else none

/-- The Quadrille queue a frame takes at a port's egress (R437). -/
def portQueue (f : Frm) : Nat :=
  match f.vl / 2 with
  | 0 => qClass0
  | 1 | 2 => qClass1
  | _ => if f.func = 0 then 63 else f.func - 1

/-- Count a frame that no route takes (R443). -/
def State.unreachable (s : State) : State := (s.bump (pgGll 0) F.gll_UNREACH_VALUE 1).raise (pgGll 0) 8

/-- A frame of this device leaves for its destination (R443 from step 2): it waits to join its port's queue. False when no
route takes it. -/
def State.originate (s : State) (f : Frm) : Bool × State :=
  match s.route s.devId f.dst 0 none with
  | some (p, d) =>
    let g := { f with src := s.devId, hops := 48, vl := f.vl / 2 * 2 + d }
    (true, { s with link := { s.link with out := s.link.out ++ [⟨p, portQueue g, g⟩] } })
  | none => (false, s.unreachable)

/-- A reply to a request (R444, R447): it travels as REPLY. A reply that no route takes is discarded. -/
def State.reply (s : State) (f : Frm) (typ status : Nat) (payload : List Byte) : State :=
  (s.originate { typ := typ, vl := 4, last := true, dst := f.src, tid := f.tid, func := f.func, status := status, payload := payload }).2

/-! ## Bringing a port up -/

/-- Is any port other than OFF? -/
def State.allPortsOff (s : State) : Bool := (List.range 12).all (fun p => s.portState p == pOff)

/-- PORT_ENABLE (R432): a write of 1 to CTRL.ENABLE takes an OFF port to INIT. -/
def execPortEnable (p : Fin 12) (s : State) : Out := s.gate fun s =>
  let s1 := s.setFld (pgGll p) F.hdr_ENABLE 1
  let s2 := s1.setPort p { s1.port p with disabling := false }
  if s.portState p = pOff then
    .next (((s2.setPortState p pInit).setPort p {}).emit (.link p 1 []))
  else .next s2

/-- PORT_DISABLE (R432): a write of 0 to CTRL.ENABLE takes the port OFF; a READY or retraining port goes once the frames
it holds have left. -/
def execPortDisable (p : Fin 12) (s : State) : Out := s.gate fun s =>
  let s1 := s.setFld (pgGll p) F.hdr_ENABLE 0
  let st := s.portState p
  if st = pMismatch ∨ st = pInit then .next ((s1.setPortState p pOff).setPort p { s1.port p with trained := false })
  else if st = pReady ∨ st = pRetraining then .next ((s1.setPort p { s1.port p with disabling := true }).maybeOff p)
  else .next s1

/-- The width that locked lanes allow: 4, 2, 1 or 0 (R427). -/
def widthOf (lanes : Nat) : Nat :=
  let n := countP 4 (bitOf lanes)
  if n = 4 then 4 else if n ≥ 2 then 2 else n
/-- The least width a port may come up with (PORT_CFG.MIN_WIDTH). -/
def minWidth (v : Nat) : Nat := if v = 0 then 1 else if v = 1 then 2 else 4

/-- The HELLO payload a port sends (R429). -/
def State.helloPayload (s : State) (p : Nat) (keep : Bool) : List Byte :=
  leBytes 2 s.devId ++ leBytes 1 p ++ [1#8] ++ leBytes 2 (s.rxExpect p) ++ leBytes 2 (b2n keep)
    ++ (List.range 8).flatMap (fun v => leBytes 2 (s.fldB (pgGll p) v F.gll_VL_CREDIT_ADVERTISED - SMap.get (s.port p).rxUsed 0 v))
    ++ List.replicate 8 0#8

/-- PORT_TRAIN (R427 to R429): a port in INIT or RETRAINING has locked the lanes `lanes` with the estimates `snr`; at a
width its configuration allows, it sends HELLO. -/
def execPortTrain (p : Fin 12) (lanes : Fin 16) (snr : List Byte) (s : State) : Out := s.gate fun s =>
  let st := s.portState p
  let w := widthOf lanes
  if !(st = pInit ∨ st = pRetraining) ∨ w < minWidth (s.fld (pgGll p) F.gll_PORT_CFG_MIN_WIDTH) ∨ w = 0 then .next s
  else
    let up := ((List.range 4).filter (bitOf lanes)).take w
    let s1 := (s.setFld (pgGll p) F.gll_PORT_STATUS_WIDTH w).setFld (pgGll p) F.gll_PORT_STATUS_LANES_UP
      (sumTo 4 (fun l => if up.contains l then 2 ^ l else 0))
    let s2 := (List.range 4).foldl (fun s l => s.setReg (pgGll p) l 0x08C
      (BitVec.ofNat 32 (b2n (bitOf lanes l) + 2 * (snr.getD l 0).toNat))) s1
    let s3 := s2.setPort p { s2.port p with trained := true }
    let keep := st = pRetraining
    .next ((s3.bump64B (pgGll p) 0 F.gll_BYTES_TX_LO_COUNT F.gll_BYTES_TX_HI_COUNT 72).emit (.link p 2 (s3.helloPayload p keep)))

/-- HELLO (R429 to R432): the partner's HELLO payload of 32 bytes is checked. [DEDUCED: log entry 107] -/
def execHello (p : Fin 12) (payload : List Byte) (s : State) : Out := s.gate fun s =>
  let st := s.portState p
  let dev := leAt payload 0 2 % 4096
  let port := leAt payload 2 1 % 16
  let keep := bitOf (leAt payload 6 2) 0
  let cfg := s.fld (pgGll p)
  if st = pReady then .next ((s.linkViolation p 6 0).startRetrain p)
  else if !((st = pInit ∨ st = pRetraining) ∧ (s.port p).trained) then .next s
  else if st = pInit ∧ (dev = s.devId ∨ (cfg F.gll_PORT_CFG_EXPECT_EN = 1 ∧ (dev ≠ cfg F.gll_PORT_CFG_EXPECT_DEV
      ∨ port ≠ cfg F.gll_PORT_CFG_EXPECT_PORT))) then .next ((s.setPortState p pMismatch).raise (pgGll p) 3)
  else if st = pRetraining ∧ !keep then .next s
  else
    let cred := fun v => leAt payload (8 + 2 * v) 2 % 4096
    let s1 := (((s.setFld (pgGll p) F.gll_PORT_STATUS_NBR_DEV dev).setFld (pgGll p) F.gll_PORT_STATUS_NBR_PORT port).setFld (pgGll p)
      F.gll_PORT_STATUS_NBR_VALID 1).setPortState p pReady
    let s2 := (List.range 8).foldl (fun s v => s.setFldB (pgGll p) v F.gll_VL_CREDIT_TX_CREDIT (cred v)) s1
    let x := s2.port p
    if st = pInit then
      let s3 := s2.setPort p { x with txMax := (List.range 8).foldl (fun m v => SMap.set m 0 v (cred v)) [], fails := 0 }
      .next ((s3.setFld (pgGll p) F.gll_SEQ_STATUS_TX_NEXT (leAt payload 4 2 % 4096)).setFld (pgGll p) F.gll_SEQ_STATUS_RX_EXPECT 0)
    else
      let rx := leAt payload 4 2 % 4096
      let un := match x.unacked.findIdx? (fun f => f.seq == rx) with
        | some k => x.unacked.drop k
        | none => if rx = s2.txNext p then [] else x.unacked
      let s3 := (s2.setPort p { x with unacked := un, fails := 0, nakOut := false, nakCount := 0, replays := 0 }).setFld (pgGll p)
        F.gll_PORT_CMD_RETRAIN 0
      let s4 := un.foldl (fun s f => s.wire p f) s3
      .next (if s4.fld (pgGll p) F.gll_PORT_STATUS_WIDTH < x.oldWidth then s4.raise (pgGll p) 1 else s4)

/-- PORT_RETRAIN (R430): a write of PORT_CMD.RETRAIN, ignored unless READY. -/
def execPortRetrain (p : Fin 12) (s : State) : Out := s.gate fun s =>
  if s.portState p = pReady then .next ((s.setFld (pgGll p) F.gll_PORT_CMD_RETRAIN 1).startRetrain p) else .next s

/-- LANE_LOCK_LOSS (R430): an active lane of a READY port loses lock. -/
def execLaneLockLoss (p : Fin 12) (lane : Fin 4) (s : State) : Out := s.gate fun s =>
  if s.portState p = pReady ∧ bitOf (s.fld (pgGll p) F.gll_PORT_STATUS_LANES_UP) lane then
    .next ((s.setReg (pgGll p) lane 0x08C ((s.reg (pgGll p) lane 0x08C) &&& 0xFFFFFFFE#32)).startRetrain p)
  else .next s

/-! ## Timers and retry -/

/-- ACK_TIMER (R436): no frame has carried the acknowledgement within 200 ns; the port sends a LINKCTL. -/
def execAckTimer (p : Fin 12) (s : State) : Out := s.gate fun s =>
  if s.portState p = pReady ∧ (s.port p).ackDue then .next (s.sendLinkctl p false) else .next s

/-- REPLAY_TIMEOUT (R430, R441): no acknowledgement has advanced; the port replays from the oldest unacknowledged frame, and
retrains after RETRY_LIMIT replays without progress. -/
def execReplayTimeout (p : Fin 12) (s : State) : Out := s.gate fun s =>
  let x := s.port p
  match x.unacked.head? with
  | none => .next s
  | some f =>
    if s.portState p ≠ pReady then .next s
    else
      let s1 := s.replayFrom p f.seq
      let n := x.replays + 1
      let s2 := s1.setPort p { s1.port p with replays := n }
      .next (if n ≥ max 1 (s.fld (pgGll p) F.gll_REPLAY_CFG_RETRY_LIMIT) then s2.startRetrain p else s2)

/-- A NAK of sequence number `sq` (R441, R449): what it acknowledges is dropped, the rest replayed, and the port retrains after RETRY_LIMIT
replays without progress; a NAK of no such frame is a violation. -/
def State.takeNak (s : State) (p sq : Nat) : State :=
  let x := s.port p
  match x.unacked.findIdx? (fun g => g.seq == sq) with
  | some k =>
    let n := if k > 0 then 1 else x.replays + 1
    let t := (s.setPort p { x with unacked := x.unacked.drop k, replays := n }).replayFrom p sq
    if n ≥ max 1 (s.fld (pgGll p) F.gll_REPLAY_CFG_RETRY_LIMIT) then t.startRetrain p else t
  | none => if sq = s.txNext p then s.setPort p { x with unacked := [] } else s.linkViolation p 3 sq

/-- LINKCTL (R436, R438, R439, R441, R449): a link-control frame's acknowledgement, credits and NAK. [DEDUCED: log entry 107] -/
def execLinkctl (p : Fin 12) (frame : List Byte) (s : State) : Out := s.gate fun s =>
  if s.portState p ≠ pReady ∨ leAt frame 0 1 ≠ 0x11 then .next s
  else if !(frmCrcOk frame) then .next (s.sendNak p)
  else
    let s1 := s.takeTrailer p frame
    let f := frmOf frame
    let s2 := if bitOf f.arg 15 then s1.takeNak p (f.arg % 4096) else s1
    .next (s2.maybeOff p)

/-- UNCORRECTABLE_CODEWORD (R426, R440): a codeword that cannot be corrected; the frames it overlaps are discarded, and a NAK
for RX_EXPECT is sent unless one is outstanding. -/
def execUncorrectableCodeword (p : Fin 12) (s : State) : Out := s.gate fun s =>
  if s.portState p ≠ pReady then .next s
  else .next ((s.bump (pgGll p) F.gll_FEC_UNCORR_COUNT 1).sendNak p)

/-! ## Sending -/

/-- Can a port send a frame now: credits of its lane (R438), and room in the replay buffer (R439)? -/
def State.canSend (s : State) (p : Nat) (f : Frm) : Bool :=
  let un := (s.port p).unacked
  decide (f.credits ≤ s.txCredit p f.vl) && decide (un.length < 2047)
    && decide ((un.map Frm.len).sum + f.len ≤ 524288)

/-- The frame of a queue that may leave: the head, or at a port the first frame whose lane has credit (R438: the lanes drain
independently). -/
def State.headFrame (i : Nat) (s : State) (q : Nat) : Option (Nat × QFrame) :=
  let fs := (s.queue i q).frames
  if i < 16 then fs.head?.map (fun f => (0, f))
  else if s.portState (i - 16) ≠ pReady then none
  else (fs.findIdx? (fun f => match f.load with | .glith g => s.canSend (i - 16) g | .raw _ => true)).bind (fun k =>
    fs[k]?.map (fun f => (k, f)))

/-- A frame leaves on a port: it takes its sequence number and its credits, and is held until acknowledged (R438, R439). -/
def State.transmit (s : State) (p : Nat) (f : Frm) : State :=
  let n := s.txNext p
  let g := { f with seq := n }
  let s1 := (s.setFld (pgGll p) F.gll_SEQ_STATUS_TX_NEXT ((n + 1) % 4096)).setFldB (pgGll p) f.vl F.gll_VL_CREDIT_TX_CREDIT
    (s.txCredit p f.vl - f.credits)
  (s1.setPort p { s1.port p with unacked := (s1.port p).unacked ++ [g] }).wire p g

/-- FRAME_SEND (R367 to R371, R378, R379): the scheduler starts the next eligible frame, which has waited `delay` ns by its
stopwatch. [DESIGN CHOICE: log entry 100] -/
def execFrameSend (i : Fin 17) (delay : W32) (s : State) : Out := s.gate fun s =>
  let n := qdrInst i
  let r := s.pickFrame n (State.headFrame n)
  match r.1 with
  | none => .next r.2
  | some (q, k, f) =>
    let s1 := r.2.dequeue n q k f delay.toNat
    match f.load with
    | .glith g => .next ((s1.transmit (n - 16) g).maybeOff (n - 16))
    | .raw bs => .next (s1.emit (.note (0x100 + n) bs))

/-- FRAME_ENQUEUE (R365, R366, R369): a frame joins its queue, if it has room; at a port it is the oldest frame of this
device that waits for that queue, elsewhere the frame given. -/
def execFrameEnqueue (i : Fin 17) (queue : Fin 67) (len : W32) (bytes : List Byte) (s : State) : Out := s.gateOn (pgQdr (qdrInst i)) fun s =>
  let n := qdrInst i
  if !(s.qRoom n queue) then .next s
  else if n < 16 then .next (s.enqueue n queue ⟨len.toNat, .raw bytes⟩)
  else match s.link.out.findIdx? (fun o => o.port == n - 16 && o.queue == queue.val) with
    | none => .next s
    | some k =>
      let o := s.link.out.getD k ⟨0, 0, { typ := 0 }⟩
      .next ({ s with link := { s.link with out := s.link.out.eraseIdx k } }.enqueue n queue ⟨o.frame.len, .glith o.frame⟩)

/-- A frame that cannot go on is discarded with UNREACHABLE; a request is answered so (R443). -/
def State.refuseFrame (s : State) (p : Nat) (f : Frm) : State :=
  let t := (s.giveBack p f).unreachable
  if f.typ = 5 ∨ f.typ = 6 ∨ f.typ = 7 then t else t.reply f (if f.typ = 2 ∨ f.typ = 4 then 5 else 6) 5 []

/-- FRAME_FORWARD (R443): the oldest frame a port has taken for another device goes on, or is discarded with UNREACHABLE. -/
def execFrameForward (p : Fin 12) (s : State) : Out := s.gate fun s =>
  let x := s.port p
  match x.rxq with
  | [] => .next s
  | f :: fs =>
    let s1 := s.setPort p { x with rxq := fs }
    if f.hops ≤ 1 then .next (s1.refuseFrame p f)
    else match s1.route f.src f.dst (f.vl % 2) (some (p.val % 6 / 2)) with
      | none => .next (s1.refuseFrame p f)
      | some (o, d) =>
        let g := { f with hops := f.hops - 1, vl := f.vl / 2 * 2 + d }
        if s1.qRoom (16 + o) (portQueue g) then
          .next ((s1.giveBack p f).enqueue (16 + o) (portQueue g) ⟨g.len, .glith g⟩)
        else .next s

end Sys2Proof.Machine
end

