-- ==== Sys2Proof/Machine/Compress.lean ====
section
/-! DEFINITION. The compressed block (R200 to R204), the table builder and the encoder (R209, R210), as functions on bytes. -/
namespace Sys2Proof.Machine

/-! ## Element formats -/

/-- Block data bytes of an element format (R200); 0 for a reserved code. -/
def blockData (elem : Nat) : Nat := if elem < 3 then 256 else if elem = 3 then 128 else if elem = 4 then 512 else 0
/-- Header H of a block (R200). -/
def blockHdr (elem : Nat) : Nat := if elem = 3 then 44 else 36
/-- The largest SLOT_BYTES (R200). -/
def maxSlotBytes (elem : Nat) : Nat := if elem = 3 then 128 else 164
/-- Is a SLOT_BYTES within R200's range? -/
def slotBytesOk (elem sb : Nat) : Bool := sb % 4 == 0 && decide (blockHdr elem + 4 ≤ sb ∧ sb ≤ maxSlotBytes elem)
/-- Code capacity C of a block (R200). -/
def codeCap (elem sb : Nat) : Nat := 2 * (sb - blockHdr elem)
/-- Blocks per 64 KiB of expanded data (R200). -/
def blocksPerUnit (elem : Nat) : Nat := 65536 / blockData elem

/-- The raw elements of a block's expanded bytes; FP4 takes the low nibble first (R220). -/
def blockElems (elem : Nat) (bs : List Byte) : List Nat :=
  if elem = 3 then bs.flatMap (fun b => [b.toNat % 16, b.toNat / 16])
  else if elem = 4 then (List.range (bs.length / 2)).map (fun i => leAt bs (2 * i) 2)
  else bs.map BitVec.toNat

/-- Raw elements back to bytes. -/
def pairNibbles : List Nat → List Byte
  | a :: b :: xs => BitVec.ofNat 8 (a % 16 + 16 * (b % 16)) :: pairNibbles xs
  | [a] => [BitVec.ofNat 8 (a % 16)]
  | [] => []

/-- Raw elements back to expanded bytes (R220). -/
def elemBytes (elem : Nat) (xs : List Nat) : List Byte :=
  if elem = 3 then pairNibbles xs else if elem = 4 then xs.flatMap (leBytes 2) else xs.map (BitVec.ofNat 8)

/-- What a raw element stands for; FP4 unscaled (R209). -/
def elemVal (elem x : Nat) : FVal :=
  match elem with
  | 0 => fdec e4m3 x
  | 1 => fdec e5m2 x
  | 2 => fofInt false (toSigned 8 x) 0
  | 3 => fdec e2m1 x
  | _ => fdec bf16 x

/-- Is an element non-zero? −0 is zero. -/
def elemNonzero (elem x : Nat) : Bool :=
  match elemVal elem x with
  | .fin _ m _ => m != 0
  | _ => true

/-- A table entry converted to an element format (R202, R232). -/
def entryElem (elem e : Nat) : Nat :=
  let v := fdec fp16 e
  match elem with
  | 0 => (fconv e4m3 v).1
  | 1 => (fconv e5m2 v).1
  | 2 =>
    match v with
    | .nan => 0
    | .inf neg => if neg then 0x80 else 0x7F
    | .fin neg m x => ofSigned 8 (max (-128) (min 127 (fnearInt neg m x)))
  | 3 => (fconv e2m1 v).1
  | _ => (fconv bf16 v).1

/-- Entry `c` of a table's 48 bytes (R206). -/
def tblEntry (tbl : List Byte) (c : Nat) : Nat := leAt tbl (0x10 + 2 * c) 2
/-- ELEM of a table's contents (R206). -/
def tblElem (tbl : List Byte) : Nat := leAt tbl 0 1

/-! ## Building -/

/-- FP16 bits of an element's magnitude, saturated; a NaN and an infinity give 0x7BFF (R209). -/
def magBits (elem x : Nat) : Nat :=
  match elemVal elem x with
  | .nan => 0x7BFF
  | v => min 0x7BFF (fconv fp16 (fabs v)).1

/-- The smallest bin from `b` on at which the running count reaches `q` (R209). -/
def quantile (hist : List Nat) (q : Nat) : Nat → Nat → Nat
  | b, acc =>
    match hist with
    | [] => b - 1
    | h :: hs => if acc + h ≥ q then b else quantile hs q (b + 1) (acc + h)

/-- The first pass (R209): the table the source's elements give. -/
def firstPass (elem : Nat) (xs : List Nat) : List Byte :=
  let ms := (xs.filter (elemNonzero elem)).map (magBits elem)
  let n := ms.length
  let hist := (List.range 1024).map (fun b => (ms.filter (fun m => m / 32 == b)).length)
  let level := (List.range 8).map (fun k =>
    if n = 0 then 0 else quantile hist (ceilDiv (n * (2 * k + 1)) 16) 0 0 * 32 + 0x10)
  leBytes 1 elem ++ List.replicate 15 0#8
    ++ (level ++ level.map (· + 0x8000)).flatMap (leBytes 2)

/-- f(x) of R210: the element as an FP16 value with its sign; a NaN is +65,504. -/
def codeTarget (elem x : Nat) : FVal :=
  match elemVal elem x with
  | .nan => fdec fp16 0x7BFF
  | v => fdec fp16 (fconv fp16 v).1

/-- The code of a kept element (R210): the nearest entry, ties to the lower; a NaN entry only when all are NaNs. -/
def codeOf (tbl : List Byte) (elem x : Nat) : Nat :=
  let t := codeTarget elem x
  let cand := (List.range 16).filter (fun c => !fisNaN (fdec fp16 (tblEntry tbl c)))
  let dist := fun c => fabs (fadd (fdec fp16 (tblEntry tbl c)) (fneg t))
  match cand with
  | [] => 0
  | c :: cs => cs.foldl (fun best d => if flt (dist d) (dist best) then d else best) c

/-- Is element `x` of larger magnitude than `y` (a NaN is largest)? -/
def magGt (elem x y : Nat) : Bool :=
  match elemVal elem x, elemVal elem y with
  | .nan, .nan => false
  | .nan, _ => true
  | _, .nan => false
  | a, b => flt (fabs b) (fabs a)

/-- The positions of a block's kept elements (R210): all non-zero ones, or the `cap` of largest magnitude, ties to the
lower position. -/
def keptOf (elem cap : Nat) (xs : List Nat) : List Nat :=
  let ps := (List.range xs.length).zip xs |>.filter (fun e => elemNonzero elem e.2)
  if ps.length ≤ cap then ps.map (fun e => e.1)
  else (ps.filter (fun e => decide ((ps.filter (fun d =>
      magGt elem d.2 e.2 || (!(magGt elem e.2 d.2) && decide (d.1 < e.1)))).length < cap))).map (fun e => e.1)

/-- The second pass (R210) over one block: its BL bytes, and whether elements were dropped. `scales` is its part of the
scale plane (R526). -/
def encodeBlock (tbl : List Byte) (cap : Nat) (data scales : List Byte) : List Byte × Bool :=
  let elem := tblElem tbl
  let xs := blockElems elem data
  let kept := keptOf elem cap xs
  let bitmap := (List.range 32).map (fun k =>
    BitVec.ofNat 8 (sumTo 8 (fun i => if kept.contains (8 * k + i) then 2 ^ i else 0)))
  let codes := kept.map (fun p => codeOf tbl elem (xs.getD p 0))
  (leBytes 2 kept.length ++ [0#8, 0#8] ++ bitmap ++ (if elem = 3 then slice scales 0 8 else []) ++ pairNibbles codes,
    decide (kept.length < (xs.filter (elemNonzero elem)).length))

/-- Round up to a multiple of 4. -/
def pad4 (n : Nat) : Nat := (n + 3) / 4 * 4

/-- Bytes padded with zeros to a length. -/
def padTo (n : Nat) (bs : List Byte) : List Byte := bs ++ List.replicate (n - bs.length) 0#8

/-- Cut a descriptor's expanded data into blocks, each with its 8 bytes of the scale plane. -/
def splitBlocks (elem : Nat) (data plane : List Byte) : List (List Byte × List Byte) :=
  (List.range (data.length / blockData elem)).map (fun b =>
    (slice data (b * blockData elem) (blockData elem), slice plane (8 * b) 8))

/-- FIXED layout: each block in its slot of SLOT_BYTES, the rest of the slot zero (R203, R210). -/
def layFixed (sb : Nat) (blocks : List (List Byte)) : List Byte := blocks.flatMap (padTo sb)

/-- PACKED layout (R204, R210): the index of G + 1 words, padded to 256 bytes, then the blocks, each padded to 4 bytes.
Returns the bytes and word G. -/
def layPacked (blocks : List (List Byte)) : List Byte × Nat :=
  let g := ceilDiv blocks.length 64
  let base := 256 * ceilDiv (4 * (g + 1)) 256
  let ends := blocks.foldl (fun (acc : List Nat) b => acc ++ [acc.getLastD 0 + pad4 b.length]) [base]
  let words := (List.range (g + 1)).map (fun i => ends.getD (min (64 * i) blocks.length) base)
  (padTo base (words.flatMap (leBytes 4)) ++ blocks.flatMap (fun b => padTo (pad4 b.length) b), ends.getLastD base)

/-! ## Expanding -/

/-- The flags of an expanded block (R202, R204). -/
structure BlkFlags where
  short : Bool := false
  long : Bool := false
  overrun : Bool := false
  underrun : Bool := false
  deriving DecidableEq, Repr

/-- Is any mismatch flagged? -/
def BlkFlags.any (f : BlkFlags) : Bool := f.short || f.long || f.overrun || f.underrun

/-- NNZ of a block's bytes (R201). -/
def blockNnz (bs : List Byte) : Nat := leAt bs 0 2 % 512
/-- BL of a block's bytes (R201). -/
def blockLen (elem : Nat) (bs : List Byte) : Nat := blockHdr elem + (blockNnz bs + 1) / 2

/-- Decode a block's bytes with `avail` codes available (R202): the expanded bytes, the 8 scale bytes, D, and the flags. -/
def decodeBlock (tbl : List Byte) (avail : Nat) (bs : List Byte) : List Byte × List Byte × Nat × BlkFlags :=
  let elem := tblElem tbl
  let h := blockHdr elem
  let d := min (blockNnz bs) avail
  let pos := (List.range 256).filter (fun i => bitOf (leAt bs (4 + i / 8) 1) (i % 8))
  let code := fun n => leAt bs (h + n / 2) 1 / 16 ^ (n % 2) % 16
  let used := pos.take d
  let xs := (List.range 256).map (fun i =>
    match used.findIdx? (· == i) with
    | some n => entryElem elem (tblEntry tbl (code n))
    | none => 0)
  (elemBytes elem xs, if elem = 3 then slice bs 0x24 8 else [], d, { short := decide (d < pos.length), long := decide (d > pos.length) })

/-- The zero block an OVERRUN past the group's end gives (R204). -/
def zeroBlock (elem : Nat) : List Byte × List Byte :=
  (List.replicate (blockData elem) 0#8, if elem = 3 then List.replicate 8 0#8 else [])

end Sys2Proof.Machine
end

