-- ==== Sys2Proof/Machine/Tier.lean ====
section
/-! DEFINITION. The tiers (chapter 6): where a tile lies, reading and writing through a DVA, placing, moving and evicting
tiles. -/
namespace Sys2Proof.Machine
open Sys2Proof

/-! ## Objects and tiles -/

/-- The key of an object. -/
def objIx (fn o : Nat) : Nat := fn * 65536 + o
/-- The key of a tile. -/
def tileIx (fn o t : Nat) : Nat := objIx fn o * 65536 + t

/-- An object table entry. -/
def State.obj (s : State) (fn o : Nat) : Obj := SMap.get s.mem.objs {} (objIx fn o)
/-- Set an object table entry. -/
def State.setObj (s : State) (fn o : Nat) (x : Obj) : State :=
  { s with mem := { s.mem with objs := SMap.set s.mem.objs {} (objIx fn o) x } }
/-- A tile, by its key. -/
def State.tileAt (s : State) (k : Nat) : TileRec := SMap.get s.mem.tiles {} k
/-- Set a tile. -/
def State.setTile (s : State) (k : Nat) (x : TileRec) : State :=
  { s with mem := { s.mem with tiles := SMap.set s.mem.tiles {} k x } }
/-- The object a tile key belongs to. -/
def State.objOfTile (s : State) (k : Nat) : Obj := SMap.get s.mem.objs {} (k / 65536)

/-- PIN_COUNT (R169). -/
def Obj.pinCount (o : Obj) : Nat := o.pins + o.transient
/-- The slot-table version an object records for a quadrant (R47, R78). -/
def Obj.ver (o : Obj) (q : Nat) : Nat := o.slotVer / 4 ^ q % 4

/-- Does an access through a DVA meet an address fault (R74; a write of a READ_ONLY object, R78)? -/
def State.addrFault (s : State) (fn dva : Nat) (write : Bool) : Bool :=
  let i := dva / 2 ^ 32 % 65536
  let o := s.obj fn i
  decide (dva ≥ 2 ^ 48) || i == 0 || !(o.st == .ready || o.st == .migrating)
    || decide (dva % 2 ^ 32 ≥ 65536 * (o.tilesM1 + 1)) || (write && o.readOnly)

/-! ## Places -/

/-- The granule `g` of a tile's stack place (R83, R84, R88, R89, R159). -/
def State.locGran (s : State) (ver : Nat → Nat) (loc : StackLoc) (g : Nat) : Option Gran :=
  match loc with
  | .spread q line pos =>
    if h : q < 4 then
      (s.spreadGran q (ver q) line (256 * pos + g)).bind (fun r =>
        if h2 : r.1 < 320 then some (.spread ⟨q, h⟩ ⟨r.1, h2⟩ r.2) else none)
    else none
  | .full line pos =>
    let j := 256 * pos + g
    let q := (j + line) % 4
    (s.spreadGran q (ver q) line (j / 4)).bind (fun r =>
      if h2 : r.1 < 320 then some (.spread (Fin.ofNat 4 q) ⟨r.1, h2⟩ r.2) else none)
  | .banked st pc bp slot =>
    let b := 256 * g
    let o := b % 16384
    some (.at (Fin.ofNat 20 st) (Fin.ofNat 64 pc) (Fin.ofNat 32 (2 * bp + o / 8192))
      (768 + 8 * (slot + b / 16384) + o % 8192 / 1024) (Fin.ofNat 4 (o % 1024 / 256)))

/-- The column that holds byte `off` of a tile in the stacks: its key, and the state with redirections counted. -/
def State.tileCol (s : State) (ver : Nat → Nat) (loc : StackLoc) (off : Nat) : Option Nat × State :=
  match s.locGran ver loc (off / 256) with
  | none => (none, s)
  | some g => let r := s.resolve g; (some (r.1.key (off % 256 / 32)), r.2)

/-! ## Pieces of 32-byte columns -/

/-- The spans of `n` bytes from offset `off`, cut at 32-byte columns: offset and length. -/
def spans : Nat → Nat → Nat → List (Nat × Nat)
  | 0, _, _ => []
  | fuel + 1, off, n =>
    if n = 0 then []
    else
      let k := min n (32 - off % 32)
      (off, k) :: spans fuel (off + k) (n - k)

/-- A word of the Well met in error while it is read (R163): 1 bit is corrected in place and counted; 2 bits, or an
uncorrectable word, are poison, with cause UE and an error-log record when first met; what a word with 3 inverted bits
reads as is open. Answers whether the word is poison. [DESIGN CHOICE: log entry 57] -/
def State.wellWord (s : State) (w dva : Nat) : Bool × State :=
  let q := w / 33554432
  match SMap.get s.mem.wellBad 0 w with
  | 0 => (false, s)
  | 1 =>
    let n := SMap.get s.mem.wellCe 0 q + 1
    let s1 := { s with mem := { s.mem with wellBad := SMap.del s.mem.wellBad w, wellCe := SMap.set s.mem.wellCe 0 q n } }
    let s2 := s1.bump (pgWel q) F.wel_CE_COUNT_COUNT 1
    (false, if n > s2.fld (pgWel q) F.wel_CE_THRESH_CORRECTIONS then s2.raise (pgWel q) 0 else s2)
  | 3 =>
    let r := s.drawBytes 9
    let bytes := r.1.take 8
    if (r.1.getLastD 0).toNat % 2 = 0 then
      (true, (({ r.2 with mem := { r.2.mem with wellBad := SMap.set r.2.mem.wellBad 0 w 5 } }).raise (pgWel q) 1).logErr 3
        (pgWel q) (w % 33554432) dva 0)
    else (false, { r.2 with mem := { r.2.mem with
        wellBad := SMap.del r.2.mem.wellBad w, well := SMap.setList r.2.mem.well 0#8 (8 * w) bytes } })
  | 5 => (true, s.logErr 3 (pgWel q) (w % 33554432) dva 0)
  | _ => (true, (({ s with mem := { s.mem with wellBad := SMap.set s.mem.wellBad 0 w 5 } }).raise (pgWel q) 1).logErr 3
      (pgWel q) (w % 33554432) dva 0)

/-- Does the translation of a sump unit's chunk fail (R419)? [DESIGN CHOICE: log entry 62] -/
def State.sumpBlocked (s : State) (u : Nat) : Bool := s.boot.atcBad.contains (u / 32)

/-- Read bytes `b` to `b + n - 1` of the Well, word by word (R163): one piece when the words are all sound or all poison, and
otherwise one piece for each word. [DESIGN CHOICE: log entry 57] -/
def State.readWell (s : State) (b n dva : Nat) : List Piece × State :=
  let ws := (List.range 5).map (· + b / 8) |>.filter (fun w => decide (8 * w < b + n))
  let x := ws.foldl (fun (acc : List (Nat × Bool) × State) w =>
    let y := acc.2.wellWord w dva
    (acc.1 ++ [(w, y.1)], y.2)) ([], s)
  let bs := SMap.getList x.2.mem.well 0#8 b n
  if x.1.all (fun e => e.2) || x.1.all (fun e => !e.2) then ([(bs, x.1.any (fun e => e.2))], x.2)
  else (x.1.map (fun e =>
    let lo := max b (8 * e.1)
    (slice bs (lo - b) (min (b + n) (8 * e.1 + 8) - lo), e.2)), x.2)

/-- Read up to 32 bytes of one column of a tile from its authoritative copy (R156, R157); a destroyed tile reads poisoned
(R455). A Well's pieces carry poison word by word, a stack's by the column. -/
def State.readPieces (s : State) (fn o t off n : Nat) : List Piece × State :=
  let k := tileIx fn o t
  let r := s.tileAt k
  match r.well with
  | some f => s.readWell (f * 65536 + off) n (o * 2 ^ 32 + t * 65536 + off)
  | none =>
    match r.stack with
    | some loc =>
      match s.tileCol (s.obj fn o).ver loc off with
      | (none, s1) => ([(List.replicate n 0#8, false)], s1)
      | (some c, s1) =>
        let x := s1.readCol c
        ([(slice x.1.data (off % 32) n, x.1.poison)], x.2)
    | none =>
      match r.sump with
      | some u =>
        if s.sumpBlocked u then ([(List.replicate n 0#8, true)], s.raise (pgTir 0) 2)
        else ([(SMap.getList s.mem.sump 0#8 (u * 65536 + off) n, SMap.get s.mem.sumpBad false ((u * 65536 + off) / 32))], s)
      | none => if r.gold then ([(SMap.getList s.mem.goldBytes 0#8 (k * 65536 + off) n, false)], s)
        else ([(List.replicate n 0#8, r.lost)], s)

/-- The same bytes as one piece, poisoned when any part is. [DESIGN CHOICE: log entries 29, 62] -/
def State.readPiece (s : State) (fn o t off n : Nat) : Piece × State :=
  let r := s.readPieces fn o t off n
  ((r.1.flatMap (fun p => p.1), r.1.any (fun p => p.2)), r.2)

/-- Write up to 32 bytes of one column of a placed tile; poisoned data leaves what it writes poisoned (R195). -/
def State.writePiece (s : State) (fn o t off : Nat) (p : Piece) : State :=
  let k := tileIx fn o t
  let r := s.tileAt k
  let n := p.1.length
  match r.well with
  | some f =>
    let b := f * 65536 + off
    let ws := (List.range 5).map (· + b / 8) |>.filter (fun w => decide (8 * w < b + n))
    let bad := ws.foldl (fun m w =>
      let full := decide (b ≤ 8 * w ∧ 8 * w + 8 ≤ b + n)
      if p.2 then SMap.set m 0 w 4
      else if full || SMap.get m 0 w = 1 then SMap.del m w else m) s.mem.wellBad
    let fr := SMap.get s.mem.frames {} f
    let fr' := if fr.dirty.contains (off / 256) then fr else { fr with dirty := off / 256 :: fr.dirty }
    { s with mem := { s.mem with
        well := SMap.setList s.mem.well 0#8 b p.1, wellBad := bad, frames := SMap.set s.mem.frames {} f fr' } }
  | none =>
    match r.stack with
    | some loc =>
      let s0 := s.setTile k { r with dirty := true }
      match s0.tileCol (s.obj fn o).ver loc off with
      | (none, s1) => s1
      | (some c, s1) =>
        if p.2 then s1.setCol c (poisonCol (overlay ((s1.col c).take 32) (off % 32) p.1))
        else (s1.writeCol c (off % 32) p.1).2
    | none =>
      match r.sump with
      | some u =>
        let i := (u * 65536 + off) / 32
        let bad := if p.2 then true else if n ≥ 32 then false else SMap.get s.mem.sumpBad false i
        { s with mem := { s.mem with
            sump := SMap.setList s.mem.sump 0#8 (u * 65536 + off) p.1
            sumpBad := SMap.set s.mem.sumpBad false i bad } }
      | none => s

/-- Every piece of a tile, in order. -/
def State.readTile (s : State) (fn o t : Nat) : List Piece × State :=
  (List.range 2048).foldl (fun (acc : List Piece × State) c =>
    let r := acc.2.readPieces fn o t (32 * c) 32
    (acc.1 ++ r.1, r.2)) ([], s)

/-- Write every piece of a placed tile. -/
def State.writeTile (s : State) (fn o t : Nat) (ps : List Piece) : State :=
  (ps.foldl (fun (acc : Nat × State) p => (acc.1 + p.1.length, acc.2.writePiece fn o t acc.1 p)) (0, s)).2

/-! ## Pools -/

/-- Is slice `i` of a Well a scratchpad slice (R161)? -/
def State.sliceScratch (s : State) (q i : Nat) : Bool :=
  bitOf (s.reg (pgWel q) 0 (if i < 32 then 0x040 else 0x044)).toNat (i % 32)

/-- Lines of a quadrant that hold data: below the withdrawn ones (R108). -/
def State.liveLines (s : State) (q : Nat) : Nat := s.profile.spreadLines - SMap.get s.cis.withdrawn 0 q

/-- The capacity of a pool, in 64 KiB units (R155): 0 Well cache, 1 scratchpad, 2 banked, 3 spread, 4 sump. [DESIGN CHOICE: log entry 59] -/
def State.poolTotal (s : State) (q pool : Nat) : Nat :=
  match pool with
  | 0 => 64 * countP 64 (fun i => !(s.sliceScratch q i))
  | 1 => 64 * countP 64 (s.sliceScratch q)
  | 2 => 5 * 1024 * (s.profile.bankedRows / 8) / 4
  | 3 => 10 * s.liveLines q
  | 4 => 32 * s.fld (pgTir 0) F.tir_SUMP_CHUNKS_COUNT
  | _ => 0

/-- The units of a pool in use. The system pool takes the lowest SYS_LINES lines of a spread pool (R160,
R476). -/
def State.poolUsed (s : State) (q pool : Nat) : Nat :=
  match pool with
  | 0 => (s.mem.frames.filter (fun e => e.1 / 4096 == q && e.2.owner != 0 && !(s.sliceScratch q (e.1 % 4096 / 64)))).length
  | 1 => (s.mem.frames.filter (fun e => e.1 / 4096 == q && e.2.owner != 0 && s.sliceScratch q (e.1 % 4096 / 64))).length
  | 2 => ceilDiv (s.mem.slots.filter (fun e => e.1 / 8192 / 1024 / 5 == q)).length 4
  | 3 => 10 * s.fld (pgTir q) F.tir_SYS_LINES_LINES + (s.mem.lines.filter (fun e => e.1 / 2 ^ 20 == q)).foldl (fun a e => a + e.2.used.length) 0
  | 4 => s.mem.sumpUse.length
  | _ => 0

/-- The free units of a pool. -/
def State.poolFree (s : State) (q pool : Nat) : Nat := s.poolTotal q pool - s.poolUsed q pool

/-! ## Quotas -/

/-- The function a session belongs to: tenant + 1. -/
def sesFn (h : Nat) : Nat := sesTenant h + 1

/-- Units a function's sessions hold in a tier (R181); a session's pages are counted in the quadrant of its keeper. [DEDUCED: log entry 94] -/
def State.sesUnits (s : State) (fn tier q : Nat) : Nat :=
  let mine := s.sess.filter (fun e => sesFn e.1 == fn && (tier == 2 || e.2.owner == q))
  if tier = 1 then mine.foldl (fun a e => a + ceilDiv e.2.pageCount 4 + e.2.spread.length) 0
  else if tier = 2 then mine.foldl (fun a e => a + e.2.sump.length) 0
  else 0

/-- Units a function holds in a tier of a quadrant (R181): 0 Well, 1 stack, 2 sump (device-wide). A full-spread tile
counts a quarter in each quadrant. [DESIGN CHOICE: log entry 58] -/
def State.quotaUsed (s : State) (fn tier q : Nat) : Nat :=
  let mine := s.mem.tiles.filter (fun e => e.1 / 2 ^ 32 == fn)
  let here := fun (l : Option StackLoc) => match l with
    | some (.spread p _ _) => p == q
    | some (.banked st _ _ _) => st / 5 == q
    | _ => false
  let full := fun (l : Option StackLoc) => match l with
    | some (.full _ _) => true
    | _ => false
  (match tier with
  | 0 => (mine.filter (fun e => match e.2.well with | some f => f / 4096 == q | none => false)).length
  | 1 => (mine.filter (fun e => here e.2.stack)).length + ceilDiv (mine.filter (fun e => full e.2.stack)).length 4
  | _ => (mine.filter (fun e => e.2.sump.isSome)).length) + s.sesUnits fn tier q

/-- The TIR page whose quotas apply: TIR 0 for the sump (R181). -/
def quotaPage (tier q : Nat) : Page := if tier = 2 then pgTir 0 else pgTir q
/-- The window bank of a quota: FUNC and TIER of QUOTA_SEL. -/
def quotaBank (fn tier : Nat) : Nat := fn + 128 * tier
/-- A function's floor in a tier. -/
def State.floorOf (s : State) (fn tier q : Nat) : Nat := s.fldB (quotaPage tier q) (quotaBank fn tier) F.tir_QUOTA_FLOOR_UNITS
/-- A function's cap in a tier; a cap below the floor is taken as the floor (R181). -/
def State.capOf (s : State) (fn tier q : Nat) : Nat :=
  max (s.floorOf fn tier q) (s.fldB (quotaPage tier q) (quotaBank fn tier) F.tir_QUOTA_CAP_UNITS)

/-! ## Taking and freeing space -/

/-- The lowest number from `lo` below `hi` that no key of `ks` (rising) names. [DESIGN CHOICE: log entry 58] -/
def lowestFree : List Nat → Nat → Nat → Option Nat
  | [], lo, hi => if lo < hi then some lo else none
  | k :: ks, lo, hi => if k < lo then lowestFree ks lo hi else if k = lo then lowestFree ks (lo + 1) hi
    else if lo < hi then some lo else none

/-- A free position of a spread line of a quadrant for tiles under a version (R159): in the lowest line of that version
with room, else in the lowest free line. None while the weights of a retired stack wait for a version (R476). [DESIGN CHOICE: log entry 59] -/
def State.freeSpread (s : State) (q ver : Nat) : Option (Nat × Nat) :=
  let per := if s.cis.weightPend.any (fun st => st / 5 == q) then 0 else s.lineCap q ver / 256
  let mine := s.mem.lines.filter (fun e => e.1 / 2 ^ 20 == q)
  match mine.find? (fun e => !e.2.full && e.2.ver == ver && decide (e.2.used.length < per)
      && decide (e.1 % 2 ^ 20 < s.liveLines q)) with
  | some e => ((List.range per).find? (fun i => !(e.2.used.contains i))).map (fun i => (e.1 % 2 ^ 20, i))
  | none =>
    if per = 0 then none
    else (lowestFree (mine.map (fun e => e.1 % 2 ^ 20)) (s.fld (pgTir q) F.tir_SYS_LINES_LINES) (s.liveLines q)).map (fun l => (l, 0))

/-- A free position of a full-spread line under four versions (R84, R159). -/
def State.freeFull (s : State) (slotVer : Nat) : Option (Nat × Nat) :=
  let per := s.fullLineCap (fun q => slotVer / 4 ^ q % 4) / 256
  let live := min (min (s.liveLines 0) (s.liveLines 1)) (min (s.liveLines 2) (s.liveLines 3))
  match s.mem.lines.find? (fun e => e.1 / 2 ^ 20 == 0 && e.2.full && e.2.ver == slotVer
      && decide (e.2.used.length < per) && decide (e.1 % 2 ^ 20 < live)) with
  | some e => ((List.range per).find? (fun i => !(e.2.used.contains i))).map (fun i => (e.1 % 2 ^ 20, i))
  | none =>
    if per = 0 then none
    else
      ((List.range (s.mem.lines.length + 1)).map (· + (List.range 4).foldl (fun a q => max a (s.fld (pgTir q) F.tir_SYS_LINES_LINES)) 0)).find? (fun l =>
        decide (l < live) && s.mem.lines.all (fun e => e.1 % 2 ^ 20 != l)) |>.map (fun l => (l, 0))

/-- Take or give back a position of a line. -/
def State.useLine (s : State) (q line ver : Nat) (full : Bool) (pos : Nat) (take : Bool) : State :=
  let k := q * 2 ^ 20 + line
  let r := SMap.get s.mem.lines {} k
  let used := if take then pos :: r.used else r.used.filter (· != pos)
  { s with mem := { s.mem with
      lines := SMap.set s.mem.lines {} k (if used.isEmpty then {} else ⟨ver, full, used⟩) } }

/-- May page slots of a bank pair still be given out: its channel serves and has no map-out in progress (R111), and the
pair is not retired (R472)? -/
def State.pairOk (s : State) (pair : Nat) : Bool :=
  let c := s.chanOf (pair / 1024) (pair % 1024 / 32)
  (c.st == .online || c.st == .retrainPending || c.st == .retraining || c.st == .margin) && !c.moving
    && !(s.bkt.retired.contains pair)

/-- Is page slot `r` of a pair free? -/
def State.slotFree (s : State) (pair r : Nat) : Bool := !(SMap.get s.mem.slots false (pair * 8192 + r))

/-- Four consecutive free page slots of the lowest bank pair of a quadrant that has them (R89). -/
def State.freeBanked (s : State) (q : Nat) : Option StackLoc :=
  let n := s.profile.bankedRows / 8
  (((List.range 5120).map (· + 5120 * q)).filter s.pairOk).findSome? (fun pair =>
    ((List.range (n - 3)).find? (fun r => (List.range 4).all (fun i => s.slotFree pair (r + i)))).map (fun r =>
      .banked (pair / 1024) (pair % 1024 / 16) (pair % 16) r))

/-- Take or give back page slots of a pair. -/
def State.useSlots (s : State) (pair r n : Nat) (take : Bool) : State :=
  { s with mem := { s.mem with slots := SMap.setList s.mem.slots false (pair * 8192 + r) (List.replicate n take) } }

/-- Take or give back a stack place. -/
def State.useLoc (s : State) (loc : StackLoc) (slotVer : Nat) (take : Bool) : State :=
  match loc with
  | .spread q line pos => s.useLine q line (slotVer / 4 ^ q % 4) false pos take
  | .full line pos => (List.range 4).foldl (fun s q => s.useLine q line slotVer true pos take) s
  | .banked st pc bp slot => s.useSlots (unitIx st pc bp) slot 4 take

/-- Zero a stack place: a tile's bytes that have never been written read zero (R157). -/
def State.zeroLoc (s : State) (ver : Nat → Nat) (loc : StackLoc) : State :=
  (List.range 2048).foldl (fun s c =>
    match s.tileCol ver loc (32 * c) with
    | (none, s1) => s1
    | (some k, s1) => s1.setCol k zeroCol) s

/-- Poison a stack place: a destroyed tile reads poisoned until it is written (R455). -/
def State.poisonLoc (s : State) (ver : Nat → Nat) (loc : StackLoc) : State :=
  (List.range 2048).foldl (fun s c =>
    match s.tileCol ver loc (32 * c) with
    | (none, s1) => s1
    | (some k, s1) => s1.setCol k (poisonCol zeroCol)) s

/-- A free stack place for a tile of an object. -/
def State.freeLoc (s : State) (o : Obj) : Option StackLoc :=
  if o.layout = 1 then s.freeBanked o.home
  else if o.full then (s.freeFull o.slotVer).map (fun r => .full r.1 r.2)
  else (s.freeSpread o.home (o.ver o.home)).map (fun r => .spread o.home r.1 r.2)

/-- The lowest free frame of a cache slice that is not being switched. -/
def State.freeFrame (s : State) (q : Nat) : Option Nat :=
  ((List.range 4096).find? (fun f => !(s.sliceScratch q (f / 64)) && !(s.mem.switching.contains (q * 64 + f / 64))
    && (SMap.get s.mem.frames {} (q * 4096 + f)).owner == 0)).map (· + q * 4096)

/-- The lowest free sump unit; none when the translation of its chunk fails (R419). -/
def State.freeSump (s : State) : Option Nat :=
  (lowestFree (s.mem.sumpUse.map (fun e => e.1)) 0 (s.poolTotal 0 4)).filter (fun u => !(s.sumpBlocked u))

/-! ## Giving tiles up -/

/-- Write a Well frame's dirty granules back to the tile's stack place and free the frame (R173). -/
def State.dropFrame (s : State) (k : Nat) : State :=
  let r := s.tileAt k
  match r.well with
  | none => s
  | some f =>
    let fn := k / 2 ^ 32
    let o := k / 65536 % 65536
    let t := k % 65536
    let d := (SMap.get s.mem.frames {} f).dirty
    let rd := d.foldl (fun (acc : List (Nat × Piece) × State) g =>
      (List.range 8).foldl (fun acc c =>
        let x := acc.2.readPiece fn o t (256 * g + 32 * c) 32
        (acc.1 ++ [(256 * g + 32 * c, x.1)], x.2)) acc) ([], s)
    let s1 := { rd.2.setTile k { r with well := none } with mem := { (rd.2.setTile k { r with well := none }).mem with
      frames := SMap.set rd.2.mem.frames {} f {}
      wellBad := SMap.keep rd.2.mem.wellBad (fun w => !(w / 8192 == f))
      well := SMap.keep rd.2.mem.well (fun b => !(b / 65536 == f)) } }
    (rd.1.foldl (fun s x => s.writePiece fn o t x.1 x.2) s1).bump (pgWel (f / 4096)) F.wel_WB_GRANULES_COUNT d.length

/-- Copy a stack tile to a sump unit it is given. -/
def State.toSump (s : State) (k u : Nat) : State :=
  let fn := k / 2 ^ 32
  let o := k / 65536 % 65536
  let t := k % 65536
  let x := s.readTile fn o t
  let r := x.2.tileAt k
  let s1 := { x.2 with mem := { x.2.mem with sumpUse := SMap.set x.2.mem.sumpUse 0 u (k + 1) } }
  (s1.setTile k { r with stack := none, sump := some u, dirty := false, gold := false }).writeTile fn o t x.1

/-- A stack tile leaves the stack (R173, R174): freed without a copy when it is clean and the sump holds it, or when its
object is READ_ONLY with a host golden copy; copied to the sump otherwise. None when the sump has no room. -/
def State.leaveStack (s : State) (k : Nat) : Option State :=
  let r := s.tileAt k
  let o := s.objOfTile k
  match r.stack with
  | none => some s
  | some loc =>
    let free := fun (s : State) => s.useLoc loc o.slotVer false
    if r.sump.isSome && !r.dirty then some (free (s.setTile k { r with stack := none }))
    else if o.readOnly && o.gold = 1 && r.sump.isNone then
      let x := s.readTile (k / 2 ^ 32) (k / 65536 % 65536) (k % 65536)
      let s1 := { x.2 with mem := { x.2.mem with
        goldBytes := SMap.setList x.2.mem.goldBytes 0#8 (k * 65536) (x.1.flatMap (fun (p : Piece) => p.1)) } }
      some (free (s1.setTile k { r with stack := none, gold := true }))
    else
      match r.sump with
      | some u => if s.sumpBlocked u then none else some (free (s.toSump k u))
      | none =>
        if s.quotaUsed (k / 2 ^ 32) 2 0 + 1 > s.capOf (k / 2 ^ 32) 2 0 then none
        else s.freeSump.map (fun u => free (s.toSump k u))

/-- Is a tile a candidate of a pool's evictor (R178): in the pool, its object unpinned and not held by a promotion, its
function above its floor? -/
def State.evictable (s : State) (q pool k : Nat) : Bool :=
  let r := s.tileAt k
  let o := s.objOfTile k
  let tier := if pool = 0 then 0 else 1
  let here := match pool with
    | 0 => o.layout == 0 && (match r.well with | some f => f / 4096 == q | none => false)
    | 2 => r.well.isNone && (match r.stack with | some (.banked st _ _ _) => st / 5 == q | _ => false)
    | 3 => r.well.isNone && (match r.stack with | some (.spread p _ _) => p == q | some (.full _ _) => true | _ => false)
    | _ => false
  here && o.pinCount == 0 && !o.migLock && decide (s.quotaUsed (k / 2 ^ 32) tier q > s.floorOf (k / 2 ^ 32) tier q)

/-- A candidate of an evictor: an object's tile, or a session state the keeper offers. -/
inductive Candidate where
  | tile (k : Nat)
  | session (h : Nat)
  | node (n : Nat)
  deriving DecidableEq, Repr

/-- Is a session offered to a pool's evictor (R328): PARKED to the banked, SETTLED to the spread one? -/
def State.sesOffered (s : State) (q pool h : Nat) (x : Session) : Bool :=
  x.owner == q && ((pool == 2 && x.st == .parked && decide (x.pageCount > 0)) || (pool == 3 && x.st == .settled))
    && decide (s.quotaUsed (sesFn h) 1 q > s.floorOf (sesFn h) 1 q)

/-- Is a prefix node offered to a pool's evictor (R350): banked, without references and without children? The node's key is
its quadrant × 2^31 + index. -/
def State.nodeOffered (s : State) (q pool n : Nat) (p : PNode) : Bool :=
  pool == 2 && n / 2 ^ 31 == q && p.refs == 0 && s.ses.nodes.all (fun e => e.2.parent != n + 1)

/-- The candidate with the oldest LAST_USE; within one object the highest tile (R178). `only` restricts the choice to one
function's own (R179). -/
def State.oldest (s : State) (q pool : Nat) (only : Option Nat) : Option Candidate :=
  let ok := fun fn => match only with | none => true | some f => f == fn
  let ts := (s.mem.tiles.filter (fun e => ok (e.1 / 2 ^ 32) && s.evictable q pool e.1)).map (fun e =>
    ((s.objOfTile e.1).lastUse.toNat, Candidate.tile e.1))
  let ss := (s.sess.filter (fun e => ok (sesFn e.1) && s.sesOffered q pool e.1 e.2)).map (fun e =>
    (e.2.lastRound.toNat, Candidate.session e.1))
  let ns := (s.ses.nodes.filter (fun e => ok (e.2.tenant + 1) && s.nodeOffered q pool e.1 e.2)).map (fun e =>
    (e.2.lastUse.toNat, Candidate.node e.1))
  let better := fun (a b : Nat × Candidate) =>
    if a.1 < b.1 then a else if b.1 < a.1 then b
    else match a.2, b.2 with
      | .tile x, .tile y => if x / 65536 = y / 65536 then (if x > y then a else b) else if x < y then a else b
      | .tile _, _ => a
      | _, .tile _ => b
      | .session x, .session y => if x ≤ y then a else b
      | .session _, _ => a
      | _, .session _ => b
      | .node x, .node y => if x ≤ y then a else b
  match ts ++ ss ++ ns with
  | [] => none
  | c :: cs => some (cs.foldl better c).2

/-- The evictor gives one candidate up (R178): a Well tile goes to its stack place, a stack tile to the sump, a session
starts settling or sinking (R325, R328). None when there is no candidate or it cannot be given up. -/
def State.evictOne (s : State) (q pool : Nat) (only : Option Nat) : Option State :=
  match s.oldest q pool only with
  | none => none
  | some (.tile k) =>
    (if pool = 0 then some (s.dropFrame k) else s.leaveStack k).map (fun s => s.bump (pgTir q) F.tir_EVICTIONS_COUNT 1)
  | some (.session h) =>
    let x := SMap.get s.sess {} h
    some { s with sess := SMap.set s.sess {} h { x with st := if pool = 2 then .settling else .sinking, entered := s.timeAt x.owner } }
  | some (.node n) =>
    match SMap.find s.ses.nodes n with
    | none => none
    | some p =>
      let s1 := p.pages.foldl (fun s e => e.2.foldl (fun s g => s.useSlots g.pair g.slot 1 false) s) s
      some { s1 with ses := { s1.ses with nodes := SMap.del s1.ses.nodes n } }

/-! ## Placing a tile -/

/-- Which pool a stack tile of an object takes its place in. -/
def Obj.stackPool (o : Obj) : Nat := if o.layout = 1 then 2 else 3

/-- Make room for one unit of a function in a tier: below its cap after evicting its own oldest tile (R179). -/
def State.underCap (s : State) (fn tier q pool : Nat) : Option State :=
  if s.quotaUsed fn tier q + 1 ≤ s.capOf fn tier q then some s
  else (s.evictOne q pool (some fn)).bind (fun s1 =>
    if s1.quotaUsed fn tier q + 1 ≤ s1.capOf fn tier q then some s1 else none)

/-- Give a tile a zeroed stack place, evicting on demand when no unit is free (R177, R179). [DESIGN CHOICE: log entry 58] -/
def State.placeStack (s : State) (fn o t : Nat) : Option State :=
  let x := s.obj fn o
  let take := fun (s : State) (loc : StackLoc) =>
    let r := s.tileAt (tileIx fn o t)
    let s1 := s.useLoc loc x.slotVer true
    (if r.lost then s1.poisonLoc x.ver loc else s1.zeroLoc x.ver loc).setTile (tileIx fn o t)
      { r with stack := some loc, dirty := false, lost := false }
  (s.underCap fn 1 x.home x.stackPool).bind (fun s1 =>
    match s1.freeLoc x with
    | some loc => some (take s1 loc)
    | none => (s1.evictOne x.home x.stackPool none).bind (fun s2 => (s2.freeLoc x).map (take s2)))

/-- Give a tile a sump unit, zeroed (R180). -/
def State.placeSump (s : State) (fn o t : Nat) : Option State :=
  if s.quotaUsed fn 2 0 + 1 > s.capOf fn 2 0 then none
  else s.freeSump.map (fun u =>
    let k := tileIx fn o t
    let s1 := { s with mem := { s.mem with
      sumpUse := SMap.set s.mem.sumpUse 0 u (k + 1)
      sump := SMap.keep s.mem.sump (fun b => !(b / 65536 == u))
      sumpBad := (if (s.tileAt k).lost then (List.range 2048).foldl (fun m i => SMap.set m false (u * 2048 + i) true) else id)
        (SMap.keep s.mem.sumpBad (fun b => !(b / 2048 == u))) } }
    s1.setTile k { s.tileAt k with sump := some u, lost := false })

/-- Give a tile that holds nothing yet its first place: the stack, or the sump when that is its preference or the stack
placement falls through (R166, R179). None is the space fault (R180). [DESIGN CHOICE: log entry 58] -/
def State.placeTile (s : State) (fn o t : Nat) : Option State :=
  if (s.obj fn o).pref = 2 then s.placeSump fn o t
  else match s.placeStack fn o t with
    | some s1 => some s1
    | none => s.placeSump fn o t

/-- Does a tile have a copy anywhere? -/
def TileRec.placed (r : TileRec) : Bool := r.well.isSome || r.stack.isSome || r.sump.isSome || r.gold

/-! ## Accesses -/

/-- Does a tile wait for a move under way (R172)? -/
def State.tileMoving (s : State) (fn o t : Nat) : Bool :=
  s.mem.moves.any (fun m => m.active && m.fn == fn && m.obj == o && m.tile == t)

/-- Ask for a move of a tile, once. -/
def State.askMove (s : State) (m : Move) : State :=
  if s.mem.moves.any (fun x => x.fn == m.fn && x.obj == m.obj && x.tile == m.tile && x.dest == m.dest) then s
  else { s with mem := { s.mem with moves := s.mem.moves ++ [m] } }

/-- What an access of a tile by a block of quadrant `q` brings with it: LAST_USE (R176), the Well's hit and miss counts,
and the promotion its object's TIER_PREF asks for (R175). [DESIGN CHOICE: log entry 66] -/
def State.touch (s : State) (q fn o t : Nat) : State :=
  let x := s.obj fn o
  let r := s.tileAt (tileIx fn o t)
  let s1 := s.setObj fn o { x with lastUse := s.timeAt (4 + q) }
  let die := if x.full then q else x.home
  match r.well with
  | some f => s1.bump (pgWel (f / 4096)) F.wel_HITS_COUNT 1
  | none =>
    let s2 := if x.layout = 0 && r.placed then s1.event (pgWel die) else s1
    if r.stack.isSome then (if x.pref = 0 then s2.askMove ⟨fn, o, t, 0, q, false⟩ else s2)
    else if r.sump.isSome || r.gold then
      (if x.pref = 2 then s2.bump (pgTir die) F.tir_SUMP_DIRECT_COUNT 1 else s2.askMove ⟨fn, o, t, 1, q, false⟩)
    else s2

/-- The DVA spans of a range, cut at columns. -/
def dvaSpans (dva n : Nat) : List (Nat × Nat) := spans (n / 32 + 2) dva n

/-- Record an address fault of a function at a DVA (R74). -/
def State.recordAddr (s : State) (fn : Nat) (src : Page) (dva : Nat) : State := s.fault fn 2 0 src 0 dva 0

/-- Record a space fault of a function at a DVA (R180). -/
def State.recordSpace (s : State) (q fn : Nat) (src : Page) (dva : Nat) : State :=
  (s.fault fn 4 0 src 0 dva 0).raise (pgTir q) 1

/-- How an access through a DVA ends: done, or a fault at an address. -/
inductive AccEnd where
  | done
  | addr (dva : Nat)
  | space (dva : Nat)
  deriving DecidableEq, Repr

/-- Read pieces through a DVA, up to an address fault. -/
def State.readDva (s : State) (q fn : Nat) : List (Nat × Nat) → List Piece × AccEnd × State
  | [] => ([], .done, s)
  | (a, n) :: rest =>
    if s.addrFault fn a false then ([], .addr a, s)
    else
      let o := a / 2 ^ 32
      let t := a / 65536 % 65536
      let s1 := if a % 65536 = 0 || rest.length = 0 then s.touch q fn o t else s
      let x := s1.readPieces fn o t (a % 65536) n
      let y := State.readDva x.2 q fn rest
      (x.1 ++ y.1, y.2.1, y.2.2)

/-- Write one piece through a DVA, placing the tile if it has no place. -/
def State.writeAt (s : State) (q fn a : Nat) (p : Piece) : AccEnd × State :=
  if s.addrFault fn a true then (.addr a, s)
  else
    let o := a / 2 ^ 32
    let t := a / 65536 % 65536
    let s1 := s.touch q fn o t
    if (s1.tileAt (tileIx fn o t)).placed then
      let r := s1.tileAt (tileIx fn o t)
      if r.gold && r.stack.isNone && r.sump.isNone then (.done, s1)
      else (.done, s1.writePiece fn o t (a % 65536) p)
    else match s1.placeTile fn o t with
      | none => (.space a, s1)
      | some s2 => (.done, s2.writePiece fn o t (a % 65536) p)

/-- Write bytes, each with its mark, through a DVA from `a` on, up to a fault. -/
def State.writeDva (s : State) (q fn a : Nat) : List Piece → AccEnd × State
  | [] => (.done, s)
  | p :: ps =>
    match s.writeAt q fn a p with
    | (.done, s1) => State.writeDva s1 q fn (a + p.1.length) ps
    | r => r

/-- Cut pieces again so that each lies within one column from address `a` on. -/
def recut : Nat → Nat → List Piece → List Piece
  | 0, _, _ => []
  | _ + 1, _, [] => []
  | fuel + 1, a, (b, x) :: ps =>
    let n := 32 - a % 32
    if b.length = 0 then recut fuel a ps
    else if b.length ≤ n then (b, x) :: recut fuel (a + b.length) ps
    else (b.take n, x) :: recut fuel (a + n) ((b.drop n, x) :: ps)

/-- Bytes as unpoisoned pieces, cut at columns from address `a` on. -/
def piecesOf (a : Nat) (bs : List Byte) : List Piece := recut (bs.length + 2) a [(bs, false)]

/-- Pieces cut for a destination. -/
def recutFor (a : Nat) (ps : List Piece) : List Piece := recut ((ps.map (fun p => p.1.length)).sum / 32 + 2 * ps.length + 4) a ps

/-- The bytes of a range of an object read plainly, if it does not fault (the keeper's and the tier manager's own
reads). -/
def State.peekDva (s : State) (fn dva n : Nat) : Option (List Byte) :=
  let r := s.readDva 0 fn (dvaSpans dva n)
  if r.2.1 = .done && r.1.all (fun p => !p.2) then some (r.1.flatMap (fun p => p.1)) else none

end Sys2Proof.Machine
end

