-- ==== Sys2Proof/Machine/Objects.lean ====
section
/-! DEFINITION. Object commands and the life of an object (R165 to R171), tile moves (R172 to R176), evictors (R177,
R178), Well slices (R162), floors, the sump table and priming schedules (R181 to R186). -/
namespace Sys2Proof.Machine
open Sys2Proof

/-! ## Object registers -/

/-- The page of a function's object registers: TIR 0 for the PF, page 4 of a tenant. -/
def objPage (fn : Nat) : Page := if fn = 0 then pgTir 0 else ⟨.tnt4, fn - 1⟩
/-- An object register's field in a function's page: the PF's block stands 0xC0 further on. -/
def objFld (fn : Nat) (f : Fld) : Fld := if fn = 0 then f.shift 0xC0 else f
/-- The value of a function's object register field. -/
def State.objReg (s : State) (fn : Nat) (f : Fld) : Nat := s.fld (objPage fn) (objFld fn f)
/-- Set a function's object register field. -/
def State.setObjReg (s : State) (fn : Nat) (f : Fld) (v : Nat) : State := s.setFld (objPage fn) (objFld fn f) v

/-- What OBJ_STATUS shows of an accepted command: its result, its object, and whether it is still under way. [DESIGN CHOICE: log entry 8] -/
def State.objAnswer (s : State) (fn res obj : Nat) (busy : Bool) : State :=
  ((s.setObjReg fn F.tnt4_OBJ_STATUS_RESULT res).setObjReg fn F.tnt4_OBJ_STATUS_OBJ obj).setObjReg fn F.tnt4_OBJ_STATUS_BUSY (b2n busy)

/-- An object command of a function (R171): dropped while BUSY; otherwise its result and index are reported, and BUSY
stays only while the command waits. [DEDUCED: log entry 60] -/
def State.objCommand (s : State) (fn : Nat) (body : State → State × Nat × Nat × Bool) : State :=
  s.regWrite (objPage fn) (objFld fn F.tnt4_OBJ_CMD_OBJ).off fun s =>
    if s.objReg fn F.tnt4_OBJ_STATUS_BUSY = 1 then s.setObjReg fn F.tnt4_OBJ_STATUS_DROPPED 1
    else
      let r := body s
      r.1.objAnswer fn r.2.1 r.2.2.1 r.2.2.2

/-- Results of object commands (OBJ_STATUS.RESULT). -/
def resOk : Nat := 0
def resBadIndex : Nat := 1
def resInUse : Nat := 2
def resNoSpace : Nat := 3
def resBadAttr : Nat := 4
def resPinned : Nat := 5
def resState : Nat := 6
def resQuota : Nat := 7
def resNoTable : Nat := 8

/-! ## CREATE -/

/-- Does a tier preference break the layout rules of R165? -/
def prefBad (layout pref : Nat) : Bool :=
  pref == 3 || (layout == 2 && pref != 0) || (layout == 1 && pref == 0)

/-- BAD_ATTR of R165. -/
def attrBad (fn layout : Nat) (full : Bool) (pref comp gold : Nat) (ro : Bool) (golden : Nat) : Bool :=
  layout == 3 || comp == 3 || gold == 3 || (full && layout != 0) || prefBad layout pref || (ro && gold == 0)
    || (gold == 2 && (fn != 0 || golden ≥ 2 ^ 60))

/-- The free scratchpad frames of a die, lowest first. -/
def State.freeScratch (s : State) (q : Nat) : List Nat :=
  ((List.range 4096).filter (fun f => s.sliceScratch q (f / 64)
    && (SMap.get s.mem.frames {} (q * 4096 + f)).owner == 0)).map (· + q * 4096)

/-- The current slot-table versions of the four quadrants, two bits each (R47). -/
def State.curVersions (s : State) : Nat := sumTo 4 (fun q => s.fld (pgCisQ q) F.cisq_HASH_CFG_CUR_VER * 4 ^ q)

/-- Give the tiles of a WELL object their frames (R166). -/
def State.reserveFrames (s : State) (fn o : Nat) (fs : List Nat) : State :=
  ((List.range fs.length).zip fs).foldl (fun s e =>
    let k := tileIx fn o e.1
    { s.setTile k { well := some e.2 } with mem := { (s.setTile k { well := some e.2 }).mem with
      frames := SMap.set s.mem.frames {} e.2 ⟨k + 1, []⟩
      well := SMap.keep s.mem.well (fun b => !(b / 65536 == e.2))
      wellBad := SMap.keep s.mem.wellBad (fun w => !(w / 8192 == e.2)) } }) s

/-- Object command CREATE over the argument registers (R165 to R167). [DEDUCED: log entry 60] -/
def State.createObj (s : State) (fn o : Nat) : State × Nat × Nat × Bool :=
  let attr := s.objReg fn F.tnt4_OBJ_ATTR_ATTR * 16
  let layout := bitsOf attr 5 4
  let full := bitOf attr 6
  let pref := bitsOf attr 8 7
  let comp := bitsOf attr 10 9
  let gold := bitsOf attr 12 11
  let ro := bitOf attr 13
  let tilesM1 := s.objReg fn F.tnt4_OBJ_SIZE_TILES_M1
  let home := s.objReg fn F.tnt4_OBJ_SIZE_HOME_QUAD
  let slot := s.objReg fn F.tnt4_OBJ_COMP_TBL_SLOT
  let sb := s.objReg fn F.tnt4_OBJ_COMP_SLOT_BYTES
  let golden := s.objReg fn F.tnt4_OBJ_GOLD_LO_GOLDEN + 2 ^ 32 * s.objReg fn F.tnt4_OBJ_GOLD_HI_GOLDEN
  let gen := (SMap.get s.pmp.slots {} slot).cur.num
  let ix := if o = 0 then (lowestFree ((s.mem.objs.filter (fun e => e.1 / 65536 == fn)).map (fun e => e.1 % 65536)) 1 65536).getD 0
    else o
  let fs := s.freeScratch home
  if attrBad fn layout full pref comp gold ro golden then (s, resBadAttr, o, false)
  else if comp ≠ 0 ∧ gen = 0 then (s, resNoTable, o, false)
  else if o ≠ 0 ∧ (s.obj fn o).st ≠ .free then (s, resInUse, o, false)
  else if ix = 0 then (s, resNoSpace, 0, false)
  else if layout = 2 ∧ fs.length < tilesM1 + 1 then (s, resNoSpace, o, false)
  else if layout = 2 ∧ s.quotaUsed fn 0 home + tilesM1 + 1 > s.capOf fn 0 home then (s, resQuota, o, false)
  else
    let x : Obj := { st := if ro then .creating else .ready, layout := layout, full := full, pref := pref, comp := comp
                     gold := gold, readOnly := ro, tilesM1 := tilesM1, home := home
                     slotVer := if layout = 0 then s.curVersions else 0
                     tblSlot := slot, tblGen := if comp = 0 then 0 else gen, slotBytes := if comp = 0 then 0 else sb
                     golden := if gold = 0 then 0 else BitVec.ofNat 64 golden }
    let s1 := s.setObj fn ix x
    (if layout = 2 then s1.reserveFrames fn ix (fs.take (tilesM1 + 1)) else s1, resOk, ix, false)

/-- OBJ_CREATE (R165 to R167): `obj` of OBJ_CMD; the arguments stand in the function's argument registers. -/
def execObjCreate (fn : Fin 65) (obj : W16) (s : State) : Out :=
  .next (s.objCommand fn fun s => s.createObj fn obj.toNat)

/-! ## The other commands -/

/-- The states RELEASE acts in, with no command pin (R168). [DEDUCED: log entry 60] -/
def execObjRelease (fn : Fin 65) (obj : W16) (s : State) : Out :=
  .next (s.objCommand fn fun s =>
    let o := obj.toNat
    let x := s.obj fn o
    if x.st = .free ∨ x.st = .releasing ∨ x.releaseWaits then (s, resState, o, false)
    else if x.pins > 0 then (s, resPinned, o, false)
    else
      let drop := { s with mem := { s.mem with moves := s.mem.moves.filter (fun m =>
        !(m.fn == fn.val && m.obj == o && !m.active)) } }
      if x.st = .migrating then (drop.setObj fn o { x with releaseWaits := true }, resOk, o, true)
      else (drop.setObj fn o { x with st := .releasing }, resOk, o, false))

/-- Ask for the promotion of every tile of an object up to its TIER_PREF (R170). -/
def State.promoteAll (s : State) (fn o : Nat) : State :=
  let x := s.obj fn o
  (List.range (x.tilesM1 + 1)).foldl (fun s t =>
    let r := s.tileAt (tileIx fn o t)
    if r.well.isSome || !r.placed then s
    else if r.stack.isSome then (if x.pref = 0 then s.askMove ⟨fn, o, t, 0, x.home, false⟩ else s)
    else if x.pref = 2 then s
    else s.askMove ⟨fn, o, t, 1, x.home, false⟩) s

/-- Does an object stand in READY or MIGRATING? -/
def Obj.live (x : Obj) : Bool := x.st == .ready || (x.st == .migrating && !x.releaseWaits)

/-- OBJ_PIN (R169, R170): one more command pin; with PROMOTE, also a promotion of every tile. -/
def execObjPin (fn : Fin 65) (obj : W16) (promote : Bool) (s : State) : Out :=
  .next (s.objCommand fn fun s =>
    let o := obj.toNat
    let x := s.obj fn o
    if !x.live || x.pinCount ≥ 0xFFFF then (s, resState, o, false)
    else
      let s1 := s.setObj fn o { x with pins := x.pins + 1 }
      (if promote then s1.promoteAll fn o else s1, resOk, o, false))

/-- OBJ_UNPIN (R170): one command pin less; STATE when none is held. -/
def execObjUnpin (fn : Fin 65) (obj : W16) (s : State) : Out :=
  .next (s.objCommand fn fun s =>
    let o := obj.toNat
    let x := s.obj fn o
    if !(x.live || x.st == .quarantined) || x.pins = 0 then (s, resState, o, false)
    else (s.setObj fn o { x with pins := x.pins - 1 }, resOk, o, false))

/-- OBJ_PROMOTE (R170). -/
def execObjPromote (fn : Fin 65) (obj : W16) (s : State) : Out :=
  .next (s.objCommand fn fun s =>
    let o := obj.toNat
    if (s.obj fn o).live then (s.promoteAll fn o, resOk, o, false) else (s, resState, o, false))

/-- The tiers as numbers: 0 Well, 1 stack, 2 sump; 3 for a tile that lies nowhere. -/
def TileRec.tier (r : TileRec) : Nat :=
  if r.well.isSome then 0 else if r.stack.isSome then 1 else if r.sump.isSome || r.gold then 2 else 3

/-- Ask for the moves of every tile above a tier down to it (R170). -/
def State.demoteAll (s : State) (fn o tier : Nat) : State :=
  (List.range ((s.obj fn o).tilesM1 + 1)).foldl (fun s t =>
    if (s.tileAt (tileIx fn o t)).tier < tier then s.askMove ⟨fn, o, t, tier, (s.obj fn o).home, false⟩ else s) s

/-- Start the first waiting move of an object whose lock is free (R168, R172). -/
def State.startMove (s : State) (fn o : Nat) : State :=
  let x := s.obj fn o
  match s.mem.moves.findIdx? (fun m => m.fn == fn && m.obj == o && !m.active) with
  | some i =>
    if x.live && !x.migLock then
      let moves := (List.range s.mem.moves.length).zip s.mem.moves |>.map (fun e =>
        if e.1 = i then { e.2 with active := true } else e.2)
      { s with mem := { s.mem with moves := moves } }.setObj fn o { x with st := .migrating, migLock := true }
    else s
  | none => s

/-- OBJ_DEMOTE (R170): every tile above TIER moves down to it. -/
def execObjDemote (fn : Fin 65) (obj : W16) (tier : Fin 4) (s : State) : Out :=
  .next (s.objCommand fn fun s =>
    let o := obj.toNat
    let x := s.obj fn o
    if tier.val = 0 || tier.val = 3 || (x.st != .free && x.layout == 2) then (s, resBadAttr, o, false)
    else if !x.live then (s, resState, o, false)
    else if x.pins > 0 then (s, resPinned, o, false)
    else ((s.demoteAll fn o tier).startMove fn o, resOk, o, false))

/-- OBJ_SET_PREF (R170): TIER_PREF, under the layout rules of R165. -/
def execObjSetPref (fn : Fin 65) (obj : W16) (tier : Fin 4) (s : State) : Out :=
  .next (s.objCommand fn fun s =>
    let o := obj.toNat
    let x := s.obj fn o
    if tier.val = 3 || (x.st != .free && prefBad x.layout tier) then (s, resBadAttr, o, false)
    else if !x.live then (s, resState, o, false)
    else (s.setObj fn o { x with pref := tier }, resOk, o, false))

/-- The 32 bytes of an object table entry (R78). -/
def State.objEntry (s : State) (fn o : Nat) : List Byte :=
  let x := s.obj fn o
  if x.st = .free then List.replicate 32 0#8
  else
    let tiles := (s.mem.tiles.filter (fun e => e.1 / 65536 == objIx fn o)).map (fun e => e.2)
    let attr := 1 + 2 * x.st.code + 2 ^ 4 * x.layout + 2 ^ 6 * b2n x.full + 2 ^ 7 * x.pref + 2 ^ 9 * x.comp
      + 2 ^ 11 * x.gold + 2 ^ 13 * b2n x.readOnly
    let live := min 0xFFFF x.pinCount + 2 ^ 16 * b2n x.migLock + 2 ^ 17 * b2n (tiles.any (fun r => r.well.isSome))
      + 2 ^ 18 * b2n (tiles.any (fun r => r.stack.isSome)) + 2 ^ 19 * b2n (tiles.any (fun r => r.sump.isSome))
    leBytes 4 attr ++ leBytes 4 (x.tilesM1 + 2 ^ 16 * x.home + 2 ^ 18 * x.slotVer)
      ++ leBytes 4 (x.tblSlot + 2 ^ 4 * x.tblGen + 2 ^ 16 * x.slotBytes) ++ leBytes 4 live
      ++ leBytes 8 x.golden.toNat ++ leBytes 8 x.lastUse.toNat

/-- OBJ_QUERY (R79, R170): the entry's 32 bytes into OBJ_QUERY0–7. -/
def execObjQuery (fn : Fin 65) (obj : W16) (s : State) : Out :=
  .next (s.objCommand fn fun s =>
    let o := obj.toNat
    if o = 0 then (s, resBadIndex, o, false)
    else
      let e := s.objEntry fn o
      ((List.range 8).foldl (fun s k =>
        s.setReg (objPage fn) 0 ((objFld fn F.tnt4_OBJ_QUERY_ENTRY).off + 4 * k) (BitVec.ofNat 32 (leAt e (4 * k) 4))) s,
        resOk, o, false))

/-! ## Loading and freeing -/

/-- An object is quarantined after its load failed (R167, R168): an error-log record of KIND 0x0007, reason 3. [DEDUCED: log entry 65] -/
def State.loadFailed (s : State) (fn o : Nat) : State :=
  (s.setObj fn o { s.obj fn o with st := .quarantined }).logErr 7 (pgTir (s.obj fn o).home) 3 (o * 2 ^ 32) fn

/-- The bytes of an object's tiles that its golden source's data give: the data themselves, or the data compressed under
the bound generation (R167, R483). -/
def State.goldenBytes (s : State) (x : Obj) (data : List Byte) : List Byte :=
  if x.comp = 0 then data
  else
    let sl := SMap.get s.pmp.slots {} x.tblSlot
    let tbl := if sl.cur.num = x.tblGen then sl.cur.data else sl.ret.data
    let elem := tblElem tbl
    let n := if elem = 3 then data.length / 17 * 16 else data.length
    let blocks := (splitBlocks elem (data.take n) (data.drop n)).map (fun b =>
      (encodeBlock tbl (codeCap elem x.slotBytes) b.1 b.2).1)
    if x.comp = 1 then layFixed x.slotBytes blocks else (layPacked blocks).1

/-- Is an object's bound generation present (R208)? -/
def State.genPresent (s : State) (slot gen : Nat) : Bool :=
  let sl := SMap.get s.pmp.slots {} slot
  gen != 0 && (sl.cur.num == gen || sl.ret.num == gen)

/-- OBJECT_LOAD_DONE (R167, R168): the golden bytes arrive and the object becomes READY, or the load fails. [DEDUCED: log entry 61] -/
def State.objectLoadDone (s : State) (fn : Fin 65) (obj : W16) (golden : Option (List Byte)) : State :=
  let o := obj.toNat
  let x := s.obj fn o
  if x.st ≠ .creating then s
  else match golden with
    | none => (s.loadFailed fn o)
    | some data =>
      if x.comp ≠ 0 ∧ !(s.genPresent x.tblSlot x.tblGen) then (s.loadFailed fn o)
      else
        let bytes := slice (s.goldenBytes x data) 0 (65536 * (x.tilesM1 + 1))
        let s0 := s.setObj fn o { x with st := .ready, readOnly := false }
        let r := s0.writeDva x.home fn (o * 2 ^ 32) (piecesOf 0 bytes)
        match r.1 with
        | .done =>
          (r.2.setObj fn o { r.2.obj fn o with readOnly := x.readOnly, lastUse := x.lastUse })
        | .space a => ((r.2.recordSpace x.home fn (pgTir x.home) a).loadFailed fn o)
        | .addr _ => (r.2.loadFailed fn o)

/-- Free a tile in every tier. -/
def State.freeTile (s : State) (k : Nat) : State :=
  let r := s.tileAt k
  let o := s.objOfTile k
  let s1 := match r.well with
    | some f => { s with mem := { s.mem with
        frames := SMap.set s.mem.frames {} f {}
        well := SMap.keep s.mem.well (fun b => !(b / 65536 == f))
        wellBad := SMap.keep s.mem.wellBad (fun w => !(w / 8192 == f)) } }
    | none => s
  let s2 := match r.stack with
    | some loc => s1.useLoc loc o.slotVer false
    | none => s1
  let s3 := match r.sump with
    | some u => { s2 with mem := { s2.mem with
        sumpUse := SMap.set s2.mem.sumpUse 0 u 0
        sump := SMap.keep s2.mem.sump (fun b => !(b / 65536 == u))
        sumpBad := SMap.keep s2.mem.sumpBad (fun b => !(b / 2048 == u)) } }
    | none => s2
  { s3.setTile k {} with mem := { (s3.setTile k {}).mem with
    goldBytes := SMap.keep s3.mem.goldBytes (fun b => !(b / 65536 == k)) } }

/-- Free every tile of an object and zero its entry (R168). -/
def State.freeObj (s : State) (fn o : Nat) : State :=
  let ks := (s.mem.tiles.filter (fun e => e.1 / 65536 == objIx fn o)).map (fun e => e.1)
  let s1 := ks.foldl State.freeTile s
  { s1.setObj fn o {} with mem := { (s1.setObj fn o {}).mem with
    moves := s1.mem.moves.filter (fun m => !(m.fn == fn && m.obj == o)) } }

/-- OBJECT_FREED (R168): a RELEASING object whose transient pins have drained is freed. -/
def execObjectFreed (fn : Fin 65) (obj : W16) (s : State) : Out := s.gate fun s =>
  let x := s.obj fn obj.toNat
  if x.st = .releasing ∧ x.transient = 0 then .next (s.freeObj fn obj.toNat) else .next s

/-! ## Moves -/

/-- PROMOTION (R168, R172, R175, R182): the tier manager takes the lock of an object that has a move waiting, and starts
the first of its moves. -/
def execPromotion (fn : Fin 65) (obj : W16) (s : State) : Out := s.gate fun s => .next (s.startMove fn obj.toNat)

/-- Copy a tile up into the Well frame it is given. -/
def State.toWell (s : State) (k f : Nat) : State :=
  let fn := k / 2 ^ 32
  let o := k / 65536 % 65536
  let t := k % 65536
  let x := s.readTile fn o t
  let s1 := { x.2 with mem := { x.2.mem with
    frames := SMap.set x.2.mem.frames {} f ⟨k + 1, []⟩
    well := SMap.keep x.2.mem.well (fun b => !(b / 65536 == f))
    wellBad := SMap.keep x.2.mem.wellBad (fun w => !(w / 8192 == f)) } }
  let s2 := (s1.setTile k { x.2.tileAt k with well := some f }).writeTile fn o t x.1
  { s2 with mem := { s2.mem with frames := SMap.set s2.mem.frames {} f ⟨k + 1, []⟩ } }

/-- Move a tile from the stack to the Well (R175, R177, R179); a placement the cap or the pool does not allow is not made. -/
def State.moveToWell (s : State) (k q : Nat) : State :=
  let fn := k / 2 ^ 32
  match s.underCap fn 0 q 0 with
  | none => s
  | some s1 =>
    match s1.freeFrame q with
    | some f => s1.toWell k f
    | none => match s1.evictOne q 0 none with
      | none => s1
      | some s2 => match s2.freeFrame q with
        | some f => s2.toWell k f
        | none => s2

/-- Move a tile up from the sump, or from its golden source, to the stack (R174, R175). Its sump copy stays (R156). -/
def State.moveToStack (s : State) (k : Nat) : State :=
  let fn := k / 2 ^ 32
  let o := k / 65536 % 65536
  let t := k % 65536
  let x := s.readTile fn o t
  match x.2.placeStack fn o t with
  | none => x.2
  | some s1 =>
    let s2 := s1.writeTile fn o t x.1
    let r := s2.tileAt k
    { s2.setTile k { r with gold := false, dirty := r.sump.isNone && !((s2.objOfTile k).readOnly && (s2.objOfTile k).gold == 1) } with
      mem := { (s2.setTile k { r with gold := false, dirty := r.sump.isNone && !((s2.objOfTile k).readOnly && (s2.objOfTile k).gold == 1) }).mem with
        goldBytes := SMap.keep s2.mem.goldBytes (fun b => !(b / 65536 == k)) } }

/-- What a tile move does when it completes: the copy, and the switch of the tile's location (R172). A move whose copy
could not be placed leaves the tile where it is. -/
def State.doMove (s : State) (m : Move) : State :=
  let k := tileIx m.fn m.obj m.tile
  let r := s.tileAt k
  if m.dest < r.tier then
    if m.dest = 0 then s.moveToWell k (if (s.obj m.fn m.obj).full then m.quad else (s.obj m.fn m.obj).home)
    else s.moveToStack k
  else
    let s1 := s.dropFrame k
    if m.dest = 2 then (s1.leaveStack k).getD s1 else s1

/-- The quadrant whose TIR page counts a tile's move. -/
def State.moveQuad (s : State) (m : Move) : Nat := if (s.obj m.fn m.obj).full then m.quad else (s.obj m.fn m.obj).home

/-- TILE_MOVE_COMPLETE (R168, R172, R182): the move under way of an object ends; the location switches; the lock is
released, and the next waiting move starts, or the object returns to READY, or a waiting RELEASE takes effect. `hostOk`
is 0 when a host access of a sump move failed (R419): the tile stays, and SUMP_FAULT is set. -/
def execTileMoveComplete (fn : Fin 65) (obj : W16) (hostOk : Bool) (s : State) : Out := s.gate fun s =>
  let o := obj.toNat
  match s.mem.moves.find? (fun m => m.active && m.fn == fn.val && m.obj == o) with
  | none => .next s
  | some m =>
    let r := s.tileAt (tileIx fn o m.tile)
    let sump := m.dest = 2 || r.tier = 2
    let s1 := if sump && !hostOk then s.raise (pgTir (s.moveQuad m)) 2
      else (s.doMove m).bump (pgTir (s.moveQuad m)) F.tir_MOVES_COUNT 1
    let s2 := { s1 with mem := { s1.mem with moves := s1.mem.moves.filter (· != m) } }
    let x := s2.obj fn o
    if x.releaseWaits then
      .next ((s2.setObj fn o { x with st := .releasing, migLock := false, releaseWaits := false }).setObjReg fn
        F.tnt4_OBJ_STATUS_BUSY 0)
    else
      let s3 := s2.setObj fn o { x with st := if x.st = .migrating then .ready else x.st, migLock := false }
      .next (s3.startMove fn o)

/-! ## Evictors -/

/-- Evict from a pool until its free space reaches `target`; `fuel` bounds the number given up. -/
def State.evictUntil (s : State) (q pool target : Nat) : Nat → State
  | 0 => s
  | fuel + 1 =>
    if s.poolFree q pool ≥ target then s
    else match s.evictOne q pool none with
      | none => s
      | some s1 => s1.evictUntil q pool target fuel

/-- Free the sump copies of tiles resident in a stack until the sump's free space reaches `target`, setting each tile's
dirty bit (R176). -/
def State.freeSumpCopies (s : State) (target : Nat) : State :=
  (s.mem.tiles.map (fun e => e.1)).foldl (fun s k =>
    let r := s.tileAt k
    match r.sump with
    | some u =>
      if r.stack.isSome && decide (s.poolFree 0 4 < target) then
        { s.setTile k { r with sump := none, dirty := true } with mem := { (s.setTile k { r with sump := none, dirty := true }).mem with
          sumpUse := SMap.set s.mem.sumpUse 0 u 0
          sump := SMap.keep s.mem.sump (fun b => !(b / 65536 == u))
          sumpBad := SMap.keep s.mem.sumpBad (fun b => !(b / 2048 == u)) } }
      else s
    | none => s) s

/-- The watermarks of a pool, in units (R177, POOL_WM): a HIGH not above LOW is LOW + 1. -/
def State.watermarks (s : State) (q pool : Nat) : Nat × Nat :=
  let lo := s.fldB (pgTir q) pool F.tir_POOL_WM_LOW
  let hi := s.fldB (pgTir q) pool F.tir_POOL_WM_HIGH
  let t := s.poolTotal q pool
  (lo * t / 256, (if hi ≤ lo then lo + 1 else hi) * t / 256)

/-- EVICTION (R176 to R178): when the pool's free space lies below its low watermark, its evictor gives up candidates
until the high watermark. The scratchpad is never evicted. -/
def execEviction (q : Fin 4) (pool : Fin 5) (s : State) : Out := s.gateOn (pgTir q) fun s =>
  let w := s.watermarks q pool
  if s.poolFree q pool ≥ w.1 ∨ pool.val = 1 then .next s
  else if pool.val = 4 then .next (s.freeSumpCopies w.2)
  else .next (s.evictUntil q pool w.2 (s.mem.tiles.length + s.sess.length + 1))

/-! ## Well slices -/

/-- One requested slice change (R162). -/
def State.changeSlice (s : State) (q i : Nat) (toScratch : Bool) : State :=
  let used := s.mem.frames.filter (fun e => e.1 / 64 == q * 64 + i && e.2.owner != 0)
  if s.sliceScratch q i == toScratch then s
  else if toScratch then
    if s.mem.switching.contains (q * 64 + i) then s
    else { s with mem := { s.mem with switching := s.mem.switching ++ [q * 64 + i] } }.setFld (pgWel q)
      F.wel_SLICE_STATUS_BUSY 1
  else if used.isEmpty then
    let off := if i < 32 then 0x040 else 0x044
    s.setReg (pgWel q) 0 off (BitVec.ofNat 32 (setBitsNat (s.reg (pgWel q) 0 off).toNat (i % 32) (i % 32) 0))
  else (s.setFld (pgWel q) F.wel_SLICE_STATUS_LAST_REFUSED i).raise (pgWel q) 2

/-- SLICE_MODE_CHANGE (R66, R162): a write of SLICE_MODE_HI requests the changes of the pair {written, staged}. -/
def execSliceModeChange (q : Fin 4) (hi : W32) (s : State) : Out :=
  .next (s.regWrite (pgWel q) 0x044 fun s =>
    let want := (SMap.get s.stage (resetWord (pgWel q) 0 0x040) (regKey (pgWel q) 0 0x040)).toNat + 2 ^ 32 * hi.toNat
    (List.range 64).foldl (fun s i => s.changeSlice q i (bitOf want i)) s)

/-- SLICE_SWITCH_COMPLETE (R162): after the write-back of a slice's dirty granules its frames leave the cache and it
becomes scratchpad. -/
def execSliceSwitchComplete (q : Fin 4) (slice : Fin 64) (s : State) : Out := s.gate fun s =>
  let k := q.val * 64 + slice.val
  if !(s.mem.switching.contains k) then .next s
  else
    let tiles := (s.mem.frames.filter (fun e => e.1 / 64 == k && e.2.owner != 0)).map (fun e => e.2.owner - 1)
    let s1 := tiles.foldl State.dropFrame s
    let s2 := { s1 with mem := { s1.mem with switching := s1.mem.switching.filter (· != k) } }
    let off := if slice.val < 32 then 0x040 else 0x044
    let s3 := s2.setReg (pgWel q) 0 off
      (BitVec.ofNat 32 (setBitsNat (s2.reg (pgWel q) 0 off).toNat (slice % 32) (slice % 32) 1))
    .next (if s3.mem.switching.any (fun x => x / 64 == q.val) then s3
      else s3.setFld (pgWel q) F.wel_SLICE_STATUS_BUSY 0)

/-! ## Floors and the sump table -/

/-- The capacity of a tier in a quadrant (R181). -/
def State.tierTotal (s : State) (tier q : Nat) : Nat :=
  if tier = 0 then s.poolTotal q 0 + s.poolTotal q 1
  else if tier = 1 then s.poolTotal q 2 + s.poolTotal q 3
  else s.poolTotal 0 4

/-- QUOTA_FLOOR_WRITE (R181): the floor of the selected function and tier, refused when the floors would exceed the tier's
capacity. A reserved FUNC or TIER, and a sump selection outside TIR 0, change nothing. -/
def execQuotaFloorWrite (q : Fin 4) (units : W32) (s : State) : Out :=
  .next (s.regWrite (pgTir q) 0x058 fun s =>
    let fn := s.fld (pgTir q) F.tir_QUOTA_SEL_FUNC
    let tier := s.fld (pgTir q) F.tir_QUOTA_SEL_TIER
    if fn > 64 ∨ tier = 3 then s
    else if tier = 2 ∧ q.val ≠ 0 then s.badAccess (pgTir q) 0x058 true
    else
      let others := sumTo 65 (fun f => if f = fn then 0 else s.floorOf f tier q)
      if others + units.toNat > s.tierTotal tier q then s.setFld (pgTir q) F.tir_QUOTA_STATUS_REFUSED 1
      else s.setFldB (pgTir q) (quotaBank fn tier) F.tir_QUOTA_FLOOR_UNITS units.toNat)

/-- SUMP_CHUNKS_WRITE (R183): chunks are added at once; a lower count is refused unless the chunks beyond it are empty, and
a count above 0x10_0000 changes nothing. -/
def execSumpChunksWrite (value : W32) (s : State) : Out :=
  .next (s.regWrite (pgTir 0) 0x070 fun s =>
    let n := value.toNat % 2 ^ 21
    if n > 0x100000 then s
    else if s.mem.sumpUse.any (fun e => decide (e.1 ≥ 32 * n)) then s
    else s.setFld (pgTir 0) F.tir_SUMP_CHUNKS_COUNT n)

/-! ## Priming schedules -/

/-- An entry of a priming schedule (R184). -/
def schedEntry (bs : List Byte) : SchedEntry :=
  { src := leAt bs 0 8, tiles := leAt bs 8 2, engine := leAt bs 10 1 % 32, kind := leAt bs 11 1 % 4, sel := leAt bs 12 2 }

/-- Does an entry's 16 bytes break R185? -/
def State.entryBad (s : State) (bs : List Byte) : Bool :=
  let e := schedEntry bs
  let o := e.src / 2 ^ 32
  leAt bs 10 1 ≥ 32 || leAt bs 11 1 ≥ 4 || leAt bs 14 2 != 0 || e.src % 65536 != 0 || e.src ≥ 2 ^ 48 || e.kind == 3
    || e.tiles == 0 || e.tiles > 64 || (e.kind == 0 && e.sel != 0) || (e.kind == 2 && o != 0)
    || (e.kind ≤ 1 && ((s.obj 0 o).st != .ready || o == 0
        || decide (e.src / 65536 % 65536 + e.tiles > (s.obj 0 o).tilesM1 + 1)))

/-- Read a priming schedule from a PF DVA and check it (R184, R185); none when it is refused. -/
def State.readSchedule (s : State) (m dva : Nat) : Option Schedule :=
  (s.peekDva 0 dva 64).bind (fun h =>
    let layers := leAt h 6 2
    let n := leAt h 8 4
    let off := leAt h 12 4
    let hdrBad := leAt h 0 4 != 1 || leAt h 4 1 != m || leAt h 5 1 != 0 || layers == 0 || layers > 1024
      || off % 16 != 0 || leNat (h.drop 16) != 0
    if hdrBad then none
    else (s.peekDva 0 (dva + 0x40) (4 * (layers + 1))).bind (fun fb =>
      (s.peekDva 0 (dva + off) (16 * n)).bind (fun eb =>
        let first := (List.range (layers + 1)).map (fun l => leAt fb (4 * l) 4)
        let rises := (List.range layers).all (fun l => decide (first.getD l 0 ≤ first.getD (l + 1) 0))
        let es := (List.range n).map (fun i => slice eb (16 * i) 16)
        if !rises || first.getLastD 0 != n || es.any s.entryBad then none
        else some { dva := dva, first := first, entries := es.map schedEntry })))

end Sys2Proof.Machine
end

