-- ==== Sys2Proof/Machine/Pumps.lean ====
section
/-! DEFINITION. Descriptors (R191 to R193), address spaces (R192), completion records and fault records (R194 to R198),
decoding tables (R205 to R207), and the operations of a descriptor on device memory (R193, R195, R202 to R210). -/
namespace Sys2Proof.Machine
open Sys2Proof

/-! ## Descriptors -/

/-- The fields of a descriptor (R191). -/
structure Desc where
  op : Nat
  chain : Bool
  cpl : Bool
  irq : Bool
  sspace : Nat
  dspace : Nat
  cplHost : Bool
  cls : Nat
  equeue : Nat
  func : Nat
  rsv : Bool
  len : Nat
  src : Nat
  dst : Nat
  comp : Nat
  arg : Nat
  pattern : Nat
  cplAddr : Nat
  cookie : Nat
  first : Nat
  deriving DecidableEq, Repr

/-- Read a descriptor's 64 bytes (R191). -/
def descOf (bs : List Byte) : Desc :=
  let c := leAt bs 0 4
  { op := c % 16, chain := bitOf c 4, cpl := bitOf c 5, irq := bitOf c 6, sspace := bitsOf c 9 7, dspace := bitsOf c 12 10
    cplHost := bitOf c 13, cls := bitsOf c 15 14, equeue := bitsOf c 21 16, func := bitsOf c 28 22
    rsv := bitsOf c 31 29 != 0 || leAt bs 0x3C 4 != 0
    len := leAt bs 4 4, src := leAt bs 8 8, dst := leAt bs 0x10 8, comp := leAt bs 0x18 4, arg := leAt bs 0x1C 4
    pattern := leAt bs 0x20 8, cplAddr := leAt bs 0x28 8, cookie := leAt bs 0x30 8, first := leAt bs 0x38 4 }

/-- Fields of COMP and ARG (R191). -/
def Desc.slot (d : Desc) : Nat := d.comp % 16
def Desc.gen (d : Desc) : Nat := bitsOf d.comp 15 4
def Desc.mode (d : Desc) : Nat := bitsOf d.comp 17 16
def Desc.build (d : Desc) : Bool := bitOf d.comp 18
def Desc.slotBytes (d : Desc) : Nat := bitsOf d.arg 15 0
def Desc.addOp (d : Desc) : Nat := bitsOf d.arg 20 16

/-- The kind of a pump page (R190): 0 engine-feed, 1 tier, 2 host, 3 link. -/
def pumpKind (page : Nat) : Nat := if page = 8 then 2 else if page = 9 then 3 else page % 2
/-- The pumps of a group (R190). -/
def pumpCount (page : Nat) : Nat := if page ≥ 8 then 4 else 8
/-- The quadrant whose tier manager resolves a pump's accesses. [DESIGN CHOICE: log entry 71] -/
def pumpQuad (page : Nat) : Nat := if page < 8 then page / 2 else 0

/-- Does a group take an operation (R190)? -/
def groupTakes (kind op : Nat) : Bool :=
  op == 0 || op == 1 || op == 6
    || (match kind with
        | 0 => op == 5
        | 1 => true
        | 2 => op == 2
        | _ => op == 3)

/-- Does a group take a source space (R190)? -/
def groupSrc (kind sp : Nat) : Bool :=
  sp == 0 || (match kind with
    | 0 => sp == 2
    | 1 => sp == 1 || sp == 2
    | 2 => sp == 1
    | _ => sp == 3)

/-- Does a group take a destination space (R190)? -/
def groupDst (kind sp : Nat) : Bool :=
  match kind with
  | 0 => sp == 2 || sp == 4
  | 1 => sp == 0 || sp == 1 || sp == 2
  | 2 => sp == 0 || sp == 1
  | _ => sp == 0 || sp == 3

/-- Bits of an address that its space leaves reserved are non-zero (R192). -/
def addrReserved (sp a : Nat) : Bool :=
  match sp with
  | 0 => decide (a ≥ 2 ^ 48)
  | 1 => false
  | 2 => decide (a ≥ 2 ^ 27)
  | 3 => decide (a ≥ 2 ^ 60)
  | 4 => decide (a % 2 ^ 22 ≠ 0 ∨ a ≥ 2 ^ 27)
  | _ => true

/-- The pieces an ADDER is split into: offset and length (R193, R445). [DEDUCED: log entry 39] -/
def adderPieces (op dst len : Nat) : List (Nat × Nat) :=
  if adderReturns op then [(0, len)]
  else
    let rec go (fuel off : Nat) : List (Nat × Nat) :=
      match fuel with
      | 0 => []
      | f + 1 => if off ≥ len then [] else
          let n := min (len - off) (256 - (dst + off) % 256)
          (off, n) :: go f (off + n)
    go (len / 256 + 2) 0

/-- Does an ADDER's operand break R96, R97 or R193? -/
def adderBad (op dst len : Nat) : Bool :=
  op ≥ 0x12 || (adderPieces op dst len).any (fun p =>
    !(adderOk op ((dst + p.1) % 256) (List.replicate p.2 0#8)))

/-- Is a descriptor MALFORMED by the rules that do not depend on a table's ELEM (R190, R192, R193, R445)? [DEDUCED: log entry 68] -/
def descMalformed (page : Nat) (d : Desc) : Bool :=
  let k := pumpKind page
  let moves := d.op != 0 && d.op != 6
  let pack := d.op == 4 || d.op == 5
  d.rsv || d.op > 6 || d.cls == 3 || d.func > 64 || d.arg ≥ 2 ^ 21 || (!pack && d.comp != 0) || (!pack && d.first != 0)
    || (d.op != 2 && d.pattern != 0) || (pack && (d.comp ≥ 2 ^ 19 || d.mode == 0 || d.mode == 3))
    || (!d.cplHost && d.cplAddr ≥ 2 ^ 48) || !(groupTakes k d.op)
    || (moves && (d.sspace > 4 || d.dspace > 4 || d.len == 0 || !(groupDst k d.dspace) || addrReserved d.sspace d.src
        || addrReserved d.dspace d.dst || (d.op != 2 && !(groupSrc k d.sspace))
        || (d.sspace == 3 && d.dspace == 3)))
    || (d.op == 2 && d.len % 8 != 0)
    || (d.op == 4 && d.mode == 2 && d.first != 0)
    || (d.op == 3 && (adderBad d.addOp d.dst d.len || d.sspace == 3
        || !(d.dspace == 0 || (k == 3 && d.dspace == 3))))

/-- How a descriptor ends (R194). -/
structure DEnd where
  status : Nat
  flags : Nat := 0
  gen : Nat := 0
  out : Nat := 0
  fault : Nat := 0
  /-- DETAIL of its fault record: the reply status TIMEOUT of R446, otherwise 0. -/
  detail : Nat := 0
  deriving DecidableEq, Repr

/-- The pump, queue and bytes of a descriptor being run. -/
structure DCtx where
  page : Nat
  pump : Nat
  queue : Option Nat
  bytes : List Byte
  d : Desc
  /-- Its chain, and how many of the chain's descriptors ended OK before it. -/
  chainId : Nat := 0
  okBefore : Nat := 0
  deriving DecidableEq, Repr

/-! ## Ending a descriptor -/

/-- A PF queue's state. -/
def State.pq (s : State) (page q : Nat) : PmpQueue := SMap.get s.pmp.queues {} (page * 4 + q)
/-- Set a PF queue's state. -/
def State.setPq (s : State) (page q : Nat) (x : PmpQueue) : State :=
  { s with pmp := { s.pmp with queues := SMap.set s.pmp.queues {} (page * 4 + q) x } }

/-- A completion record's 32 bytes (R194). -/
def cplRecord (d : Desc) (e : DEnd) (done : Nat) : List Byte :=
  leBytes 8 d.cookie ++ leBytes 1 e.status ++ leBytes 1 (e.flags % 64) ++ leBytes 2 done ++ leBytes 2 (e.gen % 4096)
    ++ [0#8, 0#8] ++ leBytes 8 e.out ++ leBytes 8 e.fault

/-- The function a descriptor's faults and host accesses belong to: a reserved FUNC's go to the PF (R198). -/
def Desc.owner (d : Desc) : Nat := if d.func ≤ 64 then d.func else 0

/-- A descriptor ends (R194, R197, R198): its chain's counts, the page's causes, its completion record, its fault record
and its interrupt, in that order. -/
def State.endDesc (s : State) (c : DCtx) (e : DEnd) : State :=
  let pg := pgPmp c.page
  let d := c.d
  let done := c.okBefore + b2n (e.status == 0)
  let s1 := match c.queue with
    | some q =>
      let x := s.pq c.page q
      if x.chainId = c.chainId then s.setPq c.page q { x with ok := done, failed := x.failed || e.status != 0 } else s
    | none => s
  let failed := e.status != 0 && e.status != 9
  let s2 := if failed then (s1.raise pg 0).event pg else s1
  let s3 := if e.status = 4 || bitOf e.flags 5 then s2.raise pg 3 else s2
  let s4 := if e.status = 7 then s3.raise pg 4 else s3
  let s5 :=
    if d.cplAddr ≠ 0 ∧ (d.cpl || e.status != 0) then
      let r := cplRecord d e done
      if d.cplHost then s4.emit (.hostWrite d.owner (BitVec.ofNat 64 d.cplAddr) r)
      else
        match s4.writeDva (pumpQuad c.page) d.func d.cplAddr (piecesOf d.cplAddr r) with
        | (.done, t) => t
        | (.addr _, _) => s4.fault d.owner 3 1 pg 0 d.cplAddr d.cookie
        | (.space _, t) => (t.raise (pgTir (pumpQuad c.page)) 1).fault d.owner 3 2 pg 0 d.cplAddr d.cookie
    else s4
  let s6 := if failed then s5.fault d.owner 3 e.status pg e.detail e.fault d.cookie else s5
  if d.irq then s6.irq 0 (4 + c.page) else s6

/-! ## Tile stores -/

/-- Read `n` bytes of an engine's tile store from byte `a`, wrapping at 4 MiB, in pieces of one 64-bit word (R192, R218). -/
def State.storeRead (s : State) (e a n : Nat) : List Piece :=
  let rec go (fuel a n : Nat) : List Piece :=
    match fuel with
    | 0 => []
    | f + 1 =>
      if n = 0 then []
      else
        let o := a % 2 ^ 22
        let k := min n (8 - o % 8)
        (SMap.getList s.pmp.store 0#8 (e * 2 ^ 22 + o) k, SMap.get s.pmp.storeBad false (e * 2 ^ 19 + o / 8)) :: go f (o + k) (n - k)
  go (n / 8 + 2) a n

/-- Write pieces to an engine's tile store from byte `a`, wrapping at 4 MiB; poisoned ones leave their words uncorrectable
(R195). -/
def State.storeWrite (s : State) (e : Nat) : Nat → List Piece → State
  | _, [] => s
  | a, (bs, x) :: ps =>
    let step := fun (acc : Nat × State) (b : Byte) =>
      let o := acc.1 % 2 ^ 22
      (acc.1 + 1, { acc.2 with pmp := { acc.2.pmp with store := SMap.set acc.2.pmp.store 0#8 (e * 2 ^ 22 + o) b } })
    let s1 := (bs.foldl step (a, s)).2
    let ws := (List.range (bs.length / 8 + 2)).filter (fun i => decide (a / 8 * 8 + 8 * i < a + bs.length))
    let s2 := ws.foldl (fun s i =>
      let w := (a / 8 + i) % 2 ^ 19
      let full := decide (a ≤ 8 * (a / 8 + i) ∧ 8 * (a / 8 + i) + 8 ≤ a + bs.length)
      let bad := x || (!full && SMap.get s.pmp.storeBad false (e * 2 ^ 19 + w))
      { s with pmp := { s.pmp with storeBad := SMap.set s.pmp.storeBad false (e * 2 ^ 19 + w) bad } }) s1
    State.storeWrite s2 e (a + bs.length) ps

/-! ## Latches -/

/-- An engine. -/
def State.eng (s : State) (e : Nat) : Eng := SMap.get s.engs {} e
/-- Set an engine. -/
def State.setEng (s : State) (e : Nat) (x : Eng) : State := { s with engs := SMap.set s.engs {} e x }

/-- The latch buffer the next fill takes (R224): the current one when it is empty, else the other when it is. -/
def Eng.freeLatch (x : Eng) : Option Nat :=
  if (x.latch.getD x.cur none).isNone then some x.cur
  else if (x.latch.getD (1 - x.cur) none).isNone then some (1 - x.cur) else none

/-- Fill a latch buffer. -/
def Eng.fill (x : Eng) (b : Nat) (t : LatchTile) : Eng := { x with latch := x.latch.set b (some t) }

/-! ## Spaces -/

/-- The bytes of pieces. -/
def bytesOf (ps : List Piece) : List Byte := ps.flatMap (fun (p : Piece) => p.1)
/-- Does any piece carry poison? -/
def poisonIn (ps : List Piece) : Bool := ps.any (fun (p : Piece) => p.2)
/-- The offset of the first poisoned piece. -/
def firstPoison (ps : List Piece) : Nat :=
  ((ps.takeWhile (fun (p : Piece) => !p.2)).map (fun (p : Piece) => p.1.length)).sum

/-- The result of reading or writing a descriptor's range: done, or a status and the first address not completed. -/
abbrev SpaceEnd := Option (Nat × Nat)

/-- Read `n` bytes at an address of a space (R192); `host` holds what a host read brought, none when it failed (R397). -/
def State.spaceRead (s : State) (c : DCtx) (sp a n : Nat) (host : Option (List Byte)) : List Piece × SpaceEnd × State :=
  match sp with
  | 0 =>
    let r := s.readDva (pumpQuad c.page) c.d.func (dvaSpans a n)
    match r.2.1 with
    | .done => (r.1, none, r.2.2)
    | .addr x => (r.1, some (1, x), r.2.2)
    | .space x => (r.1, some (2, x), r.2.2)
  | 1 =>
    match host with
    | some bs => ([(slice bs 0 n, false)], none, s)
    | none => ([], some (7, a), s)
  | _ => (s.storeRead (bitsOf a 26 22) (a % 2 ^ 22) n, none, s)

/-- Send pieces to host memory as posted writes; poisoned bytes go as zeros with the Poisoned bit set (R195). -/
def State.hostSend (s : State) (fn : Nat) : Nat → List Piece → State
  | _, [] => s
  | a, (bs, x) :: ps =>
    State.hostSend (s.emit (if x then .hostPoison fn (BitVec.ofNat 64 a) bs.length else .hostWrite fn (BitVec.ofNat 64 a) bs)) fn
      (a + bs.length) ps

/-- Join neighbouring pieces of one mark. -/
def joinPieces : List Piece → List Piece
  | [] => []
  | [p] => [p]
  | (a, x) :: ps =>
    match joinPieces ps with
    | (b, y) :: qs => if x == y then (a ++ b, x) :: qs else (a, x) :: (b, y) :: qs
    | [] => [(a, x)]

/-- Count bytes a pump has written. -/
def State.countBytes (s : State) (c : DCtx) (n : Nat) : State :=
  s.bump64B (pgPmp c.page) c.pump F.pmp_BYTES_LO_COUNT F.pmp_BYTES_HI_COUNT n

/-- Write pieces at an address of a space (R192, R195). A DVA write that meets a fault leaves the bytes before it
written. -/
def State.spaceWrite (s : State) (c : DCtx) (sp a : Nat) (ps : List Piece) : SpaceEnd × State :=
  let n := (bytesOf ps).length
  match sp with
  | 0 =>
    match s.writeDva (pumpQuad c.page) c.d.func a (recutFor a ps) with
    | (.done, t) => (none, t.countBytes c n)
    | (.addr x, t) => (some (1, x), t.countBytes c (x - a))
    | (.space x, t) => (some (2, x), (t.raise (pgTir (pumpQuad c.page)) 1).countBytes c (x - a))
  | 1 => (none, (s.hostSend c.d.owner a (joinPieces ps)).countBytes c n)
  | 2 => (none, (s.storeWrite (bitsOf a 26 22) (a % 2 ^ 22) ps).countBytes c n)
  | _ =>
    let e := bitsOf a 26 22
    let x := s.eng e
    match x.freeLatch with
    | some b => (none, (s.setEng e (x.fill b { data := bytesOf ps, poison := poisonIn ps })).countBytes c n)
    | none => (none, s)

/-- Does a descriptor wait for a free latch buffer (R192, R224)? -/
def State.latchBusy (s : State) (d : Desc) : Bool :=
  d.dspace == 4 && (s.eng (bitsOf d.dst 26 22)).freeLatch.isNone

/-! ## COPY, FILL and ADDER -/

/-- COPY (R193, R195): poison goes on to the destination, and the descriptor ends POISON. -/
def State.copyDesc (s : State) (c : DCtx) (host : Option (List Byte)) : DEnd × State :=
  let d := c.d
  let r := s.spaceRead c d.sspace d.src d.len host
  let w := r.2.2.spaceWrite c d.dspace d.dst r.1
  let n := (bytesOf r.1).length
  match w.1, r.2.1 with
  | some (st, a), _ => ({ status := st, fault := a, out := a - d.dst }, w.2)
  | none, some (st, a) => ({ status := st, fault := a, out := n }, w.2)
  | none, none =>
    if poisonIn r.1 then ({ status := 4, flags := 32, out := n, fault := d.src + firstPoison r.1 }, w.2)
    else ({ status := 0, out := n }, w.2)

/-- FILL (R193). -/
def State.fillDesc (s : State) (c : DCtx) : DEnd × State :=
  let d := c.d
  let bs := (List.replicate (d.len / 8) (leBytes 8 d.pattern)).flatten
  let w := s.spaceWrite c d.dspace d.dst [(bs, false)]
  match w.1 with
  | some (st, a) => ({ status := st, fault := a, out := a - d.dst }, w.2)
  | none => ({ status := 0, out := d.len }, w.2)

/-- One adder operation at a DVA of a function (R96 to R99): the old bytes, the poison mark, how the access ended. The
adders act on the tile's authoritative copy, column by column. -/
def State.adderAt (s : State) (q fn op a : Nat) (data : List Byte) : List Byte × Bool × AccEnd × State :=
  let cas := op = 0x0E || op = 0x0F
  let x := if cas then data.take (adderSize op) else data
  let y := if cas then data.drop (adderSize op) else []
  (spans 10 a x.length).foldl (fun (acc : List Byte × Bool × AccEnd × State) sp =>
    if acc.2.2.1 ≠ .done || acc.2.1 then acc
    else
      let s := acc.2.2.2
      let o := sp.1 / 2 ^ 32
      let t := sp.1 / 65536 % 65536
      if s.addrFault fn sp.1 true then (acc.1, false, .addr sp.1, s)
      else
        let r := s.readPiece fn o t (sp.1 % 65536) sp.2
        if r.1.2 then (acc.1, true, .done, r.2)
        else
          let new := adderElems op r.1.1 (slice x (sp.1 - a) sp.2) y
          let w := r.2.writeAt q fn sp.1 (new, false)
          (acc.1 ++ r.1.1, false, w.1, w.2)) ([], false, .done, s)

/-- Count an adder operation in ADD_OPS of the stack that holds a DVA's column (R96). -/
def State.countAdd (s : State) (fn a : Nat) : State :=
  let o := a / 2 ^ 32
  let r := s.tileAt (tileIx fn o (a / 65536 % 65536))
  match r.well, r.stack with
  | none, some loc =>
    match s.tileCol (s.obj fn o).ver loc (a % 65536) with
    | (some k, s1) => s1.bump (pgCis (placeOfKey k).st) F.cis_ADD_OPS_COUNT 1
    | (none, s1) => s1
  | _, _ => s

/-- ADDER to a DVA (R193, R195): the operand at SRC is applied piece by piece; poison stops it. -/
def State.adderDesc (s : State) (c : DCtx) (host : Option (List Byte)) : DEnd × State :=
  let d := c.d
  let r := s.spaceRead c d.sspace d.src d.len host
  match r.2.1 with
  | some (st, a) => ({ status := st, fault := a }, r.2.2)
  | none =>
    if poisonIn r.1 then ({ status := 4, flags := 32, fault := d.src + firstPoison r.1 }, r.2.2)
    else
      let data := bytesOf r.1
      let z := (adderPieces d.addOp d.dst d.len).foldl (fun (acc : Option DEnd × List Byte × State) p =>
        if acc.1.isSome then acc
        else
          let a := d.dst + p.1
          let w := acc.2.2.adderAt (pumpQuad c.page) d.func d.addOp a (slice data p.1 p.2)
          match w.2.2.1 with
          | .addr x => (some { status := 1, fault := x }, acc.2.1, w.2.2.2)
          | .space x => (some { status := 2, fault := x }, acc.2.1, w.2.2.2.raise (pgTir (pumpQuad c.page)) 1)
          | .done =>
            if w.2.1 then (some { status := 4, flags := 32, fault := a + w.1.length }, acc.2.1, w.2.2.2)
            else (none, w.1, (w.2.2.2.countAdd d.func a).countBytes c w.1.length)) (none, [], r.2.2)
      match z.1 with
      | some e => (e, z.2.2)
      | none => ({ status := 0, out := if adderReturns d.addOp then leNat z.2.1 else d.len }, z.2.2)

/-! ## Decoding tables -/

/-- A table slot. -/
def State.tbl (s : State) (i : Nat) : TblSlot := SMap.get s.pmp.slots {} i
/-- Set a table slot. -/
def State.setTbl (s : State) (i : Nat) (x : TblSlot) : State :=
  { s with pmp := { s.pmp with slots := SMap.set s.pmp.slots {} i x } }

/-- The next generation number: 1 to 4,095, then 1 (R207). -/
def nextGen (n : Nat) : Nat := if n ≥ 4095 then 1 else n + 1

/-- New contents become current; the old current generation retires, or is freed when it holds no reference (R207). -/
def TblSlot.promote (x : TblSlot) (data : List Byte) : TblSlot :=
  { x with cur := ⟨nextGen x.cur.num, data, 0⟩, ret := if x.cur.num = 0 || x.cur.refs = 0 then {} else x.cur
           held := none, heldBy := 0 }

/-- A write of a table slot (R207) by descriptor `by'` (0: a commit). Answers the generation that became current, 0 when
the write is held; a held write it replaces leaves its descriptor stale (R209). -/
def State.tableWrite (s : State) (i : Nat) (data : List Byte) (by' : Nat) : Nat × State :=
  let x := s.tbl i
  if x.ret.num = 0 then
    let y := x.promote data
    (y.cur.num, s.setTbl i y)
  else
    let fl := s.pmp.flying.map (fun f => if x.held.isSome && f.id == x.heldBy && x.heldBy != 0 then { f with stale := true, waits := none } else f)
    let s1 := { s with pmp := { s.pmp with flying := fl } }.setTbl i { x with held := some data, heldBy := by' }
    (0, s1.raise (⟨.cmp, 0⟩) 0)

/-- The 48 bytes of a present generation. -/
def State.tblData (s : State) (i gen : Nat) : List Byte :=
  let x := s.tbl i
  if x.cur.num = gen then x.cur.data else x.ret.data

/-- Add or drop a reference on a generation (R199, R213). -/
def State.tblRef (s : State) (i gen : Nat) (take : Bool) : State :=
  let x := s.tbl i
  let f := fun (g : TblGen) => if g.num = gen && gen != 0 then { g with refs := if take then g.refs + 1 else g.refs - 1 } else g
  s.setTbl i { x with cur := f x.cur, ret := f x.ret }

/-- Add or drop a transient pin on an object key (R169, R199). -/
def State.pinObj (s : State) (k : Nat) (take : Bool) : State :=
  let o := SMap.get s.mem.objs {} k
  let o' : Obj := { o with transient := if take then o.transient + 1 else o.transient - 1 }
  { s with mem := { s.mem with objs := SMap.set s.mem.objs {} k o' } }

/-! ## COMPRESS -/

/-- The second pass of a COMPRESS over source bytes `data` and scale plane `plane` (R210). -/
def State.packDesc (s : State) (c : DCtx) (data plane tbl : List Byte) (gen : Nat) : DEnd × State :=
  let d := c.d
  let elem := tblElem tbl
  let blocks := (splitBlocks elem data plane).map (fun b => encodeBlock tbl (codeCap elem d.slotBytes) b.1 b.2)
  let drops := (blocks.filter (fun b => b.2)).length
  let bs := blocks.map (fun b => b.1)
  let lay := if d.mode = 1 then (layFixed d.slotBytes bs, bs.length * d.slotBytes) else layPacked bs
  let at' := if d.mode = 1 then d.dst + d.first * d.slotBytes else d.dst
  let w := (s.bumpB (pgPmp c.page) c.pump F.pmp_DROPPED_COUNT drops).spaceWrite c d.dspace at' [(lay.1, false)]
  let fl := if drops = 0 then 0 else 16
  match w.1 with
  | some (st, a) => ({ status := st, flags := fl, gen := gen, out := a - at', fault := a }, w.2)
  | none => ({ status := 0, flags := fl, gen := gen, out := lay.2 }, w.2)

/-- The conditions of R193 that depend on the table's ELEM (R200, R208). -/
def elemBad (elem : Nat) (d : Desc) : Bool := d.len % blockData elem != 0 || !(slotBytesOk elem d.slotBytes)

/-- A descriptor names a generation that is not present (R208): TBL_STALE, and the cause of the quadrant's CMP page. -/
def State.staleEnd (s : State) (c : DCtx) : DEnd × State := ({ status := 5 }, s.raise (pgCmp (pumpQuad c.page)) 1)

/-- COMPRESS (R208 to R210): its end, or none while its table write is held; then it waits in flight under number `id`
with its source bytes. -/
def State.compressDesc (s : State) (c : DCtx) (host : Option (List Byte)) (id : Nat) : Option DEnd × List Byte × State :=
  let d := c.d
  let x := s.tbl d.slot
  let fin := fun (r : DEnd × State) => ((some r.1, [], r.2) : Option DEnd × List Byte × State)
  if d.build && x.cur.num = 0 then fin ({ status := 3 }, s)
  else if !d.build && !(s.genPresent d.slot d.gen) then fin (s.staleEnd c)
  else
    let tbl := if d.build then x.cur.data else s.tblData d.slot d.gen
    let elem := tblElem tbl
    if elemBad elem d then fin ({ status := 3 }, s)
    else
      let n := d.len + (if elem = 3 then d.len / 16 else 0)
      let r := s.spaceRead c d.sspace d.src n host
      match r.2.1 with
      | some (st, a) => fin ({ status := st, fault := a }, r.2.2)
      | none =>
        if poisonIn r.1 then fin ({ status := 4, flags := 32, fault := d.src + firstPoison r.1 }, r.2.2)
        else
          let bs := bytesOf r.1
          if d.build then
            let t := firstPass elem ((splitBlocks elem (bs.take d.len) []).flatMap (fun b => blockElems elem b.1))
            let w := r.2.2.tableWrite d.slot t id
            if w.1 = 0 then (none, bs, w.2)
            else fin (w.2.packDesc c (bs.take d.len) (bs.drop d.len) t w.1)
          else fin (r.2.2.packDesc c (bs.take d.len) (bs.drop d.len) tbl d.gen)

/-! ## EXPAND -/

/-- Count a flagged block (R214): the pump's MISMATCH, its page's cause, and the quadrant's TEN_MISMATCH of the function. -/
def State.countFlags (s : State) (page pump fn : Nat) (f : BlkFlags) : State :=
  if !f.any then s
  else
    let q := pumpQuad page
    let one := fun (s : State) (b : Bool) (x y : Fld) =>
      if b then (s.bumpB (pgPmp page) pump x 1).bumpB (pgCmp q) fn y 1 else s
    let s1 := one s f.short F.pmp_MISMATCH_SHORT F.cmp_TEN_MISMATCH_SHORT
    let s2 := one s1 f.long F.pmp_MISMATCH_LONG F.cmp_TEN_MISMATCH_LONG
    let s3 := one s2 f.overrun F.pmp_MISMATCH_OVERRUN F.cmp_TEN_MISMATCH_OVERRUN
    let s4 := one s3 f.underrun F.pmp_MISMATCH_UNDERRUN F.cmp_TEN_MISMATCH_UNDERRUN
    ((s4.raise (pgPmp page) 2).raise (pgCmp q) 2).event (pgCmp q)

/-- Is a function strict (R215)? The PF never is. -/
def State.strict (s : State) (fn : Nat) : Bool :=
  1 ≤ fn && fn ≤ 64 && bitOf (s.reg (pgCmp 0) 0 (if fn ≤ 32 then 0x080 else 0x084)).toNat ((fn - 1) % 32)

/-- The flags of a completion record that a block's flags make (R194). -/
def BlkFlags.bits (f : BlkFlags) : Nat := b2n f.short + 2 * b2n f.long + 4 * b2n f.overrun + 8 * b2n f.underrun

/-- One block decoded from an object: the expanded bytes, its scale bytes, its flags, its poison, where it starts and
where the next block of its group starts (R203, R204). -/
structure BlkRead where
  data : List Byte
  scales : List Byte
  codes : Nat
  flags : BlkFlags
  poison : Bool
  start : Nat
  next : Nat
  deriving DecidableEq, Repr

/-- Read and decode the block at byte `st` of an object. `rd` reads bytes of the object. In FIXED mode `e` is none; in
PACKED mode it is the group's end, and `last` says that the block is the last of its group (R203, R204). -/
def readBlock (rd : State → Nat → Nat → List Piece × SpaceEnd × State) (tbl : List Byte) (sb st : Nat) (e : Option Nat)
    (last : Bool) (s : State) : BlkRead × SpaceEnd × State :=
  let elem := tblElem tbl
  let h := blockHdr elem
  match e with
  | none =>
    let r := rd s st sb
    let x := decodeBlock tbl (codeCap elem sb) (bytesOf r.1)
    (⟨x.1, x.2.1, x.2.2.1, x.2.2.2, poisonIn r.1, st, st + sb⟩, r.2.1, r.2.2)
  | some e =>
    let z := zeroBlock elem
    if st + h ≥ e then (⟨z.1, z.2, 0, { overrun := true }, false, st, st⟩, none, s)
    else
      let r := rd s st h
      let bl := blockLen elem (bytesOf r.1)
      let past := decide (st + bl > e)
      let n := if past then e - st else bl
      let r2 := rd r.2.2 (st + h) (n - h)
      let bs := bytesOf r.1 ++ bytesOf r2.1
      let x := decodeBlock tbl (if past then 2 * (e - st - h) else blockNnz bs) bs
      let nx := st + pad4 bl
      (⟨x.1, x.2.1, x.2.2.1, { x.2.2.2 with overrun := past, underrun := last && decide (nx < e) }, poisonIn r.1 || poisonIn r2.1, st, nx⟩,
        (match r.2.1 with | some y => some y | none => r2.2.1), r2.2.2)

/-- Expand `n` blocks from block `b` of an object (R202 to R204), up to a fault or, for a strict function, up to the first
flagged block (R215). `pos` is where the block starts and its group's end, none at a group's first block, in PACKED mode.
The blocks before the target block `first` of the first group are read for their lengths only. Whether a group whose end
the expansion does not reach ends with the last block decoded is open, since no field gives B: a free value decides. [DESIGN CHOICE: log entry 70] -/
def expandBlocks (rd : State → Nat → Nat → List Piece × SpaceEnd × State) (tbl : List Byte) (packed : Bool) (sb first lastB : Nat)
    (strict : Bool) : Nat → Nat → Option (Nat × Nat) → Bool → State → List BlkRead × SpaceEnd × Bool × State
  | 0, _, _, _, s => ([], none, false, s)
  | n + 1, b, pos, wp, s =>
    let g := if packed && pos.isNone then rd s (4 * (b / 64)) 8 else ([], none, s)
    match g.2.1 with
    | some e => ([], some e, false, g.2.2)
    | none =>
      let ws := bytesOf g.1
      let here := if packed then pos.getD (leAt ws 0 4 / 4 * 4, leAt ws 4 4 / 4 * 4) else (b * sb, 0)
      let wp' := if packed && pos.isNone then poisonIn g.1 else wp
      let endG := b % 64 == 63
      let fr := if packed && b == lastB && !endG then g.2.2.draw else (b2n endG, g.2.2)
      let r := readBlock rd tbl sb here.1 (if packed then some here.2 else none) (fr.1 % 2 == 1) fr.2
      match r.2.1 with
      | some e => ([], some e, false, r.2.2)
      | none =>
        let x := { r.1 with poison := r.1.poison || wp' }
        let nx := if packed && !endG then some (x.next, here.2) else none
        if b < first then expandBlocks rd tbl packed sb first lastB strict n (b + 1) nx wp' r.2.2
        else if strict && x.flags.any then ([x], none, true, r.2.2)
        else
          let y := expandBlocks rd tbl packed sb first lastB strict n (b + 1) nx wp' r.2.2
          (x :: y.1, y.2.1, y.2.2.1, y.2.2.2)

/-- EXPAND (R202 to R204, R208, R214, R215, R526). [DESIGN CHOICE: log entry 70] -/
def State.expandDesc (s : State) (c : DCtx) (host : Option (List Byte)) : DEnd × State :=
  let d := c.d
  if !(s.genPresent d.slot d.gen) then s.staleEnd c
  else
    let tbl := s.tblData d.slot d.gen
    let elem := tblElem tbl
    if elemBad elem d then ({ status := 3 }, s)
    else
      let rd := fun (s : State) (o n : Nat) => s.spaceRead c d.sspace (d.src + o) n (host.map (fun bs => slice bs o n))
      let cnt := d.len / blockData elem
      let b0 := if d.mode = 2 then d.first / 64 * 64 else d.first
      let r := expandBlocks rd tbl (d.mode == 2) d.slotBytes d.first (d.first + cnt - 1) (s.strict d.func) (d.first + cnt - b0) b0
        none false s
      let good := if r.2.2.1 then r.1.dropLast else r.1
      let s1 := r.1.foldl (fun s x => s.countFlags c.page c.pump d.func x.flags) r.2.2.2
      let fl := r.1.foldl (fun a x => a ||| x.flags.bits) 0
      let codes := good.map (fun x => ((x.data, x.poison) : Piece))
      let plane := good.map (fun x => ((x.scales, x.poison) : Piece))
      let w := if d.dspace = 4 then s1.spaceWrite c 4 d.dst codes
        else
          let w1 := s1.spaceWrite c d.dspace d.dst codes
          if elem = 3 && w1.1.isNone then w1.2.spaceWrite c d.dspace (d.dst + d.len) plane else w1
      let s2 := if d.dspace = 4 && elem = 3 then
          let e := bitsOf d.dst 26 22
          w.2.setEng e { w.2.eng e with latch := (w.2.eng e).latch.map (fun t => t.map (fun t =>
            if t.plane.isNone && t.src == .pump then { t with plane := some (bytesOf plane) } else t)) }
        else w.2
      let n := (bytesOf codes).length + (if elem = 3 then (bytesOf plane).length else 0)
      let base : DEnd := { status := 0, flags := fl, gen := d.gen, out := n }
      match w.1, r.2.1 with
      | some (st, a), _ => ({ base with status := st, out := a - d.dst, fault := a }, s2)
      | none, some (st, a) => ({ base with status := st, fault := a }, s2)
      | none, none =>
        if r.2.2.1 then ({ base with status := 6, fault := d.dst + (bytesOf codes).length }, s2)
        else match good.find? (fun x => x.poison) with
          | some x => ({ base with status := 4, flags := fl ||| 32, fault := d.src + x.start }, s2)
          | none => (base, s2)

end Sys2Proof.Machine
end

