-- ==== Sys2Proof/Machine/PumpExec.lean ====
section
/-! DEFINITION. The pump commands (R190 to R210) and the decoding-table commands (R205 to R207). -/
namespace Sys2Proof.Machine
open Sys2Proof

/-! ## Fetching a descriptor -/

/-- What a fetch answers. -/
inductive Fetch where
  /-- Nothing can be fetched now. -/
  | wait
  /-- The queue stops: 1 ring address fault, 2 poisoned descriptor (SQ_STATUS). -/
  | stop (reason : Nat)
  /-- A descriptor, whether its chain has failed (R198), and whether it opens a chain. -/
  | desc (c : DCtx) (skip opens : Bool)
  deriving DecidableEq, Repr

/-- Entries of a PF queue's ring (SQ_CFG): SIZE_LOG2 clamped to 4–12. -/
def State.ringSize (s : State) (page q : Nat) : Nat :=
  2 ^ min 12 (max 4 (s.fldB (pgPmp page) q F.pmp_SQ_CFG_SIZE_LOG2))

/-- Chains in flight on a pump (R196, PUMP_STATUS). -/
def State.chainsOn (s : State) (page pump : Nat) : Nat :=
  (s.pmp.flying.filter (fun f => f.page == page && f.pump == pump)).length

/-- Is a descriptor of a queue in flight? -/
def State.queueFlying (s : State) (page q : Nat) : Bool :=
  s.pmp.flying.any (fun f => f.page == page && f.queue == some q)

/-- Fetch the next descriptor of a source (R190, R191, R196): from the queue's ring at HEAD in the PF space, or as handed
over. -/
def State.fetchDesc (s : State) (page : Nat) (src : DescSrc) : Fetch :=
  let pg := pgPmp page
  if !(s.pageLive pg) || !(s.flag pg F.hdr_ENABLE) then .wait
  else match src with
  | .direct pump bs =>
    if decide (pump.val ≥ pumpCount page) || s.pmp.retired.contains (page * 8 + pump.val) || decide (s.chainsOn page pump ≥ 4) then .wait
    else
      let b := slice bs 0 64
      .desc { page := page, pump := pump, queue := none, bytes := b, d := descOf b } false true
  | .queue q =>
    let f := fun (x : Fld) => s.fldB pg q.val x
    let x := s.pq page q.val
    let pump := f F.pmp_SQ_CFG_PUMP % pumpCount page
    let hd := f F.pmp_SQ_HEAD_INDEX
    if f F.pmp_SQ_CFG_ENABLE = 0 ∨ f F.pmp_SQ_STATUS_STOPPED = 1 ∨ hd = f F.pmp_SQ_TAIL_INDEX
      ∨ s.pmp.retired.contains (page * 8 + pump) ∨ (x.chain ∧ s.pmp.flying.any (fun g => g.page == page && g.queue == some q.val && g.chainId == x.chainId))
      ∨ (!x.chain ∧ s.chainsOn page pump ≥ 4) then .wait
    else
      let base := s.pairB pg q.val F.pmp_SQ_BASE_LO_DVA F.pmp_SQ_BASE_HI_DVA / 64 * 64
      let r := s.readDva (pumpQuad page) 0 (dvaSpans (base + 64 * hd) 64)
      if r.2.1 ≠ .done then .stop 1
      else if poisonIn r.1 then .stop 2
      else
        let b := bytesOf r.1
        .desc { page := page, pump := pump, queue := some q.val, bytes := b, d := descOf b
                chainId := if x.chain then x.chainId else s.pmp.nextId, okBefore := if x.chain then x.ok else 0 }
          (x.chain && x.failed) (!x.chain)

/-- A queue stops (SQ_STATUS): cause QUEUE_STOP. -/
def State.stopQueue (s : State) (page q reason : Nat) : State :=
  let pg := pgPmp page
  ((s.setFldB pg q F.pmp_SQ_STATUS_STOPPED 1).setFldB pg q F.pmp_SQ_STATUS_REASON reason).raise pg 1

/-- A fetched descriptor is taken: HEAD advances, and the queue's chain goes on, or opens with this descriptor. [DESIGN CHOICE: log entry 67] -/
def State.takeDesc (s : State) (c : DCtx) (opens : Bool) : State :=
  let s1 := { s with pmp := { s.pmp with nextId := s.pmp.nextId + 1 } }
  match c.queue with
  | none => s1
  | some q =>
    let pg := pgPmp c.page
    let x := s1.pq c.page q
    let hd := s1.fldB pg q F.pmp_SQ_HEAD_INDEX
    (s1.setFldB pg q F.pmp_SQ_HEAD_INDEX ((hd + 1) % s1.ringSize c.page q)).setPq c.page q
      { x with chain := c.d.chain, chainId := c.chainId, failed := if opens then false else x.failed, ok := c.okBefore }

/-- Must a descriptor wait although it could be fetched: for a free latch buffer (R192), or, a FENCE, for the earlier
descriptors of its queue (R196)? -/
def State.descWaits (s : State) (c : DCtx) : Bool :=
  if descMalformed c.page c.d then false
  else if c.d.op = 6 then (match c.queue with | some q => s.queueFlying c.page q | none => false)
  else (c.d.op == 1 || c.d.op == 5) && s.latchBusy c.d

/-- Fetch a descriptor of the wanted operation and run it with `k`: MALFORMED and SKIPPED descriptors end without it
(R190, R193, R198). [DESIGN CHOICE: log entry 8] -/
def State.runPump (s : State) (page : Nat) (src : DescSrc) (want : Nat → Bool) (k : DCtx → State → State) : State :=
  match s.fetchDesc page src with
  | .wait => s
  | .stop r =>
    (match src with
    | .queue q => s.stopQueue page q r
    | .direct _ _ => s)
  | .desc c skip opens =>
    if !(want c.d.op) || (!skip && s.descWaits c) then s
    else
      let s1 := s.takeDesc c opens
      if skip then s1.endDesc c { status := 9 }
      else if descMalformed page c.d then s1.endDesc c { status := 3 }
      else k c s1

/-- End a descriptor with what its operation answers. -/
def State.endWith (c : DCtx) (r : DEnd × State) : State := r.2.endDesc c r.1

/-- A pump that reads host memory sends the read (R397). -/
def State.askHost (s : State) (c : DCtx) (n : Nat) : State :=
  if c.d.sspace = 1 then s.emit (.hostRead c.d.owner (BitVec.ofNat 64 c.d.src) n) else s

/-! ## Peer memory -/

/-- The objects a descriptor names: of its DVA ranges in its function's space (R199). -/
def Desc.objects (d : Desc) : List Nat :=
  (if d.sspace = 0 then [objIx d.func (d.src / 2 ^ 32 % 65536)] else [])
    ++ (if d.dspace = 0 then [objIx d.func (d.dst / 2 ^ 32 % 65536)] else [])

/-- The virtual lane of a request (R437). -/
def Desc.lane (d : Desc) : Nat := if d.cls = 0 then 0 else if d.cls = 1 then 2 else 6

/-- Cut `n` bytes into parts of at most `k`: offset and length. [DESIGN CHOICE: log entry 67] -/
def parts (k n : Nat) : List (Nat × Nat) :=
  (List.range (ceilDiv n k)).map (fun i => (k * i, min k (n - k * i)))

/-- A payload of whole 32-byte units: what fills the last unit is open. [DESIGN CHOICE: log entry 69] -/
def State.padUnits (s : State) (bs : List Byte) : List Byte × State :=
  let n := (32 - bs.length % 32) % 32
  let r := s.drawBytes n
  (bs ++ r.1, r.2)

/-- The request frame of one piece of a descriptor (R445): its type, piece and payload. -/
def State.peerFrame (s : State) (d : Desc) (data : List Byte) (p : Nat × Nat) : Frm × State :=
  let pa := if d.sspace = 3 then d.src else d.dst
  let base : Frm := { typ := 0, vl := d.lane, last := true, dst := bitsOf pa 59 48, func := d.func, addr := pa % 2 ^ 48 + p.1 }
  if d.sspace = 3 then ({ base with typ := 2, arg := p.2 }, s)
  else if d.op = 1 then
    let r := s.padUnits (slice data p.1 p.2)
    ({ base with typ := 1, payload := r.1 }, r.2)
  else if adderReturns d.addOp then
    let n := adderSize d.addOp
    let cas := d.addOp = 0x0E || d.addOp = 0x0F
    let new := leBytes 8 (leAt data (if cas then n else 0) n)
    let cmp := leBytes 8 (if cas then leAt data 0 n else 0)
    ({ base with typ := 4, op := d.addOp, payload := new ++ cmp ++ List.replicate 16 0#8 }, s)
  else
    let r := s.padUnits (slice data p.1 p.2)
    ({ base with typ := 3, op := d.addOp, payload := r.1 }, r.2)

/-- The least transaction identifier from `n` on that no outstanding request uses. [DEDUCED: log entry 106] -/
def freeTid (used : List Nat) : Nat → Nat → Nat
  | 0, n => n % 65536
  | f + 1, n => if used.contains (n % 65536) then freeTid used f (n + 1) else n % 65536

/-- Put a descriptor in flight. -/
def State.putFlying (s : State) (f : Flying) : State :=
  { s with pmp := { s.pmp with flying := s.pmp.flying.filter (fun g => g.id != f.id) ++ [f] } }

/-- The context of a descriptor in flight. -/
def Flying.ctx (f : Flying) : DCtx :=
  { page := f.page, pump := f.pump, queue := f.queue, bytes := f.desc, d := descOf f.desc, chainId := f.chainId, okBefore := f.okBefore }

/-- Send one request of a descriptor in flight; one that no route takes is answered UNREACHABLE at once (R443, R446). -/
def State.sendRequest (s : State) (f : Flying) (data : List Byte) (p : Nat × Nat) : Flying × State :=
  let d := descOf f.desc
  let r := s.peerFrame d data p
  let used := (s.pmp.flying.flatMap (fun g => g.reqs.map PeerReq.tid)) ++ f.reqs.map PeerReq.tid
  let tid := freeTid used 65536 s.pmp.nextTid
  let o := r.2.originate { r.1 with tid := tid }
  let s1 := { o.2 with pmp := { o.2.pmp with nextTid := (tid + 1) % 65536 } }
  if o.1 then
    let note := fun (x : Round) => if x.num = f.round ∧ !(x.peers.contains r.1.dst) then { x with peers := x.peers ++ [r.1.dst] } else x
    ({ f with reqs := f.reqs ++ [⟨tid, r.1.dst, r.1.typ, r.1.addr, p.2, p.1⟩] },
      { s1 with ses := { s1.ses with rounds := s1.ses.rounds.map note } })
  else
    ({ f with bad := match f.bad with
      | some b => some b
      | none => some (8, 5, bitsOf (if d.sspace = 3 then d.src else d.dst) 59 48 * 2 ^ 48 + r.1.addr) }, s1)

/-- A descriptor in flight ends: its pins and its table reference go, and it leaves the list (R199). -/
def State.endFlying (s : State) (f : Flying) (e : DEnd) : State :=
  let s1 := { s with pmp := { s.pmp with flying := s.pmp.flying.filter (fun g => g.id != f.id) } }
  let s2 := f.pins.foldl (fun s k => s.pinObj k false) s1
  let s3 := match f.table with
    | some (i, g) => s2.tblRef i g false
    | none => s2
  s3.endDesc f.ctx e

/-- When every request of a descriptor in flight has its reply, the descriptor ends (R446); otherwise it stays. [DESIGN CHOICE: log entry 69] -/
def State.settleFlying (s : State) (f : Flying) : State :=
  if !f.reqs.isEmpty then s.putFlying f
  else
    let d := descOf f.desc
    let s := if f.round ≠ 0 ∧ (f.bad.isSome ∨ f.poison) then { s with pmp := { s.pmp with lostRounds := s.pmp.lostRounds ++ [f.round] } } else s
    match f.bad with
    | some (st, reply, a) => s.endFlying f { status := st, fault := a, detail := if reply = 6 then 6 else 0 }
    | none =>
      if f.poison then s.endFlying f { status := 4, flags := 32, fault := f.old, out := d.len }
      else s.endFlying f { status := 0, out := if d.op = 3 ∧ adderReturns d.addOp then f.old else d.len }

/-- Run a COPY or ADDER whose source or destination is peer memory (R445): its data is read, its requests are sent, and the
descriptor waits in flight for the replies. Poisoned source bytes of a COPY go as zeros (R195). [DESIGN CHOICE: log entry 69] -/
def State.startPeer (s : State) (c : DCtx) : State :=
  let d := c.d
  let r := if d.sspace = 3 then ([], none, s) else s.spaceRead c d.sspace d.src d.len none
  match r.2.1 with
  | some (st, a) => r.2.2.endDesc c { status := st, fault := a }
  | none =>
    if d.op = 3 && poisonIn r.1 then r.2.2.endDesc c { status := 4, flags := 32, fault := d.src + firstPoison r.1 }
    else
      let data := bytesOf (r.1.map (fun (p : Piece) => ((if p.2 then List.replicate p.1.length 0#8 else p.1), p.2)))
      let s0 := r.2.2
      let f0 : Flying := { id := s0.pmp.nextId, page := c.page, pump := c.pump, queue := c.queue, desc := c.bytes
                           chainId := c.chainId, okBefore := c.okBefore, pins := d.objects, poison := poisonIn r.1
                           old := if poisonIn r.1 then d.src + firstPoison r.1 else 0
                           round := if d.cls = 0 then ((s0.ses.rounds.find? (fun x => x.holds)).map (fun x => x.num)).getD 0 else 0 }
      let s1 := d.objects.foldl (fun s k => s.pinObj k true) { s0 with pmp := { s0.pmp with nextId := s0.pmp.nextId + 1 } }
      let ps := if d.op = 1 then parts 512 d.len else adderPieces d.addOp d.dst d.len
      let z := ps.foldl (fun (acc : Flying × State) p => acc.2.sendRequest acc.1 data p) (f0, s1)
      z.2.settleFlying z.1

/-! ## The commands -/

/-- PUMP_NOP (R193): moves no data and ends. A descriptor of a reserved operation ends MALFORMED here. [DESIGN CHOICE: log entry 67] -/
def execPumpNop (page : Fin 10) (src : DescSrc) (s : State) : Out :=
  .next (s.runPump page src (fun op => op == 0 || op ≥ 7) (fun c s => s.endDesc c { status := 0 }))

/-- PUMP_COPY (R193, R195): `host` is what host memory answers a read, none for an error completion. -/
def State.pumpCopy (s : State) (page : Fin 10) (src : DescSrc) (host : Option (List Byte)) : State :=
  s.runPump page src (· == 1) (fun c s =>
    if c.d.sspace = 3 || c.d.dspace = 3 then s.startPeer c
    else State.endWith c ((s.askHost c c.d.len).copyDesc c host))

/-- PUMP_FILL (R193). -/
def execPumpFill (page : Fin 10) (src : DescSrc) (s : State) : Out :=
  .next (s.runPump page src (· == 2) (fun c s => State.endWith c (s.fillDesc c)))

/-- PUMP_ADDER (R193, R445): each piece is one adder operation, at home or at a peer. -/
def State.pumpAdder (s : State) (page : Fin 10) (src : DescSrc) (host : Option (List Byte)) : State :=
  s.runPump page src (· == 3) (fun c s =>
    if c.d.dspace = 3 then s.startPeer c
    else State.endWith c ((s.askHost c c.d.len).adderDesc c host))

/-- A COMPRESS descriptor (R209): its end, or its wait in flight for the table write it made. -/
def State.compressRun (s : State) (c : DCtx) (host : Option (List Byte)) : State :=
  let id := s.pmp.nextId
  let r := (s.askHost c c.d.len).compressDesc c host id
  match r.1 with
  | some e => r.2.2.endDesc c e
  | none =>
    let s1 := c.d.objects.foldl (fun s k => s.pinObj k true) { r.2.2 with pmp := { r.2.2.pmp with nextId := id + 1 } }
    s1.putFlying { id := id, page := c.page, pump := c.pump, queue := c.queue, desc := c.bytes, chainId := c.chainId
                   okBefore := c.okBefore, pins := c.d.objects, waits := some c.d.slot, data := r.2.1 }

/-- PUMP_COMPRESS (R209, R210): with BUILD = 1 a first pass writes the table; while that write is held the descriptor
waits in flight. -/
def execPumpCompress (page : Fin 10) (src : DescSrc) (host : Option (List Byte)) (s : State) : Out :=
  .next (s.runPump page src (· == 4) (fun c s => s.compressRun c host))

/-- COMPRESS_SECOND_PASS (R209): the waiting COMPRESS `id` whose held contents have become current runs its second pass;
one whose held contents were replaced completes TBL_STALE with GEN 0. -/
def execCompressSecondPass (id : Nat) (s : State) : Out := s.gate fun s =>
  match s.pmp.flying.find? (fun f => f.id == id) with
  | none => .next s
  | some f =>
    if f.stale then .next (s.endFlying f { status := 5 })
    else match f.table with
      | some (slot, gen) =>
        if f.waits.isSome then .next s
        else
          let d := descOf f.desc
          let r := s.packDesc f.ctx (f.data.take d.len) (f.data.drop d.len) (s.tblData slot gen) gen
          .next (r.2.endFlying f r.1)
      | none => .next s

/-- PUMP_EXPAND (R202 to R204). -/
def execPumpExpand (page : Fin 10) (src : DescSrc) (host : Option (List Byte)) (s : State) : Out :=
  .next (s.runPump page src (· == 5) (fun c s => State.endWith c ((s.askHost c c.d.len).expandDesc c host)))

/-- PUMP_FENCE (R196): starts once every earlier descriptor of its queue has ended. -/
def execPumpFence (page : Fin 10) (src : DescSrc) (s : State) : Out :=
  .next (s.runPump page src (· == 6) (fun c s => s.endDesc c { status := 0 }))

/-- PUMP_SQ_DOORBELL: a write of SQ_TAIL of the selected queue; an index at or beyond the ring size is ignored as a bad
access. -/
def execPumpSqDoorbell (page : Fin 10) (value : W32) (s : State) : Out :=
  let pg := pgPmp page
  .next (s.regWrite pg 0x050 (fun s =>
    let q := s.fld pg F.pmp_SQ_SEL_QUEUE
    let ix := value.toNat % 4096
    if ix ≥ s.ringSize page q then s.badAccess pg 0x050 true else s.setFldB pg q F.pmp_SQ_TAIL_INDEX ix))

/-- PUMP_QUEUE_RESUME: a write of SQ_STATUS; 1 to STOPPED clears it, and fetching resumes at HEAD. -/
def execPumpQueueResume (page : Fin 10) (value : W32) (s : State) : Out :=
  let pg := pgPmp page
  .next (s.regWrite pg 0x058 (fun s =>
    let q := s.fld pg F.pmp_SQ_SEL_QUEUE
    if bitOf value.toNat 0 then (s.setFldB pg q F.pmp_SQ_STATUS_STOPPED 0).setFldB pg q F.pmp_SQ_STATUS_REASON 0 else s))

/-- The staged contents TBL_DATA0–11 (R206). -/
def State.tblStaged (s : State) : List Byte :=
  (List.range 12).flatMap (fun k => leBytes 4 (s.reg (pgCmp 0) 0 (0x044 + 4 * k)).toNat)

/-- TABLE_COMMIT (R206, R207): a write of TBL_CMD; 1 to COMMIT writes the staged contents to the selected slot. -/
def execTableCommit (value : W32) (s : State) : Out :=
  .next (s.regWrite (pgCmp 0) 0x074 (fun s =>
    if !(bitOf value.toNat 0) then s
    else if leAt s.tblStaged 0 1 ≥ 5 then s.raise (pgCmp 0) 3
    else (s.tableWrite (s.fld (pgCmp 0) F.cmp_TBL_SEL_SLOT) s.tblStaged 0).2))

/-- TABLE_GENERATION_DRAIN (R207): the references of a slot's retiring generation have drained; it is freed, and a held
write becomes current. The descriptor that made the write may then run its second pass, with a reference on it (R199). -/
def execTableGenerationDrain (slot : Fin 16) (s : State) : Out := s.gate fun s =>
  let x := s.tbl slot
  if x.ret.num = 0 ∨ x.ret.refs ≠ 0 then .next s
  else
    match x.held with
    | none => .next (s.setTbl slot { x with ret := {} })
    | some data =>
      let y := TblSlot.promote { x with ret := {} } data
      let mine := fun (f : Flying) => x.heldBy != 0 && f.id == x.heldBy
      let s1 := s.setTbl slot y
      let s2 := { s1 with pmp := { s1.pmp with flying := s1.pmp.flying.map (fun f =>
        if mine f then { f with waits := none, table := some (slot.val, y.cur.num) } else f) } }
      .next (if s.pmp.flying.any mine then s2.tblRef slot y.cur.num true else s2)

end Sys2Proof.Machine
end

