-- ==== Sys2Proof/Machine/Engine.lean ====
section
/-! DEFINITION. The engine's sequencer (R238 to R243, R281, R284 to R287): contexts, program control, causes that stop a
program, the partition of a Y program (R276, R277), and the places instructions read and write. -/
namespace Sys2Proof.Machine
open Sys2Proof

/-! ## Contexts -/

/-- A context of an engine: G, or Y where `y` holds (R247). -/
def State.ctx (s : State) (e : Nat) (y : Bool) : ProgCtx := if y then (s.eng e).y else (s.eng e).g
/-- Set a context. -/
def State.setCtx (s : State) (e : Nat) (y : Bool) (c : ProgCtx) : State :=
  s.setEng e (if y then { s.eng e with y := c } else { s.eng e with g := c })

/-- Engine states (R243). -/
def eInit : Nat := 1
def eReady : Nat := 2
def eInReset : Nat := 4
def eOffline : Nat := 5
def eFault : Nat := 7
def eRunning : Nat := 8
def eHalted : Nat := 9

/-- The state of an engine (R243). -/
def State.engState (s : State) (e : Nat) : Nat := s.fld (pgMxe e) F.hdr_STATE
/-- Set the state of an engine: MXE.STATE, which VXE.STATE repeats. -/
def State.setEngState (s : State) (e v : Nat) : State :=
  (s.setFld (pgMxe e) F.hdr_STATE v).setFld (pgVxe e) F.hdr_STATE v

/-- TEST_OWN of an engine (R240). -/
def State.testOwn (s : State) (e : Nat) : Bool := s.flag (pgMxe e) F.hdr_TEST_OWN
/-- The quadrant of an engine. -/
def engQuad (e : Nat) : Nat := e / 8
/-- Priming frames of an engine's tile store (R219), FRAMES in force clamped to 8–56. -/
def State.primeFrames (s : State) (e : Nat) : Nat := min 56 (max 8 (SMap.get s.mem.primeNow 32 (engQuad e)))

/-- The instruction word at an address of an engine's program store (R284). [DESIGN CHOICE: log entry 83] -/
def State.progWord (s : State) (e a : Nat) : Nat :=
  match SMap.find (s.eng e).prog (a % 16384), (s.eng e).fw with
  | some w, _ => w.toNat
  | none, some d => Config.freeNat (d + a % 16384) % 2 ^ 128
  | none, none => 0
/-- CLASS of a word. -/
def wClass (w : Nat) : Nat := w % 8
/-- OP of a word. [DESIGN CHOICE: log entry 73] -/
def wOp (w : Nat) : Nat := bitsOf w 9 3

/-- VX operation codes in use (R256). -/
def vxCodes : List Nat :=
  [0x00, 0x01, 0x02, 0x03, 0x04, 0x05, 0x06, 0x07, 0x10, 0x11, 0x12, 0x13, 0x14, 0x15, 0x16, 0x17, 0x18, 0x19, 0x1A, 0x1B, 0x1C, 0x1D,
   0x20, 0x21, 0x22, 0x23, 0x24, 0x25, 0x30, 0x31, 0x32, 0x33, 0x34, 0x35, 0x36, 0x38, 0x39, 0x3A, 0x3B, 0x3C, 0x3D] ++
  [0x40, 0x41, 0x42, 0x43, 0x44, 0x45, 0x46, 0x48, 0x49, 0x4A, 0x4B, 0x4C, 0x4D, 0x50, 0x51, 0x52, 0x58, 0x59, 0x5A, 0x5B,
   0x60, 0x61, 0x62]

/-- Is a word a reserved opcode (R286)? -/
def wReserved (w : Nat) : Bool :=
  match wClass w with
  | 0 => decide (wOp w > 5)
  | 1 => !(wOp w == 1 || wOp w == 2) || (wOp w == 1 && decide (bitsOf w 24 22 ≥ 5))
  | 2 => !(vxCodes.contains (wOp w))
  | 3 => wOp w != 1
  | 4 => !(1 ≤ wOp w && wOp w ≤ 6)
  | _ => true

/-! ## How a program ends or stops -/

/-- The function of an engine's program: the PF for a GENERATION program (R292). -/
def ProgCtx.owner (c : ProgCtx) : Nat := if c.cls = 0 then 0 else c.func

/-- A PROMPT program has ended (R358, R359): its chunk is done, or, ended by a cause, its tokens become prompt rows
again. -/
def State.chunkEnd (s : State) (e : Nat) (ok : Bool) : State :=
  (List.range 4).foldl (fun s q =>
    let k := s.keeper q
    match k.chunks.find? (fun c => c.engine == e) with
    | none => s
    | some c =>
      let s1 := s.setKeeper q { k with chunks := k.chunks.filter (fun d => d.engine != e) }
      let x := SMap.get s1.sess {} c.ses
      if ok then
        (if x.st = .gone || x.hist.length != c.first then s1 else { s1 with sess := SMap.set s1.sess {} c.ses (x.takePrompt c.count) })
      else s1.raise (pgKpr q) 2) s

/-- The keeper learns that a Y program has ended (R238, R359, R360): cause 0 for END. A CUSTOM program the registry
started ends in YRUN_STATUS. -/
def State.yEnded (s : State) (e : Nat) (c : ProgCtx) (cause : Nat) : State :=
  let q := engQuad e
  let s1 := if cause = 0 then s else s.raise (pgKpr q) 1
  if c.test then s1
  else if c.cls = 1 then s1.chunkEnd e (cause == 0)
  else if s1.fld (pgKpr q) F.kpr_YRUN_STATUS_STATE = 2 ∧ ((s1.keeper q).yrun.map (fun r => r.2)) = some (e % 8) then
    ((((s1.setFld (pgKpr q) F.kpr_YRUN_STATUS_STATE 3).setFld (pgKpr q) F.kpr_YRUN_STATUS_CAUSE cause).setFld (pgKpr q)
      F.kpr_YRUN_STATUS_PC c.pc).setFld (pgKpr q) F.kpr_YRUN_GO 0)
  else s1

/-- VX_FLAGS of a context. -/
def fLast (y : Bool) : Fld := if y then F.vxe_VX_FLAGS_Y_LAST else F.vxe_VX_FLAGS_G_LAST
def fSticky (y : Bool) : Fld := if y then F.vxe_VX_FLAGS_Y_STICKY else F.vxe_VX_FLAGS_G_STICKY
def fCnt (y : Bool) : Fld := if y then F.vxe_VX_FLAGS_Y_CNT else F.vxe_VX_FLAGS_G_CNT

/-- Zero a context's registers, flags, CNT and counters (R276, R281, R282). -/
def State.zeroCtx (s : State) (e : Nat) (y : Bool) : State :=
  let c := s.ctx e y
  let s1 := s.setCtx e y { c with v := [], m := [], sc := [], row := none, rowFlags := 0 }
  ((s1.setFld (pgVxe e) (fLast y) 0).setFld (pgVxe e) (fSticky y) 0).setFld (pgVxe e) (fCnt y) 0

/-- A program leaves its context: it is no longer started, and MXE.RUN.GO of a test start clears. -/
def State.leave (s : State) (e : Nat) (y : Bool) : State :=
  let c := s.ctx e y
  let s1 := s.setCtx e y { c with started := false, yielded := false, claimed := false, waitBranch := false, row := none, rowFlags := 0
                                  waited := false, poisonWaited := false, tainted := false, faulted := false, lastFunc := c.func }
  if c.test then s1.setFld (pgMxe e) F.mxe_RUN_GO 0 else s1

/-- The end of a Y program by a cause (R281): context Y is zeroed, the cause is recorded in Y_STATUS and in the function's
fault log, and the keeper learns it. `cause` is the code of Y_STATUS. ADDR of the record has no meaning the spec gives. [DESIGN CHOICE: log entry 79] -/
def State.endY (s : State) (e cause : Nat) : State :=
  let c := s.ctx e true
  let pg := pgVxe e
  let s1 := ((((s.setFld pg F.vxe_Y_STATUS_STATE 3).setFld pg F.vxe_Y_STATUS_WAIT_BRANCH 0).setFld pg F.vxe_Y_STATUS_PC c.pc).setFld pg
    F.vxe_Y_STATUS_CAUSE cause)
  let x := s1.eng e
  let s2 := s1.setEng e { x with feed := x.feed.filter (fun f => !f.y) }
  let s3 := ((s2.leave e true).zeroCtx e true)
  let s4 := if s3.engState e = eRunning ∨ s3.engState e = eHalted then (if c.yielded then s3 else s3.setEngState e eReady) else s3
  let d := s4.draw
  (d.2.fault c.func 8 cause pg 0 (d.1 % 2 ^ 64) 0).yEnded e c cause

/-- A cause of an MXE page stops the program (R218, R229, R238, R281): in context G the engine enters FAULT; Y_STATUS has
no code for these causes, so the code recorded there is free. [DESIGN CHOICE: log entry 79] -/
def State.stopM (s : State) (e : Nat) (y : Bool) (cause : Nat) : State :=
  let s1 := s.raise (pgMxe e) cause
  if y then let d := s1.draw; d.2.endY e (d.1 % 16) else (s1.setEng e { s1.eng e with faultCause := cause }).setEngState e eFault

/-- A cause of a VXE page stops the program (R258, R266, R275, R277, R281). [DESIGN CHOICE: log entry 79] -/
def State.stopV (s : State) (e : Nat) (y : Bool) (cause : Nat) : State :=
  let s1 := s.raise (pgVxe e) cause
  if y then s1.endY e (cause + 1) else (s1.setEng e { s1.eng e with faultCause := 32 + cause }).setEngState e eFault

/-- The instruction in hand completes, and the sequencer goes on at `pc`; past address 16,383 is PROG_END (R238). -/
def State.goTo (s : State) (e : Nat) (y : Bool) (pc : Nat) : State :=
  let c := s.ctx e y
  if pc ≥ 16384 then s.stopM e y 3
  else s.setCtx e y { c with pc := pc, row := none, rowFlags := 0, waited := false, poisonWaited := false, waitBranch := false }

/-- The instruction in hand completes, and the sequencer goes on at the next address. -/
def State.advance (s : State) (e : Nat) (y : Bool) : State := s.goTo e y ((s.ctx e y).pc + 1)

/-- END retires (R238): the engine becomes READY and the keeper learns the end. -/
def State.endProg (s : State) (e : Nat) (y : Bool) : State :=
  let c := s.ctx e y
  let s1 := if y && c.yielded then s.leave e y else (s.leave e y).setEngState e eReady
  if y then ((s1.setFld (pgVxe e) F.vxe_Y_STATUS_STATE 0).setFld (pgVxe e) F.vxe_Y_STATUS_WAIT_BRANCH 0).yEnded e c 0 else s1

/-- A misuse makes the program's results undefined (R245, R283). [DESIGN CHOICE: log entry 74] -/
def State.taint (s : State) (e : Nat) (y : Bool) : State := s.setCtx e y { s.ctx e y with tainted := true }

/-- May an instruction of a context run: its program is started and neither yielded nor waiting for a branch word, and
the engine runs? [DESIGN CHOICE: log entry 73] -/
def State.canRun (s : State) (e : Nat) (y : Bool) : Bool :=
  let c := s.ctx e y
  c.started && !c.yielded && !c.waitBranch && s.engState e == eRunning

/-- Run the instruction at a context's next address when it is the class and operation named. [DESIGN CHOICE: log entry 73] -/
def State.runOp (s : State) (e : Nat) (y : Bool) (cls op : Nat) (k : Nat → State → State) : State :=
  let w := s.progWord e (s.ctx e y).pc
  if s.canRun e y && wClass w == cls && wOp w == op && !(wReserved w) then k w s else s

/-! ## The partition of a Y program -/

/-- Is an accumulator tile, a row, a row set granted (R276)? -/
def State.accGranted (s : State) (e t : Nat) : Bool := bitOf (s.fld (pgVxe e) F.vxe_Y_PART_ACC) t
def State.rowGranted (s : State) (e r : Nat) : Bool :=
  decide ((r + 256 - s.fld (pgVxe e) F.vxe_Y_PART_ROW_BASE) % 256 < s.fld (pgVxe e) F.vxe_Y_PART_ROWS)
def State.rsGranted (s : State) (e k : Nat) : Bool := bitOf (s.fld (pgVxe e) F.vxe_Y_PART_RS) k
/-- Is a tile-store frame granted? -/
def State.frameGranted (s : State) (e f : Nat) : Bool :=
  decide (s.fld (pgVxe e) F.vxe_Y_FRAMES_BASE ≤ f ∧ f < s.fld (pgVxe e) F.vxe_Y_FRAMES_BASE + s.fld (pgVxe e) F.vxe_Y_FRAMES_COUNT)

/-- The frames that `n` bytes from byte `a` of a tile store touch. -/
def framesOf (a n : Nat) : List Nat :=
  if n = 0 then [] else (List.range (min 64 ((a % 65536 + n + 65535) / 65536))).map (fun i => (a / 65536 + i) % 64)

/-- Are the tile-store bytes within the grant? -/
def State.storeGranted (s : State) (e a n : Nat) : Bool := (framesOf (a % 2 ^ 22) n).all (s.frameGranted e)
/-- Are the tile-store bytes all in program frames (R219, R250)? -/
def State.storeProgram (s : State) (e a n : Nat) : Bool := (framesOf (a % 2 ^ 22) n).all (fun f => decide (s.primeFrames e ≤ f))
/-- Are the row-buffer bytes within the granted rows? -/
def State.rowsGranted (s : State) (e a n : Nat) : Bool :=
  n == 0 || (List.range (min 256 ((a % 16384 + n + 16383) / 16384))).all (fun i => s.rowGranted e ((a / 16384 + i) % 256))

/-- The rows of a row set, ascending. -/
def State.rowSet (s : State) (e k : Nat) : List Nat := rangeP 256 (fun r => SMap.get (s.eng e).rs false (k * 256 + r))
/-- Are a row set and every row in it granted (R277)? -/
def State.setGranted (s : State) (e k : Nat) : Bool := s.rsGranted e k && (s.rowSet e k).all (s.rowGranted e)

/-! ## Accumulators and row buffer -/

/-- Is an accumulator tile INT32 (R229)? -/
def State.accIsInt (s : State) (e t : Nat) : Bool := (s.eng e).accInt.getD t false
/-- Set a tile's type. -/
def State.setAccInt (s : State) (e t : Nat) (i : Bool) : State :=
  s.setEng e { s.eng e with accInt := (s.eng e).accInt.set t i }
/-- An accumulator element. -/
def State.acc (s : State) (e t r c : Nat) : W32 := SMap.get (s.eng e).acc 0#32 (t * 65536 + r * 256 + c)

/-- A NaN or infinity that an FP32 accumulator row receives sets MXE.FLAGS (R234), and NAN its cause when it becomes 1. -/
def State.mxFlags (s : State) (e : Nat) (nan inf : Bool) : State :=
  let pg := pgMxe e
  let s1 := if nan then
      (let t := s.setFld pg F.mxe_FLAGS_NAN 1
       if s.flag pg F.mxe_FLAGS_NAN then t else t.raise pg 4)
    else s
  if inf then s1.setFld pg F.mxe_FLAGS_INF 1 else s1

/-- Write an accumulator element. -/
def State.setAcc (s : State) (e t r c : Nat) (v : W32) : State :=
  let s1 := s.setEng e { s.eng e with acc := SMap.set (s.eng e).acc 0#32 (t * 65536 + r * 256 + c) v }
  if s.accIsInt e t then s1 else s1.mxFlags e (fisNaN (fdec fp32 v.toNat)) (fisInf (fdec fp32 v.toNat))

/-- Row-buffer bytes from byte `a` of the 4 MiB space, wrapping. -/
def State.rowBytes (s : State) (e a n : Nat) : List Byte :=
  (List.range n).map (fun i => SMap.get (s.eng e).rows 0#8 ((a + i) % 2 ^ 22))
/-- Write row-buffer bytes, wrapping. -/
def State.setRowBytes (s : State) (e a : Nat) (bs : List Byte) : State :=
  s.setEng e { s.eng e with rows := (bs.foldl (fun (acc : SMap Byte × Nat) b => (SMap.set acc.1 0#8 (acc.2 % 2 ^ 22) b, acc.2 + 1))
    ((s.eng e).rows, a)).1 }

/-- Does the row buffer's, a tile store's or any other word read uncorrectable in `n` tile-store bytes from `a` (R218)? [DEDUCED: log entry 80] -/
def State.storeUe (s : State) (e a n : Nat) : Bool := poisonIn (s.storeRead e a n)

/-- Count array handshakes, and those in which a served row was computed. -/
def State.countMx (s : State) (e n : Nat) : State :=
  ((s.bump64B (pgMxe e) 0 F.mxe_HANDSHAKES_LO_COUNT F.mxe_HANDSHAKES_HI_COUNT n).bump64B (pgMxe e) 0 F.mxe_BUSY_LO_COUNT
    F.mxe_BUSY_HI_COUNT n)

end Sys2Proof.Machine
end

