-- ==== Sys2Proof/Machine/Operands.lean ====
section
/-! DEFINITION. Operands of vector instructions (R249 to R252, R295): the places a sweep visits, loads, stores with
conversion (R232, R250), overlaps (R283) and the partition check (R277). -/
namespace Sys2Proof.Machine
open Sys2Proof

/-- A VX word's fields (R294). FG words share bits [60:0]. -/
structure VxW where
  op : Nat
  count : Nat
  acnt : Bool
  zm : Bool
  int : Bool
  mask : Nat
  rsel : Nat
  d : Nat
  a : Nat
  b : Nat
  deriving DecidableEq, Repr

/-- Read a VX word. -/
def vxOf (w : Nat) : VxW :=
  { op := wOp w, count := bitsOf w 22 10, acnt := bitOf w 23, zm := bitOf w 24, int := bitOf w 25, mask := bitsOf w 29 26
    rsel := bitsOf w 33 30, d := bitsOf w 60 34, a := bitsOf w 87 61, b := bitsOf w 127 88 }

/-- KIND and payload of an operand field (R295). -/
def oKind (o : Nat) : Nat := o % 32
def oPay (o : Nat) : Nat := o / 32
/-- The immediate of a B of KIND 0x18, and of KIND 0x19. -/
def oImm (o : Nat) : Nat := oPay o % 2 ^ 32
def oImm19 (o : Nat) : Nat := bitsOf (oPay o) 34 3

/-- Is the operand in memory, and in which format (R295)? -/
def oIsMem (o : Nat) : Bool := (0x08 ≤ oKind o && oKind o ≤ 0x0E) || (0x10 ≤ oKind o && oKind o ≤ 0x16)
def oFmt (o : Nat) : Nat := oKind o % 8
/-- Is it an accumulator operand, and which tile? -/
def oIsAcc (o : Nat) : Bool := oKind o == 2 || oKind o == 3
def oTile (o : Nat) : Nat := oPay o % 4
def oRow0 (o : Nat) : Nat := bitsOf (oPay o) 9 2
def oCol0 (o : Nat) : Nat := bitsOf (oPay o) 17 10
/-- AXIS of a tile-axis operation: COL? -/
def oAxisCol (o : Nat) : Bool := bitOf (oPay o) 18
/-- Byte address of an operand in memory. -/
def oAddr (o : Nat) : Nat := oPay o % 2 ^ 22

/-- A data operand: register, accumulator, row buffer or tile store. -/
def oIsData (o : Nat) : Bool := oKind o == 1 || oIsAcc o || oIsMem o

/-- Bytes of an element in a memory format (R295). -/
def fmtSize (f : Nat) : Nat := match f with | 0 => 4 | 1 => 2 | 2 => 1 | 3 => 1 | 4 => 2 | 5 => 4 | _ => 1
/-- Is the format one of INT32 elements (R250)? -/
def fmtInt (f : Nat) : Bool := f == 5 || f == 6
/-- Does an operand suit elements of a type (R296)? -/
def oSuits (o : Nat) (int : Bool) : Bool := !(oIsMem o) || fmtInt (oFmt o) == int

/-- The floating-point format of a format code. -/
def fmtF (f : Nat) : FFmt := match f with | 1 => bf16 | 2 => e4m3 | 3 => e5m2 | 4 => fp16 | _ => fp32

/-- Load conversion (R250): exact. -/
def loadFmt (f x : Nat) : W32 :=
  BitVec.ofNat 32 (match f with
    | 0 | 5 => x
    | 6 => ofSigned 32 (toSigned 8 x)
    | _ => fenc fp32 (fdec (fmtF f) x))

/-- Store conversion (R232): the pattern, and SAT. [DEDUCED: log entry 77] -/
def storeFmt (f : Nat) (v : W32) : Nat × Bool :=
  match f with
  | 0 | 5 => (v.toNat, false)
  | 6 =>
    let z := toSigned 32 v.toNat
    if z > 127 then (127, true) else if z < -128 then (128, true) else (ofSigned 8 z, false)
  | _ => fconv (fmtF f) (fdec fp32 v.toNat)

/-- The place of one element. -/
inductive Cell where
  | reg (ix : Nat)
  | acc (t r c : Nat)
  | rowb (bytes : List Nat) (f : Nat)
  | store (addr f : Nat)
  | imm (v : W32)
  deriving DecidableEq, Repr

/-- Element `i` of an operand (R249); in row `r` of a row-repeat instruction (R252). -/
def cellOf (o : Nat) (row : Option Nat) (i : Nat) : Cell :=
  let f := oFmt o
  let n := fmtSize f
  if oKind o = 1 ∨ oKind o = 0x19 then .reg (((oPay o % (if oKind o = 1 then 32 else 8) + i / 128) % 32) * 128 + i % 128)
  else if oKind o = 2 then
    match row with
    | some r => .acc (oTile o) r ((oCol0 o + i) % 256)
    | none => .acc (oTile o) ((oRow0 o + (oCol0 o + i) / 256) % 256) ((oCol0 o + i) % 256)
  else if oKind o = 3 then .acc (oTile o) ((oRow0 o + i) % 256) ((oCol0 o + (oRow0 o + i) / 256) % 256)
  else if oKind o = 0x18 then .imm (BitVec.ofNat 32 (oImm o))
  else if oKind o < 0x10 then
    match row with
    | some r => .rowb ((List.range n).map (fun j => r * 16384 + (oAddr o + i * n + j) % 16384)) f
    | none => .rowb ((List.range n).map (fun j => (oAddr o + i * n + j) % 2 ^ 22)) f
  else .store ((oAddr o + i * n) % 2 ^ 22) f

/-- Load an element. -/
def State.loadCell (s : State) (e : Nat) (y : Bool) : Cell → W32
  | .reg ix => SMap.get (s.ctx e y).v 0#32 ix
  | .acc t r c => s.acc e t r c
  | .rowb bs f => loadFmt f (leNat (bs.map (fun a => SMap.get (s.eng e).rows 0#8 a)))
  | .store a f => loadFmt f (leNat (bytesOf (s.storeRead e a (fmtSize f))))
  | .imm v => v

/-- Does an element lie in an uncorrectable tile-store word (R218)? -/
def State.cellUe (s : State) (e : Nat) : Cell → Bool
  | .store a f => s.storeUe e a (fmtSize f)
  | _ => false

/-- Store an element, converting (R232): the state, and SAT. -/
def State.storeCell (s : State) (e : Nat) (y : Bool) (v : W32) : Cell → State × Bool
  | .reg ix => (s.setCtx e y { s.ctx e y with v := SMap.set (s.ctx e y).v 0#32 ix v }, false)
  | .acc t r c => (s.setAcc e t r c v, false)
  | .rowb bs f =>
    let x := storeFmt f v
    let w := (bs.zip (leBytes (fmtSize f) x.1)).foldl (fun (m : SMap Byte) p => SMap.set m 0#8 p.1 p.2) (s.eng e).rows
    (s.setEng e { s.eng e with rows := w }, x.2)
  | .store a f =>
    let x := storeFmt f v
    (s.storeWrite e a [(leBytes (fmtSize f) x.1, false)], x.2)
  | .imm _ => (s, false)

/-- The bytes or elements a cell covers, as numbers in one space. -/
def Cell.keys : Cell → List Nat
  | .reg ix => [ix]
  | .acc t r c => [2 ^ 23 + t * 65536 + r * 256 + c]
  | .rowb bs _ => bs.map (· + 2 ^ 24)
  | .store a f => (List.range (fmtSize f)).map (fun j => 2 ^ 25 + (a + j) % 2 ^ 22)
  | .imm _ => []

/-- The places of a sweep of `n` elements. -/
def sweepKeys (o : Nat) (row : Option Nat) (n : Nat) : List Nat := (List.range n).flatMap (fun i => (cellOf o row i).keys)

/-- Do two sweeps share a place? -/
def sweepsMeet (d a : Nat) (row : Option Nat) (n m : Nat) : Bool :=
  let k := sweepKeys a row m
  oIsData a && (sweepKeys d row n).any (fun x => k.contains x)

/-- A destination sweep partly overlaps a source sweep without starting at the same element (R283). [DESIGN CHOICE: log entry 74] -/
def partOverlap (d a : Nat) (row : Option Nat) (n : Nat) : Bool :=
  sweepsMeet d a row n n && (cellOf d row 0).keys.head? != (cellOf a row 0).keys.head?

/-- Is the operand an accumulator tile of the other type (R250)? [DESIGN CHOICE: log entry 74] -/
def State.accMixed (s : State) (e o : Nat) (int : Bool) : Bool := oIsAcc o && s.accIsInt e (oTile o) != int

/-- Does a sweep of `n` elements leave the partition of a Y program (R277)? Row sets are checked by the caller. -/
def State.sweepOut (s : State) (e o n : Nat) (rowRepeat : Bool) : Bool :=
  if oIsAcc o then !(s.accGranted e (oTile o))
  else if 0x08 ≤ oKind o && oKind o < 0x10 then !rowRepeat && !(s.rowsGranted e (oAddr o) (n * fmtSize (oFmt o)))
  else if 0x10 ≤ oKind o && oKind o < 0x18 then !(s.storeGranted e (oAddr o) (n * fmtSize (oFmt o)))
  else oKind o == 5 && !(s.rsGranted e (oPay o % 8))

/-- Is a tile-store operand misaligned, or outside the program frames (R250, R283)? -/
def State.sweepMisuse (s : State) (e o n : Nat) : Bool :=
  0x10 ≤ oKind o && oKind o < 0x18 && (oAddr o % fmtSize (oFmt o) != 0 || !(s.storeProgram e (oAddr o) (n * fmtSize (oFmt o))))

/-- Is position `i` active under a MASK field (R254)? -/
def State.maskAt (s : State) (e : Nat) (y : Bool) (mask i : Nat) : Bool :=
  mask == 0 || SMap.get (s.ctx e y).m false (mask % 8 * 8192 + i)
/-- A bit of a mask register. -/
def State.mbit (s : State) (e : Nat) (y : Bool) (k i : Nat) : Bool := SMap.get (s.ctx e y).m false (k % 8 * 8192 + i)
/-- Set a bit of a mask register. -/
def State.setMbit (s : State) (e : Nat) (y : Bool) (k i : Nat) (b : Bool) : State :=
  s.setCtx e y { s.ctx e y with m := SMap.set (s.ctx e y).m false (k % 8 * 8192 + i) b }

end Sys2Proof.Machine
end

