-- ==== Sys2Proof/Machine/Flags.lean ====
section
/-! DEFINITION. The flags of vector instructions (R255): LAST, STICKY and what each written element sets. -/
namespace Sys2Proof.Machine
open Sys2Proof

/-- Flag bits (R255). -/
def flNan : Nat := 1
def flInf : Nat := 2
def flSat : Nat := 4
def flEmpty : Nat := 8
def flPerm : Nat := 16
def flAny : Nat := 32
def flAll : Nat := 64
def flWrap : Nat := 128

/-- A flag if a condition holds. -/
def flIf (b : Bool) (f : Nat) : Nat := if b then f else 0

/-- NAN and INF of an element of a type (R255). -/
def elemFlags (int : Bool) (v : W32) : Nat :=
  if int then 0
  else flIf (fisNaN (fdec fp32 v.toNat)) flNan ||| flIf (fisInf (fdec fp32 v.toNat)) flInf

/-- An instruction of a context sets LAST (R255): STICKY takes it in; NAN_RESULT is a cause when NAN becomes 1, and
PERM_RANGE is counted. -/
def State.setLast (s : State) (e : Nat) (y : Bool) (fl : Nat) : State :=
  let pg := pgVxe e
  let old := s.fld pg (fLast y)
  let s1 := (s.setFld pg (fLast y) fl).setFld pg (fSticky y) (s.fld pg (fSticky y) ||| fl)
  let s2 := if bitOf fl 0 && !(bitOf old 0) then s1.raise pg 5 else s1
  if bitOf fl 4 then s2.bump pg F.vxe_RANGE_COUNT_COUNT 1 else s2

/-- ANY and ALL of a mask-class result (R255): bits by position, over the active positions. -/
def maskFlags (n : Nat) (act bit : Nat → Bool) : Nat :=
  let on := rangeP n (fun i => act i && bit i)
  let ac := rangeP n act
  flIf (!on.isEmpty) flAny ||| flIf (!ac.isEmpty && on.length == ac.length) flAll

end Sys2Proof.Machine
end

