-- ==== Sys2Proof/Machine/Vx.lean ====
section
/-! DEFINITION. How a vector instruction runs (R249 to R254, R258, R296): its form, the checks before it writes, and the
sweeps that elementwise, mask and reduction operations make. -/
namespace Sys2Proof.Machine
open Sys2Proof

/-- The type of an operand: FP32, INT32, as the INT bit names, or one that other rules decide. -/
inductive Ty where
  | F | I | V | X
  deriving DecidableEq, Repr

/-- Is the type INT32 in an instruction with this INT bit? -/
def Ty.isInt (t : Ty) (int : Bool) : Bool := match t with | .F => false | .I => true | .V => int | .X => false

/-- Which kinds an operand position takes (R256, R295). -/
inductive Pos where
  | none | data | dataImm | mask | rset | imm | keyImm | accRow | other
  deriving DecidableEq, Repr

/-- Does a position take an operand? -/
def Pos.takes (p : Pos) (o : Nat) : Bool :=
  match p with
  | .none => oKind o == 0
  | .data => oIsData o
  | .dataImm => oIsData o || oKind o == 0x18
  | .mask => oKind o == 4
  | .rset => oKind o == 5
  | .imm => oKind o == 0x18
  | .keyImm => oKind o == 0x19
  | .accRow => oKind o == 2
  | .other => true

/-- Rate classes (R256). -/
inductive Rate where
  | one | O | T | L | K | P | R | S
  deriving DecidableEq, Repr

/-- The form of an operation (R256): its operand positions and their types, its classes and rate, and whether its
destination may not meet a source at all (R283). -/
structure VxForm where
  d : Pos := .data
  a : Pos := .data
  b : Pos := .none
  td : Ty := .V
  ta : Ty := .V
  tb : Ty := .V
  repeats : Bool := true
  reduces : Bool := false
  tile : Bool := false
  rate : Rate := .O
  apart : Bool := false
  deriving DecidableEq, Repr

/-- The element count of an instruction (R253). -/
def State.vxCount (s : State) (e : Nat) (y : Bool) (x : VxW) : Nat :=
  if x.acnt then s.fld (pgVxe e) (fCnt y) else x.count

/-- Is an instruction malformed by the rules that hold for every operation (R258, R296)? -/
def vxBad (fm : VxForm) (x : VxW) : Bool :=
  let sel (v : Nat) : Bool := v != 0 && decide (v < 8)
  sel x.mask || sel x.rsel || !(fm.d.takes x.d) || !(fm.a.takes x.a) || !(fm.b.takes x.b)
    || (x.rsel != 0 && !fm.repeats && !fm.tile)
    || (x.rsel != 0 && (oKind x.d == 3 || oKind x.a == 3 || oKind x.b == 3))
    || !(oSuits x.d (fm.td.isInt x.int)) || (fm.ta != .X && !(oSuits x.a (fm.ta.isInt x.int)))
    || (fm.tb != .X && !(oSuits x.b (fm.tb.isInt x.int)))

/-- What an operation adds to the checks: it leaves the partition, it is a misuse, it meets an uncorrectable word, its
result is undefined in a row; and whether it keeps the sequencer at its address (SUMMARY). -/
structure VxExtra where
  out : Bool := false
  misuse : Bool := false
  ue : Bool := false
  undef : Option Nat → Bool := fun _ => false
  stay : Bool := false
  hand : Nat := 0

/-- Handshakes of one row (R256, R274). -/
def rateOf (r : Rate) (n : Nat) : Nat :=
  let g := ceilDiv n 128
  match r with
  | .one => 1 | .O => g | .T => ceilDiv n 64 | .L => g + 4 | .K => 3 * g + 8 | .P => 2 * g | .R => 1 | .S => 0

/-- The rows an instruction runs over: none without RSEL (R252). -/
def State.vxRows (s : State) (e : Nat) (x : VxW) : List (Option Nat) :=
  if x.rsel = 0 then [none] else (s.rowSet e (x.rsel % 8)).map some

/-- Does a Y program's instruction leave its partition (R277)? -/
def State.vxOut (s : State) (e : Nat) (fm : VxForm) (x : VxW) (n : Nat) : Bool :=
  let rep := x.rsel != 0 && fm.repeats
  let nd := if fm.reduces && fm.repeats then (if rep then 256 else 1) else if fm.tile then 256 else n
  (x.rsel != 0 && !(s.setGranted e (x.rsel % 8)))
    || s.sweepOut e x.d nd (rep && !fm.reduces) || s.sweepOut e x.a n rep || s.sweepOut e x.b n rep

/-- What one row of an instruction gives: the state, the flags it raises. -/
abbrev RowRun := State × Nat

/-- Run a vector instruction: the checks, then its rows from the one it stands at up to `upto` (R279), then LAST, CNT and
the next address. `bad` and `refused` are the operation's own rules; `body` runs one row and is told whether the result is
undefined (R283). -/
def State.runVx (s : State) (e : Nat) (y : Bool) (fm : VxForm) (x : VxW) (bad : Nat → Bool) (refused : Bool)
    (body : State → Nat → Option Nat → Bool → RowRun) (upto : Option Nat) (xt : VxExtra := {}) : State :=
  let n := s.vxCount e y x
  if vxBad fm x || bad n then s.stopV e y 0
  else if refused then s.stopV e y 2
  else if y && (xt.out || s.vxOut e fm x n) then s.stopV e y 3
  else if n = 0 then (s.setLast e y (flIf fm.reduces flEmpty)).advance e y
  else
    let s0 := if xt.misuse || s.sweepMisuse e x.d n || s.sweepMisuse e x.a n || s.sweepMisuse e x.b n then s.taint e y else s
    let c := s0.ctx e y
    let rows := if fm.tile then [none] else (s0.vxRows e x).filter (fun r => match r with
      | some r => decide (c.row.getD 0 ≤ r) && (match upto with | some u => decide (r < u) | none => true)
      | none => true)
    let mixed := (fm.ta != .X && s0.accMixed e x.a (fm.ta.isInt x.int)) || (fm.tb != .X && s0.accMixed e x.b (fm.tb.isInt x.int)) || s0.accMixed e x.d (fm.td.isInt x.int)
    let z := rows.foldl (fun (acc : State × Nat × Bool) row =>
      if acc.2.2 then acc
      else
        let s := acc.1
        let cells := fun (o : Nat) => if oIsData o then (List.range n).map (cellOf o row) else []
        if xt.ue || ((cells x.a) ++ (cells x.b)).any (s.cellUe e) then (s, acc.2.1, true)
        else
          let laps := if fm.apart then sweepsMeet x.d x.a row n n || sweepsMeet x.d x.b row n n
            else if fm.reduces then false
            else partOverlap x.d x.a row n || partOverlap x.d x.b row n
          let r := body s n row (c.tainted || laps || xt.undef row || (!fm.tile && mixed))
          (r.1, acc.2.1 ||| r.2, false)) (s0, c.rowFlags, false)
    let s1 := z.1.bump64B (pgVxe e) 0 F.vxe_VOPS_LO_COUNT F.vxe_VOPS_HI_COUNT (rows.length * (rateOf fm.rate n + xt.hand))
    if z.2.2 then s1.stopM e y 1
    else match upto with
      | some u => s1.setCtx e y { s1.ctx e y with row := some u, rowFlags := z.2.1 }
      | none => if xt.stay then s1.setLast e y z.2.1 else (s1.setLast e y z.2.1).advance e y

/-! ## Sweeps -/

/-- The elements of an operand of a row. -/
def State.loadAll (s : State) (e : Nat) (y : Bool) (o : Nat) (row : Option Nat) (n : Nat) : List W32 :=
  (List.range n).map (fun i => s.loadCell e y (cellOf o row i))

/-- Write results with their own flags to the positions of a destination: what is written sets NAN, INF and SAT. An
undefined result is a free value. -/
def State.storeList (s : State) (e : Nat) (y : Bool) (o : Nat) (row : Option Nat) (int undef : Bool)
    (l : List (Nat × W32 × Nat)) : RowRun :=
  l.foldl (fun (acc : RowRun) p =>
    let d := acc.1.draw
    let v := if undef then BitVec.ofNat 32 d.1 else p.2.1
    let r := (if undef then d.2 else acc.1).storeCell e y v (cellOf o row p.1)
    (r.1, acc.2 ||| p.2.2 ||| elemFlags int v ||| flIf r.2 flSat)) (s, 0)

/-- Zero the positions of a destination. -/
def State.zeroList (s : State) (e : Nat) (y : Bool) (o : Nat) (row : Option Nat) (l : List Nat) : State :=
  l.foldl (fun s i => (s.storeCell e y 0#32 (cellOf o row i)).1) s

/-- The results of an elementwise operation: from the first draw number, the active positions, and the elements of A, B
and D, an element and its flags for every position. -/
abbrev VecFn := Nat → (Nat → Bool) → List W32 → List W32 → List W32 → List (W32 × Nat)

/-- One row of an elementwise operation (R249, R252, R254). `every` makes every position active (SEL); `draws` is how
many free values a position takes. -/
def State.vecRow (s : State) (e : Nat) (y : Bool) (x : VxW) (int every : Bool) (draws : Nat) (f : VecFn) (n : Nat)
    (row : Option Nat) (undef : Bool) : RowRun :=
  let act := s.maskAt e y x.mask
  let out := f s.free act (s.loadAll e y x.a row n) (s.loadAll e y x.b row n) (s.loadAll e y x.d row n)
  let s1 := { s with free := s.free + draws * n }
  let on := (List.range n).filter (fun i => every || act i)
  let r := s1.storeList e y x.d row int undef (on.map (fun i => (i, out.getD i (0#32, 0))))
  (if x.zm && !every then r.1.zeroList e y x.d row ((List.range n).filter (fun i => !(act i))) else r.1, r.2)

/-- Run an elementwise operation. -/
def State.runVec (s : State) (e : Nat) (y : Bool) (w : Nat) (fm : VxForm) (every : Bool) (draws : Nat) (bad : VxW → Nat → Bool)
    (f : VxW → VecFn) (upto : Option Nat) : State :=
  let x := vxOf w
  s.runVx e y fm x (bad x) false (fun s n row u => s.vecRow e y x (fm.td.isInt x.int) every draws (f x) n row u) upto

/-- The result of a reduction: from the first draw number, the INT bit, the active positions and the elements of A and
B. -/
abbrev RedFn := Nat → Bool → List Bool → List W32 → List W32 → W32 × Nat

/-- Run a reduction: the result of a row goes to the destination element R260 names. -/
def State.runRed (s : State) (e : Nat) (y : Bool) (w : Nat) (fm : VxForm) (bad : VxW → Nat → Bool) (f : VxW → RedFn)
    (upto : Option Nat) : State :=
  let x := vxOf w
  s.runVx e y fm x (bad x) false (fun s n row u =>
    let act := (List.range n).map (s.maskAt e y x.mask)
    let r := f x s.free x.int act (s.loadAll e y x.a row n) (s.loadAll e y x.b row n)
    let i := row.getD 0
    let meet := ((cellOf x.d none i).keys).any (fun k => (sweepKeys x.a row n).contains k)
      && (cellOf x.d none i).keys.head? != (cellOf x.a row 0).keys.head?
    { s with free := s.free + n }.storeList e y x.d none (fm.td.isInt x.int) (u || (oIsData x.a && meet)) [(i, r)]) upto

/-- Run a mask operation: bits at positions 0 to COUNT − 1 of the mask register D (R254). -/
def State.runMask (s : State) (e : Nat) (y : Bool) (w : Nat) (fm : VxForm) (f : VxW → State → Option Nat → Nat → Nat → Bool) : State :=
  let x := vxOf w
  s.runVx e y fm x (fun _ => false) false (fun s n row u =>
    let act := s.maskAt e y x.mask
    let k := oPay x.d % 8
    let bits := (List.range n).map (f x s row n)
    let bit := fun i => if u then drawAt s.free i % 2 == 1 else bits.getD i false
    let s0 := if u then { s with free := s.free + n } else s
    let s1 := (List.range n).foldl (fun (t : State) i =>
      if act i then t.setMbit e y k i (bit i) else if x.zm then t.setMbit e y k i false else t) s0
    (s1, maskFlags n act bit)) none

end Sys2Proof.Machine
end

