-- ==== Sys2Proof/Machine/VxArith.lean ====
section
/-! DEFINITION. The elementwise operations of the vector engine, codes 0x01 to 0x25 (R256, R257). -/
namespace Sys2Proof.Machine
open Sys2Proof

/-- An elementwise operation: the INT bit, a free value, and the elements of A, B and D, give an element and its flags. -/
abbrev ElFn := Bool → Nat → W32 → W32 → W32 → W32 × Nat

/-- An INT32 result: it wraps in two's complement and sets WRAP (R257). -/
def wrapI (z : Int) : W32 × Nat :=
  let r := ofSigned 32 z
  (BitVec.ofNat 32 r, flIf (toSigned 32 r != z) flWrap)

/-- The signed value of an element. -/
def sval (v : W32) : Int := toSigned 32 v.toNat

/-- The FP32 element of a datum, rounded once. -/
def fel (v : FVal) : W32 := BitVec.ofNat 32 (fenc fp32 v)
/-- The datum of an FP32 element. -/
def fval (v : W32) : FVal := fdec fp32 v.toNat

/-- ADD (R256). -/
def elAdd : ElFn := fun int _ a b _ => if int then wrapI (sval a + sval b) else (add32 a b, 0)
/-- SUB (R256). -/
def elSub : ElFn := fun int _ a b _ => if int then wrapI (sval a - sval b) else (sub32 a b, 0)
/-- MUL (R256): INT32 keeps the low 32 bits. -/
def elMul : ElFn := fun int _ a b _ => if int then wrapI (sval a * sval b) else (mul32 a b, 0)
/-- FMA (R256): A × B + D, rounded once. -/
def elFma : ElFn := fun _ _ a b d => (fma32 a b d, 0)
/-- MAX (R256): −0 below +0; NaN when either is NaN. -/
def elMax : ElFn := fun int _ a b _ =>
  (if int then (if sval a < sval b then b else a) else BitVec.ofNat 32 (fminmax fp32 true a.toNat b.toNat), 0)
/-- MIN (R256). -/
def elMin : ElFn := fun int _ a b _ =>
  (if int then (if sval b < sval a then b else a) else BitVec.ofNat 32 (fminmax fp32 false a.toNat b.toNat), 0)
/-- MOV (R256): the formats convert on load and store. -/
def elMov : ElFn := fun _ _ a _ _ => (a, 0)
/-- ABS (R256): INT32 −2^31 stays, with WRAP. -/
def elAbs : ElFn := fun int _ a _ _ => if int then wrapI ((sval a).natAbs : Int) else (fel (fabs (fval a)), 0)
/-- NEG (R256): INT32 −2^31 stays, with WRAP. -/
def elNeg : ElFn := fun int _ a _ _ => if int then wrapI (-(sval a)) else (fel (fneg (fval a)), 0)
/-- EXP (R257). -/
def elExp : ElFn := fun _ n a _ _ => (expApprox a n, 0)
/-- LOG (R257). -/
def elLog : ElFn := fun _ n a _ _ => (logApprox a n, 0)
/-- RCP (R257). -/
def elRcp : ElFn := fun _ n a _ _ => (rcpApprox a n, 0)
/-- RSQRT (R257). -/
def elRsqrt : ElFn := fun _ n a _ _ => (rsqrtApprox a n, 0)
/-- SILU (R257). -/
def elSilu : ElFn := fun _ n a _ _ => (siluApprox a n, 0)
/-- GELU (R257). -/
def elGelu : ElFn := fun _ n a _ _ => (geluApprox a n, 0)
/-- SIGM (R257). -/
def elSigm : ElFn := fun _ n a _ _ => (sigmApprox a n, 0)
/-- TANH (R257). -/
def elTanh : ElFn := fun _ n a _ _ => (tanhApprox a n, 0)
/-- F2I (R256): round to nearest even, saturate to INT32; a NaN gives 0 with SAT. [DEDUCED: log entry 77] -/
def elF2i : ElFn := fun _ _ a _ _ =>
  match fval a with
  | .nan => (0, flSat)
  | .inf neg => (if neg then 0x80000000#32 else 0x7FFFFFFF#32, flSat)
  | .fin neg m e =>
    let z := fnearInt neg m e
    if z > 2147483647 then (0x7FFFFFFF#32, flSat) else if z < -2147483648 then (0x80000000#32, flSat)
    else (BitVec.ofNat 32 (ofSigned 32 z), 0)
/-- I2F (R256): round to nearest even. -/
def elI2f : ElFn := fun _ _ a _ _ => (fel (fofInt false (sval a) 0), 0)
/-- AND (R256). -/
def elAnd : ElFn := fun _ _ a b _ => (a &&& b, 0)
/-- OR (R256). -/
def elOr : ElFn := fun _ _ a b _ => (a ||| b, 0)
/-- XOR (R256). -/
def elXor : ElFn := fun _ _ a b _ => (a ^^^ b, 0)
/-- SHL (R256): by B mod 32. -/
def elShl : ElFn := fun _ _ a b _ => (a <<< (b.toNat % 32), 0)
/-- SHR (R256): logical, by B mod 32. -/
def elShr : ElFn := fun _ _ a b _ => (a >>> (b.toNat % 32), 0)
/-- SRA (R256): arithmetic, by B mod 32. -/
def elSra : ElFn := fun _ _ a b _ => (BitVec.sshiftRight a (b.toNat % 32), 0)

/-- An elementwise operation as a sweep: one free value per position. -/
def lift (int : Bool) (f : ElFn) : VecFn := fun base _ a b d =>
  (List.range a.length).map (fun i => f int (drawAt base i) (a.getD i 0) (b.getD i 0) (d.getD i 0))

/-- SEL (R256): A where the mask bit is 1, else B. -/
def vecSel : VecFn := fun _ act a b _ =>
  (List.range a.length).map (fun i => (if act i then a.getD i 0 else b.getD i 0, 0))

/-- ROTP (R256): each pair rotated, formed exactly and rounded once. -/
def vecRotp : VecFn := fun _ _ a b _ =>
  (List.range a.length).map (fun i =>
    let j := i / 2 * 2
    let p := fval (a.getD j 0)
    let q := fval (a.getD (j + 1) 0)
    let c := fval (b.getD j 0)
    let t := fval (b.getD (j + 1) 0)
    (if i % 2 = 0 then fel (fadd (fmul p c) (fneg (fmul q t))) else fel (fadd (fmul p t) (fmul q c)), 0))

/-- The elementwise operation of a code (R272); SEL and ROTP are sweeps of their own. -/
def elOf (op : Nat) : Option ElFn :=
  match op with
  | 0x01 => some elAdd | 0x02 => some elSub | 0x03 => some elMul | 0x04 => some elFma | 0x05 => some elMax | 0x06 => some elMin
  | 0x10 => some elMov | 0x11 => some elAbs | 0x12 => some elNeg | 0x13 => some elExp | 0x14 => some elLog | 0x15 => some elRcp
  | 0x16 => some elRsqrt | 0x17 => some elSilu | 0x18 => some elGelu | 0x19 => some elSigm | 0x1A => some elTanh
  | 0x1B => some elF2i | 0x1C => some elI2f | 0x20 => some elAnd | 0x21 => some elOr | 0x22 => some elXor | 0x23 => some elShl
  | 0x24 => some elShr | 0x25 => some elSra | _ => none

/-- The sweep of an elementwise code. -/
def vecOf (op : Nat) (int : Bool) : Option VecFn :=
  if op = 0x07 then some vecSel else if op = 0x1D then some vecRotp else (elOf op).map (lift int)

/-- Does a code take a second source; is its rate transcendental; its types (R256)? -/
def opTwo (op : Nat) : Bool := (0x01 ≤ op && op ≤ 0x07) || (0x1D ≤ op && op ≤ 0x25)
def opTrans (op : Nat) : Bool := 0x13 ≤ op && op ≤ 0x1A
def opTyD (op : Nat) : Ty :=
  if op = 0x04 ∨ (0x13 ≤ op ∧ op ≤ 0x1A) ∨ op = 0x1C ∨ op = 0x1D then .F
  else if op = 0x1B ∨ (0x20 ≤ op ∧ op ≤ 0x25) then .I else .V
def opTyA (op : Nat) : Ty := if op = 0x1B then .F else if op = 0x1C then .I else opTyD op

/-- The form of an elementwise operation. -/
def elForm (op : Nat) : VxForm :=
  { b := if opTwo op then .dataImm else .none, td := opTyD op, ta := opTyA op, tb := opTyA op, rate := if opTrans op then .T else .O }

/-- Run an elementwise instruction of a code. -/
def State.runEl (s : State) (e : Nat) (y : Bool) (op : Nat) (f : ElFn) (upto : Option Nat) (w : Nat) : State :=
  s.runVec e y w (elForm op) false (b2n (opTrans op)) (fun _ _ => false) (fun x => lift x.int f) upto

end Sys2Proof.Machine
end

