-- ==== Sys2Proof/Machine/VxReduce.lean ====
section
/-! DEFINITION. Comparisons, mask operations, reductions, tile-axis operations and permutations of the vector engine
(R256, R259 to R265). -/
namespace Sys2Proof.Machine
open Sys2Proof

/-! ## Comparisons -/

/-- A relation of CMPEQ to CMPGE (R256): with a NaN every relation but NE is false. -/
def cmpRel (op : Nat) (int : Bool) (a b : W32) : Bool :=
  let lt := if int then decide (sval a < sval b) else flt (fval a) (fval b)
  let gt := if int then decide (sval b < sval a) else flt (fval b) (fval a)
  let eq := if int then decide (sval a = sval b) else feq (fval a) (fval b)
  match op with
  | 0x30 => eq | 0x31 => !eq | 0x32 => lt | 0x33 => lt || eq | 0x34 => gt | _ => gt || eq

/-- The order of reductions (R262): −0 below +0; NaNs are treated apart. -/
def redLt (int : Bool) (a b : W32) : Bool := if int then decide (sval a < sval b) else fltTotal (fval a) (fval b)
/-- Is an element a NaN of its type? -/
def redNan (int : Bool) (a : W32) : Bool := !int && fisNaN (fval a)

/-! ## Sums and extremes -/

/-- Combine a list pairwise in an order a free number picks, down to one element (R259: the tree's order follows
arrival). -/
def mergeAny (f : W32 → W32 → W32) : Nat → Nat → List W32 → Option W32
  | 0, _, l => l.head?
  | k + 1, n, l =>
    match l with
    | [] => none
    | [x] => some x
    | x :: y :: t =>
      let l := x :: y :: t
      let i := n % l.length
      let l' := l.eraseIdx i
      let j := n / l.length % l'.length
      mergeAny f k (n / l.length / l'.length) (f (l.getD i 0) (l'.getD j 0) :: l'.eraseIdx j)

/-- The sum of elements in arrival order (R259), with WRAP when the INT32 sum wrapped. -/
def sumAny (int : Bool) (n : Nat) (l : List W32) : W32 × Nat :=
  if int then wrapI ((l.map sval).sum) else ((mergeAny add32 l.length n l).getD 0#32, 0)

/-- The extreme of elements and its position among `ps` (R262): the lowest position on ties; with a NaN among them, the
canonical NaN and the lowest position of a NaN. -/
def extreme (int mx : Bool) : List (Nat × W32) → Option (Nat × W32)
  | [] => none
  | p :: ps =>
    match (p :: ps).find? (fun q => redNan int q.2) with
    | some q => some (q.1, nan32)
    | none => some (ps.foldl (fun b q => if (if mx then redLt int b.2 q.2 else redLt int q.2 b.2) then q else b) p)

/-- Identity of a maximum and of a minimum (R261). -/
def idMax (int : Bool) : W32 := if int then 0x80000000#32 else inf32 true
def idMin (int : Bool) : W32 := if int then 0x7FFFFFFF#32 else inf32 false
/-- Index of an empty reduction (R261). -/
def idIndex : W32 := 0x1FFF#32

/-- The active elements with their positions. -/
def activeOf (act : List Bool) (a : List W32) : List (Nat × W32) :=
  ((List.range a.length).filter (fun i => act.getD i false)).map (fun i => (i, a.getD i 0))

/-- A result with EMPTY when there was no active element. -/
def orEmpty (l : List (Nat × W32)) (id : W32) (r : W32 × Nat) : W32 × Nat := if l.isEmpty then (id, flEmpty) else r

/-- RSUM (R259, R261). [DESIGN CHOICE: log entry 76] -/
def redSum : RedFn := fun n int act a _ =>
  let l := activeOf act a
  orEmpty l 0 (sumAny int (drawAt n 0) (l.map (fun p => p.2)))
/-- RMAX and RMIN (R262). -/
def redExt (mx : Bool) : RedFn := fun _ int act a _ =>
  let l := activeOf act a
  orEmpty l (if mx then idMax int else idMin int) (((extreme int mx l).getD (0, 0)).2, 0)
/-- RARGMAX and RARGMIN (R262). -/
def redArg (mx : Bool) : RedFn := fun _ int act a _ =>
  let l := activeOf act a
  orEmpty l idIndex (BitVec.ofNat 32 ((extreme int mx l).getD (0, 0)).1, 0)
/-- RBAND and RBOR (R261). -/
def redBits (and : Bool) : RedFn := fun _ _ act a _ =>
  let l := activeOf act a
  orEmpty l (if and then 0xFFFFFFFF#32 else 0)
    (l.foldl (fun v p => if and then v &&& p.2 else v ||| p.2) (if and then 0xFFFFFFFF#32 else 0), 0)
/-- FINDGE (R256, R260): with active elements but none that holds, the spec gives no value: it is free. [DEDUCED: log entry 77] -/
def redFindge : RedFn := fun n int act a b =>
  let l := activeOf act a
  orEmpty l idIndex (match l.find? (fun p => cmpRel 0x35 int p.2 (b.getD p.1 0)) with
    | some p => (BitVec.ofNat 32 p.1, 0)
    | none => (BitVec.ofNat 32 (drawAt n 0), 0))
/-- KTH (R256, R261, R263): with fewer than K active elements the smallest; with a NaN among them the spec gives no
value. [DEDUCED: log entry 77] -/
def redKth (k : Nat) : RedFn := fun n int act a _ =>
  let l := (activeOf act a).map (fun p => p.2)
  if l.any (redNan int) then (BitVec.ofNat 32 (drawAt n 0), 0)
  else if l.isEmpty then (idMax int, flEmpty)
  else if l.length < k then (((extreme int false ((List.range l.length).zip l)).getD (0, 0)).2, 0)
  else
    let above := fun v => (l.filter (fun u => redLt int v u)).length
    let same := fun v => (l.filter (fun u => !(redLt int v u) && !(redLt int u v))).length
    ((l.find? (fun v => decide (above v < k) && decide (k ≤ above v + same v))).getD 0, 0)

/-! ## Sweeps -/

/-- SCAN (R256): the inclusive prefix sums over the active positions. -/
def vecScan (int : Bool) : VecFn := fun base act a _ _ =>
  (List.range a.length).map (fun i =>
    sumAny int (drawAt base i) (((List.range (i + 1)).filter act).map (fun j => a.getD j 0)))

/-- PERM (R265): an index that is negative or at or beyond COUNT gives zero and PERM_RANGE. -/
def vecPerm : VecFn := fun _ _ a b _ =>
  (List.range a.length).map (fun i =>
    let j := sval (b.getD i 0)
    if j < 0 ∨ j ≥ (a.length : Int) then (0#32, flPerm) else (a.getD j.toNat 0, 0))

/-- BCAST (R265). -/
def vecBcast (j : Nat) : VecFn := fun _ _ a _ _ =>
  (List.range a.length).map (fun _ => if j ≥ a.length then (0#32, flPerm) else (a.getD j 0, 0))

/-! ## Philox (R264) -/

/-- One round of Philox4x32. -/
def philoxRound (c : Nat × Nat × Nat × Nat) (k0 k1 : Nat) : Nat × Nat × Nat × Nat :=
  let p0 := 0xD2511F53 * c.1
  let p1 := 0xCD9E8D57 * c.2.2.1
  ((p1 / 2 ^ 32) ^^^ c.2.1 ^^^ k0, p1 % 2 ^ 32, (p0 / 2 ^ 32) ^^^ c.2.2.2 ^^^ k1, p0 % 2 ^ 32)

/-- Rounds of Philox4x32; the key words grow by the Weyl constants between rounds. -/
def philox : Nat → Nat × Nat × Nat × Nat → Nat → Nat → Nat × Nat × Nat × Nat
  | 0, c, _, _ => c
  | n + 1, c, k0, k1 => philox n (philoxRound c k0 k1) ((k0 + 0x9E3779B9) % 2 ^ 32) ((k1 + 0xBB67AE85) % 2 ^ 32)

/-- The RNG value at position `i` (R264). -/
def rngVal (k0 k1 imm : W32) (i : Nat) (a : W32) : W32 :=
  let x := (philox 10 (imm.toNat, i, a.toNat, 0) k0.toNat k1.toNat).1
  fel (.fin false (x / 256) (-24))

/-- RNG as a sweep: the key words are elements 0 and 1 of B. -/
def vecRng (k0 k1 imm : W32) : VecFn := fun _ _ a _ _ =>
  (List.range a.length).map (fun i => (rngVal k0 k1 imm i (a.getD i 0), 0))

/-! ## Tile-axis operations (R263) -/

/-- What a tile-axis operation makes of the elements of one line: from a free number and the tile's type. -/
abbrev TileFn := Nat → Bool → List (Nat × W32) → W32 × Nat

/-- Run a tile-axis operation: ROW reduces the active columns of each row of RSEL, COL the rows of RSEL of each active
column. ARG results are INT32. -/
def State.runTile (s : State) (e : Nat) (y : Bool) (w : Nat) (arg noInt : Bool) (f : TileFn) : State :=
  let x := vxOf w
  let t := oTile x.a
  let int := s.accIsInt e t
  let col := oAxisCol x.a
  let fm : VxForm := { a := .accRow, td := if arg || int then .I else .F, ta := if int then .I else .F, repeats := false, reduces := true
                       tile := true, rate := .R }
  s.runVx e y fm x (fun n => decide (n > 256) || (noInt && int)) false (fun s n _ u =>
    let rows := if x.rsel = 0 then List.range 256 else s.rowSet e (x.rsel % 8)
    let act := s.maskAt e y x.mask
    let cols := (List.range n).filter act
    let at' := fun r i => s.acc e t r ((oCol0 x.a + i) % 256)
    let outs : List (Nat × W32 × Nat) := if col
      then cols.map (fun i => (i, f (drawAt s.free i) int (rows.map (fun r => (r, at' r i)))))
      else rows.map (fun r => (r, f (drawAt s.free r) int (cols.map (fun i => (i, at' r i)))))
    let mixed := oIsAcc x.d && s.accIsInt e (oTile x.d) != fm.td.isInt x.int
    let dk := outs.flatMap (fun p => (cellOf x.d none p.1).keys)
    let sk := rows.flatMap (fun r => cols.flatMap (fun i => (Cell.acc t r ((oCol0 x.a + i) % 256)).keys))
    let meet := dk.any (fun k => sk.contains k) && dk.head? != sk.head?
    let r := { s with free := s.free + 256 }.storeList e y x.d none (arg || int) (u || mixed || meet) outs
    let z := if col && x.zm then r.1.zeroList e y x.d none ((List.range n).filter (fun i => !(act i))) else r.1
    (z.bump64B (pgVxe e) 0 F.vxe_VOPS_LO_COUNT F.vxe_VOPS_HI_COUNT (rows.length - 1), r.2)) none

/-- TSUM (R261). -/
def tileSum : TileFn := fun n int l => orEmpty l 0 (sumAny int n (l.map (fun p => p.2)))
/-- TSUMSQ: each product rounded once (R263). -/
def tileSumSq : TileFn := fun n _ l => orEmpty l 0 (sumAny false n (l.map (fun p => mul32 p.2 p.2)))
/-- TMAX and TMIN (R262). -/
def tileExt (mx : Bool) : TileFn := fun _ int l =>
  orEmpty l (if mx then idMax int else idMin int) (((extreme int mx l).getD (0, 0)).2, 0)
/-- TARGMAX and TARGMIN (R262): the position within the sweep, for COL the row. -/
def tileArg (mx : Bool) : TileFn := fun _ int l => orEmpty l idIndex (BitVec.ofNat 32 ((extreme int mx l).getD (0, 0)).1, 0)

end Sys2Proof.Machine
end

