-- ==== Sys2Proof/Machine/VxExec.lean ====
section
/-! DEFINITION. The vector engine's instructions (R256 to R271). Each has its run, which the sequencer's commands share, and
the command that runs it as the next instruction of a context. -/
namespace Sys2Proof.Machine
open Sys2Proof

/-- How an instruction runs: the state, the engine, the context, the row up to which it runs before a yield (R279), and the
word. -/
abbrev OpRun := State → Nat → Bool → Option Nat → Nat → State

/-- NOP (R256): nothing; LAST is cleared. -/
def vxNop : OpRun := fun s e y _ w =>
  s.runVx e y { d := .none, a := .none, td := .X, ta := .X, repeats := false, rate := .one } (vxOf w) (fun _ => false) false
    (fun s _ _ _ => (s, 0)) none

/-! ## Elementwise -/

/-- ADD (R256). -/
def vxAdd : OpRun := fun s e y u w => s.runEl e y 0x01 elAdd u w

/-- SUB (R256). -/
def vxSub : OpRun := fun s e y u w => s.runEl e y 0x02 elSub u w

/-- MUL (R256). -/
def vxMul : OpRun := fun s e y u w => s.runEl e y 0x03 elMul u w

/-- FMA (R256). -/
def vxFma : OpRun := fun s e y u w => s.runEl e y 0x04 elFma u w

/-- MAX (R256). -/
def vxMax : OpRun := fun s e y u w => s.runEl e y 0x05 elMax u w

/-- MIN (R256). -/
def vxMin : OpRun := fun s e y u w => s.runEl e y 0x06 elMin u w

/-- MOV (R256). -/
def vxMov : OpRun := fun s e y u w => s.runEl e y 0x10 elMov u w

/-- ABS (R256). -/
def vxAbs : OpRun := fun s e y u w => s.runEl e y 0x11 elAbs u w

/-- NEG (R256). -/
def vxNeg : OpRun := fun s e y u w => s.runEl e y 0x12 elNeg u w

/-- EXP (R256). -/
def vxExp : OpRun := fun s e y u w => s.runEl e y 0x13 elExp u w

/-- LOG (R256). -/
def vxLog : OpRun := fun s e y u w => s.runEl e y 0x14 elLog u w

/-- RCP (R256). -/
def vxRcp : OpRun := fun s e y u w => s.runEl e y 0x15 elRcp u w

/-- RSQRT (R256). -/
def vxRsqrt : OpRun := fun s e y u w => s.runEl e y 0x16 elRsqrt u w

/-- SILU (R256). -/
def vxSilu : OpRun := fun s e y u w => s.runEl e y 0x17 elSilu u w

/-- GELU (R256). -/
def vxGelu : OpRun := fun s e y u w => s.runEl e y 0x18 elGelu u w

/-- SIGM (R256). -/
def vxSigm : OpRun := fun s e y u w => s.runEl e y 0x19 elSigm u w

/-- TANH (R256). -/
def vxTanh : OpRun := fun s e y u w => s.runEl e y 0x1A elTanh u w

/-- F2I (R256). -/
def vxF2i : OpRun := fun s e y u w => s.runEl e y 0x1B elF2i u w

/-- I2F (R256). -/
def vxI2f : OpRun := fun s e y u w => s.runEl e y 0x1C elI2f u w

/-- AND (R256). -/
def vxAnd : OpRun := fun s e y u w => s.runEl e y 0x20 elAnd u w

/-- OR (R256). -/
def vxOr : OpRun := fun s e y u w => s.runEl e y 0x21 elOr u w

/-- XOR (R256). -/
def vxXor : OpRun := fun s e y u w => s.runEl e y 0x22 elXor u w

/-- SHL (R256). -/
def vxShl : OpRun := fun s e y u w => s.runEl e y 0x23 elShl u w

/-- SHR (R256). -/
def vxShr : OpRun := fun s e y u w => s.runEl e y 0x24 elShr u w

/-- SRA (R256). -/
def vxSra : OpRun := fun s e y u w => s.runEl e y 0x25 elSra u w

/-- SEL (R256): every position is active. -/
def vxSel : OpRun := fun s e y u w => s.runVec e y w (elForm 0x07) true 0 (fun _ _ => false) (fun _ => vecSel) u
/-- ROTP (R256); an odd count is malformed (R258). -/
def vxRotp : OpRun := fun s e y u w => s.runVec e y w (elForm 0x1D) false 0 (fun _ n => n % 2 == 1) (fun _ => vecRotp) u

/-! ## Masks -/

/-- The form of a comparison. -/
def cmpForm : VxForm := { d := .mask, b := .dataImm, td := .X, repeats := false }
/-- Run a comparison of a code. -/
def State.runCmp (s : State) (e : Nat) (y : Bool) (op w : Nat) : State :=
  s.runMask e y w cmpForm (fun x t _ _ i => cmpRel op x.int (t.loadCell e y (cellOf x.a none i)) (t.loadCell e y (cellOf x.b none i)))

/-- CMPEQ (R256). -/
def vxCmpeq : OpRun := fun s e y _ w => s.runCmp e y 0x30 w

/-- CMPNE (R256). -/
def vxCmpne : OpRun := fun s e y _ w => s.runCmp e y 0x31 w

/-- CMPLT (R256). -/
def vxCmplt : OpRun := fun s e y _ w => s.runCmp e y 0x32 w

/-- CMPLE (R256). -/
def vxCmple : OpRun := fun s e y _ w => s.runCmp e y 0x33 w

/-- CMPGT (R256). -/
def vxCmpgt : OpRun := fun s e y _ w => s.runCmp e y 0x34 w

/-- CMPGE (R256). -/
def vxCmpge : OpRun := fun s e y _ w => s.runCmp e y 0x35 w

/-- ISNAN (R256). -/
def vxIsnan : OpRun := fun s e y _ w =>
  s.runMask e y w { d := .mask, td := .X, ta := .F, repeats := false } (fun x t _ _ i => fisNaN (fval (t.loadCell e y (cellOf x.a none i))))

/-- The form of a mask operation on two masks. -/
def mForm : VxForm := { d := .mask, a := .mask, b := .mask, td := .X, ta := .X, tb := .X, repeats := false }
/-- Run an operation on two masks. -/
def State.runMm (s : State) (e : Nat) (y : Bool) (w : Nat) (f : Bool → Bool → Bool) : State :=
  s.runMask e y w mForm (fun x t _ _ i => f (t.mbit e y (oPay x.a) i) (t.mbit e y (oPay x.b) i))
/-- MAND (R256). -/
def vxMand : OpRun := fun s e y _ w => s.runMm e y w (fun a b => a && b)
/-- MOR (R256). -/
def vxMor : OpRun := fun s e y _ w => s.runMm e y w (fun a b => a || b)
/-- MANDN (R256): Ma AND NOT Mb. -/
def vxMandn : OpRun := fun s e y _ w => s.runMm e y w (fun a b => a && !b)
/-- MNOT (R256). -/
def vxMnot : OpRun := fun s e y _ w => s.runMask e y w { mForm with b := .none } (fun x t _ _ i => !(t.mbit e y (oPay x.a) i))
/-- MFILL (R256): positions 0 to COUNT − 1 set to immediate bit 0. -/
def vxMfill : OpRun := fun s e y _ w => s.runMask e y w { mForm with a := .none, b := .imm } (fun x _ _ _ _ => bitOf (oImm x.b) 0)
/-- ROWSET (R256): bit r of RSk is bit r of Ma for r below min(COUNT, 256); the other bits are cleared. -/
def vxRowset : OpRun := fun s e y _ w =>
  let x := vxOf w
  s.runVx e y { mForm with d := .rset, b := .none } x (fun _ => false) false (fun s n _ u =>
    let m := min n 256
    let k := oPay x.d % 8
    let act := s.maskAt e y x.mask
    let bit := fun i => if u then drawAt s.free i % 2 == 1 else s.mbit e y (oPay x.a) i
    let rs := (List.range 256).foldl (fun (r : SMap Bool) i =>
      if i < m then (if act i then SMap.set r false (k * 256 + i) (bit i) else if x.zm then SMap.set r false (k * 256 + i) false else r)
      else SMap.set r false (k * 256 + i) false) (s.eng e).rs
    ({ (s.setEng e { s.eng e with rs := rs }) with free := s.free + (if u then 256 else 0) }, maskFlags m act bit)) none

/-! ## Lane-end reductions -/

/-- The form of a lane-end reduction. -/
def redForm (td : Ty) : VxForm := { td := td, reduces := true, rate := .L }

/-- RSUM (R259, R261). -/
def vxRsum : OpRun := fun s e y u w => s.runRed e y w (redForm .V) (fun _ _ => false) (fun _ => redSum) u

/-- RMAX (R262). -/
def vxRmax : OpRun := fun s e y u w => s.runRed e y w (redForm .V) (fun _ _ => false) (fun _ => redExt true) u

/-- RMIN (R262). -/
def vxRmin : OpRun := fun s e y u w => s.runRed e y w (redForm .V) (fun _ _ => false) (fun _ => redExt false) u

/-- RARGMAX (R262). -/
def vxRargmax : OpRun := fun s e y u w => s.runRed e y w (redForm .I) (fun _ _ => false) (fun _ => redArg true) u

/-- RARGMIN (R262). -/
def vxRargmin : OpRun := fun s e y u w => s.runRed e y w (redForm .I) (fun _ _ => false) (fun _ => redArg false) u

/-- RBAND (R256, R261). -/
def vxRband : OpRun := fun s e y u w => s.runRed e y w { redForm .I with ta := .I } (fun _ _ => false) (fun _ => redBits true) u

/-- RBOR (R256, R261). -/
def vxRbor : OpRun := fun s e y u w => s.runRed e y w { redForm .I with ta := .I } (fun _ _ => false) (fun _ => redBits false) u

/-! ## Tile-axis reductions -/

/-- TSUM (R260 to R263). -/
def vxTsum : OpRun := fun s e y _ w => s.runTile e y w false false (tileSum)

/-- TSUMSQ (R260 to R263). -/
def vxTsumsq : OpRun := fun s e y _ w => s.runTile e y w false true (tileSumSq)

/-- TMAX (R260 to R263). -/
def vxTmax : OpRun := fun s e y _ w => s.runTile e y w false false (tileExt true)

/-- TMIN (R260 to R263). -/
def vxTmin : OpRun := fun s e y _ w => s.runTile e y w false false (tileExt false)

/-- TARGMAX (R260 to R263). -/
def vxTargmax : OpRun := fun s e y _ w => s.runTile e y w true false (tileArg true)

/-- TARGMIN (R260 to R263). -/
def vxTargmin : OpRun := fun s e y _ w => s.runTile e y w true false (tileArg false)

/-! ## Prefix sums, searches, permutations -/

/-- SCAN (R256). -/
def vxScan : OpRun := fun s e y u w =>
  s.runVec e y w { rate := .L, apart := true } false 1 (fun _ _ => false) (fun x => vecScan x.int) u
/-- FINDGE (R256, R260, R261). -/
def vxFindge : OpRun := fun s e y u w =>
  s.runRed e y w { redForm .I with b := .dataImm } (fun _ _ => false) (fun _ => redFindge) u
/-- KTH (R256, R258, R263): K is the immediate; K = 0 is malformed. -/
def vxKth : OpRun := fun s e y u w =>
  s.runRed e y w { redForm .V with b := .imm, tb := .X, rate := .K } (fun x _ => oImm x.b == 0) (fun x => redKth (oImm x.b)) u
/-- PERM (R265). -/
def vxPerm : OpRun := fun s e y u w =>
  s.runVec e y w { b := .dataImm, tb := .I, rate := .P, apart := true } false 0 (fun _ _ => false) (fun _ => vecPerm) u
/-- BCAST (R265). -/
def vxBcast : OpRun := fun s e y u w =>
  s.runVec e y w { b := .imm, tb := .X } false 0 (fun _ _ => false) (fun x => vecBcast (oImm x.b)) u
/-- RNG (R264): the key words are elements 0 and 1 of the key register. -/
def vxRng : OpRun := fun s e y u w =>
  let k := fun (x : VxW) i => s.loadCell e y (cellOf x.b none i)
  s.runVec e y w { b := .keyImm, td := .F, ta := .I, tb := .X, rate := .T } false 0 (fun _ _ => false)
    (fun x => vecRng (k x 0) (k x 1) (BitVec.ofNat 32 (oImm19 x.b))) u

/-- The form of COMPRESS and EXPAND. -/
def packForm : VxForm := { repeats := false, rate := .P, apart := true }

/-- Set CNT of a context. -/
def State.setCnt (s : State) (e : Nat) (y : Bool) (n : Nat) : State := s.setFld (pgVxe e) (fCnt y) n

/-- Run COMPRESS or EXPAND (R265, R266): `place` gives the positions written with their elements. CNT becomes the number of
active positions. -/
def State.runPack (s : State) (e : Nat) (y : Bool) (w : Nat) (keep : (Nat → Bool) → Nat → Nat → Bool)
    (place : List Nat → List W32 → List (Nat × W32 × Nat)) : State :=
  let x := vxOf w
  let refused := s.fld (pgVxe e) F.vxe_VX_CFG_DDC_MODE == 1
  let s0 := if s.vxCount e y x = 0 && !(vxBad packForm x) && !refused then s.setCnt e y 0 else s
  s0.runVx e y packForm x (fun _ => false) refused (fun s n row u =>
    let act := s.maskAt e y x.mask
    let on := rangeP n act
    let r := s.storeList e y x.d row x.int u (place on (s.loadAll e y x.a row n))
    let z := if x.zm then r.1.zeroList e y x.d row ((List.range n).filter (fun i => !(keep act on.length i))) else r.1
    (z.setCnt e y on.length, r.2 ||| maskFlags n (fun _ => true) act)) none

/-- COMPRESS (R265): the active elements of A go to positions 0 to P − 1. [DESIGN CHOICE: log entry 70] -/
def vxCompress : OpRun := fun s e y _ w =>
  s.runPack e y w (fun _ p i => decide (i < p)) (fun on a => (List.range on.length).map (fun j => (j, a.getD (on.getD j 0) 0, 0)))
/-- EXPAND (R265): A[j] goes to the j-th active position. -/
def vxExpand : OpRun := fun s e y _ w =>
  s.runPack e y w (fun act _ i => act i) (fun on a => (List.range on.length).map (fun j => (on.getD j 0, a.getD j 0, 0)))

/-! ## The stack combine -/

/-- A word of a combine slot in a tile store (R143, R269). -/
def State.combWord (s : State) (e a0 sl off : Nat) : W32 := BitVec.ofNat 32 (leNat (bytesOf (s.storeRead e (a0 + sl * 0x2100 + off) 4)))

/-- The elements that SCMB writes (R271): head dimension `dim`, `ns` slots from `a0`, free values from `base` on; with
EMPTY for a head without a finite maximum. -/
def State.scmbVals (s : State) (e a0 ns dim base : Nat) : List (W32 × Nat) :=
  (List.range 8).flatMap (fun h =>
    let mx := (List.range ns).map (fun i => s.combWord e a0 i (32 * dim + 4 * h))
    let g := mx.foldl (fun a b => BitVec.ofNat 32 (fminmax fp32 true a.toNat b.toNat)) (inf32 true)
    if g = inf32 true then (List.range dim).map (fun _ => (0#32, flEmpty))
    else
      let f := (List.range ns).map (fun i =>
        if mx.getD i 0 = inf32 true then 0#32 else expApprox (sub32 (mx.getD i 0) g) (drawAt base (h * 32 + i)))
      let prods := fun (off : Nat) => (List.range ns).map (fun i => mul32 (f.getD i 0) (s.combWord e a0 i off))
      let lt := (sumAny false (drawAt base (256 + h)) (prods (32 * dim + 32 + 4 * h))).1
      let r := rcpApprox lt (drawAt base (264 + h))
      (List.range dim).map (fun d => (mul32 (sumAny false (drawAt base (272 + dim * h + d)) (prods (4 * (dim * h + d)))).1 r, 0)))

/-- SCMB (R269 to R271, R296). -/
def vxScmb : OpRun := fun s e y _ w =>
  let x := vxOf w
  let ns := oImm x.b % 32
  let dc := bitsOf (oImm x.b) 6 5
  let dim := 64 * 2 ^ dc
  let a0 := oAddr x.a
  let len := ns * 0x2100
  let src := (List.range len).map (fun i => 2 ^ 25 + (a0 + i) % 2 ^ 22)
  s.runVx e y { b := .imm, td := .F, ta := .X, tb := .X, repeats := false, reduces := true, rate := .S } x
    (fun n => oKind x.a != 0x10 || ns == 0 || decide (ns > 20) || dc == 3 || n != 8 * dim) false
    (fun s n row u =>
      let out := s.scmbVals e a0 ns dim s.free
      let act := s.maskAt e y x.mask
      let laps := (sweepKeys x.d row n).any (fun k => src.contains k)
      let r := { s with free := s.free + 272 + n }.storeList e y x.d row false (u || laps)
        ((rangeP n act).map (fun i => (i, out.getD i (0, 0))))
      (if x.zm then r.1.zeroList e y x.d row ((List.range n).filter (fun i => !(act i))) else r.1, r.2)) none
    { out := !(s.storeGranted e a0 len), misuse := a0 % 256 != 0 || !(s.storeProgram e a0 len), ue := s.storeUe e a0 len
      hand := (ns + 1) * 8 * dim / 128 }

/-! ## The keeper summary -/

/-- The 64-bit summary of R267. -/
def summaryOf (n : Nat) (int mn : Bool) (l : List (Nat × W32)) : Nat :=
  let c := l.length
  let x := (extreme int (!mn) l).getD (0x1FFF, if mn then idMin int else idMax int)
  c + b2n (c > 0) * 2 ^ 13 + b2n (c == n) * 2 ^ 14 + b2n (c == 0) * 2 ^ 15 + (x.1 % 2 ^ 13) * 2 ^ 16 + b2n mn * 2 ^ 29
    + x.2.toNat * 2 ^ 32

/-- The mailbox entry of a SUMMARY or NOTIFY (R267, R304): its first 8 bytes and its KIND. -/
def progEntry (e pc : Nat) (y : Bool) (first : Nat) (kind : Nat) : List Byte :=
  leBytes 8 first ++ leBytes 2 (pc % 16384) ++ leBytes 1 e ++ leBytes 1 (b2n y) ++ leBytes 4 kind

/-- SUMMARY (R266, R267): the summary is posted to the die's keeper, and the context waits for the branch word. -/
def vxSummary : OpRun := fun s e y _ w =>
  let x := vxOf w
  let zero := s.vxCount e y x == 0
  s.runVx e y { d := .none, b := .imm, td := .X, tb := .X, repeats := false, reduces := true, rate := .L } x (fun _ => false)
    (s.fld (pgVxe e) F.vxe_VX_CFG_DDC_MODE != 1)
    (fun s n row u =>
      let act := s.maskAt e y x.mask
      let l := (rangeP n act).map (fun i => (i, s.loadCell e y (cellOf x.a row i)))
      let v := if u then s.free else 0
      let sum := if u then (drawAt v 0 % 2 ^ 64) else summaryOf n x.int (bitOf (oImm x.b) 0) l
      let pc := (s.ctx e y).pc
      let s1 := { s with free := s.free + (if u then 1 else 0) }.post (engQuad e) (progEntry e pc y sum 0)
      let s2 := (s1.setReg (pgVxe e) 0 0x058 (BitVec.ofNat 32 sum)).setReg (pgVxe e) 0 0x05C (BitVec.ofNat 32 (sum / 2 ^ 32))
      let s3 := s2.setCtx e y { s2.ctx e y with waitBranch := true, summary := sum, sumInt := x.int }
      let s4 := if y then s3.setFld (pgVxe e) F.vxe_Y_STATUS_WAIT_BRANCH 1 else s3
      (s4, maskFlags n (fun _ => true) act ||| flIf l.isEmpty flEmpty)) none { stay := !zero }

/-! ## The run of a code -/

/-- The run of a VX operation code. -/
def vxRunOf (op : Nat) : OpRun :=
  match op with
  | 0x01 => vxAdd
  | 0x02 => vxSub
  | 0x03 => vxMul
  | 0x04 => vxFma
  | 0x05 => vxMax
  | 0x06 => vxMin
  | 0x07 => vxSel
  | 0x10 => vxMov
  | 0x11 => vxAbs
  | 0x12 => vxNeg
  | 0x13 => vxExp
  | 0x14 => vxLog
  | 0x15 => vxRcp
  | 0x16 => vxRsqrt
  | 0x17 => vxSilu
  | 0x18 => vxGelu
  | 0x19 => vxSigm
  | 0x1A => vxTanh
  | 0x1B => vxF2i
  | 0x1C => vxI2f
  | 0x1D => vxRotp
  | 0x20 => vxAnd
  | 0x21 => vxOr
  | 0x22 => vxXor
  | 0x23 => vxShl
  | 0x24 => vxShr
  | 0x25 => vxSra
  | 0x30 => vxCmpeq
  | 0x31 => vxCmpne
  | 0x32 => vxCmplt
  | 0x33 => vxCmple
  | 0x34 => vxCmpgt
  | 0x35 => vxCmpge
  | 0x36 => vxIsnan
  | 0x38 => vxMand
  | 0x39 => vxMor
  | 0x3A => vxMandn
  | 0x3B => vxMnot
  | 0x3C => vxMfill
  | 0x3D => vxRowset
  | 0x40 => vxRsum
  | 0x41 => vxRmax
  | 0x42 => vxRmin
  | 0x43 => vxRargmax
  | 0x44 => vxRargmin
  | 0x45 => vxRband
  | 0x46 => vxRbor
  | 0x48 => vxTsum
  | 0x49 => vxTsumsq
  | 0x4A => vxTmax
  | 0x4B => vxTmin
  | 0x4C => vxTargmax
  | 0x4D => vxTargmin
  | 0x50 => vxScan
  | 0x51 => vxFindge
  | 0x52 => vxKth
  | 0x58 => vxPerm
  | 0x59 => vxBcast
  | 0x5A => vxCompress
  | 0x5B => vxExpand
  | 0x60 => vxScmb
  | 0x61 => vxRng
  | 0x62 => vxSummary
  | _ => vxNop

/-! ## The commands -/

/-- VX_NOP (R256). A word of a reserved opcode passes here: its results are undefined (R245, R286). [DESIGN CHOICE: log entry 74] -/
def execVxNop (e : Fin 32) (y : Bool) (s : State) : Out :=
  let w := s.progWord e (s.ctx e y).pc
  .next (if s.canRun e y && wReserved w then (s.taint e y).advance e y else s.runOp e y 2 0x00 (fun w s => vxNop s e y none w))

/-- ADD as the next instruction of a context. -/
def execAdd (e : Fin 32) (y : Bool) (s : State) : Out := .next (s.runOp e y 2 0x01 (fun w s => vxAdd s e y none w))

/-- SUB as the next instruction of a context. -/
def execSub (e : Fin 32) (y : Bool) (s : State) : Out := .next (s.runOp e y 2 0x02 (fun w s => vxSub s e y none w))

/-- MUL as the next instruction of a context. -/
def execMul (e : Fin 32) (y : Bool) (s : State) : Out := .next (s.runOp e y 2 0x03 (fun w s => vxMul s e y none w))

/-- FMA as the next instruction of a context. -/
def execFma (e : Fin 32) (y : Bool) (s : State) : Out := .next (s.runOp e y 2 0x04 (fun w s => vxFma s e y none w))

/-- MAX as the next instruction of a context. -/
def execMax (e : Fin 32) (y : Bool) (s : State) : Out := .next (s.runOp e y 2 0x05 (fun w s => vxMax s e y none w))

/-- MIN as the next instruction of a context. -/
def execMin (e : Fin 32) (y : Bool) (s : State) : Out := .next (s.runOp e y 2 0x06 (fun w s => vxMin s e y none w))

/-- MOV as the next instruction of a context. -/
def execMov (e : Fin 32) (y : Bool) (s : State) : Out := .next (s.runOp e y 2 0x10 (fun w s => vxMov s e y none w))

/-- ABS as the next instruction of a context. -/
def execAbs (e : Fin 32) (y : Bool) (s : State) : Out := .next (s.runOp e y 2 0x11 (fun w s => vxAbs s e y none w))

/-- NEG as the next instruction of a context. -/
def execNeg (e : Fin 32) (y : Bool) (s : State) : Out := .next (s.runOp e y 2 0x12 (fun w s => vxNeg s e y none w))

/-- EXP as the next instruction of a context. -/
def execExp (e : Fin 32) (y : Bool) (s : State) : Out := .next (s.runOp e y 2 0x13 (fun w s => vxExp s e y none w))

/-- LOG as the next instruction of a context. -/
def execLog (e : Fin 32) (y : Bool) (s : State) : Out := .next (s.runOp e y 2 0x14 (fun w s => vxLog s e y none w))

/-- RCP as the next instruction of a context. -/
def execRcp (e : Fin 32) (y : Bool) (s : State) : Out := .next (s.runOp e y 2 0x15 (fun w s => vxRcp s e y none w))

/-- RSQRT as the next instruction of a context. -/
def execRsqrt (e : Fin 32) (y : Bool) (s : State) : Out := .next (s.runOp e y 2 0x16 (fun w s => vxRsqrt s e y none w))

/-- SILU as the next instruction of a context. -/
def execSilu (e : Fin 32) (y : Bool) (s : State) : Out := .next (s.runOp e y 2 0x17 (fun w s => vxSilu s e y none w))

/-- GELU as the next instruction of a context. -/
def execGelu (e : Fin 32) (y : Bool) (s : State) : Out := .next (s.runOp e y 2 0x18 (fun w s => vxGelu s e y none w))

/-- SIGM as the next instruction of a context. -/
def execSigm (e : Fin 32) (y : Bool) (s : State) : Out := .next (s.runOp e y 2 0x19 (fun w s => vxSigm s e y none w))

/-- TANH as the next instruction of a context. -/
def execTanh (e : Fin 32) (y : Bool) (s : State) : Out := .next (s.runOp e y 2 0x1A (fun w s => vxTanh s e y none w))

/-- F2I as the next instruction of a context. -/
def execF2i (e : Fin 32) (y : Bool) (s : State) : Out := .next (s.runOp e y 2 0x1B (fun w s => vxF2i s e y none w))

/-- I2F as the next instruction of a context. -/
def execI2f (e : Fin 32) (y : Bool) (s : State) : Out := .next (s.runOp e y 2 0x1C (fun w s => vxI2f s e y none w))

/-- AND as the next instruction of a context. -/
def execAnd (e : Fin 32) (y : Bool) (s : State) : Out := .next (s.runOp e y 2 0x20 (fun w s => vxAnd s e y none w))

/-- OR as the next instruction of a context. -/
def execOr (e : Fin 32) (y : Bool) (s : State) : Out := .next (s.runOp e y 2 0x21 (fun w s => vxOr s e y none w))

/-- XOR as the next instruction of a context. -/
def execXor (e : Fin 32) (y : Bool) (s : State) : Out := .next (s.runOp e y 2 0x22 (fun w s => vxXor s e y none w))

/-- SHL as the next instruction of a context. -/
def execShl (e : Fin 32) (y : Bool) (s : State) : Out := .next (s.runOp e y 2 0x23 (fun w s => vxShl s e y none w))

/-- SHR as the next instruction of a context. -/
def execShr (e : Fin 32) (y : Bool) (s : State) : Out := .next (s.runOp e y 2 0x24 (fun w s => vxShr s e y none w))

/-- SRA as the next instruction of a context. -/
def execSra (e : Fin 32) (y : Bool) (s : State) : Out := .next (s.runOp e y 2 0x25 (fun w s => vxSra s e y none w))

/-- SEL as the next instruction of a context. -/
def execSel (e : Fin 32) (y : Bool) (s : State) : Out := .next (s.runOp e y 2 0x07 (fun w s => vxSel s e y none w))

/-- ROTP as the next instruction of a context. -/
def execRotp (e : Fin 32) (y : Bool) (s : State) : Out := .next (s.runOp e y 2 0x1D (fun w s => vxRotp s e y none w))

/-- CMPEQ as the next instruction of a context. -/
def execCmpeq (e : Fin 32) (y : Bool) (s : State) : Out := .next (s.runOp e y 2 0x30 (fun w s => vxCmpeq s e y none w))

/-- CMPNE as the next instruction of a context. -/
def execCmpne (e : Fin 32) (y : Bool) (s : State) : Out := .next (s.runOp e y 2 0x31 (fun w s => vxCmpne s e y none w))

/-- CMPLT as the next instruction of a context. -/
def execCmplt (e : Fin 32) (y : Bool) (s : State) : Out := .next (s.runOp e y 2 0x32 (fun w s => vxCmplt s e y none w))

/-- CMPLE as the next instruction of a context. -/
def execCmple (e : Fin 32) (y : Bool) (s : State) : Out := .next (s.runOp e y 2 0x33 (fun w s => vxCmple s e y none w))

/-- CMPGT as the next instruction of a context. -/
def execCmpgt (e : Fin 32) (y : Bool) (s : State) : Out := .next (s.runOp e y 2 0x34 (fun w s => vxCmpgt s e y none w))

/-- CMPGE as the next instruction of a context. -/
def execCmpge (e : Fin 32) (y : Bool) (s : State) : Out := .next (s.runOp e y 2 0x35 (fun w s => vxCmpge s e y none w))

/-- ISNAN as the next instruction of a context. -/
def execIsnan (e : Fin 32) (y : Bool) (s : State) : Out := .next (s.runOp e y 2 0x36 (fun w s => vxIsnan s e y none w))

/-- MAND as the next instruction of a context. -/
def execMand (e : Fin 32) (y : Bool) (s : State) : Out := .next (s.runOp e y 2 0x38 (fun w s => vxMand s e y none w))

/-- MOR as the next instruction of a context. -/
def execMor (e : Fin 32) (y : Bool) (s : State) : Out := .next (s.runOp e y 2 0x39 (fun w s => vxMor s e y none w))

/-- MANDN as the next instruction of a context. -/
def execMandn (e : Fin 32) (y : Bool) (s : State) : Out := .next (s.runOp e y 2 0x3A (fun w s => vxMandn s e y none w))

/-- MNOT as the next instruction of a context. -/
def execMnot (e : Fin 32) (y : Bool) (s : State) : Out := .next (s.runOp e y 2 0x3B (fun w s => vxMnot s e y none w))

/-- MFILL as the next instruction of a context. -/
def execMfill (e : Fin 32) (y : Bool) (s : State) : Out := .next (s.runOp e y 2 0x3C (fun w s => vxMfill s e y none w))

/-- ROWSET as the next instruction of a context. -/
def execRowset (e : Fin 32) (y : Bool) (s : State) : Out := .next (s.runOp e y 2 0x3D (fun w s => vxRowset s e y none w))

/-- RSUM as the next instruction of a context. -/
def execRsum (e : Fin 32) (y : Bool) (s : State) : Out := .next (s.runOp e y 2 0x40 (fun w s => vxRsum s e y none w))

/-- RMAX as the next instruction of a context. -/
def execRmax (e : Fin 32) (y : Bool) (s : State) : Out := .next (s.runOp e y 2 0x41 (fun w s => vxRmax s e y none w))

/-- RMIN as the next instruction of a context. -/
def execRmin (e : Fin 32) (y : Bool) (s : State) : Out := .next (s.runOp e y 2 0x42 (fun w s => vxRmin s e y none w))

/-- RARGMAX as the next instruction of a context. -/
def execRargmax (e : Fin 32) (y : Bool) (s : State) : Out := .next (s.runOp e y 2 0x43 (fun w s => vxRargmax s e y none w))

/-- RARGMIN as the next instruction of a context. -/
def execRargmin (e : Fin 32) (y : Bool) (s : State) : Out := .next (s.runOp e y 2 0x44 (fun w s => vxRargmin s e y none w))

/-- RBAND as the next instruction of a context. -/
def execRband (e : Fin 32) (y : Bool) (s : State) : Out := .next (s.runOp e y 2 0x45 (fun w s => vxRband s e y none w))

/-- RBOR as the next instruction of a context. -/
def execRbor (e : Fin 32) (y : Bool) (s : State) : Out := .next (s.runOp e y 2 0x46 (fun w s => vxRbor s e y none w))

/-- TSUM as the next instruction of a context. -/
def execTsum (e : Fin 32) (y : Bool) (s : State) : Out := .next (s.runOp e y 2 0x48 (fun w s => vxTsum s e y none w))

/-- TSUMSQ as the next instruction of a context. -/
def execTsumsq (e : Fin 32) (y : Bool) (s : State) : Out := .next (s.runOp e y 2 0x49 (fun w s => vxTsumsq s e y none w))

/-- TMAX as the next instruction of a context. -/
def execTmax (e : Fin 32) (y : Bool) (s : State) : Out := .next (s.runOp e y 2 0x4A (fun w s => vxTmax s e y none w))

/-- TMIN as the next instruction of a context. -/
def execTmin (e : Fin 32) (y : Bool) (s : State) : Out := .next (s.runOp e y 2 0x4B (fun w s => vxTmin s e y none w))

/-- TARGMAX as the next instruction of a context. -/
def execTargmax (e : Fin 32) (y : Bool) (s : State) : Out := .next (s.runOp e y 2 0x4C (fun w s => vxTargmax s e y none w))

/-- TARGMIN as the next instruction of a context. -/
def execTargmin (e : Fin 32) (y : Bool) (s : State) : Out := .next (s.runOp e y 2 0x4D (fun w s => vxTargmin s e y none w))

/-- SCAN as the next instruction of a context. -/
def execScan (e : Fin 32) (y : Bool) (s : State) : Out := .next (s.runOp e y 2 0x50 (fun w s => vxScan s e y none w))

/-- FINDGE as the next instruction of a context. -/
def execFindge (e : Fin 32) (y : Bool) (s : State) : Out := .next (s.runOp e y 2 0x51 (fun w s => vxFindge s e y none w))

/-- KTH as the next instruction of a context. -/
def execKth (e : Fin 32) (y : Bool) (s : State) : Out := .next (s.runOp e y 2 0x52 (fun w s => vxKth s e y none w))

/-- PERM as the next instruction of a context. -/
def execPerm (e : Fin 32) (y : Bool) (s : State) : Out := .next (s.runOp e y 2 0x58 (fun w s => vxPerm s e y none w))

/-- BCAST as the next instruction of a context. -/
def execBcast (e : Fin 32) (y : Bool) (s : State) : Out := .next (s.runOp e y 2 0x59 (fun w s => vxBcast s e y none w))

/-- COMPRESS as the next instruction of a context. -/
def execCompress (e : Fin 32) (y : Bool) (s : State) : Out := .next (s.runOp e y 2 0x5A (fun w s => vxCompress s e y none w))

/-- EXPAND as the next instruction of a context. -/
def execExpand (e : Fin 32) (y : Bool) (s : State) : Out := .next (s.runOp e y 2 0x5B (fun w s => vxExpand s e y none w))

/-- SCMB as the next instruction of a context. -/
def execScmb (e : Fin 32) (y : Bool) (s : State) : Out := .next (s.runOp e y 2 0x60 (fun w s => vxScmb s e y none w))

/-- RNG as the next instruction of a context. -/
def execRng (e : Fin 32) (y : Bool) (s : State) : Out := .next (s.runOp e y 2 0x61 (fun w s => vxRng s e y none w))

/-- SUMMARY as the next instruction of a context. -/
def execSummary (e : Fin 32) (y : Bool) (s : State) : Out := .next (s.runOp e y 2 0x62 (fun w s => vxSummary s e y none w))

end Sys2Proof.Machine
end

