-- ==== Sys2Proof/Machine/Mx.lean ====
section
/-! DEFINITION. The matrix array: weight tiles, the latch and the feed, MX instructions (R220 to R235, R288, R289, R211). -/
namespace Sys2Proof.Machine
open Sys2Proof

/-! ## The scale store (R223) -/

/-- Buffer `b` of an engine's scale store. -/
def Eng.scaleAt (x : Eng) (b : Nat) : ScaleBuf := x.scale.getD b {}

/-- Bind the next plane in scale-store order to a tile that is latched (R223). [DESIGN CHOICE: log entry 78] -/
def Eng.bindPlane (x : Eng) (t : LatchTile) : Eng × LatchTile :=
  let b := x.bind
  let z := x.scaleAt b
  if z.bound < z.planes.length then
    let z' : ScaleBuf := { z with bound := z.bound + 1, live := z.live + 1 }
    ({ x with scale := x.scale.set b z', bind := if z.bound + 1 ≥ 16 then 1 - b else b }, { t with plane := z.planes[z.bound]?, scaleBuf := some b })
  else (x, t)

/-- The buffer a SCALE may fill: a free one. -/
def Eng.freeScale (x : Eng) : Option Nat :=
  [x.bind, 1 - x.bind].find? (fun b => (x.scaleAt b).planes.isEmpty && (x.scaleAt b).live == 0)

/-- The buffer the next expanded plane goes to. -/
def Eng.planeRoom (x : Eng) : Option Nat :=
  if !(x.scaleAt (1 - x.bind)).planes.isEmpty && (x.scaleAt (1 - x.bind)).planes.length < 16 then some (1 - x.bind)
  else if (x.scaleAt x.bind).planes.length < 16 then some x.bind
  else if (x.scaleAt (1 - x.bind)).planes.isEmpty then some (1 - x.bind) else none

/-- A tile that held a plane leaves the latch; the buffer is freed with its last bound tile. -/
def Eng.dropPlane (x : Eng) (t : LatchTile) : Eng :=
  match t.scaleBuf with
  | none => x
  | some b =>
    let z := x.scaleAt b
    let live := z.live - 1
    { x with scale := x.scale.set b (if live = 0 && (z.bound ≥ 16 || x.bind != b) then {} else { z with live := live }) }

/-- The planes of a scale tile (R222). -/
def planesOf (bs : List Byte) : List (List Byte) := (List.range 16).map (fun j => slice bs (4096 * j) 4096)

/-- Put a scale tile into a free buffer, which binds from now on. -/
def Eng.loadScale (x : Eng) (b : Nat) (bs : List Byte) : Eng :=
  let old := x.scaleAt x.bind
  let sc := if b != x.bind && old.live == 0 then x.scale.set x.bind {} else x.scale
  { x with scale := sc.set b { planes := planesOf bs }, bind := b }

/-! ## The feed -/

/-- The expander's work on a compressed staged unit (R202 to R204, R211): the staged bytes are read as an object that
begins with its groups' index words. -/
def State.expandUnit (s : State) (e : Nat) (g : Staged) (fn : Nat) (tbl : List Byte) (o : Obj) : List BlkRead × State :=
  let elem := tblElem tbl
  let k := blocksPerUnit elem
  let packed := o.comp == 2
  let il := 4 * g.words.length
  let words := g.words.flatMap (fun w => leBytes 4 (w + il))
  let rd := fun (s : State) (off n : Nat) =>
    ((if packed && off + n ≤ il then [(slice words off n, false)]
      else s.storeRead e (g.frame * 65536 + (if packed then off - il else off)) n : List Piece), (none : SpaceEnd), s)
  let r := expandBlocks rd tbl packed o.slotBytes 0 (k - 1) false k 0 none false s
  (r.1, r.1.foldl (fun s b => s.countFlags (2 * engQuad e) (e % 8) fn b.flags) r.2.2.2)

/-- Report an object that a round's feed could not use to the die's keeper (R213, R215). [DESIGN CHOICE: log entry 81] -/
def State.feedFault (s : State) (q fn o status : Nat) : State :=
  let k := s.keeper q
  if k.feedFaults.contains (fn, o, status) then s else s.setKeeper q { k with feedFaults := k.feedFaults ++ [(fn, o, status)] }

/-- Room in the smoothing queue: two units for a wide tile that waits at the head of the feed queue, else one (R211). -/
def Eng.smoothRoom (x : Eng) : Nat :=
  match x.feed.head? with
  | some f => if f.wide then 2 else 1
  | none => 1
/-- The first staged compressed unit that is not in the smoothing queue yet. -/
def Eng.nextPacked (x : Eng) : Option Staged := x.staged.find? (fun g => g.comp && !(x.smooth.any (fun z => z.2 == g.frame)))
/-- Does the unit need a scale plane, whose place in the scale store is not free? -/
def State.planeWaits (s : State) (e : Nat) (o : Obj) : Bool :=
  tblElem (s.tblData o.tblSlot o.tblGen) == 3 && (s.eng e).planeRoom.isNone
/-- A staged compressed unit expands into the smoothing queue, and its scale plane into the scale store (R211, R213, R215). -/
def State.expandStaged (s : State) (e : Nat) (g : Staged) (fn oi unit : Nat) : State :=
  let o := s.obj fn oi
  let tbl := s.tblData o.tblSlot o.tblGen
  let need := tblElem tbl == 3
  let q := engQuad e
  let r := s.expandUnit e g fn tbl o
  let t : LatchTile := { data := r.1.flatMap (fun b => b.data), poison := r.1.any (fun b => b.poison), src := .object fn oi unit }
  let s1 := if s.strict fn && r.1.any (fun b => b.flags.any) then r.2.feedFault q fn oi 3 else r.2
  let s2 := if t.poison then s1.raise (pgPmp (2 * q)) 3 else s1
  let x2 := s2.eng e
  let x3 := { x2 with smooth := x2.smooth ++ [(t, g.frame)] }
  let add := fun (b : Nat) =>
    { x3 with scale := x3.scale.set b { x3.scaleAt b with planes := (x3.scaleAt b).planes ++ [r.1.flatMap (fun b => b.scales)] } }
  s2.setEng e (if need then (match x3.planeRoom with | some b => add b | none => x3) else x3)

/-- FEED_EXPAND (R211, R213, R215): the engine-feed pump expands its first staged compressed unit into the smoothing queue
when the queue has room, and the unit's scale plane into the scale store. -/
def execFeedExpand (e : Fin 32) (s : State) : Out :=
  let x := s.eng e
  match x.nextPacked with
  | none => .next s
  | some g =>
    if x.smooth.length ≥ x.smoothRoom then .next s
    else
      match g.src with
      | .object fn oi unit =>
        if g.bad ≠ 0 then
          .next (s.setEng e { x with smooth := x.smooth ++ [({ data := List.replicate 65536 0#8, src := .object fn oi unit, bad := g.bad }, g.frame)] })
        else if s.planeWaits e (s.obj fn oi) then .next s
        else .next (s.expandStaged e g fn oi unit)
      | _ => .next s

/-- The tile of staged frames at the head of the priming order: its bytes and mark, and the frames it takes; none when they
are not there yet. -/
def State.primeTile (s : State) (e : Nat) (wide : Bool) : Option (LatchTile × List Staged) :=
  let x := s.eng e
  let n := if wide then 2 else 1
  let gs := x.staged.take n
  if gs.length < n then none
  else
    let ts : List (Option LatchTile) := gs.map (fun g =>
      if g.comp then (x.smooth.find? (fun z => z.2 == g.frame)).map (fun z => z.1)
      else
        let ps := s.storeRead e (g.frame * 65536) 65536
        some { data := bytesOf ps, poison := poisonIn ps, src := g.src, bad := g.bad })
    if ts.any (fun t => t.isNone) then none
    else
      let ys := ts.filterMap id
      some ({ data := ys.flatMap (fun t => t.data), poison := ys.any (fun t => t.poison), src := (ys.headD {}).src
              bad := ys.foldl (fun b t => if b = 0 then t.bad else b) 0 }, gs)

/-- Priming frames leave the engine once latched (R186, R291): their table references go (R213). -/
def State.freeStaged (s : State) (e : Nat) (gs : List Staged) : State :=
  let x := s.eng e
  let fr := gs.map (fun g => g.frame)
  let s1 := s.setEng e { x with staged := x.staged.filter (fun g => !(fr.contains g.frame))
                                smooth := x.smooth.filter (fun z => !(fr.contains z.2)) }
  gs.foldl (fun s g => match g.tbl with
    | some (i, n) => s.tblRef i n false
    | none => s) s1

/-- LATCH_FILL (R223, R224, R291): the engine-feed pump takes the first entry of the feed queue: a tile into the free latch
buffer, with the next scale plane bound to it, or a scale tile into the free scale-store buffer. -/
def execLatchFill (e : Fin 32) (s : State) : Out :=
  let x := s.eng e
  match x.feed with
  | [] => .next s
  | f :: fs =>
    let n := if f.wide then 131072 else 65536
    let src := if f.prime then s.primeTile e f.wide
      else
        let ps := s.storeRead e f.addr n
        some ({ data := bytesOf ps, src := .frame f.addr }, [])
    match src with
    | none => .next s
    | some (t, gs) =>
      if !f.prime && s.storeUe e f.addr n then
        .next ((s.setEng e { x with feed := fs }).stopM e f.y 1)
      else if f.scale then
        match x.freeScale with
        | none => .next s
        | some b => .next ((s.setEng e { x.loadScale b t.data with feed := fs }).freeStaged e gs)
      else
        match x.freeLatch with
        | none => .next s
        | some b =>
          let z := x.bindPlane { t with y := f.y }
          let s1 := (s.setEng e { z.1.fill b z.2 with feed := fs }).freeStaged e gs
          let s2 := match t.bad, t.src with
            | 0, _ => s1
            | k, .object fn oi _ => s1.feedFault (engQuad e) fn oi (if k = 1 then 5 else 3)
            | _, _ => s1
          .next (if t.poison then s2.raise (pgPmp (2 * engQuad e)) 3 else s2)

/-! ## Arithmetic -/

/-- The weight format of WFMT, of the activations by AFMT (R227, R288). -/
def wFmt (w : Nat) : FFmt := match w with | 0 => e4m3 | 1 => e5m2 | 2 => e2m1 | _ => bf16
def aFmt (wf a : Nat) : FFmt := if wf = 4 then bf16 else if a = 1 then e5m2 else e4m3

/-- Weight W[k][n] of a tile as its pattern (R220). -/
def tileWeight (wf : Nat) (data : List Byte) (k n : Nat) : Nat :=
  match wf with
  | 2 => (data.getD (256 * n + k / 2) 0).toNat / (if k % 2 = 0 then 1 else 16) % 16
  | 4 => leAt data (512 * n + 2 * k) 2
  | _ => (data.getD (256 * n + k) 0).toNat

/-- Input positions of a segment: 32, in FP4 64 (R233). -/
def segLen (wf : Nat) : Nat := if wf = 2 then 64 else 32

/-- Activation `k` of an operand as its pattern (R227). -/
def actAt (wf : Nat) (op : List Byte) (k : Nat) : Nat := if wf = 4 then leAt op (2 * k) 2 else (op.getD k 0).toNat

/-- The exact sum of the products of weight and activation at `len` positions from `k0` (R233, R234). -/
def dot (wf af : Nat) (data op : List Byte) (n k0 len : Nat) : FVal :=
  fsum ((List.range len).map (fun i =>
    fmul (fdec (wFmt wf) (tileWeight wf data (k0 + i) n)) (fdec (aFmt wf af) (actAt wf op (k0 + i)))))

/-- The value of an E8M0 scale (R231): 0xFF is the NaN. -/
def scaleVal (b : Byte) : FVal := if b = 0xFF#8 then .nan else .fin false 1 ((b.toNat : Int) - 127)

/-- A segment's sum, rounded once to FP32 (R233): in FP4 each scale block's exact sum is multiplied by its scale. -/
def segSum (wf af : Nat) (data plane op : List Byte) (n j : Nat) : W32 :=
  fel (if wf = 2 then
    fsum ((List.range 2).map (fun h => fmul (dot wf af data op n (64 * j + 32 * h) 32) (scaleVal (plane.getD (16 * n + 2 * j + h) 0))))
  else dot wf af data op n (32 * j) 32)

/-- A segment's exact INT8 sum (R235). -/
def segInt (data op : List Byte) (n j : Nat) : Int :=
  ((List.range 32).map (fun i =>
    toSigned 8 (tileWeight 3 data (32 * j + i) n) * toSigned 8 (actAt 3 op (32 * j + i)))).sum

/-- A column's new accumulator value (R233, R235): the eight segment sums in an order the free number picks. [DESIGN CHOICE: log entry 76] -/
def colAcc (wf af : Nat) (ow : Bool) (data plane op : List Byte) (n : Nat) (old : W32) (draw : Nat) : W32 :=
  if wf = 3 then
    BitVec.ofNat 32 (ofSigned 32 ((if ow then 0 else sval old) + ((List.range 8).map (segInt data op n)).sum))
  else
    let l := arrival 8 draw ((List.range 8).map (segSum wf af data plane op n))
    if ow then (match l with | [] => old | x :: xs => xs.foldl add32 x) else l.foldl add32 old

/-! ## MX instructions -/

/-- Release the current latch buffer; the other becomes current (R224). -/
def State.release (s : State) (e : Nat) : State :=
  let x := s.eng e
  let x1 := match x.latch.getD x.cur none with
    | some t => x.dropPlane t
    | none => x
  s.setEng e { x1 with latch := x1.latch.set x1.cur none, cur := 1 - x1.cur }

/-- Compute one served row. -/
def State.mmaRow (s : State) (e t wf af seg : Nat) (ow undef : Bool) (tile : LatchTile) (r : Nat) : State :=
  let len := if wf = 0 ∨ wf = 1 ∨ wf = 3 then 256 else 512
  let op := (List.range len).map (fun i => SMap.get (s.eng e).rows 0#8 (r * 16384 + (512 * seg + i) % 16384))
  let base := s.free
  let vals := (List.range 256).map (fun n =>
    if undef then BitVec.ofNat 32 (drawAt base n)
    else colAcc wf af ow tile.data (tile.plane.getD []) op n (s.acc e t r n) (drawAt base n))
  ((List.range 256).foldl (fun (s : State) n => s.setAcc e t r n (vals.getD n 0)) { s with free := base + 256 })

/-- MMA (R224, R225, R227 to R229, R233 to R235): it waits while no latch buffer is filled or the tile is poisoned. -/
def mxMma : OpRun := fun s e y _ w =>
  let t := bitsOf w 11 10
  let ow := bitOf w 12
  let rel := bitOf w 13
  let rs := bitsOf w 21 19
  let wf := bitsOf w 24 22
  let c := s.ctx e y
  let x := s.eng e
  if y && (!(s.accGranted e t) || !(s.setGranted e rs)) then s.stopV e y 3
  else match x.latch.getD x.cur none with
  | none =>
    if c.waited then s else (s.setCtx e y { c with waited := true }).event (pgMxe e)
  | some tile =>
    let rows := s.rowSet e rs
    if rows.isEmpty then (if rel then s.release e else s).advance e y
    else if tile.poison then
      if c.poisonWaited then s
      else ((s.setCtx e y { c with poisonWaited := true }).bump (pgMxe e) F.mxe_POISON_WAITS_COUNT 1).raise (pgMxe e) 2
    else if !ow && s.accIsInt e t != (wf == 3) then s.stopM e y 0
    else
      let misuse := (wf == 2 && tile.plane.isNone) || decide (tile.data.length < (if wf = 4 then 131072 else 65536))
      let s0 := if misuse then s.taint e y else s
      let undef := (s0.ctx e y).tainted
      let s1 := if ow then s0.setAccInt e t (wf == 3) else s0
      let s2 := rows.foldl (fun (s : State) r => s.mmaRow e t wf (bitsOf w 25 25) (bitsOf w 18 14) ow undef tile r) s1
      let s3 := s2.countMx e (rows.length * (if wf = 4 then 4 else 1))
      (if rel then s3.release e else s3).advance e y

/-- ACCSET (R289): the tile's type, and zero in every row of the row set. -/
def mxAccset : OpRun := fun s e y _ w =>
  let t := bitsOf w 11 10
  let rs := bitsOf w 21 19
  if y && (!(s.accGranted e t) || !(s.setGranted e rs)) then s.stopV e y 3
  else
    let rows := s.rowSet e rs
    let s1 := s.setAccInt e t (bitOf w 26)
    let s2 := rows.foldl (fun (s : State) r => (List.range 256).foldl (fun (s : State) n => s.setAcc e t r n 0#32) s) s1
    (s2.countMx e rows.length).advance e y

/-- MMA as the next instruction of a context. [DESIGN CHOICE: log entry 78] -/
def execMma (e : Fin 32) (y : Bool) (s : State) : Out := .next (s.runOp e y 1 0x01 (fun w s => mxMma s e y none w))
/-- ACCSET as the next instruction of a context. -/
def execAccset (e : Fin 32) (y : Bool) (s : State) : Out := .next (s.runOp e y 1 0x02 (fun w s => mxAccset s e y none w))

end Sys2Proof.Machine
end

