-- ==== Sys2Proof/Machine/Figure.lean ====
section
/-! DEFINITION. Figures (R272 to R275, R297 to R299). -/
namespace Sys2Proof.Machine
open Sys2Proof

/-- A move of a figure (R298). -/
structure FigMove where
  op : Nat
  int : Bool
  s1 : Nat
  s2 : Nat
  s3 : Nat
  deriving DecidableEq, Repr

/-- A figure descriptor (R298). -/
structure FigDesc where
  last : Nat
  c : Nat
  moves : List FigMove
  imms : List W32
  deriving DecidableEq, Repr

/-- A move from its 24 bits. -/
def figMove (x : Nat) : FigMove :=
  { op := bitsOf x 6 0, int := bitOf x 7, s1 := bitsOf x 11 8, s2 := bitsOf x 15 12, s3 := bitsOf x 19 16 }

/-- The descriptor in program store words 4 × FDA on (R297, R298). -/
def State.figDesc (s : State) (e fda : Nat) : FigDesc :=
  let bs := (List.range 4).flatMap (fun k => leBytes 16 (s.progWord e (4 * fda + k)))
  { last := leAt bs 0 4 % 8, c := leAt bs 4 4 % 2 ^ 27
    moves := (List.range 8).map (fun k => figMove (leAt bs (8 + 3 * k) 3))
    imms := (List.range 4).map (fun k => BitVec.ofNat 32 (leAt bs (0x20 + 4 * k) 4)) }

/-- The moves that run. -/
def FigDesc.run (f : FigDesc) : List FigMove := f.moves.take (f.last + 1)

/-- Is a code one of the elementwise ones (R272)? -/
def figEl (op : Nat) : Bool := (vecOf op false).isSome
/-- Is a code one of the reductions that may end a figure? -/
def figRed (op : Nat) : Bool := 0x40 ≤ op && op ≤ 0x42

/-- The sources a move uses, with the types they have there. -/
def FigMove.uses (m : FigMove) : List (Nat × Bool) :=
  if figRed m.op then [(m.s1, m.int)]
  else
    let ty := (opTyA m.op).isInt m.int
    [(m.s1, ty)] ++ (if opTwo m.op then [(m.s2, ty)] else []) ++ (if m.op = 0x04 then [(m.s3, false)] else [])

/-- The input operand a source code names, if it names one. -/
def figInput (f : FigDesc) (a b : Nat) (src : Nat) : Option Nat :=
  if src = 1 then some a else if src = 2 then some b else if src = 3 then some f.c else none

/-- May an operand be a figure's input: none, or data (R297, R298)? -/
def figInOk (o : Nat) : Bool := oKind o == 0 || oIsData o

/-- Is a figure malformed (R258, R296, R299)? [DESIGN CHOICE: log entry 78] -/
def figBad (f : FigDesc) (x : VxW) (n : Nat) : Bool :=
  let ms := f.run
  !(oIsData x.d) || !(oSuits x.d x.int) || !(figInOk x.a) || !(figInOk x.b) || !(figInOk f.c)
    || (x.rsel != 0 && oKind f.c == 3)
    || (ms.zip (List.range ms.length)).any (fun p =>
      let m := p.1
      let k := p.2
      !(figEl m.op || (figRed m.op && k == f.last && f.last ≥ 1 && m.s1 == 3 + f.last))
        || (m.op == 0x1D && n % 2 == 1)
        || m.uses.any (fun u => u.1 == 0 || u.1 == 15 || (4 ≤ u.1 && u.1 ≤ 10 && decide (u.1 - 4 ≥ k))
          || (match figInput f x.a x.b u.1 with
              | some o => oKind o == 0 || !(oSuits o u.2)
              | none => false)))

/-- The elements a source code names. -/
def figSrc (f : FigDesc) (n : Nat) (a b c : List W32) (t : List (List W32)) (src : Nat) : List W32 :=
  if src = 1 then a else if src = 2 then b else if src = 3 then c
  else if 4 ≤ src ∧ src ≤ 10 then t.getD (src - 4) []
  else if 11 ≤ src ∧ src ≤ 14 then List.replicate n (f.imms.getD (src - 11) 0) else []

/-- The elementwise moves in order: each result is appended to the earlier ones; the last with its flags. -/
def figRun (f : FigDesc) (n base : Nat) (act : Nat → Bool) (a b c : List W32) : List FigMove → Nat → List (List W32) →
    List (W32 × Nat) → List (List W32) × List (W32 × Nat)
  | [], _, t, l => (t, l)
  | m :: ms, k, t, l =>
    if figRed m.op then figRun f n base act a b c ms (k + 1) t l
    else
      let src := figSrc f n a b c t
      let r := match vecOf m.op m.int with
        | some v => v (base + k * n) act (src m.s1) (src m.s2) (src m.s3)
        | none => []
      figRun f n base act a b c ms (k + 1) (t ++ [r.map (fun p => p.1)]) r

/-- FIGURE (R272 to R275): refused in a Y program; otherwise its moves run over each row, and the last result is stored. -/
def fgFigure : OpRun := fun s e y _ w =>
  if y then s.stopV e y 1
  else
    let x := { vxOf w with b := bitsOf w 114 88 }
    let f := s.figDesc e (bitsOf w 126 115)
    let ms := f.run
    let lastM := ms.getLastD ⟨0, false, 0, 0, 0⟩
    let red := figRed lastM.op
    let every := lastM.op == 0x07
    let mixed := ms.any (fun m => m.uses.any (fun u => match figInput f x.a x.b u.1 with
      | some o => s.accMixed e o u.2
      | none => false))
    let n := s.vxCount e y x
    let cUe := oIsData f.c && ((List.range n).any (fun i => s.cellUe e (cellOf f.c none i)))
    let fm : VxForm := { a := .other, b := .other, ta := .X, tb := .X, reduces := red, rate := if ms.any (fun m => opTrans m.op) then .T else .O }
    let r := s.runVx e y fm x (figBad f x) false (fun s n row u =>
      let act := s.maskAt e y x.mask
      let ld := fun (o : Nat) => if oIsData o then s.loadAll e y o row n else []
      let base := s.free
      let z := figRun f n base act (ld x.a) (ld x.b) (ld f.c) ms 0 [] []
      let s1 := { s with free := base + 9 * n }
      if red then
        let t := z.1.getLastD []
        let al := (List.range n).map act
        let v := if lastM.op = 0x40 then redSum (base + 8 * n) lastM.int al t [] else redExt (lastM.op == 0x41) 0 lastM.int al t []
        s1.storeList e y x.d none x.int u [(row.getD 0, v)]
      else
        let on := (List.range n).filter (fun i => every || act i)
        let q := s1.storeList e y x.d row x.int u (on.map (fun i => (i, z.2.getD i (0, 0))))
        (if x.zm && !every then q.1.zeroList e y x.d row ((List.range n).filter (fun i => !(act i))) else q.1, q.2)) none
      { misuse := s.sweepMisuse e f.c n, ue := cUe, undef := fun row => mixed || partOverlap x.d f.c row n, hand := if red then 4 else 0 }
    if (s.ctx e y).pc ≠ (r.ctx e y).pc then r.bump (pgVxe e) F.vxe_FIGURES_COUNT 1 else r

/-- FIGURE as the next instruction of a context. -/
def execFigure (e : Fin 32) (y : Bool) (s : State) : Out := .next (s.runOp e y 3 0x01 (fun w s => fgFigure s e y none w))

end Sys2Proof.Machine
end

