-- ==== Sys2Proof/Machine/Mv.lean ====
section
/-! DEFINITION. MV and SY instructions (R290 to R293, R300 to R304), program control (R238 to R243), branch words (R268,
R361), yields (R279, R293) and what engine reset does to an engine (R244, R282). -/
namespace Sys2Proof.Machine
open Sys2Proof

/-! ## MV -/

/-- Fields of an MV word (R290). -/
def mvTaddr (w : Nat) : Nat := bitsOf w 39 18
def mvLen (w : Nat) : Nat := 256 * (bitsOf w 53 40 + 1)
def mvRaddr (w : Nat) : Nat := bitsOf w 75 54
def mvDva (w : Nat) : Nat := bitsOf w 127 80

/-- FEED (R291, R293): its tiles enter the feed queue in order, once they fit. -/
def mvFeed : OpRun := fun s e y _ w =>
  let x := s.eng e
  let prime := !(bitOf w 10)
  let wide := bitOf w 11
  let n := bitsOf w 17 12 + 1
  let size := if wide then 131072 else 65536
  if y && (prime || !(s.storeGranted e (mvTaddr w) (n * size))) then s.stopV e y 3
  else if x.feed.length + n > 64 then s
  else
    let es : List FeedEntry := (List.range n).map (fun i => ⟨false, prime, wide, (mvTaddr w + i * size) % 2 ^ 22, y⟩)
    let s1 := s.setEng e { x with feed := x.feed ++ es }
    (if !prime && mvTaddr w % 256 != 0 then s1.taint e y else s1).advance e y

/-- SCALE (R291, R293): one scale tile enters the feed queue. -/
def mvScale : OpRun := fun s e y _ w =>
  let x := s.eng e
  let prime := !(bitOf w 10)
  if y && (prime || !(s.storeGranted e (mvTaddr w) 65536)) then s.stopV e y 3
  else if x.feed.length + 1 > 64 then s
  else
    let s1 := s.setEng e { x with feed := x.feed ++ [⟨true, prime, false, mvTaddr w, y⟩] }
    (if !prime && mvTaddr w % 256 != 0 then s1.taint e y else s1).advance e y

/-- A MV instruction that names tile-store bytes: misuse when the address is no multiple of 256, or a priming frame is
written (R245). -/
def State.mvTaint (s : State) (e : Nat) (y : Bool) (w : Nat) (writes : Bool) : State :=
  if mvTaddr w % 256 != 0 || (writes && !(s.storeProgram e (mvTaddr w) (mvLen w))) then s.taint e y else s

/-- The COPY descriptor of a GET or PUT (R292): lead class 1, in the program's function. -/
def mvDesc (func len src dst ss ds : Nat) : List Byte :=
  leBytes 4 (1 + ss * 2 ^ 7 + ds * 2 ^ 10 + 2 ^ 14 + func * 2 ^ 22) ++ leBytes 4 len ++ leBytes 8 src ++ leBytes 8 dst
    ++ List.replicate 40 0#8

/-- Run a GET's or PUT's COPY on a pump; a fault is remembered for the program's end. -/
def State.runCopy (s : State) (e : Nat) (y : Bool) (page pump : Nat) (bs : List Byte) : State :=
  let c : DCtx := { page := page, pump := pump, queue := none, bytes := bs, d := descOf bs }
  let r := s.copyDesc c none
  let s1 := r.2.endDesc c r.1
  if r.1.status = 0 then s1 else s1.setCtx e y { s1.ctx e y with faulted := true }

/-- GET (R292): from a DVA to the tile store. [DEDUCED: log entry 80] -/
def mvGet : OpRun := fun s e y _ w =>
  if y && !(s.storeGranted e (mvTaddr w) (mvLen w)) then s.stopV e y 3
  else
    let f := (s.ctx e y).owner
    ((s.mvTaint e y w true).runCopy e y (2 * engQuad e) (e % 8) (mvDesc f (mvLen w) (mvDva w) (e * 2 ^ 22 + mvTaddr w) 0 2)).advance e y

/-- The tier pump that carries a PUT: the lowest of the quadrant in service. [DEDUCED: log entry 80] -/
def State.tierPump (s : State) (q : Nat) : Nat :=
  ((List.range 8).find? (fun p => !(s.pmp.retired.contains ((2 * q + 1) * 8 + p)))).getD 0

/-- PUT (R292): from the tile store to a DVA; an uncorrectable word it reads stops the program (R218). [DEDUCED: log entry 80] -/
def mvPut : OpRun := fun s e y _ w =>
  if y && !(s.storeGranted e (mvTaddr w) (mvLen w)) then s.stopV e y 3
  else if s.storeUe e (mvTaddr w) (mvLen w) then s.stopM e y 1
  else
    let f := (s.ctx e y).owner
    let q := engQuad e
    ((s.mvTaint e y w false).runCopy e y (2 * q + 1) (s.tierPump q) (mvDesc f (mvLen w) (e * 2 ^ 22 + mvTaddr w) (mvDva w) 2 0)).advance e y

/-- ROWIN (R292): from the tile store to the row buffer. -/
def mvRowin : OpRun := fun s e y _ w =>
  if y && (!(s.storeGranted e (mvTaddr w) (mvLen w)) || !(s.rowsGranted e (mvRaddr w) (mvLen w))) then s.stopV e y 3
  else if s.storeUe e (mvTaddr w) (mvLen w) then s.stopM e y 1
  else ((s.mvTaint e y w false).setRowBytes e (mvRaddr w) (bytesOf (s.storeRead e (mvTaddr w) (mvLen w)))).advance e y

/-- ROWOUT (R292): from the row buffer to the tile store. -/
def mvRowout : OpRun := fun s e y _ w =>
  if y && (!(s.storeGranted e (mvTaddr w) (mvLen w)) || !(s.rowsGranted e (mvRaddr w) (mvLen w))) then s.stopV e y 3
  else ((s.mvTaint e y w true).storeWrite e (mvTaddr w) [(s.rowBytes e (mvRaddr w) (mvLen w), false)]).advance e y

/-! ## SY -/

/-- Has every earlier instruction of the program completed (R287): none of its feed entries waits? -/
def State.drained (s : State) (e : Nat) (y : Bool) : Bool := (s.eng e).feed.all (fun f => f.y != y)

/-- Fields of an SY word (R300). -/
def syEngine (w : Nat) : Nat := bitsOf w 14 10
def syAll (w : Nat) : Bool := bitOf w 15
def syCtr (w : Nat) : Nat := bitsOf w 19 16
def syValue (w : Nat) : Nat := bitsOf w 35 20
def syTarget (w : Nat) : Nat := bitsOf w 49 36
def syWord (w : Nat) : Nat := bitsOf w 127 96

/-- Add to a sync counter, saturating; an engine that is OFFLINE or IN_RESET drops it (R301). -/
def State.addCtr (s : State) (e : Nat) (y : Bool) (ctr v : Nat) : State :=
  let st := s.engState e
  if st = eOffline ∨ st = eInReset then s
  else
    let c := s.ctx e y
    s.setCtx e y { c with sc := SMap.upd c.sc 0 ctr (fun n => satAdd 0xFFFF n v) }

/-- END (R238). -/
def syEnd : OpRun := fun s e y _ _ => s.endProg e y
/-- FENCE (R300): waits until every earlier instruction has completed. -/
def syFence : OpRun := fun s e y _ _ => if s.drained e y then s.advance e y else s
/-- SIGNAL (R301 to R303): applied once every earlier instruction has completed. -/
def sySignal : OpRun := fun s e y _ w =>
  if y && (syAll w || syEngine w != e || decide (syCtr w > 3)) then s.stopV e y 3
  else if !(s.drained e y) then s
  else
    let s1 := if y then s.addCtr e true (syCtr w) (syValue w)
      else if syAll w then (List.range 32).foldl (fun s i => s.addCtr i false (syCtr w) (syValue w)) s
      else s.addCtr (syEngine w) false (syCtr w) (syValue w)
    s1.advance e y
/-- WAIT (R301, R303): completes when the counter is at least VALUE, which it subtracts. -/
def syWait : OpRun := fun s e y _ w =>
  if y && decide (syCtr w > 3) then s.stopV e y 3
  else
    let c := s.ctx e y
    let v := SMap.get c.sc 0 (syCtr w)
    if v < syValue w then s
    else (s.setCtx e y { c with sc := SMap.set c.sc 0 (syCtr w) (v - syValue w) }).advance e y
/-- NOTIFY (R304). -/
def syNotify : OpRun := fun s e y _ w => (s.post (engQuad e) (progEntry e (s.ctx e y).pc y (syWord w) 1)).advance e y
/-- JUMP (R300). -/
def syJump : OpRun := fun s e y _ w => s.goTo e y (syTarget w)

/-- FEED as the next instruction of a context. -/
def execFeed (e : Fin 32) (y : Bool) (s : State) : Out := .next (s.runOp e y 4 0x01 (fun w s => mvFeed s e y none w))
/-- SCALE as the next instruction of a context. -/
def execScale (e : Fin 32) (y : Bool) (s : State) : Out := .next (s.runOp e y 4 0x02 (fun w s => mvScale s e y none w))
/-- GET as the next instruction of a context. -/
def execGet (e : Fin 32) (y : Bool) (s : State) : Out := .next (s.runOp e y 4 0x03 (fun w s => mvGet s e y none w))
/-- PUT as the next instruction of a context. -/
def execPut (e : Fin 32) (y : Bool) (s : State) : Out := .next (s.runOp e y 4 0x04 (fun w s => mvPut s e y none w))
/-- ROWIN as the next instruction of a context. -/
def execRowin (e : Fin 32) (y : Bool) (s : State) : Out := .next (s.runOp e y 4 0x05 (fun w s => mvRowin s e y none w))
/-- ROWOUT as the next instruction of a context. -/
def execRowout (e : Fin 32) (y : Bool) (s : State) : Out := .next (s.runOp e y 4 0x06 (fun w s => mvRowout s e y none w))
/-- END as the next instruction of a context. -/
def execEnd (e : Fin 32) (y : Bool) (s : State) : Out := .next (s.runOp e y 0 0x00 (fun w s => syEnd s e y none w))
/-- FENCE as the next instruction of a context. -/
def execFence (e : Fin 32) (y : Bool) (s : State) : Out := .next (s.runOp e y 0 0x01 (fun w s => syFence s e y none w))
/-- SIGNAL as the next instruction of a context. -/
def execSignal (e : Fin 32) (y : Bool) (s : State) : Out := .next (s.runOp e y 0 0x02 (fun w s => sySignal s e y none w))
/-- WAIT as the next instruction of a context. -/
def execWait (e : Fin 32) (y : Bool) (s : State) : Out := .next (s.runOp e y 0 0x03 (fun w s => syWait s e y none w))
/-- NOTIFY as the next instruction of a context. -/
def execNotify (e : Fin 32) (y : Bool) (s : State) : Out := .next (s.runOp e y 0 0x04 (fun w s => syNotify s e y none w))
/-- JUMP as the next instruction of a context. -/
def execJump (e : Fin 32) (y : Bool) (s : State) : Out := .next (s.runOp e y 0 0x05 (fun w s => syJump s e y none w))

/-- KEEPER_COUNTER_ADD (R301): the keeper adds to a context-G counter. -/
def execKeeperCounterAdd (e : Fin 32) (ctr : Fin 16) (value : W16) (s : State) : Out :=
  .next (s.addCtr e false ctr value.toNat)

/-! ## Program control -/

/-- Run whatever instruction a word is. -/
def wordRun (w : Nat) : OpRun :=
  match wClass w, wOp w with
  | 0, 0 => syEnd | 0, 1 => syFence | 0, 2 => sySignal | 0, 3 => syWait | 0, 4 => syNotify | 0, _ => syJump
  | 1, 1 => mxMma | 1, _ => mxAccset
  | 2, op => vxRunOf op
  | 3, _ => fgFigure
  | _, 1 => mvFeed | _, 2 => mvScale | _, 3 => mvGet | _, 4 => mvPut | _, 5 => mvRowin | _, _ => mvRowout

/-- Start a program in a context (R238): registers, row sets, counters and flags keep their values. -/
def State.startProg (s : State) (e : Nat) (y : Bool) (entry round cls func : Nat) (test : Bool) : State :=
  let c := s.ctx e y
  let pg := pgVxe e
  let s0 := if y && c.lastFunc != func then s.zeroCtx e true else s
  let c := s0.ctx e y
  let s1 := (s0.setCtx e y { c with started := true, yielded := false, claimed := false, waitBranch := false, entry := entry, pc := entry
                                    round := round, cls := cls, func := func, test := test, row := none, rowFlags := 0, saved := none
                                    waited := false, poisonWaited := false, tainted := false, faulted := false }).setEngState e eRunning
  let s2 := (s1.setReg (pgMxe e) 0 0x05C (BitVec.ofNat 32 round)).setReg (pgMxe e) 0 0x060 (BitVec.ofNat 32 (round / 2 ^ 32))
  if y then ((((s2.setFld pg F.vxe_Y_STATUS_STATE 1).setFld pg F.vxe_Y_STATUS_WAIT_BRANCH 0).setFld pg F.vxe_Y_STATUS_PC 0).setFld pg
    F.vxe_Y_STATUS_CAUSE 0).setFld pg F.vxe_Y_STATUS_FUNC func
  else s2

/-- TEST_PROGRAM_START (R240): a write of MXE.RUN; GO starts a program at ENTRY under TEST_OWN on a READY engine. The
class GENERATION uses context G, the others context Y (R247), which must have no program. -/
def execTestProgramStart (e : Fin 32) (value : W32) (s : State) : Out :=
  .next (s.regWrite (pgMxe e) 0x054 (fun s =>
    let v := value.toNat
    let s1 := (s.setFld (pgMxe e) F.mxe_RUN_ENTRY (bitsOf v 13 0)).setFld (pgMxe e) F.mxe_RUN_CLASS (bitsOf v 15 14)
    let cls := min 2 (bitsOf v 15 14)
    if bitOf v 16 && s.testOwn e && s.engState e == eReady && !(s.ctx e (cls != 0)).started then
      (s1.setFld (pgMxe e) F.mxe_RUN_GO 1).startProg e (cls != 0) (bitsOf v 13 0) 0 cls 0 true
    else s1))

/-- PROGRAM_STORE_WRITE (R284): a write of PROG_DATA3 stores the staged word at ADDR, which it increments. While the engine
runs or is halted this is misuse (R245). -/
def execProgramStoreWrite (e : Fin 32) (value : W32) (s : State) : Out :=
  .next (s.regWrite (pgMxe e) 0x050 (fun s =>
    let pg := pgMxe e
    let a := s.fld pg F.mxe_PROG_ADDR_ADDR
    let d := fun (k : Nat) => (s.reg pg 0 (0x044 + 4 * k)).toNat
    let w := BitVec.ofNat 128 (d 0 + 2 ^ 32 * d 1 + 2 ^ 64 * d 2 + 2 ^ 96 * value.toNat)
    let s1 := (s.setReg pg 0 0x050 value).setEng e { s.eng e with prog := SMap.put (s.eng e).prog a w }
    let s2 := s1.setFld pg F.mxe_PROG_ADDR_ADDR ((a + 1) % 16384)
    if s.engState e = eRunning ∨ s.engState e = eHalted then
      let s3 := if (s2.ctx e false).started then s2.taint e false else s2
      if (s3.ctx e true).started then s3.taint e true else s3
    else s2))

/-- ENGINE_HALT (R243): HALT set; with the instruction in hand retired, a RUNNING engine is HALTED. -/
def execEngineHalt (e : Fin 32) (s : State) : Out :=
  .next (s.regWrite (pgMxe e) 0x008 (fun s =>
    let s1 := s.setFld (pgMxe e) F.hdr_HALT 1
    if s.engState e = eRunning then s1.setEngState e eHalted else s1))

/-- ENGINE_RESUME (R243): HALT cleared; a HALTED engine runs again. -/
def execEngineResume (e : Fin 32) (s : State) : Out :=
  .next (s.regWrite (pgMxe e) 0x008 (fun s =>
    let s1 := s.setFld (pgMxe e) F.hdr_HALT 0
    if s.engState e = eHalted then s1.setEngState e eRunning else s1))

/-- ENGINE_STEP (R243): one instruction of a HALTED engine. -/
def execEngineStep (e : Fin 32) (s : State) : Out :=
  .next (s.regWrite (pgMxe e) 0x008 (fun s =>
    if s.engState e ≠ eHalted then s
    else
      let y := !((s.ctx e false).started)
      let c := s.ctx e y
      if !c.started || c.yielded || c.waitBranch then s
      else
        let w := s.progWord e c.pc
        let s0 := s.setEngState e eRunning
        let s1 := if wReserved w then (s0.taint e y).advance e y else wordRun w s0 e y none w
        if s1.engState e = eRunning then s1.setEngState e eHalted else s1))

/-! ## Branch words -/

/-- A context takes a branch word (R268). [DESIGN CHOICE: log entry 82] -/
def State.takeBranch (s : State) (e : Nat) (y : Bool) (word : W32) : State :=
  let v := word.toNat
  let s1 := s.setReg (pgVxe e) 0 0x060 word
  let s2 := if y then s1.setFld (pgVxe e) F.vxe_Y_STATUS_WAIT_BRANCH 0 else s1
  if bitOf v 15 then s2.endProg e y
  else if bitOf v 14 then s2.goTo e y (bitsOf v 13 0)
  else s2.advance e y

/-- The registry entry of a context's program (R360): the first VALID one with its address, class and function. -/
def State.progEntryOf (s : State) (e : Nat) (c : ProgCtx) : Option Nat :=
  let pg := pgKpr (engQuad e)
  (List.range 64).find? (fun i =>
    s.fldB pg i F.kpr_PROG_ENTRY_VALID == 1 && s.fldB pg i F.kpr_PROG_ENTRY_ADDR == c.entry
      && s.fldB pg i F.kpr_PROG_ENTRY_CLASS == c.cls && (c.cls == 0 || s.fldB pg i F.kpr_PROG_ENTRY_FUNC == c.func))

/-- Does a branch table entry's TEST hold for a summary (R361)? -/
def branchTest (t thresh sum : Nat) (int : Bool) : Bool :=
  let v := BitVec.ofNat 32 (sum / 2 ^ 32)
  let th := BitVec.ofNat 32 thresh
  match t with
  | 0 => true
  | 1 => bitOf sum 13
  | 2 => bitOf sum 14
  | 3 => bitOf sum 15
  | 4 => cmpRel 0x35 int v th
  | 5 => cmpRel 0x32 int v th
  | 6 => decide (toSigned 32 thresh ≤ ((sum % 2 ^ 13 : Nat) : Int))
  | _ => false

/-- The keeper's branch word for a waiting context (R361), and whether no entry matched. -/
def State.keeperBranch (s : State) (e : Nat) (c : ProgCtx) : W32 × Bool :=
  let pg := pgKpr (engQuad e)
  let miss : W32 × Bool := (0x8000#32, true)
  match s.progEntryOf e c with
  | none => miss
  | some i =>
    let base := s.pairB pg i F.kpr_PROG_BRTAB_LO_DVA F.kpr_PROG_BRTAB_HI_DVA
    let n := s.fldB pg i F.kpr_PROG_BRN_ENTRIES
    if base = 0 then miss
    else match s.peekDva (s.fldB pg i F.kpr_PROG_ENTRY_FUNC) base (16 * n) with
    | none => miss
    | some bs =>
      match (List.range n).find? (fun k => leAt bs (16 * k) 2 % 16384 == c.pc) with
      | none => miss
      | some k =>
        let o := 16 * k
        let act := leAt bs (o + 3) 1
        if branchTest (leAt bs (o + 2) 1) (leAt bs (o + 8) 4) c.summary c.sumInt then
          (BitVec.ofNat 32 (leAt bs (o + 4) 2 % 16384 + act % 2 * 2 ^ 14 + act / 2 % 2 * 2 ^ 15), false)
        else (BitVec.ofNat 32 (leAt bs (o + 4) 2 % 16384), false)

/-- BRANCH_WORD (R268, R361): the keeper answers a waiting context, except under TEST_OWN. -/
def execBranchWord (e : Fin 32) (y : Bool) (s : State) : Out :=
  let c := s.ctx e y
  if !c.started || !c.waitBranch || s.testOwn e then .next s
  else
    let r := s.keeperBranch e c
    .next ((if r.2 then s.raise (pgKpr (engQuad e)) 0 else s).takeBranch e y r.1)

/-- BRANCH_CMD (R268): a write of VXE.BRANCH_CMD answers the waiting context under TEST_OWN. -/
def execBranchCmd (e : Fin 32) (value : W32) (s : State) : Out :=
  .next (s.regWrite (pgVxe e) 0x064 (fun s =>
    let g := s.ctx e false
    let c := s.ctx e true
    if !(s.testOwn e) then s
    else if g.started && g.waitBranch then s.takeBranch e false value
    else if c.started && c.waitBranch then s.takeBranch e true value
    else s))

/-! ## Yields -/

/-- Y_PROGRAM_YIELD (R239, R279, R293): on the keeper's claim a running Y program yields at an instruction boundary, or,
with `row`, between two rows of the row-repeat instruction in hand, whose rows before that one have run. The pump discards
the program's queued and latched tiles, which are fed again on resuming. [DESIGN CHOICE: log entry 79] -/
def execYProgramYield (e : Fin 32) (row : Option (Fin 256)) (s : State) : Out :=
  let c := s.ctx e true
  if !c.started || c.yielded || s.engState e != eRunning || (s.ctx e false).started then .next s
  else
    let w := s.progWord e c.pc
    let x := vxOf w
    let part := match row with
      | some r => !c.waitBranch && wClass w == 2 && x.rsel ≥ 8 && !(wReserved w) && (s.rowSet e (x.rsel % 8)).contains r.val
          && !(0x30 ≤ wOp w && wOp w ≤ 0x3D) && !(0x48 ≤ wOp w && wOp w ≤ 0x4D) && wOp w != 0
      | none => false
    let s1 := if part then vxRunOf (wOp w) s e true (row.map (fun r => r.val)) w else s
    let c1 := s1.ctx e true
    if !c1.started then .next s1
    else
      let g := s1.eng e
      let mine := fun (t : Option LatchTile) => match t with
        | some t => if t.y then some t else none
        | none => none
      let other := fun (t : Option LatchTile) => match t with
        | some t => if t.y then none else some t
        | none => none
      let saved := (g.latch.map mine, g.cur, g.scale, g.bind, g.feed.filter (fun f => f.y))
      let s2 := s1.setEng e { g with latch := g.latch.map other, scale := [{}, {}], bind := 0, feed := g.feed.filter (fun f => !f.y) }
      let s3 := (s2.setCtx e true { c1 with yielded := true, claimed := true, saved := some saved }).setEngState e eReady
      let pg := pgVxe e
      .next (((s3.setFld pg F.vxe_Y_STATUS_STATE 2).setFld pg F.vxe_Y_STATUS_PC c1.pc).event pg)

/-- Y_PROGRAM_RESUME (R279, R293): the keeper lifts its claim on a READY engine; the program's tiles are fed again in the
same order. -/
def execYProgramResume (e : Fin 32) (s : State) : Out :=
  let c := s.ctx e true
  if !c.started || !c.yielded || s.engState e != eReady then .next s
  else
    let g := s.eng e
    let s1 := match c.saved with
      | none => s
      | some (l, cur, sc, b, f) =>
        if g.latch.all (fun t => t.isNone) then s.setEng e { g with latch := l, cur := cur, scale := sc, bind := b, feed := f ++ g.feed }
        else
          let again := ([cur, 1 - cur].filterMap (fun i => l.getD i none)).filterMap (fun (t : LatchTile) => match t.src with
            | .frame a => some (⟨false, false, decide (t.data.length > 65536), a, true⟩ : FeedEntry)
            | _ => none)
          s.setEng e { g with feed := again ++ f ++ g.feed }
    let c1 := s1.ctx e true
    .next (((s1.setCtx e true { c1 with yielded := false, claimed := false, saved := none }).setEngState e eRunning).setFld (pgVxe e)
      F.vxe_Y_STATUS_STATE 1)

/-! ## Engine reset -/

/-- What engine reset does at its orders 2 to 6 (R244, R282): the engine-feed pump's descriptors end ABORTED, the engine's
stores are zeroed, both contexts are zeroed, a Y program ends with ENGINE_RESET; the program store stays. -/
def State.resetEngine (s : State) (e : Nat) : State :=
  let page := 2 * engQuad e
  let s1 := (s.pmp.flying.filter (fun f => f.page == page && f.pump == e % 8)).foldl (fun s f => s.endFlying f { status := 10 }) s
  let s2 := if (s1.ctx e true).started then s1.endY e 6 else s1
  let s3 := s2.freeStaged e (s2.eng e).staged
  let s4 := if (s3.ctx e false).started then s3.leave e false else s3
  let s5 := (s4.zeroCtx e false).zeroCtx e true
  let x := s5.eng e
  let s6 := s5.setEng e { ({} : Eng) with prog := x.prog, fw := x.fw, granted := x.granted }
  let s7 := { s6 with pmp := { s6.pmp with
    store := SMap.keep s6.pmp.store (fun k => k / 2 ^ 22 != e), storeBad := SMap.keep s6.pmp.storeBad (fun k => k / 2 ^ 19 != e) } }
  let s8 := (s7.setFld (pgMxe e) F.mxe_FLAGS_NAN 0).setFld (pgMxe e) F.mxe_FLAGS_INF 0
  if s8.engState e = eOffline then s8 else s8.setEngState e eReady

end Sys2Proof.Machine
end

