-- ==== Sys2Proof/Machine/Session.lean ====
section
/-! DEFINITION. What keepers share: owners and journal quadrants (R307, R309, R458), journal records (R459 to R462), token
records and completions (R320 to R324), and the moves between session states (R325 to R333). -/
namespace Sys2Proof.Machine
open Sys2Proof

/-! ## Owners -/

/-- Is compute die `n` in service (GUARD.QUADS)? -/
def State.dieUp (s : State) (n : Nat) : Bool := bitOf (s.fld pgRas F.ras_GUARD_QUADS) n
/-- The sealer: the keeper of the lowest-numbered die in service (R309). -/
def State.sealer (s : State) : Nat := ((List.range 4).find? s.dieUp).getD 0
/-- The first quadrant of `n`, `n + 1`, … mod 4 that satisfies `p`. -/
def firstFrom (n : Nat) (p : Nat → Bool) : Option Nat := ((List.range 4).map (fun i => (n + i) % 4)).find? p
/-- The owner of a session index (R307). -/
def State.ownerOfIndex (s : State) (i : Nat) : Nat := (firstFrom (i % 4) s.dieUp).getD (i % 4)

/-- Is a stack retired (RAS.RETIRED0)? -/
def State.stackRetired (s : State) (st : Nat) : Bool := bitOf (s.fld pgRas F.ras_RETIRED0_MASK) st
/-- Is a quadrant in reset (R479, R480)? -/
def State.quadInReset (s : State) (q : Nat) : Bool := s.fld (pgKpr q) F.hdr_STATE == 4
/-- Does a quadrant serve the journal: one of its stacks is not retired (R458), and it is not in reset (R480)? -/
def State.journalUp (s : State) (q : Nat) : Bool :=
  (List.range 5).any (fun i => !(s.stackRetired (5 * q + i))) && !(s.quadInReset q)
/-- The quadrants of the copies of a journal record of an owner (R458). -/
def State.journalQuads (s : State) (owner : Nat) : List Nat :=
  let mirror := if s.journalUp ((owner + 2) % 4) then some ((owner + 2) % 4) else firstFrom (owner + 2) (fun q => q != owner && s.journalUp q)
  (if s.journalUp owner then [owner] else ((firstFrom owner (fun q => s.journalUp q && mirror != some q)).map (fun q => [q])).getD [])
    ++ (match mirror with | some q => [q] | none => [])

/-! ## Sessions, models, tenants -/

def State.sesOf (s : State) (h : Nat) : Session := SMap.get s.sess {} h
def State.setSes (s : State) (h : Nat) (x : Session) : State := { s with sess := SMap.set s.sess {} h x }
def State.model (s : State) (m : Nat) : Model := SMap.get s.ses.models {} m
def State.setModel (s : State) (m : Nat) (x : Model) : State := { s with ses := { s.ses with models := SMap.set s.ses.models {} m x } }
def State.ten (s : State) (t : Nat) : Ten := SMap.get s.ses.tens {} t
def State.setTen (s : State) (t : Nat) (x : Ten) : State := { s with ses := { s.ses with tens := SMap.set s.ses.tens {} t x } }
def State.adapter (s : State) (a : Nat) : Adapter := SMap.get s.ses.adapters {} a
def State.setAdapter (s : State) (a : Nat) (x : Adapter) : State :=
  { s with ses := { s.ses with adapters := SMap.set s.ses.adapters {} a x } }
def State.setJournal (s : State) (j : List JRec) : State := { s with ses := { s.ses with journal := j } }
def State.setRounds (s : State) (r : List Round) : State := { s with ses := { s.ses with rounds := r } }

/-- Is a model resident: a schedule has been installed for it? [DESIGN CHOICE: log entry 64] -/
def Model.resident (m : Model) : Bool := m.sched.isSome || m.next.isSome
/-- Is an index in use (R306): its session is not GONE, or its OPEN is accepted? -/
def Session.inUse (x : Session) : Bool := x.st != .gone || !x.reqs.isEmpty
/-- Does a session, or its draft session, hold rows in a round in flight? -/
def State.inRound (s : State) (h : Nat) : Bool := s.ses.rounds.any (fun r => r.rows.any (fun w => w.ses == h || w.ses == h + 2 ^ 32))
/-- Do rows of a session run as a PROMPT program (R358)? -/
def State.inChunk (s : State) (h : Nat) : Bool := (List.range 4).any (fun q => (s.keeper q).chunks.any (fun c => c.ses == h))

/-- The largest value of a time-to-live that never expires (R327). -/
def ttlNever : Nat := 2 ^ 64 - 1
/-- Time-to-live `i` (0 SETTLE, 1 SINK, 2 GONE) of a session: 0 in OPEN takes the device default (R327). [DEDUCED: log entry 98] -/
def State.ttlOf (s : State) (x : Session) (i : Nat) : Nat :=
  let v := x.ttl.getD i 0
  if v = 0 then s.pairB (pgSes 0) i F.ses_TTL_DEF_LO_NS F.ses_TTL_DEF_HI_NS else v

/-- The host time that the keeper of a session holds (R43). -/
def State.nowOf (s : State) (x : Session) : Nat := (s.timeAt x.owner).toNat
/-- The stamp of an event a keeper takes: 0 while host time is not valid (R39). -/
def State.stampOf (s : State) (q : Nat) : BitVec 64 := if s.timeValid then s.timeAt q else 0#64

/-! ## The journal -/

/-- The bytes of a journal record (R460): the header, then the body padded to 64 bytes. CHECK covers the record with CHECK
and FLAGS taken as zero. -/
def journalBytes (kind h jseq stamp round aux : Nat) (body : List Byte) : List Byte :=
  let b := padTo (ceilDiv body.length 64 * 64) body
  let head := fun (check : Nat) =>
    leBytes 1 kind ++ [0#8] ++ leBytes 2 (1 + b.length / 64) ++ leBytes 4 h ++ leBytes 8 jseq ++ leBytes 8 stamp ++ leBytes 8 round
      ++ leBytes 4 aux ++ leBytes 4 check ++ List.replicate 24 0#8
  head (crc32 (head 0 ++ b)) ++ b

/-- The keeper starts a journal record of a session (R459). [DESIGN CHOICE: log entry 95] -/
def State.journalAdd (s : State) (h owner kind round aux : Nat) (body : List Byte) (what : JWhat) : State :=
  let x := s.sesOf h
  let r : JRec := { ses := h, jseq := x.jseq, bytes := journalBytes kind h x.jseq (s.stampOf owner).toNat round aux body
                    copies := s.journalQuads owner, what := what }
  let s1 := s.setJournal (s.ses.journal ++ [r])
  s1.setSes h { x with jseq := x.jseq + 1 }

/-- The bytes a quadrant's journal region holds, and its size (R458): 2,048 lines. -/
def State.journalUsed (s : State) (q : Nat) : Nat :=
  (s.ses.journal.filter (fun r => r.copies.contains q)).foldl (fun a r => a + r.bytes.length) 0
def State.journalSize (s : State) (q : Nat) : Nat := 2048 * 256 * s.lineCap q (s.fld (pgCisQ q) F.cisq_HASH_CFG_CUR_VER)

/-- Free space checks of a region after a change (R464): acceptance stops below 1/64, and resumes at 1/32. -/
def State.journalCheck (s : State) : State :=
  (List.range 4).foldl (fun s q =>
    let size := s.journalSize q
    let free := size - s.journalUsed q
    if s.ses.full.contains q then
      (if 32 * free ≥ size then { s with ses := { s.ses with full := s.ses.full.filter (· != q) } } else s)
    else if 64 * free < size then
      (({ s with ses := { s.ses with full := q :: s.ses.full } }).raise pgRas 1).logErr 0x0C (pgKpr q) 2 q 0
    else s) s

/-! ## Token records -/

/-- A token-ring record (R321). -/
def tokRecord (h seq tok flags status rtag logp : Nat) : List Byte :=
  leBytes 4 h ++ leBytes 4 seq ++ leBytes 3 tok ++ leBytes 1 flags ++ leBytes 1 status ++ leBytes 1 rtag ++ leBytes 2 logp

/-- FLAGS bits of a record (R321). -/
def rLast : Nat := 1
def rLate : Nat := 2
def rToolOpen : Nat := 4
def rToolClose : Nat := 8
def rSpec : Nat := 16
def rRebuilt : Nat := 32

/-- Status codes (R324). -/
def stDone : Nat := 0
def stStopToken : Nat := 1
def stStopSequence : Nat := 2
def stMaxTokens : Nat := 3
def stToolCall : Nat := 4
def stDeadline : Nat := 5
def stCancelled : Nat := 6
def stQuarantined : Nat := 7
def stAdapterRetired : Nat := 8
def stKvLimit : Nat := 9
def stMalformed : Nat := 10
def stPurged : Nat := 11
def stTblStale : Nat := 12

/-- The keeper writes records of a session: they take the next record numbers and one RECORDS journal record, which AUX
counts (R461, R462). A draft session writes none (R341). -/
def State.writeRecords (s : State) (h round : Nat) (rs : List (List Byte)) : State :=
  if rs.isEmpty || decide (2 ^ 32 ≤ h) then s
  else
    let x := s.sesOf h
    let ps := (List.range rs.length).map (fun i => ({ ses := h, rnum := x.rnum + i, bytes := rs.getD i [] } : PRec))
    let body := leBytes 8 x.rnum ++ List.replicate 8 0#8 ++ rs.flatten
    (s.setSes h { x with rnum := x.rnum + rs.length }).journalAdd h x.owner 2 round rs.length body (.records ps)

/-- A record without a token: its LOGP has no value the spec gives. [DESIGN CHOICE: log entry 91] -/
def State.plainRecord (s : State) (h tok flags status rtag : Nat) : State :=
  let d := s.draw
  d.2.writeRecords h 0 [tokRecord h (s.sesOf h).hist.length tok flags status rtag (d.1 % 2 ^ 16)]

/-- The state record of a session opened with NOTIFY_STATE (R322). -/
def State.stateRecord (s : State) (h tok : Nat) : State :=
  if (s.sesOf h).notify then s.plainRecord h tok 0 0 0 else s

/-- A request of a session takes effect (R461): an EFFECT journal record. -/
def State.effect (s : State) (h : Nat) (r : Req) : State :=
  let x := s.sesOf h
  let body := leBytes 1 r.typ ++ leBytes 1 x.st.code ++ leBytes 1 (b2n x.suspended + 2 * b2n (x.reqs.any (fun q => q.tool)))
    ++ leBytes 1 (if r.typ = tCancel then leAt r.entry 0x10 1 else r.rtag) ++ leBytes 2 ((x.reqs.head?.map (fun q => q.ver)).getD 0)
    ++ List.replicate 58 0#8
  s.journalAdd h x.owner 3 0 0 body .effect

/-! ## Outstanding requests and session states -/

/-- Enter a session state: its time is stamped (R325, R43). -/
def State.enter (s : State) (h : Nat) (st : SesState) : State :=
  let x := s.sesOf h
  s.setSes h { x with st := st, entered := s.stampOf x.owner }

/-- The moves that follow from requests and marks (R325): PARKED and ACTIVE, the start of a wake, a noted wake. A RESUME starts or notes its
wake itself, when it takes effect (R330). The draft session follows its target (R341). -/
def State.settleMove (s : State) (h : Nat) : State :=
  let x := s.sesOf h
  let wakes := x.reqs.any (fun r => r.typ != tResume || r.started)
  match x.st with
  | .parked => if !x.reqs.isEmpty && !x.suspended then s.enter h .active else s
  | .active => if x.reqs.isEmpty || x.suspended then s.enter h .parked else s
  | .settled | .sunk => if wakes && !x.suspended || x.wake then (s.setSes h { x with wake := false }).enter h .waking else s
  | .settling | .sinking => if wakes then s.setSes h { x with wake := true } else s
  | _ => s

/-- A request leaves its session's list. -/
def Session.drop (x : Session) (r : Req) : Session := { x with reqs := x.reqs.erase r }

/-- A request completes with a record without a token (R320, R322). -/
def State.complete (s : State) (h : Nat) (r : Req) (status : Nat) : State :=
  let s1 := s.plainRecord h 0xFFFFFF rLast status r.rtag
  let s2 := s1.setSes h ((s1.sesOf h).drop r)
  let s3 := if status = stKvLimit then s2.raise (pgSes (s2.sesOf h).owner) 1 else s2
  s3.settleMove h

/-- A request takes effect and completes DONE (R320). -/
def State.doneEffect (s : State) (h : Nat) (r : Req) : State := ((s.effect h r).complete h r stDone)

/-! ## Pages -/

/-- Give a page's slot back when the session alone holds it. -/
def State.freePage (s : State) (p : KvPage) : State :=
  if p.node.isSome then s else s.useSlots p.pair p.slot 1 false

/-- Free every private page of a session, and what its runs list. -/
def State.freePages (s : State) (h : Nat) : State :=
  let x := s.sesOf h
  let s1 := x.runs.foldl (fun s e => e.2.foldl (fun s p => s.freePage p) s) s
  s1.setSes h { x with runs := x.runs.filterMap (fun e =>
    let l := e.2.filter (fun p => p.node.isSome)
    if l.isEmpty then none else some (e.1, l)) }

/-- Free a session's settled and sunk copies. -/
def State.freeKept (s : State) (h : Nat) : State :=
  let x := s.sesOf h
  let s1 := x.spread.foldl (fun s l => s.useLoc l x.ver false) s
  let s2 := { s1 with mem := { s1.mem with sumpUse := SMap.keep s1.mem.sumpUse (fun k => !(x.sump.contains k)) } }
  s2.setSes h { x with spread := [], sump := [], kept := [] }

/-- Drop a session's prefix references (R350). -/
def State.unlink (s : State) (h : Nat) : State :=
  let x := s.sesOf h
  let s1 := x.links.foldl (fun s n =>
    match SMap.find s.ses.nodes n with
    | some p => { s with ses := { s.ses with nodes := SMap.put s.ses.nodes n { p with refs := p.refs - 1 } } }
    | none => s) s
  s1.setSes h { x with links := [], runs := x.runs.filterMap (fun e =>
    let l := e.2.filter (fun p => p.node.isNone)
    if l.isEmpty then none else some (e.1, l)) }

/-- A session's state goes (R325): pages, copies, prefix references, draft session; its outstanding requests are already
completed. -/
def State.discardSession (s : State) (h : Nat) : State :=
  let one := fun (s : State) (h : Nat) => (((s.freePages h).freeKept h).unlink h)
  let s1 := one (one s h) (h + 2 ^ 32)
  { s1 with sess := SMap.del s1.sess (h + 2 ^ 32) }

/-- The session becomes GONE (R325, R462): its journal records are freed, its commit slot is free again and its entry 0. -/
def State.gone (s : State) (h : Nat) : State :=
  let x := s.sesOf h
  let s1 := s.setJournal (s.ses.journal.filter (fun r => r.ses != h))
  let s2 := { s1 with ses := { s1.ses with slots := SMap.del s1.ses.slots x.slot, commit := SMap.del s1.ses.commit x.slot } }
  { s2 with sess := SMap.del s2.sess h }

/-- Has a session a journal record under way? -/
def State.journalling (s : State) (h : Nat) : Bool := s.ses.journal.any (fun r => r.ses == h && !r.done)

/-- A closing session whose records are all journalled becomes GONE. [DESIGN CHOICE: log entry 91] -/
def State.tryGone (s : State) (h : Nat) : State :=
  if (s.sesOf h).closing && !(s.journalling h) then s.gone h else s

/-- CLOSE, PURGE and TTL_GONE end a session (R325): every outstanding request completes, a state record is written, and
everything is freed; it is GONE once those records are journalled. The status of a request queued behind CLOSE is not
given: it is free. [DESIGN CHOICE: log entry 91] -/
def State.endSession (s : State) (h : Nat) (status : Option Nat) : State :=
  let s1 := (s.sesOf h).reqs.foldl (fun s r =>
    match status with
    | some c => s.plainRecord h 0xFFFFFF rLast c r.rtag
    | none => let d := s.draw; d.2.plainRecord h 0xFFFFFF rLast (d.1 % 13) r.rtag) s
  let s2 := (s1.stateRecord h 0xFFFF03).discardSession h
  (s2.setSes h { s2.sesOf h with reqs := [], closing := true }).tryGone h

/-- Discard a session without writing records (R411, R416): the records it has not committed go with it. -/
def State.discardSilent (s : State) (h : Nat) : State :=
  let t := sesTenant h
  let s1 := s.discardSession h
  (s1.setTen t { s1.ten t with pend := (s1.ten t).pend.filter (fun p => p.ses != h || p.entry) }).gone h

end Sys2Proof.Machine
end

