-- ==== Sys2Proof/Machine/Submit.lean ====
section
/-! DEFINITION. From the submission ring to acceptance, and from the journal to the token ring (R310 to R316, R398 to R408,
R452, R453, R459). -/
namespace Sys2Proof.Machine
open Sys2Proof

/-! ## Rings -/

/-- The size of a tenant's submission ring and token ring (R398); sizes outside the range are clamped. -/
def State.sqSize (s : State) (t : Nat) : Nat := 2 ^ min 16 (max 4 (s.fld (pgTnt t) F.tnt0_SQ_CFG_SIZE_LOG2))
def State.trSize (s : State) (t : Nat) : Nat := 2 ^ min 20 (max 8 (s.fld (pgTnt t) F.tnt0_TR_CFG_SIZE_LOG2))
def pgTnt1 (t : Nat) : Page := ⟨.tnt1, t⟩
def State.sqHead (s : State) (t : Nat) : Nat := s.fld (pgTnt t) F.tnt0_SQ_HEAD_INDEX
def State.sqDb (s : State) (t : Nat) : Nat := s.fld (pgTnt1 t) F.tnt1_SQ_DB_INDEX % 65536
def State.trTail (s : State) (t : Nat) : Nat := s.fld (pgTnt t) F.tnt0_TR_TAIL_INDEX
def State.trDb (s : State) (t : Nat) : Nat := s.fld (pgTnt1 t) F.tnt1_TR_DB_INDEX
def State.sqAddr (s : State) (t : Nat) : Nat :=
  s.pair64 (pgTnt t) F.tnt0_SQ_BASE_LO_ADDR F.tnt0_SQ_BASE_HI_ADDR / 4096 * 4096 + 64 * s.sqHead t
def State.trBase (s : State) (t : Nat) : Nat := s.pair64 (pgTnt t) F.tnt0_TR_BASE_LO_ADDR F.tnt0_TR_BASE_HI_ADDR / 4096 * 4096

/-- The keeper reads the entry at the ring head of a READY function when one is published (R314, R399). -/
def State.startRead (s : State) (t : Nat) : State :=
  let x := s.ten t
  if s.fnState t = fnReady ∧ !x.reading ∧ x.entry = none ∧ !x.taking ∧ !x.refusing ∧ s.sqHead t ≠ s.sqDb t then
    (s.setTen t { x with reading := true }).emit (.hostRead (t + 1) (BitVec.ofNat 64 (s.sqAddr t)) 64)
  else s

/-- The ring head passes the entry at it (R314, R399, R407): SQ_HEAD, its shadow, and vector 1. -/
def State.passHead (s : State) (t : Nat) : State :=
  let h := (s.sqHead t + 1) % s.sqSize t
  let s1 := (s.setFld (pgTnt t) F.tnt0_SQ_HEAD_INDEX h).shadowLive t 0x04 h
  let s2 := s1.setTen t { s1.ten t with entry := none, taking := false, refusing := false }
  (if s2.flag (pgTnt t) F.tnt0_T_CTRL_SQ_IRQ then s2.irq (t + 1) 1 else s2).startRead t

/-- A doorbell write that breaks R405 is dropped with a fault record of kind DOORBELL. [DEDUCED: log entry 90] -/
def State.badDoorbell (s : State) (t index : Nat) (tr : Bool) : State :=
  (s.fault (t + 1) 5 0 (pgTnt1 t) (index + 2 ^ 31 * b2n tr) (pageOffset (pgTnt1 t) + (if tr then 0x44 else 0x40)) 0).raise (pgTnt t) 2

/-- SQ_DOORBELL (R399, R405, R412): a write of SQ_DB publishes entries; it is held while the function is QUIESCING. [DEDUCED: log entry 89] -/
def execSqDoorbell (t : Fin 64) (value : W32) (s : State) : Out :=
  .next (s.regWrite (pgTnt1 t) 0x040 (fun s =>
    let v := bitsOf value.toNat 19 0
    let s1 := s.event (pgTnt1 t)
    if v ≥ s1.sqSize t then s1.badDoorbell t v false
    else (s1.setFld (pgTnt1 t) F.tnt1_SQ_DB_INDEX v).startRead t))

/-- TR_DOORBELL (R400, R405): a write of TR_DB frees the slots before it. -/
def execTrDoorbell (t : Fin 64) (value : W32) (s : State) : Out :=
  .next (s.regWrite (pgTnt1 t) 0x044 (fun s =>
    let v := bitsOf value.toNat 19 0
    let n := s.trSize t
    let s1 := s.event (pgTnt1 t)
    if v ≥ n || (v + n - s.trDb t % n) % n > (s.trTail t + n - s.trDb t % n) % n then s1.badDoorbell t v true
    else s1.setFld (pgTnt1 t) F.tnt1_TR_DB_INDEX v))

/-- A submission ring read ends (R397, R404): the entry is at hand, or the function enters FAULT. -/
def State.ringRead' (s : State) (t : Nat) (data : Option (List Byte)) : State :=
  let x := s.ten t
  if !x.reading then s
  else
    let s1 := s.setTen t { x with reading := false }
    match data with
    | some d => if s.fnState t = fnReady then s1.setTen t { x with reading := false, entry := some (slice d 0 64) } else s1
    | none =>
      if s.fnState t = fnReady then
        ((s1.fault (t + 1) 6 0 (pgTnt t) 0 (s.sqAddr t) 0).raise (pgTnt t) 1).setFnState t fnFault
      else s1

/-- HOST_READ_COMPLETION (R397, R404): the completions of a tenant's submission ring read arrive, with its bytes, or with
UR, CA or poison. [DEDUCED: log entry 89] -/
def execHostReadCompletion (t : Fin 64) (data : Option (List Byte)) (s : State) : Out := s.gate fun s => .next (s.ringRead' t data)

/-- COMPLETION_TIMEOUT (R397, R404): part of the read times out, and the whole read fails. -/
def execCompletionTimeout (t : Fin 64) (s : State) : Out := s.gate fun s => .next (s.ringRead' t none)

/-! ## Checking an entry -/

/-- The bytes and bits of an entry's body that R311 gives a meaning, as (offset, length, mask of the last byte). -/
def bodyFields (typ : Nat) : List (Nat × Nat × Nat) :=
  if typ = tOpen then [(0x10, 1, 0xFF), (0x11, 1, 0x07), (0x12, 2, 0x8F), (0x18, 24, 0xFF)]
  else if typ = tAppend then [(0x10, 8, 0xFF), (0x18, 4, 0xFF), (0x20, 32, 0xFF)]
  else if typ = tGenerate then [(0x10, 8, 0xFF), (0x18, 3, 0xFF)]
  else if typ = tCancel then [(0x10, 1, 0xFF)]
  else if typ = tImport || typ = tExport then [(0x10, 16, 0xFF)]
  else if typ = tBind then [(0x10, 2, 0x8F)]
  else []

/-- Has the type a FLAGS bit 0 (R311)? -/
def flagMask (typ : Nat) : Nat := if [tAppend, tGenerate, tResume, tCancel, tBind, tPurge].contains typ then 1 else 0

/-- Is a reserved bit or byte of an entry non-zero (R313)? -/
def entryReserved (e : List Byte) : Bool :=
  let typ := leAt e 0 1
  let mask := fun (i : Nat) => ((bodyFields typ).filterMap (fun f =>
    if f.1 ≤ i && i < f.1 + f.2.1 then some (if i + 1 = f.1 + f.2.1 then f.2.2 else 0xFF) else none)).headD 0
  typ == 0 || typ > 11 || leAt e 1 1 &&& (255 - flagMask typ) != 0 || leAt e 3 1 != 0
    || (List.range 48).any (fun i => leAt e (0x10 + i) 1 &&& (255 - mask (0x10 + i)) != 0)

/-- Token words of a byte string. -/
def tokWords (bs : List Byte) (n : Nat) : List Nat := (List.range n).map (fun i => leAt bs (4 * i) 4)

/-- Does a parameter block satisfy R335? -/
def State.paramsOk (s : State) (m : Nat) (p : List Byte) : Bool :=
  let f := fun (o : Nat) => fdec fp32 (leAt p o 4)
  let zero : FVal := .fin false 0 0
  let one : FVal := .fin false 1 0
  let finite := fun (v : FVal) => !(fisNaN v) && !(fisInf v)
  let src := leAt p 0x48 1
  let dm := leAt p 0x49 1
  let nodes := leAt p 0x4A 1
  let br := leAt p 0x4B 1
  let cap := match s.profile with | .state => 8 | .sprint => 32 | .balance => 16 | .fabric => 8
  leAt p 0 4 == 1
    && finite (f 4) && !(flt (f 4) zero)
    && flt zero (f 8) && !(flt one (f 8)) && !(fisNaN (f 8))
    && !(fisNaN (f 12)) && !(flt (f 12) zero) && flt (f 12) one
    && finite (f 16) && flt zero (f 16)
    && decide (leAt p 0x14 2 ≤ 1024) && (List.range 4).all (fun k => decide (leAt p (0x4C + k) 1 ≤ 16))
    && decide (src ≤ 2) && decide (nodes ≤ cap)
    && (src != 1 || leAt p 0x50 8 % 64 == 0)
    && (src != 2 || ((s.model dm).resident && (s.model dm).md.vocab == (s.model m).md.vocab && decide (1 ≤ br ∧ br ≤ 8 ∧ br ≤ nodes)))

/-- Is an adapter field refused (R313): VALID with a number never installed, or installed for another model? -/
def State.adapterBad (s : State) (m word : Nat) : Bool :=
  bitOf word 15 && ((s.adapter (word % 4096)).last == 0 || (s.adapter (word % 4096)).model != m)

/-- Bytes of key/value pages of a model per (layer, head), and the sizes of an exchange buffer of N tokens (R355). -/
def mdTpp (m : ModelMeta) : Nat := tppOf m.hdim
def pageOff (n : Nat) : Nat := ceilDiv (64 + 4 * n) 4096 * 4096
def mdTotal (m : ModelMeta) (n : Nat) : Nat := pageOff n + 16384 * m.layers * m.kvHeads * ceilDiv n (mdTpp m)

/-- Does an import header match its model (R356)? -/
def mdHeaderOk (m : ModelMeta) (hd : List Byte) (len : Nat) : Bool :=
  let n := leAt hd 0x0C 4
  leAt hd 0 4 == 1 && leAt hd 4 1 == m.hdim && leAt hd 5 1 % 128 == b2n m.keyE5 + 2 * b2n m.valE5 && leAt hd 6 2 == m.kvHeads
    && leAt hd 8 2 == m.layers && leAt hd 0x0A 2 == 0 && leAt hd 0x10 4 == m.kscale.toNat && leAt hd 0x14 4 == 0
    && leAt hd 0x18 8 == 64 && leAt hd 0x20 8 == pageOff n && leAt hd 0x28 8 == mdTotal m n && leAt hd 0x30 16 == 0
    && decide (1 ≤ n ∧ n ≤ 81920 * mdTpp m ∧ mdTotal m n ≤ len)

/-- Does an entry break R313? `host` is what the host read of its token words, its parameter block, or its import buffer's
header and token words returned; none is an error. [DEDUCED: log entry 90] -/
def State.entryRefused (s : State) (t : Nat) (e : List Byte) (host : Option (List Byte)) : Bool :=
  let typ := leAt e 0 1
  let h := leAt e 4 4
  let x := s.sesOf h
  let m := (s.model x.model).md
  let flag := bitOf (leAt e 1 1) 0
  let addr := leAt e 0x10 8
  let all := typ == tPurge && flag
  entryReserved e || h / 2 ^ 26 != t
    || (typ == tOpen && (x.inUse || !(s.model (leAt e 0x10 1)).resident || s.adapterBad (leAt e 0x10 1) (leAt e 0x12 2)))
    || (typ != tOpen && !all && !x.inUse)
    || (typ == tBind && s.adapterBad x.model (leAt e 0x10 2))
    || (typ == tAppend &&
      (let n := leAt e 0x18 4
       let words := if flag then tokWords (slice e 0x20 32) (min n 8) else tokWords (host.getD []) n
       n == 0 || n > 1048576 || (flag && n > 8) || (!flag && (addr % 4 != 0 || host.isNone)) || words.any (fun w => w ≥ m.vocab)))
    || (typ == tGenerate &&
      (leAt e 0x18 3 == 0 || addr % 64 != 0 || (addr == 0 && x.params.isEmpty)
        || (addr != 0 && (host.isNone || !(s.paramsOk x.model (host.getD []))))))
    || (typ == tCancel && !flag && !(x.reqs.any (fun r => r.rtag == leAt e 0x10 1)))
    || (typ == tImport &&
      (addr % 4096 != 0 || host.isNone || !x.hist.isEmpty || !x.reqs.isEmpty || !(mdHeaderOk m (host.getD []) (leAt e 0x18 8))))
    || (typ == tExport && (addr % 4096 != 0 || decide (leAt e 0x18 8 < mdTotal m x.hist.length)))

/-- The host read an entry names beside itself: its address and length (R314). -/
def entryRead (e : List Byte) (host : Option (List Byte)) : Option (Nat × Nat) :=
  let typ := leAt e 0 1
  let addr := leAt e 0x10 8
  if typ = tAppend ∧ bitOf (leAt e 1 1) 0 = false then some (addr, 4 * leAt e 0x18 4)
  else if typ = tGenerate ∧ addr ≠ 0 then some (addr, 512)
  else if typ = tImport then some (addr, 64 + 4 * leAt (host.getD []) 0x0C 4)
  else none

/-- The lowest free commit slot (R462). -/
def State.freeSlot (s : State) : Nat := (lowestFree (s.ses.slots.map (fun e => e.1)) 0 (2 ^ 20)).getD 0

/-- What the keeper knows of the session that an entry names: nothing of another tenant's; and the quadrant that takes the entry. -/
def State.entrySes (s : State) (t : Nat) (e : List Byte) : Session := if sesTenant (leAt e 4 4) = t then s.sesOf (leAt e 4 4) else {}
def State.entryOwner (s : State) (t : Nat) (e : List Byte) : Nat :=
  if (s.entrySes t e).inUse then (s.entrySes t e).owner else s.ownerOfIndex (leAt e 4 4 % 2 ^ 26)
/-- Does the keeper take the entry at hand now (R314, R316, R464)? -/
def State.mayTake (s : State) (t : Nat) (e : List Byte) : Bool :=
  s.fnState t == fnReady && !((s.ten t).taking) && !((s.ten t).refusing) && decide ((s.entrySes t e).reqs.length < 64)
    && !((s.entrySes t e).closing) && !((s.journalQuads (s.entryOwner t e)).any (fun q => s.ses.full.contains q))
    && s.flag (pgSes (s.entryOwner t e)) F.hdr_ENABLE
/-- The one read of what an entry names. -/
def State.readEntry (s : State) (t : Nat) (e : List Byte) (host : Option (List Byte)) : State :=
  match entryRead e host with
  | some (a, n) => s.emit (.hostRead (t + 1) (BitVec.ofNat 64 a) n)
  | none => s
/-- A refused entry's MALFORMED record waits for the token ring (R315). [DEDUCED: log entry 90] -/
def State.refuseEntry (s : State) (t : Nat) (e : List Byte) : State :=
  let h := leAt e 4 4
  let y := s.entrySes t e
  let d := s.draw
  let seq := if y.inUse then y.hist.length else d.1 % 2 ^ 32
  let d2 := d.2.draw
  let r : PRec := { ses := h, rnum := y.rnum, entry := true
                    bytes := tokRecord h seq 0xFFFFFF rLast stMalformed (leAt e 2 1) (d2.1 % 2 ^ 16) }
  let s2 := if y.inUse then d2.2.setSes h { y with rnum := y.rnum + 1 } else d2.2
  (s2.setTen t { s2.ten t with refusing := true, pend := (s2.ten t).pend ++ [r] }).raise (pgSes (s.entryOwner t e)) 0
/-- The request an entry makes, of the tokens and parameters read with it (R310 to R313, R352). -/
def State.entryReq (s : State) (t : Nat) (e : List Byte) (host : Option (List Byte)) : Req :=
  let typ := leAt e 0 1
  let y := s.entrySes t e
  let toks := if typ = tAppend then
      (if bitOf (leAt e 1 1) 0 then tokWords (slice e 0x20 32) (leAt e 0x18 4) else tokWords (host.getD []) (leAt e 0x18 4))
    else if typ = tImport then tokWords ((host.getD []).drop 64) (leAt (host.getD []) 0x0C 4) else []
  let params := if typ = tGenerate ∧ leAt e 0x10 8 ≠ 0 then slice (host.getD []) 0 512 else []
  let ver := if typ = tAppend ∨ typ = tGenerate then (y.adapter.map (fun a => (s.adapter a).cur)).getD 0 else 0
  { entry := e, params := if params.isEmpty && typ = tGenerate then y.params else params, toks := toks
    adp := y.adapter, ver := ver, round := s.ses.lastNum, left := if typ = tAppend then toks else [] }
/-- An entry's ACCEPT record is written to the journal (R316, R461): `req` is its request, `slot` the commit slot of an OPEN. -/
def State.acceptEntry (s : State) (t : Nat) (e : List Byte) (host : Option (List Byte)) (owner : Nat) (req : Req) (slot : Nat) : State :=
  let h := leAt e 4 4
  let typ := leAt e 0 1
  let data := if typ = tGenerate then (if leAt e 0x10 8 ≠ 0 then slice (host.getD []) 0 512 else []) else req.toks.flatMap (leBytes 4)
  let s2 := if typ = tOpen then { s with ses := { s.ses with slots := SMap.set s.ses.slots 0 slot (h + 1) } } else s
  let s3 := if typ = tOpen then s2.setSes h { s2.sesOf h with slot := slot } else s2
  ((s3.setTen t { s3.ten t with taking := true }).journalAdd h owner 1 s.ses.lastNum data.length
    (e ++ leBytes 2 req.ver ++ leBytes 2 0 ++ leBytes 4 slot ++ List.replicate 24 0#8 ++ data) (.accept t req)).journalCheck

/-- SUBMISSION_TAKE (R314 to R316, R464): the keeper takes the entry at hand of a READY function. It reads what the entry
names, once; a refused entry's MALFORMED record goes to the token ring, any other entry's ACCEPT record to the journal. An entry that
names a session of another tenant meets nothing of that session. [DEDUCED: log entry 89] -/
def execSubmissionTake (t : Fin 64) (host : Option (List Byte)) (s : State) : Out := s.gate fun s =>
  match (s.ten t).entry with
  | none => .next s
  | some e =>
    if !(s.mayTake t e) then .next s
    else if s.entryRefused t e host then .next ((s.readEntry t e host).refuseEntry t e)
    else .next ((s.readEntry t e host).acceptEntry t e host (s.entryOwner t e) (s.entryReq t e host) (if leAt e 0 1 = tOpen then s.freeSlot else 0))

/-! ## Acceptance -/

/-- Sessions that are not GONE, of a tenant or of all (R308, TEN_USED). -/
def State.sessionsOf (s : State) (t : Option Nat) : Nat :=
  (s.sess.filter (fun e => decide (e.1 < 2 ^ 32) && e.2.inUse && (match t with | some t => sesTenant e.1 == t | none => true))).length

/-- An entry is accepted (R452, R314): the request is outstanding, or completes at once. [DEDUCED: log entry 89] -/
def State.accept (s : State) (t h : Nat) (r : Req) : State :=
  let x := s.sesOf h
  let s0 := (s.event (pgTnt t)).event (pgSes (if r.typ = tOpen then s.ownerOfIndex (h % 2 ^ 26) else x.owner))
  let ord := s0.ses.nextOrder
  let r := { r with order := ord }
  let s1 := { s0 with ses := { s0.ses with nextOrder := ord + 1 } }
  if r.typ = tOpen then
    let full := decide (s1.sessionsOf none ≥ 2 ^ 20) || decide (s1.sessionsOf (some t) ≥ s1.fldB (pgSes 0) t F.ses_TEN_CAP_VALUE)
    let y : Session := { owner := s1.ownerOfIndex (h % 2 ^ 26), model := leAt r.entry 0x10 1, slot := x.slot, jseq := x.jseq }
    if full then ((s1.setSes h { y with closing := true }).plainRecord h 0xFFFFFF rLast stKvLimit r.rtag).raise (pgSes y.owner) 1
    else s1.setSes h { y with reqs := [r] }
  else if x.closing then s1.plainRecord h 0xFFFFFF rLast stPurged r.rtag
  else if r.typ = tPurge ∧ r.flag then
    s1.setTen t { s1.ten t with purges := (s1.ten t).purges ++ [(h, r)] }
  else
    let work := decide (r.typ = tAppend ∨ r.typ = tGenerate)
    let s2 := s1.setSes h { x with reqs := x.reqs ++ [r], params := if r.typ = tGenerate then r.params else x.params }
    if work && x.unloaded then s2.complete h r stQuarantined
    else if work && (match x.adapter with | some a => (s2.adapter a).cur == 0 | none => false) then s2.complete h r stAdapterRetired
    else s2.settleMove h

/-- JOURNAL_WRITE_COMPLETE (R452, R459, R463): every copy of a session's oldest journal record under way has been applied. -/
def execJournalWriteComplete (h : W32) (s : State) : Out := s.gate fun s =>
  let h := h.toNat
  match s.ses.journal.find? (fun r => r.ses == h && !r.done) with
  | none => .next s
  | some r =>
    let s1 := s.setJournal (s.ses.journal.map (fun q => if q.ses = h ∧ q.jseq = r.jseq then { q with done := true } else q))
    let s2 := match r.what with
      | .accept t req => (s1.accept t h req).passHead t
      | .records ps => let t := sesTenant h; s1.setTen t { s1.ten t with pend := (s1.ten t).pend ++ ps }
      | .effect => s1
      | .history => s1.setJournal (s1.ses.journal.filter (fun q => q.ses != h || decide (q.jseq ≥ r.jseq) || !q.done))
    .next ((s2.tryGone h).journalCheck)

/-! ## Delivery -/

/-- A delivered record is committed (R453, R462): its session's entry in the commit table rises past it. -/
def State.commitRec (s : State) (p : PRec) : State :=
  let x := s.sesOf p.ses
  if SMap.get s.ses.slots 0 x.slot = p.ses + 1 then
    { s with ses := { s.ses with commit := SMap.set s.ses.commit 0 x.slot (max (SMap.get s.ses.commit 0 x.slot) (p.rnum + 1)) } }
  else s

/-- How many of the records that wait the token ring of a function has room for (R400). -/
def State.deliverable (s : State) (t count : Nat) : Nat :=
  min count (min (s.ten t).pend.length ((s.trDb t + 2 * s.trSize t - 1 - s.trTail t) % s.trSize t))

/-- The records leave for the slots from TR_TAIL onwards (R402, order 1). -/
def State.sendRecords (s : State) (t : Nat) (ps : List PRec) : State :=
  (List.range ps.length).foldl (fun s i =>
    s.emit (.hostWrite (t + 1) (BitVec.ofNat 64 (s.trBase t + 16 * ((s.trTail t + i) % s.trSize t))) ((ps.getD i ⟨0, 0, [], false⟩).bytes))) s

/-- The first `k` waiting records are delivered: the ring, the shadow tail, TR_TAIL, the commit table, and vector 0 when R408 calls for it. -/
def State.deliver (s : State) (t k : Nat) : State :=
  let x := s.ten t
  let ps := x.pend.take k
  let tail := (s.trTail t + k) % s.trSize t
  let s2 := ((s.sendRecords t ps).shadow t 0x00 tail).setFld (pgTnt t) F.tnt0_TR_TAIL_INDEX tail
  let s3 := ps.foldl (fun s p => s.commitRec p) s2
  let cnt := s.fld (pgTnt t) F.tnt0_TR_IRQ_CNT_VALUE
  let fire := decide (cnt ≠ 0 ∧ x.unsignalled + k ≥ cnt)
  let s4 := s3.setTen t { s3.ten t with pend := x.pend.drop k, unsignalled := if fire then 0 else x.unsignalled + k }
  let s5 := if fire then s4.irq (t + 1) 0 else s4
  if ps.any (fun p => p.entry) then s5.passHead t else s5

/-- TOKEN_DELIVERY (R400 to R403, R408, R453): the host pump writes up to `count` pending records of a READY or FAULT
function into the token ring, then the shadow tail, then TR_TAIL, and raises vector 0 when R408 calls for it. -/
def execTokenDelivery (t : Fin 64) (count : W32) (s : State) : Out := s.gate fun s =>
  if s.deliverable t count.toNat = 0 ∨ !(s.fnState t = fnReady ∨ s.fnState t = fnFault) then .next s
  else .next (s.deliver t (s.deliverable t count.toNat))

/-- TOKEN_IRQ_DELAY_EXPIRY (R408): TR_IRQ_DELAY has passed since the first unsignalled record was published. -/
def execTokenIrqDelayExpiry (t : Fin 64) (s : State) : Out := s.gate fun s =>
  let x := s.ten t
  if x.unsignalled = 0 ∨ s.fld (pgTnt t) F.tnt0_TR_IRQ_DELAY_VALUE = 0 ∨ !(s.fnState t = fnReady ∨ s.fnState t = fnFault) then .next s
  else .next ((s.setTen t { x with unsignalled := 0 }).irq (t + 1) 0)

end Sys2Proof.Machine
end

