-- ==== Sys2Proof/Machine/Kv.lean ====
section
/-! DEFINITION. Key/value pages: placement (R120 to R124, R332), their bytes, settling, sinking and waking (R325 to R331,
R470). -/
namespace Sys2Proof.Machine
open Sys2Proof

/-! ## Placement -/

/-- The lane of (layer, head) (R122). -/
def kvLane (l hd : Nat) : Nat := (hd + l) % 8
/-- Opening order `k`'s stack pseudo-channel, as stack × 64 + pseudo-channel, for a session index (R123). -/
def kvOpening (idx l hd k : Nat) : Nat := ((idx + l) % 20 + k % 20) % 20 * 64 + 8 * (k / 20) + kvLane l hd
/-- The key of a (layer, head) in a session's runs. -/
def runIx (l hd : Nat) : Nat := l * 65536 + hd

/-- The bank pair of a pseudo-channel that takes the next page: the fewest of the head's pages, ties to the lowest, among
pairs with fewer than 32 of them and a free page slot (R123); with the lowest free slot. -/
def State.kvPair (s : State) (pages : List KvPage) (sp : Nat) : Option KvPage :=
  let n := s.profile.bankedRows / 8
  let count := fun (pair : Nat) => (pages.filter (fun p => p.pair == pair)).length
  let cand := ((List.range 16).map (fun j => sp * 16 + j)).filterMap (fun pair =>
    if s.pairOk pair && decide (count pair < 32) then ((List.range n).find? (s.slotFree pair)).map (fun r => (count pair, pair, r)) else none)
  match cand with
  | [] => none
  | c :: cs =>
    let b := cs.foldl (fun (b d : Nat × Nat × Nat) => if d.1 < b.1 then d else b) c
    some { pair := b.2.1, slot := b.2.2 }

/-- Where the next page of a (session, layer, head) goes (R123). -/
def State.kvPlace (s : State) (idx l hd : Nat) (pages : List KvPage) : Option KvPage :=
  let count := fun (k : Nat) => (pages.filter (fun p => p.pair / 16 == kvOpening idx l hd k)).length
  let held := (List.range 160).filter (fun k => decide (count k > 0))
  let open' := (List.range 160).filter (fun k => count k == 0)
  let byFew := held.foldr (fun k acc => (acc.takeWhile (fun j => decide (count j < count k))) ++ k :: acc.dropWhile (fun j => decide (count j < count k))) []
  let order := if held.all (fun k => decide (count k ≥ 8)) && decide (held.length < 160) then open' ++ byFew else byFew ++ open'
  order.findSome? (fun k => s.kvPair pages (kvOpening idx l hd k))

/-- Every (layer, head) of a model. -/
def mdHeads (m : ModelMeta) : List (Nat × Nat) :=
  (List.range m.layers).flatMap (fun l => (List.range m.kvHeads).map (fun hd => (l, hd)))

/-- Give a (layer, head) of a session one more page. -/
def State.kvGrow (s : State) (h l hd : Nat) : Option State :=
  let x := s.sesOf h
  let pages := SMap.get x.runs [] (runIx l hd)
  (s.kvPlace (h % 2 ^ 26) l hd pages).map (fun p =>
    (s.useSlots p.pair p.slot 1 true).setSes h { x with runs := SMap.set x.runs [] (runIx l hd) (pages ++ [p]) })

/-- Give a (layer, head) `n` more pages. -/
def State.kvGrowN (s : State) (h l hd : Nat) : Nat → Option State
  | 0 => some s
  | n + 1 => (s.kvGrow h l hd).bind (fun s => s.kvGrowN h l hd n)

/-- Give every (layer, head) of a session pages for `n` positions; none when a page cannot be placed. -/
def State.kvCover (s : State) (h n : Nat) : Option State :=
  let m := (s.model (s.sesOf h).model).md
  (mdHeads m).foldl (fun o e => o.bind (fun s =>
    s.kvGrowN h e.1 e.2 (ceilDiv n (mdTpp m) - (SMap.get (s.sesOf h).runs [] (runIx e.1 e.2)).length))) (some s)

/-- What a reservation of pages comes to (R332). -/
inductive Reserve where
  | ok (s : State)
  /-- Left out of this round. -/
  | wait (s : State)
  /-- KV_LIMIT at the session's boundary. -/
  | limit (s : State)

/-- Reserve pages for `n` positions of a session (R22, R124, R179, R332): over the tenant's cap its own state is evicted
first; a full pool starts on-demand eviction. -/
def State.kvReserve (s : State) (h n : Nat) : Reserve :=
  let x := s.sesOf h
  let m := (s.model x.model).md
  let fn := sesFn h
  if ceilDiv n (mdTpp m) > 81920 then .limit s
  else
    let fits := fun (s : State) => decide (s.quotaUsed fn 1 x.owner ≤ s.capOf fn 1 x.owner)
    match s.kvCover h n with
    | some s1 =>
      if fits s1 then .ok s1
      else match s.evictOne x.owner 2 (some fn) with
        | some s2 => (match s2.kvCover h n with
          | some s3 => if fits s3 then .ok s3 else .wait s2
          | none => .wait s2)
        | none => .limit s
    | none => match s.evictOne x.owner 2 none with
      | some s2 => (match s2.kvCover h n with
        | some s3 => if fits s3 then .ok s3 else .wait s2
        | none => .wait s2)
      | none => .limit s

/-! ## Bytes of a page -/

/-- The column of a page that holds byte `o` of a half (0 keys, 1 values) (R89, R120). -/
def KvPage.col (p : KvPage) (half o : Nat) : Nat :=
  colIx (p.pair / 1024) (p.pair % 1024 / 16) (2 * (p.pair % 16) + half) (768 + 8 * p.slot + o / 1024) (o % 1024 / 32)

/-- Write bytes of a half of a page from offset `o`. -/
def State.pageWrite (s : State) (p : KvPage) (half o : Nat) (data : List Byte) : State :=
  ((spans (data.length / 32 + 2) o data.length).foldl (fun (a : List Byte × State) e =>
    (a.1.drop e.2, (a.2.writeCol (p.col half e.1) (e.1 % 32) (a.1.take e.2)).2)) (data, s)).2

/-- Read `n` bytes of a half of a page from offset `o`: the bytes, whether any read poisoned. -/
def State.pageRead (s : State) (p : KvPage) (half o n : Nat) : List Byte × Bool × State :=
  (spans (n / 32 + 2) o n).foldl (fun (a : List Byte × Bool × State) e =>
    let r := a.2.2.readCol (p.col half e.1)
    (a.1 ++ slice r.1.data (e.1 % 32) e.2, a.2.1 || r.1.poison, r.2)) ([], false, s)

/-- Where a session's entry of a position lies: its page and the offset in each half (R120). -/
def State.entryAt (s : State) (h l hd pos : Nat) : Option (KvPage × Nat) :=
  let x := s.sesOf h
  let m := (s.model x.model).md
  ((SMap.get x.runs [] (runIx l hd))[pos / (mdTpp m)]?).map (fun p => (p, pos % (mdTpp m) * dimOf m.hdim))

/-- Copy the entries of one position to another, in every layer and head of a session (R23). -/
def State.moveEntry (s : State) (h fromPos toPos : Nat) : State :=
  let m := (s.model (s.sesOf h).model).md
  if fromPos = toPos then s
  else (mdHeads m).foldl (fun s e =>
    match s.entryAt h e.1 e.2 fromPos, s.entryAt h e.1 e.2 toPos with
    | some a, some b =>
      [0, 1].foldl (fun s half =>
        let r := s.pageRead a.1 half a.2 (dimOf m.hdim)
        r.2.2.pageWrite b.1 half b.2 r.1) s
    | _, _ => s) s

/-- Release the pages beyond those that `n` positions need (R23, R25). [DEDUCED: log entry 86] -/
def State.kvTrim (s : State) (h n : Nat) : State :=
  let m := (s.model (s.sesOf h).model).md
  (mdHeads m).foldl (fun s e =>
    let x := s.sesOf h
    let pages := SMap.get x.runs [] (runIx e.1 e.2)
    let keep := ceilDiv n (mdTpp m)
    ((pages.drop keep).foldl (fun s p => s.freePage p) s).setSes h { x with runs := SMap.set x.runs [] (runIx e.1 e.2) (pages.take keep) }) s

/-- The poisoned columns that stand in the stacks' page slots. -/
def State.poisonKeys (s : State) : List Nat :=
  (s.cis.cols.filter (fun e => match decodeCol e.2 with | .poisoned => true | .uncorrectable => true | _ => false)).map (fun e => e.1)

/-- Does one of the poisoned columns hold one of the first `n` bytes of a half of a page? -/
def KvPage.hit (p : KvPage) (keys : List Nat) (n : Nat) : Bool :=
  keys.any (fun k =>
    let q := placeOfKey k
    (q.st * 64 + q.pc) * 16 + q.bank / 2 == p.pair && decide (768 + 8 * p.slot ≤ q.row ∧ (q.row - 768 - 8 * p.slot) * 1024 + 32 * q.col < n ∧ q.row < 776 + 8 * p.slot))

/-- The pages of a session that `bad` names, given how many bytes of each half hold entries of the history, as lost
entries (R466). -/
def State.lostPages (s : State) (h : Nat) (bad : KvPage → Nat → Bool) : List Lost :=
  let x := s.sesOf h
  let m := (s.model x.model).md
  x.runs.flatMap (fun e => (List.range e.2.length).filterMap (fun k =>
    match e.2[k]? with
    | some p => if bad p (min (mdTpp m) (x.hist.length - k * mdTpp m) * dimOf m.hdim) then some ⟨e.1 / 65536, e.1 % 65536, k * mdTpp m, mdTpp m⟩ else none
    | none => none))

/-! ## Settling -/

/-- Byte `o` of a settled copy: the column key in its spread tiles. -/
def State.keptCol (s : State) (x : Session) (o : Nat) : Option Nat × State :=
  match x.spread[o / 65536]? with
  | some loc => s.tileCol (fun q => x.ver / 4 ^ q % 4) loc (o % 65536)
  | none => (none, s)

/-- Write bytes of a settled copy. -/
def State.keptWrite (s : State) (x : Session) (o : Nat) (data : List Byte) : State :=
  ((spans (data.length / 32 + 2) o data.length).foldl (fun (a : List Byte × State) e =>
    match a.2.keptCol x e.1 with
    | (some k, s1) => (a.1.drop e.2, (s1.writeCol k (e.1 % 32) (a.1.take e.2)).2)
    | (none, s1) => (a.1.drop e.2, s1)) (data, s)).2

/-- Read bytes of a settled or sunk copy: the bytes, whether any was poisoned. -/
def State.keptRead (s : State) (x : Session) (o n : Nat) : List Byte × Bool × State :=
  (spans (n / 32 + 2) o n).foldl (fun (a : List Byte × Bool × State) e =>
    if x.sump.isEmpty then
      match a.2.2.keptCol x e.1 with
      | (some k, s1) => let r := s1.readCol k; (a.1 ++ slice r.1.data (e.1 % 32) e.2, a.2.1 || r.1.poison, r.2)
      | (none, s1) => (a.1 ++ List.replicate e.2 0#8, true, s1)
    else
      let u := x.sump.getD (e.1 / 65536) 0
      (a.1 ++ SMap.getList a.2.2.mem.sump 0#8 (u * 65536 + e.1 % 65536) e.2,
        a.2.1 || SMap.get a.2.2.mem.sumpBad false (u * 2048 + e.1 % 65536 / 32), a.2.2)) ([], false, s)

/-- The settled form of a page half (R329): its table and its 32 blocks. -/
def settleHalf (elem slot : Nat) (data : List Byte) : List Byte × List Byte :=
  let tbl := firstPass elem (blockElems elem data)
  (tbl, (List.range 32).flatMap (fun b => padTo slot (encodeBlock tbl (codeCap elem slot) (slice data (256 * b) 256) []).1))

/-- The bytes of a settled page (R329). -/
def settlePage (kE vE slot : Nat) (keys vals : List Byte) : List Byte :=
  let a := settleHalf kE slot keys
  let b := settleHalf vE slot vals
  let l := a.1 ++ b.1 ++ a.2 ++ b.2
  padTo (ceilDiv l.length 256 * 256) l

/-- The halves of a page that its settled bytes give back (R330). -/
def wakePage (slot : Nat) (bs : List Byte) : List Byte × List Byte :=
  let half := fun (i : Nat) =>
    let tbl := slice bs (48 * i) 48
    (List.range 32).flatMap (fun b => (decodeBlock tbl (codeCap (tblElem tbl) slot) (slice bs (96 + slot * (32 * i + b)) slot)).1)
  (half 0, half 1)

/-- SES.SETTLE_SLOT in force: 40 to 164, a multiple of 4. -/
def State.settleSlot (s : State) : Nat := min 164 (max 40 (s.fld (pgSes 0) F.ses_SETTLE_SLOT_SLOT_BYTES / 4 * 4))

/-- Take `n` spread tiles in a quadrant for a session, under the current slot-table version and the tenant's cap. -/
def State.takeSpread (s : State) (fn q ver : Nat) : Nat → Option (List StackLoc × State)
  | 0 => some ([], s)
  | n + 1 =>
    let place := fun (s : State) => (s.freeSpread q (ver / 4 ^ q % 4)).map (fun r => (StackLoc.spread q r.1 r.2, s.useLoc (.spread q r.1 r.2) ver true))
    let here := match s.underCap fn 1 q 3 with
      | none => none
      | some s1 => match place s1 with
        | some r => some r
        | none => (s1.evictOne q 3 none).bind place
    here.bind (fun r => (r.2.takeSpread fn q ver n).map (fun t => (r.1 :: t.1, t.2)))

/-- Settle one session's private pages (R329): compressed into spread tiles, the banked pages freed. None while the spread
pool cannot take them. A page that cannot be read joins the lost entries. -/
def State.settleOne (s : State) (h : Nat) : Option State :=
  let x := s.sesOf h
  let m := (s.model x.model).md
  let slot := s.settleSlot
  let size := ceilDiv (96 + 64 * slot) 256 * 256
  let priv := x.runs.flatMap (fun e => (List.range e.2.length).filterMap (fun k =>
    match e.2[k]? with
    | some p => if p.node.isNone then some (e.1, k, p) else none
    | none => none))
  let ver := s.curVersions
  (s.takeSpread (sesFn h) x.owner ver (ceilDiv (priv.length * size) 65536)).map (fun r =>
    let y := { s.sesOf h with spread := r.1, ver := ver, kept := priv.map (fun e => (e.1, e.2.1)), keptSize := size }
    let s1 := (List.range priv.length).foldl (fun s i =>
      match priv[i]? with
      | some (_, _, p) =>
        let a := s.pageRead p 0 0 8192
        let b := a.2.2.pageRead p 1 0 8192
        b.2.2.keptWrite y (i * size) (settlePage (b2n m.keyE5) (b2n m.valE5) slot a.1 b.1)
      | none => s) r.2
    let lost := s1.lostPages h (fun p n => p.node.isNone && p.hit s1.poisonKeys n)
    let z := s1.sesOf h
    (s1.setSes h { z with spread := y.spread, ver := ver, kept := y.kept, keptSize := size, lossy := true, lost := z.lost ++ lost }).freePages h)

/-- SETTLE_COMPLETE (R325, R329): the last compressed private page of a SETTLING session is written, the banked pages are
freed, and the session, with its draft session, is SETTLED. -/
def execSettleComplete (h : W32) (s : State) : Out := s.gate fun s =>
  let h := h.toNat
  let x := s.sesOf h
  if x.st ≠ .settling then .next s
  else
    let r := (s.settleOne h).bind (fun s => if (SMap.find s.sess (h + 2 ^ 32)).isSome then s.settleOne (h + 2 ^ 32) else some s)
    match r with
    | none => .next s
    | some s1 => .next (((s1.enter h .settled).stateRecord h 0xFFFF01).settleMove h)

/-- Copy a session's settled tiles to the sump and free them; none when a tile cannot be placed (R180, R325). -/
def State.sinkOne (s : State) (h : Nat) : Option State :=
  let x := s.sesOf h
  let fn := sesFn h
  let r := x.spread.foldl (fun (o : Option (List Nat × State)) _ => o.bind (fun a =>
    if a.2.quotaUsed fn 2 0 + a.1.length + 1 > a.2.capOf fn 2 0 then none
    else a.2.freeSump.map (fun u =>
      (a.1 ++ [u], { a.2 with mem := { a.2.mem with
        sumpUse := SMap.set a.2.mem.sumpUse 0 u (2 ^ 62 + h)
        sump := SMap.keep a.2.mem.sump (fun b => !(b / 65536 == u))
        sumpBad := SMap.keep a.2.mem.sumpBad (fun b => !(b / 2048 == u)) } })))) (some ([], s))
  r.map (fun a =>
    let s1 := (List.range (x.kept.length * x.keptSize / 32)).foldl (fun s i =>
      let d := s.keptRead x (32 * i) 32
      let u := a.1.getD (32 * i / 65536) 0
      { d.2.2 with mem := { d.2.2.mem with
        sump := SMap.setList d.2.2.mem.sump 0#8 (u * 65536 + 32 * i % 65536) d.1
        sumpBad := SMap.set d.2.2.mem.sumpBad false (u * 2048 + 32 * i % 65536 / 32) d.2.1 } }) a.2
    let s2 := x.spread.foldl (fun s l => s.useLoc l x.ver false) s1
    s2.setSes h { s2.sesOf h with spread := [], sump := a.1 })

/-- SINK_COMPLETE (R325): the copy of a SINKING session to the sump completes, or is abandoned with SUMP_REFUSED. -/
def execSinkComplete (h : W32) (s : State) : Out := s.gate fun s =>
  let h := h.toNat
  let x := s.sesOf h
  if x.st ≠ .sinking then .next s
  else
    let r := (s.sinkOne h).bind (fun s => if (SMap.find s.sess (h + 2 ^ 32)).isSome then s.sinkOne (h + 2 ^ 32) else some s)
    match r with
    | none => .next (((s.raise (pgSes x.owner) 2).enter h .settled).settleMove h)
    | some s1 => .next (((s1.enter h .sunk).stateRecord h 0xFFFF02).settleMove h)

/-- Bring one session's kept pages back to the banked pool (R330): expanded, or, with EXACT or a copy that cannot be read
(R470), as lost entries to rebuild. None when the pages cannot be placed. -/
def State.wakeOne (s : State) (h : Nat) (exact : Bool) : Option State :=
  let x := s.sesOf h
  let m := (s.model x.model).md
  let slot := (x.keptSize - 96) / 64 / 4 * 4
  let place := x.kept.foldl (fun (o : Option State) e => o.bind (fun s => s.kvGrow h (e.1 / 65536) (e.1 % 65536))) (some s)
  place.map (fun s1 =>
    let pageOf := fun (s : State) (e : Nat × Nat) => (SMap.get (s.sesOf h).runs [] e.1)[e.2]?
    let r := (List.range x.kept.length).foldl (fun (a : Bool × State) i =>
      let d := a.2.keptRead x (i * x.keptSize) x.keptSize
      let w := wakePage slot d.1
      match x.kept[i]? with
      | some e => match pageOf d.2.2 e with
        | some p => (a.1 || d.2.1, (d.2.2.pageWrite p 0 0 w.1).pageWrite p 1 0 w.2)
        | none => (a.1 || d.2.1, d.2.2)
      | none => (a.1, d.2.2)) (false, s1)
    let redo := exact || r.1
    let s2 := (if redo then s1 else r.2).freeKept h
    let y := s2.sesOf h
    s2.setSes h { y with lossy := !redo && y.lossy, exact := false
                         lost := if redo then x.kept.map (fun e => ⟨e.1 / 65536, e.1 % 65536, e.2 * (mdTpp m), (mdTpp m)⟩) else y.lost })

end Sys2Proof.Machine
end

