-- ==== Sys2Proof/Machine/Prefix.lean ====
section
/-! DEFINITION. The prefix tree (R345 to R350): linking, partial copies, insertion. -/
namespace Sys2Proof.Machine
open Sys2Proof

/-- The parent KEY of block 0 (R346): TENANT, MODEL, ADAPTER, ADP_VER and two zero bytes. -/
def rootKey (tenant model : Nat) (adapter : Option Nat) (ver : Nat) : List Byte :=
  leBytes 1 tenant ++ leBytes 1 model ++ leBytes 2 (match adapter with | some a => a + 0x8000 | none => 0) ++ leBytes 2 ver ++ leBytes 2 0

/-- The KEY of a block (R346). -/
def blockKey (parent : List Byte) (toks : List Nat) : List Byte := shake256 8 (parent ++ toks.flatMap (leBytes 3))

/-- Does prefix sharing serve a session (R345)? -/
def State.shares (s : State) (x : Session) : Bool := x.share && decide (1 ≤ (s.model x.model).md.hdim)

/-- The nodes that may follow a session's links in its owner's tree, under the adapter version of a request. -/
def State.children (s : State) (h : Nat) (x : Session) (adp : Option Nat) (ver : Nat) : List (Nat × PNode) :=
  s.ses.nodes.filter (fun e => e.1 / 2 ^ 31 == x.owner && e.2.tenant == sesTenant h && e.2.model == x.model && e.2.adapter == adp
    && e.2.ver == ver && e.2.parent == (match x.links.getLast? with | some n => n + 1 | none => 0))

/-- The parent KEY for a session's next block. -/
def State.lastKey (s : State) (h : Nat) (x : Session) (adp : Option Nat) (ver : Nat) : List Byte :=
  match x.links.getLast? with
  | some n => ((SMap.find s.ses.nodes n).map (fun p => p.key)).getD []
  | none => rootKey (sesTenant h) x.model adp ver

/-- Add a reference to a node, with the host time of the link. -/
def State.refNode (s : State) (n : Nat) (p : PNode) (now : BitVec 64) : State :=
  { s with ses := { s.ses with nodes := SMap.put s.ses.nodes n { p with refs := p.refs + 1, lastUse := now } } }

/-- Link a node (R347): its pages join the session's runs and the history advances by 64 positions. -/
def State.linkNode (s : State) (h n : Nat) (p : PNode) : State :=
  let s1 := s.refNode n p (s.stampOf (s.sesOf h).owner)
  let x := s1.sesOf h
  let runs := p.pages.foldl (fun r e => SMap.set r [] e.1 (SMap.get r [] e.1 ++ e.2.map (fun g => { g with node := some n }))) x.runs
  s1.setSes h { (x.takePrompt 64) with runs := runs, links := x.links ++ [n] }

/-- The length of the common leading part of two lists. -/
def commonLen : List Nat → List Nat → Nat
  | a :: as, b :: bs => if a = b then commonLen as bs + 1 else 0
  | _, _ => 0

/-- Copy the leading positions of a node into new private pages (R348); none when they cannot be placed. -/
def State.copyLead (s : State) (h m : Nat) (p : PNode) : Option State :=
  let x := s.sesOf h
  let md := (s.model x.model).md
  let base := x.hist.length
  match s.kvReserve h (base + m) with
  | .ok s1 =>
    some ((mdHeads md).foldl (fun s e =>
      (List.range (ceilDiv m (mdTpp md))).foldl (fun s k =>
        match (SMap.get p.pages [] (runIx e.1 e.2))[k]?, (SMap.get (s.sesOf h).runs [] (runIx e.1 e.2))[base / (mdTpp md) + k]? with
        | some a, some b =>
          let n := min (mdTpp md) (m - k * (mdTpp md)) * dimOf md.hdim
          [0, 1].foldl (fun s half => let r := s.pageRead a half 0 n; r.2.2.pageWrite b half 0 r.1) s
        | _, _ => s) s) s1)
  | _ => none

/-- PREFIX_LINK (R347, R348): take the running APPEND's next tokens from the tree as far as it holds them. -/
def State.linkPrefix (s : State) (h : Nat) : Nat → State
  | 0 => s
  | fuel + 1 =>
    let x := s.sesOf h
    match x.reqs with
    | [] => s
    | r :: _ =>
      if !(s.shares x) || !x.allLinked || x.hist.length != 64 * x.links.length || r.left.isEmpty then s
      else
        let kids := s.children h x r.adp r.ver
        let next := r.left.take 64
        match kids.find? (fun e => decide (next.length = 64) && e.2.toks == next && e.2.key == blockKey (s.lastKey h x r.adp r.ver) next) with
        | some (n, p) => (s.linkNode h n p).linkPrefix h fuel
        | none =>
          let best := kids.foldl (fun (b : Nat × Option PNode) e => let m := min 64 (commonLen e.2.toks r.left); if m > b.1 then (m, some e.2) else b)
            (0, none)
          match best with
          | (m, some p) =>
            (match s.copyLead h m p with
            | some s1 => s1.setSes h { ((s1.sesOf h).takePrompt m) with allLinked := false }
            | none => s)
          | _ => s

/-- The lowest free node key of a quadrant's tree. -/
def State.freeNode (s : State) (q : Nat) : Nat :=
  (lowestFree ((s.ses.nodes.filter (fun e => e.1 / 2 ^ 31 == q)).map (fun e => e.1)) (q * 2 ^ 31) ((q + 1) * 2 ^ 31)).getD (q * 2 ^ 31)

/-- PREFIX_NODE_INSERT (R349): an all-linked SHARE session that has completed a full block from APPEND tokens, under an
adapter version, inserts and links a node, or links the node that has appeared meanwhile and frees its own pages. -/
def State.insertNode (s : State) (h : Nat) (adp : Option Nat) (ver : Nat) : Nat → State
  | 0 => s
  | fuel + 1 =>
    let x := s.sesOf h
    let b := x.links.length
    if !(s.shares x) || !x.allLinked || decide (x.hist.length < 64 * (b + 1)) then s
    else
      let md := (s.model x.model).md
      let ppb := 64 / (mdTpp md)
      let toks := (x.hist.drop (64 * b)).take 64
      let key := blockKey (s.lastKey h x adp ver) toks
      let put := fun (l : List KvPage) (new : List KvPage) => l.take (ppb * b) ++ new ++ l.drop (ppb * (b + 1))
      match (s.children h x adp ver).find? (fun e => e.2.toks == toks && e.2.key == key) with
      | some (n, p) =>
        let own := x.runs.flatMap (fun e => (e.2.drop (ppb * b)).take ppb)
        let s1 := (own.foldl (fun s g => s.freePage g) s).refNode n p (s.stampOf x.owner)
        let runs := x.runs.map (fun e => (e.1, put e.2 ((SMap.get p.pages [] e.1).map (fun g => { g with node := some n }))))
        (s1.setSes h { x with runs := runs, links := x.links ++ [n] }).insertNode h adp ver fuel
      | none =>
        let n := s.freeNode x.owner
        let pages := x.runs.map (fun e => (e.1, ((e.2.drop (ppb * b)).take ppb).map (fun g => { g with node := some n })))
        let p : PNode := { key := key, parent := (match x.links.getLast? with | some m => m + 1 | none => 0), refs := 1, tenant := sesTenant h
                           model := x.model, adapter := adp, ver := ver, block := b, pages := pages, lastUse := s.stampOf x.owner, toks := toks }
        let runs := x.runs.map (fun e => (e.1, put e.2 (SMap.get pages [] e.1)))
        let s1 := { s with ses := { s.ses with nodes := SMap.put s.ses.nodes n p } }
        (s1.setSes h { x with runs := runs, links := x.links ++ [n] }).insertNode h adp ver fuel

end Sys2Proof.Machine
end

