-- ==== Sys2Proof/Machine/Entry.lean ====
section
/-! DEFINITION. What the entries of a submission ring do (R310, R316 to R320, R325 to R327, R344, R347, R351 to R357), and a
session's round boundary (R319). -/
namespace Sys2Proof.Machine
open Sys2Proof

/-! ## When an entry runs -/

/-- Do rows of a session run now? -/
def State.busy (s : State) (h : Nat) : Bool := s.inRound h || s.inChunk h

/-- The request at the head of a session's order (R317): CANCEL, PARK, RESUME, PURGE, and ADAPTER_BIND with NOW do not wait
in it. -/
def Session.headReq (x : Session) : Option Req :=
  x.reqs.find? (fun r => !([tPark, tResume, tCancel, tPurge].contains r.typ) && !(r.typ == tBind && r.flag))

/-- Run an entry's effect when it heads its session's order, the session is idle and not closing. -/
def State.onHead (s : State) (h : W32) (typ : Nat) (k : Req → State → State) : Out :=
  let x := s.sesOf h.toNat
  match x.headReq with
  | some r => if r.typ = typ ∧ !x.closing ∧ !(s.busy h.toNat) then .next (k r s) else .next s
  | none => .next s

/-- Replace a request of a session. -/
def Session.putReq (x : Session) (r r' : Req) : Session := { x with reqs := x.reqs.map (fun q => if q = r then r' else q) }

/-- The next number in the keepers' order of readiness. -/
def State.stampReady (s : State) (h : Nat) : State :=
  let n := s.ses.nextOrder
  ({ s with ses := { s.ses with nextOrder := n + 1 } }).setSes h { s.sesOf h with ready := n }

/-! ## OPEN, APPEND, GENERATE, CLOSE -/

/-- An ADAPTER field as an adapter number (R311). -/
def adapterField (w : Nat) : Option Nat := if bitOf w 15 then some (w % 4096) else none

/-- OPEN (R325, R327): the session is created in PARKED with an empty history, its model, adapter and time-to-live values. -/
def execOpen (h : W32) (s : State) : Out := s.gate fun s =>
  let k := h.toNat
  let x := s.sesOf k
  match x.headReq with
  | some r =>
    if r.typ = tOpen ∧ x.st = .gone ∧ !x.closing then
      let opt := leAt r.entry 0x11 1
      let y := { x with model := leAt r.entry 0x10 1, lead := bitOf opt 0, share := bitOf opt 1, notify := bitOf opt 2
                        adapter := adapterField (leAt r.entry 0x12 2), ttl := [leAt r.entry 0x18 8, leAt r.entry 0x20 8, leAt r.entry 0x28 8] }
      .next (((s.setSes k y).enter k .parked).doneEffect k r)
    else .next s
  | none => .next s

/-- An APPEND whose tokens are all in the history completes DONE. -/
def State.finishAppend (s : State) (h : Nat) : State :=
  match (s.sesOf h).headReq with
  | some r => if r.typ = tAppend ∧ r.started ∧ r.left.isEmpty then s.complete h r stDone else s
  | none => s

/-- APPEND (R347, R348): the request starts; what the prefix tree holds of it joins the history at once, and the rest runs
as prompt rows. -/
def execAppend (h : W32) (s : State) : Out := s.gate fun s =>
  s.onHead h tAppend (fun r s =>
    let k := h.toNat
    let x := s.sesOf k
    if r.started ∨ x.st ≠ .active ∨ x.suspended then s
    else ((s.setSes k (x.putReq r { r with started := true })).linkPrefix k (r.left.length / 64 + 2)).finishAppend k)

/-- GENERATE (R17, R336): the request starts, and the session becomes generation-ready. -/
def execGenerate (h : W32) (s : State) : Out := s.gate fun s =>
  s.onHead h tGenerate (fun r s =>
    let k := h.toNat
    let x := s.sesOf k
    if r.started ∨ x.st ≠ .active ∨ x.suspended then s
    else (s.setSes k { (x.putReq r { r with started := true }) with allLinked := false }).stampReady k)

/-- CLOSE (R325): at the head of the order, the session ends. -/
def execClose (h : W32) (s : State) : Out := s.gate fun s =>
  s.onHead h tClose (fun r s =>
    let k := h.toNat
    let s1 := (s.effect k r).plainRecord k 0xFFFFFF rLast stDone r.rtag
    (s1.setSes k ((s1.sesOf k).drop r)).endSession k none)

/-! ## PARK and RESUME -/

/-- PARK takes effect (R326). -/
def State.park (s : State) (h : Nat) (r : Req) : State :=
  (s.setSes h { s.sesOf h with suspended := true }).doneEffect h r

/-- RESUME takes effect (R326, R330): it clears the mark and, for a session whose pages have left the banked pool, starts or
notes a wake, with whose end it completes; otherwise it completes at once. -/
def State.resume (s : State) (h : Nat) (r : Req) : State :=
  let x := s.sesOf h
  let y := { x with suspended := false }
  match x.st with
  | .settled | .sunk =>
    (((s.setSes h { (y.putReq r { r with started := true }) with exact := r.flag }).effect h r).enter h .waking)
  | .settling | .sinking =>
    (s.setSes h { (y.putReq r { r with started := true }) with exact := r.flag, wake := true }).effect h r
  | .waking => (s.setSes h (y.putReq r { r with started := true })).effect h r
  | _ => (s.setSes h y).doneEffect h r

/-- The first PARK or RESUME of a session that has not taken effect. -/
def Session.parkReq (x : Session) : Option Req := x.reqs.find? (fun r => (r.typ == tPark || r.typ == tResume) && !r.started)

/-- PARK (R319, R326): at the session's round boundary the suspended mark is set. -/
def execPark (h : W32) (s : State) : Out := s.gate fun s =>
  let k := h.toNat
  let x := s.sesOf k
  match x.parkReq with
  | some r => if r.typ = tPark ∧ !x.closing ∧ !(s.busy k) then .next (s.park k r) else .next s
  | none => .next s

/-- RESUME (R319, R326, R330): at the session's round boundary the suspended mark is cleared; a wake may start. [DEDUCED: log entry 92] -/
def execResume (h : W32) (s : State) : Out := s.gate fun s =>
  let k := h.toNat
  let x := s.sesOf k
  match x.parkReq with
  | some r => if r.typ = tResume ∧ !x.closing ∧ !(s.busy k) then .next (s.resume k r) else .next s
  | none => .next s

/-- The RESUMEs that wait for a wake complete with a status. [DEDUCED: log entry 92] -/
def State.resumeDone (s : State) (h status : Nat) : State :=
  ((s.sesOf h).reqs.filter (fun r => r.typ == tResume && r.started)).foldl (fun s r => s.complete h r status) s

/-- WAKE_COMPLETE (R325, R330 to R332, R470): the last page of a WAKING session reaches the banked pool. When it cannot be
placed, the request that started the wake completes KV_LIMIT, and the session stays where it was. -/
def execWakeComplete (h : W32) (s : State) : Out := s.gate fun s =>
  let h := h.toNat
  let x := s.sesOf h
  if x.st ≠ .waking then .next s
  else
    let r := (s.wakeOne h x.exact).bind (fun s => if (SMap.find s.sess (h + 2 ^ 32)).isSome then s.wakeOne (h + 2 ^ 32) x.exact else some s)
    match r with
    | some s1 => .next (((s1.enter h .parked).resumeDone h stDone).settleMove h)
    | none =>
      let s1 := s.enter h (if x.sump.isEmpty then .settled else .sunk)
      match x.reqs.find? (fun r => r.typ == tResume && r.started), x.headReq with
      | some q, _ => .next (s1.complete h q stKvLimit)
      | none, some q => .next (s1.complete h q stKvLimit)
      | none, none => .next s1

/-! ## CANCEL, PURGE, ADAPTER_BIND -/

/-- CANCEL takes effect (R313, R320, R485): the named request, or every other outstanding one, completes CANCELLED, or
MODEL_QUARANTINED while the model is quarantined; then CANCEL completes DONE. -/
def State.cancel (s : State) (h : Nat) (r : Req) : State :=
  let x := s.sesOf h
  let others := x.reqs.filter (fun q => q != r)
  let target := leAt r.entry 0x10 1
  let hit := if r.flag then others else match others.find? (fun q => q.rtag == target) with
    | some q => [q]
    | none => []
  let status := fun (q : Req) => if (s.model x.model).quarantined && (q.typ == tAppend || q.typ == tGenerate) then stQuarantined else stCancelled
  (hit.foldl (fun s q => s.complete h q (status q)) s).doneEffect h r

/-- CANCEL (R319, R320): at the session's round boundary. -/
def execCancel (h : W32) (s : State) : Out := s.gate fun s =>
  let k := h.toNat
  let x := s.sesOf k
  match x.reqs.find? (fun r => r.typ == tCancel) with
  | some r => if !x.closing ∧ !(s.busy k) then .next (s.cancel k r) else .next s
  | none => .next s

/-- PURGE of one session takes effect (R325): it completes DONE, every other outstanding request PURGED, and the session
ends. -/
def State.purgeOne (s : State) (h : Nat) : State :=
  let s1 := match (s.sesOf h).reqs.find? (fun r => r.typ == tPurge) with
    | some r =>
      let s1 := (s.effect h r).plainRecord h 0xFFFFFF rLast stDone r.rtag
      s1.setSes h ((s1.sesOf h).drop r)
    | none => s
  s1.endSession h (some stPurged)

/-- Is a session named by a PURGE of its own or of its tenant? -/
def State.purging (s : State) (h : Nat) : Bool :=
  (s.sesOf h).reqs.any (fun r => r.typ == tPurge) || !((s.ten (sesTenant h)).purges.isEmpty)

/-- The sessions of a tenant that are not GONE. -/
def State.tenantSessions (s : State) (t : Nat) : List Nat :=
  (s.sess.filter (fun e => decide (e.1 < 2 ^ 32) && sesTenant e.1 == t && e.2.inUse && !e.2.closing)).map (fun e => e.1)

/-- A PURGE with TENANT = 1 completes DONE once it has taken every session of the tenant. [DEDUCED: log entry 94] -/
def State.purgeDone (s : State) (t : Nat) : State :=
  if (s.tenantSessions t).isEmpty then
    let ps := (s.ten t).purges
    ps.foldl (fun s p =>
      let x := s.sesOf p.1
      let s1 := if x.inUse || x.closing then s else s.setSes p.1 { x with owner := s.ownerOfIndex (p.1 % 2 ^ 26), closing := true }
      s1.plainRecord p.1 0xFFFFFF rLast stDone p.2.rtag) (s.setTen t { s.ten t with purges := [] })
  else s

/-- PURGE (R319, R325, R414): at the round boundary of each session concerned. With TENANT = 1 it also discards the tenant's
pending records. -/
def execPurge (h : W32) (s : State) : Out := s.gate fun s =>
  let k := h.toNat
  let t := sesTenant k
  if (s.ten t).purges.any (fun p => p.1 == k) then
    let s1 := s.setTen t { s.ten t with pend := (s.ten t).pend.filter (fun p => p.entry) }
    .next (((s1.tenantSessions t).foldl (fun s h => if s.busy h then s else s.purgeOne h) s1).purgeDone t)
  else if (s.sesOf k).reqs.any (fun r => r.typ == tPurge) ∧ !(s.sesOf k).closing ∧ !(s.busy k) then .next (s.purgeOne k)
  else .next s

/-- The running request of a session rebinds to its adapter's current version (R352, R354). -/
def State.rebind (s : State) (h : Nat) : State :=
  let x := s.sesOf h
  match x.headReq with
  | some r =>
    if !r.started || !(r.typ == tAppend || r.typ == tGenerate) then s
    else match x.adapter with
      | none => s.setSes h (x.putReq r { r with adp := none, ver := 0 })
      | some a =>
        if (s.adapter a).cur = 0 then s.complete h r stAdapterRetired
        else s.setSes h (x.putReq r { r with adp := some a, ver := (s.adapter a).cur })
  | none => s

/-- ADAPTER_BIND takes effect (R352). -/
def State.bind (s : State) (h : Nat) (r : Req) : State :=
  let s1 := s.setSes h { s.sesOf h with adapter := adapterField (leAt r.entry 0x10 2) }
  (if r.flag then s1.rebind h else s1).doneEffect h r

/-- ADAPTER_BIND (R317, R319, R352): with NOW at the session's round boundary, otherwise in the session's order. -/
def execAdapterBind (h : W32) (s : State) : Out := s.gate fun s =>
  let k := h.toNat
  let x := s.sesOf k
  if x.closing ∨ s.busy k then .next s
  else match x.reqs.find? (fun r => r.typ == tBind && r.flag) with
    | some r => .next (s.bind k r)
    | none => match x.headReq with
      | some r => if r.typ = tBind then .next (s.bind k r) else .next s
      | none => .next s

/-! ## KV_IMPORT and KV_EXPORT -/

/-- The pages of an imported buffer of `n` tokens go into the session's runs (R356). -/
def State.importPages (s : State) (k n : Nat) (bs : List Byte) : State :=
  let m := (s.model (s.sesOf k).model).md
  let p := ceilDiv n (mdTpp m)
  (mdHeads m).foldl (fun s e =>
    (List.range p).foldl (fun s i =>
      match (SMap.get (s.sesOf k).runs [] (runIx e.1 e.2))[i]? with
      | some g =>
        let o := pageOff n + 16384 * ((e.1 * m.kvHeads + e.2) * p + i)
        (s.pageWrite g 0 0 (slice bs o 8192)).pageWrite g 1 0 (slice bs (o + 8192) 8192)
      | none => s) s) s

/-- KV_IMPORT (R355, R356): the pages are read from the host buffer into the session's runs, and the history takes the token
words. `data` is what the read of TOTAL bytes returned; none is an error. [DEDUCED: log entry 93] -/
def execKvImport (h : W32) (data : Option (List Byte)) (s : State) : Out := s.gate fun s =>
  s.onHead h tImport (fun r s =>
    let k := h.toNat
    let x := s.sesOf k
    let m := (s.model x.model).md
    let n := r.toks.length
    if x.st ≠ .active ∨ s.fnState (sesTenant k) = fnQuiescing then s
    else
      let s0 := s.emit (.hostRead (sesTenant k + 1) (BitVec.ofNat 64 (leAt r.entry 0x10 8)) (mdTotal m n))
      match data with
      | none => s0.complete k r stMalformed
      | some bs =>
        match s0.kvReserve k n with
        | .limit s1 => s1.complete k r stKvLimit
        | .wait s1 => s1
        | .ok s1 =>
          let s2 := s1.importPages k r.toks.length bs
          (s2.setSes k { s2.sesOf k with hist := r.toks, allLinked := false, lossy := false }).complete k r stDone)

/-- The header of an exchange buffer (R355). -/
def kvHeader (m : ModelMeta) (n : Nat) (lossy : Bool) : List Byte :=
  leBytes 4 1 ++ leBytes 1 m.hdim ++ leBytes 1 (b2n m.keyE5 + 2 * b2n m.valE5 + 128 * b2n lossy) ++ leBytes 2 m.kvHeads ++ leBytes 2 m.layers
    ++ leBytes 2 0 ++ leBytes 4 n ++ leBytes 4 m.kscale.toNat ++ leBytes 4 0 ++ leBytes 8 64 ++ leBytes 8 (pageOff n) ++ leBytes 8 (mdTotal m n)
    ++ List.replicate 16 0#8

/-- The export of a session to the host buffer at `addr`: its header and tokens, then its pages (R355, R357). -/
def State.exportPages (s : State) (k addr : Nat) : State :=
  let x := s.sesOf k
  let m := (s.model x.model).md
  let n := x.hist.length
  let p := ceilDiv n (mdTpp m)
  let d := dimOf m.hdim
  let head := padTo (pageOff n) (kvHeader m n x.lossy ++ x.hist.flatMap (leBytes 4))
  let s1 := s.emit (.hostWrite (sesTenant k + 1) (BitVec.ofNat 64 addr) head)
  (mdHeads m).foldl (fun s e =>
    (List.range p).foldl (fun s i =>
      let live := min (mdTpp m) (n - i * (mdTpp m)) * d
      match (SMap.get x.runs [] (runIx e.1 e.2))[i]? with
      | some g =>
        let a := s.pageRead g 0 0 live
        let b := a.2.2.pageRead g 1 0 live
        b.2.2.emit (.hostWrite (sesTenant k + 1) (BitVec.ofNat 64 (addr + pageOff n + 16384 * ((e.1 * m.kvHeads + e.2) * p + i)))
          (padTo 8192 a.1 ++ padTo 8192 b.1))
      | none => s) s) s1

/-- KV_EXPORT (R355 to R357): the buffer is written, LOSSY set when the pages came from settled state. A page that cannot be
read is rebuilt first (R466). [DEDUCED: log entry 93] -/
def execKvExport (h : W32) (s : State) : Out := s.gate fun s =>
  s.onHead h tExport (fun r s =>
    let k := h.toNat
    let x := s.sesOf k
    let m := (s.model x.model).md
    let n := x.hist.length
    if x.st ≠ .active ∨ !x.lost.isEmpty ∨ s.fnState (sesTenant k) = fnQuiescing then s
    else if leAt r.entry 0x18 8 < mdTotal m n then s.complete k r stMalformed
    else
      let lost := s.lostPages k (fun p n => p.hit s.poisonKeys n)
      if !lost.isEmpty then s.setSes k { x with lost := lost }
      else
        (s.exportPages k (leAt r.entry 0x10 8)).complete k r stDone)

/-! ## Deadlines and times to live -/

/-- Has a deadline passed for a session's keeper (R39, R42)? -/
def State.passed (s : State) (x : Session) (d : Nat) : Bool := s.timeValid && d != 0 && decide (s.nowOf x ≥ d)

/-- Every GENERATE, RESUME and KV_EXPORT of a session whose deadline has passed completes DEADLINE (R344); a wake goes on. -/
def State.deadlines (s : State) (h : Nat) : State :=
  ((s.sesOf h).reqs.filter (fun r => [tGenerate, tResume, tExport].contains r.typ && s.passed (s.sesOf h) r.deadline)).foldl
    (fun s r => s.complete h r stDeadline) s

/-- DEADLINE_EXPIRY (R344): at a round boundary of the session. -/
def execDeadlineExpiry (h : W32) (s : State) : Out := s.gate fun s =>
  let k := h.toNat
  if (s.sesOf k).closing ∨ s.busy k then .next s else .next (s.deadlines k)

/-- The time-to-live of a session's state expires (R325, R327). -/
def State.expire (s : State) (h : Nat) : State :=
  let x := s.sesOf h
  let due := fun (i : Nat) => s.timeValid && s.ttlOf x i != ttlNever && decide (s.nowOf x ≥ x.entered.toNat + s.ttlOf x i)
  match x.st with
  | .parked => if due 0 then s.enter h .settling else s
  | .settled => if due 1 then s.enter h .sinking else s
  | .sunk => if due 2 then s.endSession h none else s
  | _ => s

/-- TIME_TO_LIVE_EXPIRY (R325, R327): at a round boundary of the session. -/
def execTimeToLiveExpiry (h : W32) (s : State) : Out := s.gate fun s =>
  let k := h.toNat
  if (s.sesOf k).closing ∨ s.busy k then .next s else .next (s.expire k)

/-! ## The round boundary of a session -/

/-- Run `k` unless the session is closing. -/
def State.live (s : State) (h : Nat) (k : State → State) : State := if (s.sesOf h).closing then s else k s

/-- Run `k` on each request of a list that is still outstanding. -/
def State.eachReq (s : State) (h : Nat) (rs : List Req) (k : State → Req → State) : State :=
  rs.foldl (fun s r => if (s.sesOf h).reqs.contains r then k s r else s) s

/-- Steps 2 to 7 of R319 for a session, after a reservation that failed (R332). -/
def State.boundary (s : State) (h : Nat) : State :=
  let x := s.sesOf h
  let s0 := if x.kvLimit then
      (let s1 := s.setSes h { x with kvLimit := false }
       match x.headReq with
       | some r => if (r.typ = tAppend ∨ r.typ = tGenerate) ∧ r.started then s1.complete h r stKvLimit else s1
       | none => s1)
    else s
  let s1 := s0.deadlines h
  let s2 := if s1.purging h && (s1.sesOf h).inUse then (s1.purgeOne h).purgeDone (sesTenant h) else s1
  let s3 := s2.live h (fun s => s.eachReq h ((s.sesOf h).reqs.filter (fun r => r.typ == tCancel)) (fun s r => s.cancel h r))
  let s4 := s3.live h (fun s =>
    let s1 := s.eachReq h ((s.sesOf h).reqs.filter (fun r => r.typ == tBind && r.flag)) (fun s r => s.bind h r)
    match (s1.sesOf h).headReq with
    | some r => if r.typ = tGenerate ∧ r.flag then s1.rebind h else s1
    | none => s1)
  let s5 := s4.live h (fun s => s.eachReq h ((s.sesOf h).reqs.filter (fun r => (r.typ == tPark || r.typ == tResume) && !r.started))
    (fun s r => if r.typ = tPark then s.park h r else s.resume h r))
  s5.live h (fun s => s.expire h)

end Sys2Proof.Machine
end

