-- ==== Sys2Proof/Machine/Prime.lean ====
section
/-! DEFINITION. Priming schedules (R184 to R186): installation, staging, quarantine (R484, R485). -/
namespace Sys2Proof.Machine
open Sys2Proof

/-- LAYERS of a schedule, the output head included. -/
def Schedule.layers (c : Schedule) : Nat := c.first.length - 1
/-- The entries of a layer for an engine. -/
def Schedule.at' (c : Schedule) (l e : Nat) : List SchedEntry :=
  ((c.entries.drop (c.first.getD l 0)).take (c.first.getD (l + 1) 0 - c.first.getD l 0)).filter (fun x => x.engine == e)
/-- Does a schedule name a PF object? -/
def Schedule.names (c : Schedule) (o : Nat) : Bool := c.entries.any (fun x => decide (x.kind ≤ 1) && x.src / 2 ^ 32 == o)
/-- Does a schedule name an engine? -/
def Schedule.uses (c : Schedule) (e : Nat) : Bool := c.entries.any (fun x => x.engine == e)

/-- The PF objects a model names: its installed schedule's, and its adapters' (R484). -/
def State.modelNames (s : State) (m o : Nat) : Bool :=
  let x := s.model m
  (match x.next with | some c => c.names o | none => match x.sched with | some c => c.names o | none => false)
    || s.ses.adapters.any (fun a => a.2.vers.any (fun v => v.2.1 == o && v.2.2.1 == m))

/-- Quarantine a model (R484, R477, R473). -/
def State.quarantine (s : State) (m reason : Nat) (stall : Bool) (o : Nat) : State :=
  let x := s.model m
  if x.quarantined then s
  else ((s.setModel m { x with quarantined := true, reason := reason, stall := stall, obj := o, fit := false }).raise pgRas 2).logErr 7
    (pgKpr s.sealer) reason (o * 2 ^ 32) m

/-- Quarantine every model that names a PF object (R484). -/
def State.quarantineObj (s : State) (o reason : Nat) : State :=
  (s.ses.models.map (fun e => e.1)).foldl (fun s m =>
    if s.modelNames m o then s.quarantine m reason false o else s) s

/-- A part is retired (R472, R488). -/
def State.retireLog (s : State) (part inst : Nat) : State := (s.logErr 8 (pgKpr s.sealer) part inst 0).raise pgRas 3

/-- Is a schedule fit to end a quarantine (R485): no QUARANTINED object, no retired engine? -/
def State.schedFit (s : State) (c : Schedule) : Bool :=
  c.entries.all (fun x => s.engState x.engine != eOffline && (x.kind == 2 || (s.obj 0 (x.src / 2 ^ 32)).st != .quarantined))

/-- SCHEDULE_INSTALL (R66, R185, R485, R486): a write of MODEL_SCHED_HI installs the schedule at the committed DVA for the
model in MODEL_SEL, unless it is refused. `md` is what the model's files give (R18, R356). [DESIGN CHOICE: log entry 64] -/
def execScheduleInstall (q : Fin 4) (hi : W32) (md : ModelMeta) (s : State) : Out :=
  let pg := pgTir q
  .next (s.regWrite pg 0x084 (fun s =>
    let m := s.fld pg F.tir_MODEL_SEL_MODEL
    let lo := SMap.get s.stage (resetWord pg 0 0x080) (regKey pg 0 0x080)
    let s1 := (s.setReg pg m 0x080 lo).setReg pg m 0x084 hi
    match s1.readSchedule m (lo.toNat + 2 ^ 32 * hi.toNat) with
    | none => (s1.setFldB pg m F.tir_MODEL_PRIME_SCHED_BAD 1).raise pg 0
    | some c =>
      let x := s1.model m
      let s2 := s1.setModel m { x with next := some c, md := md, fit := x.quarantined && s1.schedFit c }
      let s3 := (List.range 4).foldl (fun s q =>
        (s.setFldB (pgTir q) m F.tir_MODEL_PRIME_INSTALLED 1).setFldB (pgTir q) m F.tir_MODEL_PRIME_SCHED_BAD 0) s2
      { s3 with sess := s3.sess.map (fun e => if e.2.model = m then (e.1, { e.2 with unloaded := false }) else e) }))

/-! ## Staging -/

/-- The adapter objects bound to the rows of a round (R184). -/
def State.roundAdapters (s : State) (r : Round) : List Nat :=
  (r.rows.filterMap (fun w =>
    ((s.sesOf w.ses).reqs.find? (fun q => q.started && (q.typ == tAppend || q.typ == tGenerate))).bind (fun q =>
      q.adp.bind (fun a => ((s.adapter a).vers.find? (fun v => v.1 == q.ver)).map (fun v => v.2.1))))).eraseDups

/-- The tiles of a layer's DENSE and ADAPTER entries for an engine, as (object, unit); `ads`: the adapter objects, when the
round that will run the layer is known. -/
def Schedule.dense (c : Schedule) (l e : Nat) (ads : Option (List Nat)) : List (Nat × Nat) :=
  let es := (c.at' l e).filter (fun x => x.kind != 1)
  let known := match ads with | some _ => es | none => es.takeWhile (fun x => x.kind == 0)
  known.flatMap (fun x =>
    let t := x.src / 65536 % 65536
    let objs := if x.kind = 2 then ads.getD [] else [x.src / 2 ^ 32]
    objs.flatMap (fun o => (List.range x.tiles).map (fun i => (o, t + i))))

/-- The lowest free priming frame of an engine. -/
def State.freePrime (s : State) (e : Nat) : Option Nat :=
  (List.range (s.primeFrames e)).find? (fun f => !((s.eng e).staged.any (fun g => g.frame == f)))

/-- Where a compressed unit's bytes lie (R200, R211): its offset in the object, its length, its group starts. [DESIGN CHOICE: log entry 70] -/
def State.unitBytes (s : State) (q o u elem : Nat) (x : Obj) : (Nat × Nat × List Nat) × State :=
  let k := blocksPerUnit elem
  if x.comp = 2 then
    let g := k / 64
    let r := s.readDva q 0 (spans (g + 4) (o * 2 ^ 32 + 4 * (u * g)) (4 * (g + 1)))
    let ws := (List.range (g + 1)).map (fun i => leAt (bytesOf r.1) (4 * i) 4)
    let a := ws.headD 0
    ((a, min 65536 (ws.getLastD 0 - a), ws.map (fun w => w - a)), r.2.2)
  else ((u * k * x.slotBytes, k * x.slotBytes, []), s)

/-- A tier pump stages one tile into a priming frame (R186, R211, R213). -/
def State.stageTile (s : State) (e m layer frame o u : Nat) : State :=
  let q := engQuad e
  let x := s.obj 0 o
  let put := fun (s : State) (g : Staged) => s.setEng e { s.eng e with staged := (s.eng e).staged ++ [g] }
  let g : Staged := { frame := frame, src := .object 0 o u, model := m, layer := layer }
  if x.comp = 0 then
    let r := s.readDva q 0 (dvaSpans (o * 2 ^ 32 + u * 65536) 65536)
    if r.2.1 != .done then r.2.2
    else put (r.2.2.storeWrite e (frame * 65536) r.1) g
  else
    let elem := tblElem (s.tblData x.tblSlot x.tblGen)
    if !(s.genPresent x.tblSlot x.tblGen) then put s { g with comp := true, bad := 1 }
    else if !(slotBytesOk elem x.slotBytes) then put s { g with comp := true, bad := 2 }
    else
      let b := s.unitBytes q o u elem x
      let r := b.2.readDva q 0 (spans (b.1.2.1 / 32 + 2) (o * 2 ^ 32 + b.1.1) b.1.2.1)
      if r.2.1 != .done then r.2.2
      else
        put ((r.2.2.storeWrite e (frame * 65536) (recutFor 0 r.1)).tblRef x.tblSlot x.tblGen true)
          { g with comp := true, words := b.1.2.2, tbl := some (x.tblSlot, x.tblGen) }

/-- Does a round of the model run a layer now; and the layer that runs, or ran last: staging runs ahead of it (R186). -/
def State.stageRuns (s : State) (m : Nat) : Bool :=
  match s.ses.rounds.find? (fun r => r.model == m) with
  | some r => !r.engines.isEmpty
  | none => false
def State.stageLayer (s : State) (m n : Nat) : Nat :=
  match s.ses.rounds.find? (fun r => r.model == m) with
  | some r => if !r.engines.isEmpty then r.layer else r.layer + n - 1
  | none => n - 1
/-- How many layers the next tile of an engine lies ahead of that layer, in a schedule of `n` layers. [DESIGN CHOICE: log entry 63] -/
def State.stageAhead (s : State) (m n e : Nat) : Nat :=
  ((SMap.get (s.model m).prime (0, 0) e).1 + 2 * n - s.stageLayer m n % n) % n
/-- The adapters of the round whose ADAPTER tiles come next; none where that round is not sealed yet. [DESIGN CHOICE: log entry 63] -/
def State.stageAdapters (s : State) (m n e : Nat) : Option (List Nat) :=
  let r := s.ses.rounds.find? (fun r => r.model == m)
  if (decide ((SMap.get (s.model m).prime (0, 0) e).1 < s.stageLayer m n % n) || r.isNone) && s.stageRuns m then none
  else r.map (fun r => s.roundAdapters r)

/-- PRIMING_STAGE (R186): a tier pump stages the next tile for an engine: a tile of an EXPERT entry of the layer that runs,
which the round's selection names, or the next DENSE or ADAPTER tile within LEAD layers. -/
def execPrimingStage (e : Fin 32) (m : Byte) (expert : Option (W16 × Byte)) (s : State) : Out := s.gateOn (pgTir (e.val / 8)) fun s =>
  let e : Nat := e
  let m := m.toNat
  let md := s.model m
  match md.sched, s.freePrime e with
  | some c, some f =>
    let n := c.layers
    match expert with
    | some (x, t) =>
      if !(s.stageRuns m) then .next s
      else match (c.at' (s.stageLayer m n) e).find? (fun y => y.kind == 1 && y.sel == x.toNat && decide (t.toNat < y.tiles)) with
        | some y => .next (s.stageTile e m (s.stageLayer m n) f (y.src / 2 ^ 32) (y.src / 65536 % 65536 + t.toNat))
        | none => .next s
    | none =>
      let p := SMap.get md.prime (0, 0) e
      if s.stageAhead m n e > s.fldB (pgTir (engQuad e)) m F.tir_MODEL_PRIME_LEAD then .next s
      else match (c.dense p.1 e (s.stageAdapters m n e))[p.2]? with
        | some (o, u) =>
          let s1 := s.stageTile e m p.1 f o u
          let x := s1.model m
          .next (s1.setModel m { x with prime := SMap.set x.prime (0, 0) e (p.1, p.2 + 1) })
        | none =>
          if p.2 < (c.dense p.1 e (some [0])).length ∧ (s.stageAdapters m n e).isNone then .next s
          else .next (s.setModel m { md with prime := SMap.set md.prime (0, 0) e ((p.1 + 1) % n, 0) })
  | _, _ => .next s

/-- The staged tiles of a model leave every engine, and staging starts again at layer 0. [DESIGN CHOICE: log entry 63] -/
def State.restartPriming (s : State) (m : Nat) : State :=
  let s1 := (List.range 32).foldl (fun s e => s.freeStaged e ((s.eng e).staged.filter (fun g => g.model == m))) s
  s1.setModel m { s1.model m with prime := [] }

end Sys2Proof.Machine
end

