-- ==== Sys2Proof/Machine/Seal.lean ====
section
/-! DEFINITION. Building and sealing a round (R13 to R22, R28, R278, R309, R318, R332, R340, R341, R403, R468), and giving up a
round in flight (R471, R478). -/
namespace Sys2Proof.Machine
open Sys2Proof

/-! ## The offer -/

/-- Round row cap and prompt row cap of a profile (R30). -/
def rowCapOf : Profile → Nat
  | .state => 256 | .sprint => 128 | .balance => 256 | .fabric => 256
def promptCapOf : Profile → Nat
  | .state => 64 | .sprint => 32 | .balance => 48 | .fabric => 32

/-- May a session's work be offered: its function may work, and its ring is not full of pending records (R403)? [DESIGN CHOICE: log entry 88] -/
def State.offerable (s : State) (h : Nat) : Bool :=
  let x := s.sesOf h
  let t := sesTenant h
  (s.fnState t == fnReady || s.fnState t == fnFault) && x.st == .active && !x.suspended && !x.closing && !(s.busy h) && !(s.quadInReset x.owner)
    && decide ((s.ten t).pend.length < s.trSize t)

/-- The GENERATE of a generation-ready session (R17, R468). -/
def State.genReq (s : State) (h : Nat) : Option Req :=
  let x := s.sesOf h
  if s.offerable h && x.lost.isEmpty && !x.rebuilding && !x.hist.isEmpty then x.headReq.filter (fun r => r.typ == tGenerate && r.started) else none

/-- DRAFT_SRC, DRAFT_MODEL, DRAFT_NODES, DRAFT_BRANCH, DRAFT_ADDR of a parameter block (R334). -/
def Req.draftSrc (r : Req) : Nat := leAt r.params 0x48 1
def Req.draftModel (r : Req) : Nat := leAt r.params 0x49 1
def Req.draftNodes (r : Req) : Nat := leAt r.params 0x4A 1
def Req.draftBranch (r : Req) : Nat := leAt r.params 0x4B 1
def Req.draftAddr (r : Req) : Nat := leAt r.params 0x50 8

/-- The handle of a session's draft session (R341). -/
def draftOf (h : Nat) : Nat := h + 2 ^ 32

/-- Can a model take rows? -/
def State.modelUp (s : State) (m : Nat) : Bool := (s.model m).resident && !(s.model m).quarantined

/-- Must draft rounds of a resident draft model come before a session's next round (R341)? [DESIGN CHOICE: log entry 87] -/
def State.awaitsDraft (s : State) (h : Nat) (r : Req) : Bool :=
  r.draftSrc == 2 && decide (r.draftNodes > 0) && s.modelUp r.draftModel && !(s.sesOf (draftOf h)).treeDone

/-- Insert by key, keeping earlier entries first among equals. -/
def insertBy {α : Type} (k : α → Nat) (x : α) : List α → List α
  | [] => [x]
  | y :: ys => if k x ≤ k y then x :: y :: ys else y :: insertBy k x ys
/-- Sort by key; equal keys keep their order. -/
def sortBy {α : Type} (k : α → Nat) (l : List α) : List α := l.foldr (insertBy k) []

/-- Sessions, not draft sessions, that satisfy a test. -/
def State.sessionsBy (s : State) (p : Nat → Session → Bool) : List Nat :=
  (s.sess.filter (fun e => decide (e.1 < 2 ^ 32) && p e.1 e.2)).map (fun e => e.1)

/-- Generation-ready sessions of a model in the order of R17. -/
def State.genOffer (s : State) (m : Nat) : List Nat :=
  let l := s.sessionsBy (fun h x => x.model == m && (match s.genReq h with | some r => !(s.awaitsDraft h r) | none => false))
  let by' := sortBy (fun h => (s.sesOf h).ready) l
  by'.filter (fun h => (s.sesOf h).lead) ++ by'.filter (fun h => !((s.sesOf h).lead))

/-- Sessions that wait for draft rounds of a model, in the order of R17. -/
def State.draftOffer (s : State) (m : Nat) : List Nat :=
  let l := s.sessionsBy (fun h _ => match s.genReq h with | some r => r.draftModel == m && s.awaitsDraft h r | none => false)
  let by' := sortBy (fun h => (s.sesOf h).ready) l
  by'.filter (fun h => (s.sesOf h).lead) ++ by'.filter (fun h => !((s.sesOf h).lead))

/-- Sessions of a model with rebuild rows outstanding, and with prompt rows, oldest first. [DEDUCED: log entry 111] -/
def State.rebuildOffer (s : State) (m : Nat) : List Nat := s.sessionsBy (fun h x =>
  x.model == m && x.rebuilding && (x.st == .active || x.st == .parked) && !x.closing && !(s.busy h)
    && (s.fnState (sesTenant h) == fnReady || s.fnState (sesTenant h) == fnFault)
    && decide ((s.ten (sesTenant h)).pend.length < s.trSize (sesTenant h)))
def State.promptOffer (s : State) (m : Nat) : List Nat :=
  let pend := fun (h : Nat) => ((s.sesOf h).headReq.filter (fun r => r.typ == tAppend && r.started && !r.left.isEmpty))
  sortBy (fun h => ((pend h).map (fun r => r.order)).getD 0)
    (s.sessionsBy (fun h x => x.model == m && s.offerable h && x.lost.isEmpty && !x.rebuilding && (pend h).isSome))

/-! ## Rows -/

/-- Row-buffer rows free for a new round: outside the rounds in flight and every granted partition (R15, R278, R360). -/
def State.freeRows (s : State) : List Nat :=
  let used := s.ses.rounds.flatMap (fun r => r.rows.map (fun w => w.row))
  let ys := (List.range 32).filter (fun e => (s.ctx e true).started)
  (List.range 256).filter (fun r => !(used.contains r) && ys.all (fun e => !(s.rowGranted e r)))

/-- A draft tree: a node's token and its parent, 255 for the root (R340). -/
abbrev Tree := List (Nat × Nat)

/-- The depth of node `k` below the root. -/
def Tree.depth (t : Tree) : Nat → Nat → Nat
  | 0, _ => 1
  | fuel + 1, k => let p := (t.getD k (0, 255)).2; if p ≥ 255 then 1 else Tree.depth t fuel p + 1

/-- The host's draft buffer as a tree, when it satisfies R340. [DESIGN CHOICE: log entry 87] -/
def State.hostTree (s : State) (h : Nat) (r : Req) (bs : List Byte) : Tree :=
  let x := s.sesOf h
  let n := leAt bs 4 1
  let t : Tree := (List.range n).map (fun k => (leAt bs (8 + 8 * k) 3, leAt bs (11 + 8 * k) 1))
  if leAt bs 0 4 + 1 = x.hist.length ∧ n ≤ r.draftNodes
      ∧ (List.range n).all (fun k => (t.getD k (0, 0)).2 == 255 || decide ((t.getD k (0, 0)).2 < k))
      ∧ t.all (fun e => decide (e.1 < (s.model x.model).md.vocab)) then t else []

/-- What a round under construction has: the state, its rows, its trees, the rows left, and whether a session has been found
that did not fit. -/
structure Build where
  s : State
  rows : List Row := []
  trees : SMap (List (Nat × Nat)) := []
  free : List Nat
  full : Bool := false

/-- Reserve tail slots for `n` positions and add a session's rows; a reservation that fails leaves the session out (R22,
R332). -/
def Build.add (b : Build) (h n : Nat) (tree : Tree) (rows : List Row) : Build :=
  if rows.length > b.free.length then { b with full := true }
  else
    match b.s.kvReserve h n with
    | .ok s1 =>
      let rs := (rows.zip b.free).map (fun e => { e.1 with row := e.2 })
      { b with s := s1, rows := b.rows ++ rs, free := b.free.drop rows.length
               trees := if tree.isEmpty then b.trees else SMap.put b.trees h tree }
    | .wait s1 => { b with s := s1 }
    | .limit s1 =>
      let k := h % 2 ^ 32
      { b with s := s1.setSes k { s1.sesOf k with kvLimit := true } }

/-- Add a generation-ready session: its row, and its draft tree's (R15, R340, R341). [DEDUCED: log entry 86] -/
def Build.gen (b : Build) (drafts : List (W32 × List Byte)) (h : Nat) : Build :=
  if b.full then b
  else match b.s.genReq h with
    | none => b
    | some r =>
      let s := if r.draftSrc = 1 then b.s.emit (.hostRead (sesTenant h + 1) (BitVec.ofNat 64 r.draftAddr) 264) else b.s
      let x := s.sesOf h
      let t : Tree := if r.draftSrc = 1 then
          (match drafts.find? (fun d => d.1.toNat == h) with | some d => s.hostTree h r d.2 | none => [])
        else if r.draftSrc = 2 then (s.sesOf (draftOf h)).tree else []
      let n := x.hist.length
      let root : Row := ⟨h, n - 1, n - 1, x.hist.getLastD 0, .gen, 0⟩
      let nodes := (List.range t.length).map (fun k => (⟨h, n - 1 + Tree.depth t t.length k, n + k, (t.getD k (0, 0)).1, .node k, 0⟩ : Row))
      if r.draftSrc = 1 && t.length + 1 > b.free.length then { b with full := true }
      else ({ b with s := s }).add h (n + t.length) t (root :: nodes)

/-- A session's draft session, made or made anew for a draft model (R341). [DESIGN CHOICE: log entry 87] -/
def State.draftSession (s : State) (h m : Nat) : State :=
  let d := draftOf h
  let y := s.sesOf d
  let x := s.sesOf h
  if (SMap.find s.sess d).isSome && y.model == m && y.hist == x.hist.take y.hist.length then s
  else
    let s1 := s.freePages d
    s1.setSes d { model := m, owner := x.owner }

/-- The tips of a draft tree: nodes without children. -/
def Tree.tips (t : Tree) : List Nat := (List.range t.length).filter (fun k => !(t.any (fun e => e.2 == k)))

/-- Add the rows of a draft round (R341): the root's row in the first, then the tip of every branch. -/
def Build.draft (b : Build) (m h : Nat) : Build :=
  if b.full then b
  else match b.s.genReq h with
    | none => b
    | some r =>
      let s := b.s.draftSession h m
      let d := draftOf h
      let x := s.sesOf h
      let y := s.sesOf d
      let n := x.hist.length
      if y.hist.length + 1 < n then { b with s := s }
      else
        let rows : List Row := if y.tree.isEmpty then [⟨d, n - 1, n - 1, x.hist.getLastD 0, .draft 255, 0⟩]
          else (Tree.tips y.tree).map (fun k => (⟨d, n - 1 + Tree.depth y.tree y.tree.length k, n + k, (y.tree.getD k (0, 0)).1, .draft k, 0⟩ : Row))
        ({ b with s := s }).add d (n + r.draftNodes) [] rows

/-- Rebuild positions of a session: the span a to b of R467. -/
def Session.span (x : Session) : Nat × Nat :=
  let a := x.lost.foldl (fun a l => min a l.first) x.hist.length
  (a, min x.hist.length (x.lost.foldl (fun a l => max a (l.first + l.count)) 0))

/-- How many more rows prompts may have: within the balance rows and the prompt cap (R18). -/
def Build.promptRoom (b : Build) (bal cap : Nat) : Nat :=
  let used := (b.rows.filter (fun w => w.kind == .prompt || w.kind == .rebuild)).length
  min (min (bal - b.rows.length) (cap - used)) b.free.length

/-- Add rebuild rows of a session (R467, R468). -/
def Build.rebuild (bal cap : Nat) (b : Build) (h : Nat) : Build :=
  let x := b.s.sesOf h
  let (a, e) := x.span
  let n := min (b.promptRoom bal cap) (e - a - x.rebuilt)
  if b.full || n == 0 then b
  else b.add h x.hist.length [] ((List.range n).map (fun i =>
    let p := a + x.rebuilt + i
    (⟨h, p, p, x.hist.getD p 0, .rebuild, 0⟩ : Row)))

/-- Add prompt rows of a session (R17, R18). -/
def Build.prompt (bal cap : Nat) (b : Build) (h : Nat) : Build :=
  let x := b.s.sesOf h
  match x.headReq with
  | none => b
  | some r =>
    let n := min (b.promptRoom bal cap) r.left.length
    if b.full || n == 0 then b
    else b.add h (x.hist.length + n) [] ((List.range n).map (fun i =>
      (⟨h, x.hist.length + i, x.hist.length + i, r.left.getD i 0, .prompt, 0⟩ : Row)))

/-- Add the draft prefill of a session: the target's tokens its draft session lacks, up to the root (R341). -/
def Build.prefill (bal cap m : Nat) (b : Build) (h : Nat) : Build :=
  let s := b.s.draftSession h m
  let x := s.sesOf h
  let y := s.sesOf (draftOf h)
  let n := min (b.promptRoom bal cap) (x.hist.length - 1 - y.hist.length)
  if b.full || n == 0 || b.rows.any (fun w => w.ses == draftOf h) then b
  else ({ b with s := s }).add (draftOf h) (y.hist.length + n) [] ((List.range n).map (fun i =>
    let p := y.hist.length + i
    (⟨draftOf h, p, p, x.hist.getD p 0, .prompt, 0⟩ : Row)))

/-! ## Sealing -/

/-- Is the test window asked for at any keeper (R363)? -/
def State.testWindow (s : State) : Bool := (List.range 4).any (fun q => s.flag (pgKpr q) F.kpr_WIN_CTRL_TEST_WIN)

/-- Every session that holds no row reaches a round boundary (R318). -/
def State.boundaries (s : State) : State :=
  (s.sessionsBy (fun _ x => x.inUse && !x.closing)).foldl (fun s h => if s.busy h || (s.sesOf h).closing then s else s.boundary h) s

/-- At a sealing, a schedule installed since takes effect, and a quarantine that it ends is left (R185, R485). -/
def State.takeSchedule (s : State) (m : Nat) : State :=
  let x := s.model m
  let s1 := match x.next with
    | some c => (s.setModel m { x with sched := some c, next := none }).restartPriming m
    | none => s
  let y := s1.model m
  if y.quarantined && y.fit then s1.setModel m { y with quarantined := false, reason := 0, obj := 0, stall := false, fit := false } else s1

/-- Is a retrain under way that holds layers and sealing (R103)? [DEDUCED: log entry 85] -/
def State.retraining (s : State) : Bool := s.cis.chan.any (fun e => e.2.st == .retraining)

/-- Choose the rows of a round of a model (R17, R18, R468). [DEDUCED: log entry 85] -/
def State.buildRound (s : State) (m : Nat) (drafts : List (W32 × List Byte)) : Build :=
  let cap := promptCapOf s.profile
  let bal := if (s.model m).md.bf16 then 32 else 64
  let inFlight := (s.ses.rounds.map (fun r => r.rows.length)).foldl (· + ·) 0
  let b0 : Build := { s := s, free := s.freeRows.take (min (rowCapOf s.profile) (256 - inFlight)) }
  let b1 := (s.genOffer m).foldl (fun b h => b.gen drafts h) b0
  let b2 := (s.draftOffer m).foldl (fun b h => b.draft m h) b1
  let b3 := (s.rebuildOffer m).foldl (Build.rebuild bal cap) b2
  let b4 := (s.promptOffer m).foldl (Build.prompt bal cap) b3
  (s.draftOffer m).foldl (Build.prefill bal cap m) b4

/-- May a round of a model be sealed (R28, R103, R363): the device is up, no test window is asked for, no retrain runs or waits with nothing
in flight, fewer than two rounds are in flight and none of this model, and the model is resident? [DEDUCED: log entry 85] -/
def State.maySeal (s : State) (m : Nat) : Bool :=
  s.fld pgTop F.hdr_STATE == 2 && !s.testWindow && !s.retraining && !(s.ses.rounds.isEmpty && !s.cis.retrainQ.isEmpty)
    && decide (s.ses.rounds.length < 2) && !(s.ses.rounds.any (fun r => r.model == m)) && (s.model m).resident && s.flag (pgKpr s.sealer) F.hdr_ENABLE

/-- The round that a build of rows makes (R14): its number is one greater than that of the round sealed before it. -/
def Build.round (b : Build) (m : Nat) : Round :=
  { num := b.s.ses.lastNum + 1, model := m, rows := b.rows, trees := b.trees, sealed := b.s.timeAt b.s.sealer }

/-- The round is sealed. -/
def Build.sealed (b : Build) (m : Nat) : State :=
  { b.s with ses := { b.s.ses with lastNum := b.s.ses.lastNum + 1, rounds := b.s.ses.rounds ++ [b.round m], roundEnd := false } }

/-- SEAL_ROUND (R13 to R22, R28, R309, R318, R340, R363, R485): the sealer builds and seals a round of a model. `drafts` is what
the host's draft buffers hold, by session. -/
def execSealRound (m : Byte) (drafts : List (W32 × List Byte)) (s : State) : Out := s.gate fun s =>
  if !(s.maySeal m.toNat) then .next s
  else
    let s1 := s.boundaries.takeSchedule m.toNat
    if (s1.model m.toNat).quarantined then .next s1
    else
      let b := s1.buildRound m.toNat drafts
      if b.rows.isEmpty then .next b.s else .next ((b.sealed m.toNat).event (pgKpr b.s.sealer))

/-! ## Giving up a round -/

/-- The distinct sessions of a round's rows, in row order. -/
def Round.sessions (r : Round) : List Nat := (r.rows.map (fun w => w.ses)).eraseDups

/-- The keeper abandons a round (R471): its rows produce no record, its tail slots are released, its sessions return to the
offer. [DEDUCED: log entry 99] -/
def State.abandonRound (s : State) (num : Nat) (cause : Nat := 4) : State :=
  match s.ses.rounds.find? (fun r => r.num == num) with
  | none => s
  | some r =>
    let s1 := s.setRounds (s.ses.rounds.filter (fun q => q.num != num))
    let s2 := r.sessions.foldl (fun s h => s.kvTrim h (s.sesOf h).hist.length) s1
    (((s2.restartPriming r.model).raise pgRas 4).bump pgRas F.ras_ABANDONED_COUNT 1).logErr 0x0A (pgKpr s.sealer) r.model num cause

/-- The bytes of an ABANDON message (R478). [DESIGN CHOICE: log entry 97] -/
def abandonMsg (m : Nat) : List Byte := [0x01#8, BitVec.ofNat 8 m] ++ List.replicate 14 0#8

/-- A keeper sends a MSG frame to a device (R435); what fills the rest of its payload unit is open. -/
def State.issueMsg (s : State) (dst : Nat) (bytes : List Byte) : State :=
  let r := s.padUnits bytes
  (r.2.originate { typ := 7, vl := 2, last := true, dst := dst, payload := r.1 }).2

/-- A round is abandoned because a remote request of it failed, or at a partner's word (R478): each device it addressed is
told. -/
def State.abandonRemote (s : State) (num : Nat) : State :=
  match s.ses.rounds.find? (fun r => r.num == num) with
  | none => s
  | some r => r.peers.foldl (fun s d => s.issueMsg d (abandonMsg r.model)) (s.abandonRound num)

/-- Rounds of which a remote request has ended other than OK are abandoned (R478). -/
def State.remoteFailures (s : State) : State :=
  s.pmp.lostRounds.foldl (fun s n => s.abandonRemote n) { s with pmp := { s.pmp with lostRounds := [] } }

/-- PUMP_COPY (R193, R195, R445): `host` is what host memory answers a read, none for an error completion. -/
def execPumpCopy (page : Fin 10) (src : DescSrc) (host : Option (List Byte)) (s : State) : Out := s.gate fun s =>
  .next (s.pumpCopy page src host).remoteFailures

/-- PUMP_ADDER (R193, R445): each piece is one adder operation, at home or at a peer. -/
def execPumpAdder (page : Fin 10) (src : DescSrc) (host : Option (List Byte)) (s : State) : Out := s.gate fun s =>
  .next (s.pumpAdder page src host).remoteFailures

end Sys2Proof.Machine
end

