-- ==== Sys2Proof/Machine/Layers.lean ====
section
/-! DEFINITION. A round's layers (R21, R29, R187, R238, R242) and sampling (R338 to R342). -/
namespace Sys2Proof.Machine
open Sys2Proof

/-! ## Layers -/

/-- Replace a round in flight. -/
def State.putRound (s : State) (r : Round) : State := s.setRounds (s.ses.rounds.map (fun q => if q.num = r.num then r else q))
/-- A round in flight by number. -/
def State.roundOf (s : State) (num : Nat) : Option Round := s.ses.rounds.find? (fun r => r.num == num)
/-- The layers of a round, the output head included. -/
def State.layersOf (s : State) (r : Round) : Nat := ((s.model r.model).sched.map (fun c => c.layers)).getD 1
/-- The engines in service that a layer of a round uses. -/
def State.layerEngines (s : State) (r : Round) (l : Nat) : List Nat :=
  match (s.model r.model).sched with
  | some c => (List.range 32).filter (fun e => !((c.at' l e).isEmpty) && s.engState e != eOffline)
  | none => []

/-- Is an engine's first tile of a layer in its current latch buffer (R29)? -/
def State.firstLatched (s : State) (r : Round) (l e : Nat) : Bool :=
  match (s.model r.model).sched with
  | none => true
  | some c =>
    match (c.dense l e (some (s.roundAdapters r))).head?, (s.eng e).latch.getD (s.eng e).cur none with
    | none, _ => true
    | some (o, u), some t => t.src == .object 0 o u
    | some _, none => false

/-- The engines that wait for a layer's first tile. -/
def State.waitsFor (s : State) (r : Round) : List Nat := (s.layerEngines r r.layer).filter (fun e => !(s.firstLatched r r.layer e))

/-- The engines go to a round (R29, R242): context-G counters are 0, RS0 holds its rows, RS1 to RS7 are clear, and every
compute die at which an engine waits counts a priming miss (R187). [DESIGN CHOICE: log entry 63] -/
def State.giveEngines (s : State) (r : Round) : State :=
  let rs : SMap Bool := (List.range 256).filterMap (fun i => if r.rows.any (fun w => w.row == i) then some (i, true) else none)
  let s1 := (List.range 32).foldl (fun s e =>
    let x := s.eng e
    s.setEng e { x with rs := rs, g := { x.g with sc := [] } }) s
  let dies := (List.range 4).filter (fun q => (s1.waitsFor r).any (fun e => engQuad e == q))
  let s2 := dies.foldl (fun s q => s.bumpB (pgTir q) r.model F.tir_MODEL_MISS_COUNT 1) s1
  let x := s2.model r.model
  let s2' := s2.setModel r.model { x with misses := x.misses + dies.length }
  let s3 := { s2' with ses := { s2'.ses with roundEnd := false } }
  s3.setRounds (s3.ses.rounds.map (fun q => if q.num = r.num then { q with holds := true, engines := [], misses := q.misses + dies.length } else { q with holds := false }))

/-- Have the programs of every engine that runs the round's layer reached END? -/
def State.layerEnded (s : State) (r : Round) : Bool :=
  (s.layerEngines r r.layer).all (fun e => r.engines.contains e) && r.engines.all (fun e => !(s.ctx e false).started)

/-- The round that has the engines and layers still to run. -/
def State.layerHolder (s : State) : Option Round := s.ses.rounds.find? (fun r => r.holds && decide (r.layer < s.layersOf r))

/-- May a layer boundary fall: no engine runs a GENERATION program, the holder's layer has ended, and no retrain holds it (R29, R103)? -/
def State.boundaryDue (s : State) : Bool :=
  (List.range 32).all (fun e => !(s.ctx e false).started) && (match s.layerHolder with | some r => s.layerEnded r | none => true) && !s.retraining

/-- The holder's layer is over, and a write of PRIME_CFG takes effect. -/
def State.endLayer (s : State) : State :=
  let s1 := match s.layerHolder with
    | some r => s.putRound { r with layer := r.layer + 1, engines := [] }
    | none => s
  { s1 with mem := { s1.mem with primeNow := (List.range 4).foldl (fun m q => SMap.set m 32 q (s1.fld (pgTir q) F.tir_PRIME_CFG_FRAMES)) s1.mem.primeNow } }

/-- The round that gets the engines (R29): the one whose next layer has the older sealing, or the other when only that one's first tiles are
latched. -/
def State.nextHolder (s : State) : Option Round :=
  match s.ses.rounds.filter (fun r => decide (r.layer < s.layersOf r)) with
  | [] => none
  | [r] => some r
  | r :: q :: _ => some (if (s.waitsFor r).isEmpty || !((s.waitsFor q).isEmpty) then r else q)

/-- LAYER_BOUNDARY (R28, R29, R187, R242): the layer of the round that has the engines is over, and the sealer gives the engines to
the round whose next layer has the older sealing, or, when only the other's first tiles are latched, to that one. A write
of PRIME_CFG takes effect. A retrain holds the next layer (R103). -/
def execLayerBoundary (s : State) : Out := s.gate fun s =>
  if !s.boundaryDue then .next s
  else .next (match s.endLayer.nextHolder with | some r => s.endLayer.giveEngines r | none => s.endLayer)

/-- PROGRAM_START (R238, R242): the keeper starts the program of a registry entry of class GENERATION on a READY engine, for the
layer of the round that has the engines. -/
def execProgramStart (e : Fin 32) (entry : Fin 64) (s : State) : Out := s.gate fun s =>
  let e : Nat := e
  let pg := pgKpr (engQuad e)
  match s.ses.rounds.find? (fun r => r.holds && decide (r.layer < s.layersOf r)) with
  | none => .next s
  | some r =>
    if s.engState e ≠ eReady ∨ s.testOwn e ∨ s.fld (pgMxe e) F.hdr_ENABLE = 0 ∨ r.engines.contains e
        ∨ s.fldB pg entry F.kpr_PROG_ENTRY_VALID = 0 ∨ s.fldB pg entry F.kpr_PROG_ENTRY_CLASS ≠ 0 then .next s
    else
      let s1 := s.startProg e false (s.fldB pg entry F.kpr_PROG_ENTRY_ADDR) r.num 0 0 false
      .next (s1.putRound { r with engines := r.engines ++ [e], used := if r.used.contains e then r.used else r.used ++ [e] })

/-- The keys and values of a layer and key/value head go to the tail slots of a session's rows in a round (R21, R120); rebuild rows write
only lost entries (R467). -/
def State.tailWrites (s : State) (r : Round) (k l hd : Nat) (data : List Byte) : State :=
  let x := s.sesOf k
  let d := dimOf (s.model x.model).md.hdim
  let rows := r.rows.filter (fun w => w.ses == k)
  (List.range rows.length).foldl (fun s i =>
    match rows[i]? with
    | none => s
    | some w =>
      let lost := x.lost.any (fun z => z.layer == l && z.head == hd && decide (z.first ≤ w.pos ∧ w.pos < z.first + z.count))
      if w.kind == .rebuild && !lost then s
      else match s.entryAt k l hd w.slot with
        | some (p, o) => (s.pageWrite p 0 o (slice data (2 * d * i) d)).pageWrite p 1 o (slice data (2 * d * i + d) d)
        | none => s) s

/-- The key of a session, or of its draft session. -/
def rowKey (h : W32) (draft : Bool) : Nat := if draft then draftOf h.toNat else h.toNat

/-- KV_TAIL_WRITE (R21, R23, R120, R467): the keeper writes the keys and values of a layer and key/value head for every row of a
session in the round. `data` holds, row by row, D key bytes and D value bytes. Rebuild rows write only lost entries. -/
def execKvTailWrite (num : W64) (h : W32) (draft : Bool) (layer head : W16) (data : List Byte) (s : State) : Out := s.gate fun s =>
  let k := rowKey h draft
  match s.roundOf num.toNat with
  | none => .next s
  | some r =>
    if !r.holds ∨ r.engines.isEmpty ∨ r.layer ≠ layer.toNat ∨ !(r.rows.any (fun w => w.ses == k)) then .next s
    else .next ((s.tailWrites r k layer.toNat head.toNat data).putRound { r with written := r.written ++ [k * 2 ^ 32 + runIx layer.toNat head.toNat] })

/-! ## Sampling -/

/-- FP32 division, and a ≥ b and a > b on FP32 values. -/
def div32 (a b : W32) : W32 := fel (fdiv (fval a) (fval b))
def ge32 (a b : W32) : Bool := flt (fval b) (fval a) || feq (fval a) (fval b)
def gt32 (a b : W32) : Bool := flt (fval b) (fval a)
/-- A 4-byte FP32 field of a record. -/
def f32At (bs : List Byte) (o : Nat) : W32 := BitVec.ofNat 32 (leAt bs o 4)
def zero32 : W32 := 0#32
def one32 : W32 := 0x3F800000#32

/-- A row's logits, every NaN as −∞ (R338). -/
def cleanLogits (vocab : Nat) (l : List W32) : List W32 :=
  (List.range vocab).map (fun v => let x := l.getD v (inf32 true); if fisNaN (fval x) then inf32 true else x)

/-- Insert a token by logit, larger first, ties lower token first. -/
def insertTok (l : List W32) (v : Nat) : List Nat → List Nat
  | [] => [v]
  | w :: ws => if flt (fval (l.getD v 0)) (fval (l.getD w 0)) then w :: insertTok l v ws else v :: w :: ws
/-- The tokens in order of their logits (R338). -/
def orderOf (l : List W32) : List Nat := (List.range l.length).foldr (insertTok l) []

/-- The shortest leading part whose p sum, formed in FP32 in the order, is at least `lim`. -/
def leadUntil (lim : W32) (p : Nat → W32) : W32 → List Nat → List Nat
  | _, [] => []
  | c, v :: vs => let c' := add32 c (p v); if ge32 c' lim then [v] else v :: leadUntil lim p c' vs

/-- The first token whose running sum exceeds `u`, else the last (R338). -/
def pickTok (u : W32) (p : Nat → W32) : W32 → List Nat → Nat
  | _, [] => 0
  | _, [v] => v
  | c, v :: vs => let c' := add32 c (p v); if gt32 c' u then v else pickTok u p c' vs

/-- sample(l, q, pos) (R338): the token drawn from cleaned logits under a parameter block; none when every logit is −∞.
`seen`: the tokens at positions 0 to pos − 1; `d`: where its free values (the exponentials' errors under R257, and the orders
of its sums under R259) begin. [DESIGN CHOICE: log entry 84] -/
def sampleTok (p : List Byte) (k0 k1 : W32) (l : List W32) (seen : List Nat) (d : Nat) : Option Nat :=
  let pos := seen.length
  if l.all (fun x => x == inf32 true) then none
  else
    let pen := f32At p 0x10
    let win := leAt p 0x16 2
    let recent := seen.drop (pos - win)
    let l2 := if win = 0 then l else (List.range l.length).map (fun v =>
      let x := l.getD v 0
      if recent.contains v then (if gt32 x zero32 then div32 x pen else mul32 x pen) else x)
    let ord := orderOf l2
    let best := ord.headD 0
    let temp := f32At p 4
    if feq (fval temp) (fval zero32) then some best
    else
      let k := leAt p 0x14 2
      let o1 := if k > 0 then ord.take k else ord
      let es := (List.range l2.length).map (fun v => expApprox (div32 (sub32 (l2.getD v 0) (l2.getD best 0)) temp) (drawAt d v))
      let s1 := (sumAny false (drawAt d l2.length) (o1.map (fun v => es.getD v 0))).1
      let ps := es.map (fun e => div32 e s1)
      let pf := fun (v : Nat) => ps.getD v 0
      let topP := f32At p 8
      let o2 := if gt32 one32 topP then leadUntil topP pf zero32 o1 else o1
      let minP := f32At p 0x0C
      let o3 := if gt32 minP zero32 then o2.filter (fun v => ge32 (pf v) (mul32 minP (pf best))) else o2
      let s2 := (sumAny false (drawAt d (l2.length + 1)) (o3.map pf)).1
      let u := rngVal k0 k1 0 0 (BitVec.ofNat 32 pos)
      some (pickTok u (fun v => div32 (pf v) s2) zero32 o3)

/-- LOGP of a token (R321): round(−256 × ln p) of the softmax of the cleaned logits at temperature 1. A NaN has no stated
value. -/
def logpOf (l : List W32) (t d : Nat) : Nat :=
  let best := (orderOf l).headD 0
  let es := (List.range l.length).map (fun v => expApprox (sub32 (l.getD v 0) (l.getD best 0)) (drawAt d v))
  let s := (sumAny false (drawAt d l.length) es).1
  let p := div32 (es.getD t 0) s
  if feq (fval p) (fval zero32) then 0xFFFF
  else match fval (mul32 (fel (.fin true 256 0)) (logApprox p (drawAt d (l.length + 1)))) with
    | .fin neg m e => if neg then 0 else min 0xFFFF (fnearInt false m e).toNat
    | .inf neg => if neg then 0 else 0xFFFF
    | .nan => drawAt d (l.length + 2) % 65536

/-- Free values that one sampled position uses. -/
def drawsPer (vocab : Nat) : Nat := 2 * vocab + 8

/-- Acceptance of a draft tree (R342): sample, emit, and follow the matching child. `rows`: the cleaned logits of the root's row
and of each node's. The result tells whether sampling ended without a token. -/
def acceptTree (p : List Byte) (k0 k1 : W32) (tree : Tree) (rows : List (List W32)) : Nat → Option Nat → List Nat → Nat → List Emit × Bool
  | 0, _, _, _ => ([], false)
  | fuel + 1, cur, seen, d =>
    let l := rows.getD (match cur with | none => 0 | some k => k + 1) []
    match sampleTok p k0 k1 l seen d with
    | none => ([], true)
    | some t =>
      let lp := logpOf l t (d + l.length + 4)
      match (List.range tree.length).find? (fun k => (tree.getD k (0, 0)).1 == t && (tree.getD k (0, 0)).2 == cur.getD 255) with
      | none => ([{ tok := t, spec := false, logp := lp }], false)
      | some k =>
        let r := acceptTree p k0 k1 tree rows fuel (some k) (seen ++ [t]) (d + drawsPer l.length)
        ({ tok := t, spec := true, logp := lp, node := some k } :: r.1, r.2)

/-- The nodes a draft round adds (R341): the highest logits at the root as children of the root, then each tip's greedy token. -/
def draftNodes (rows : List (Row × List W32)) (branch room : Nat) : List Emit :=
  let usable := fun (l : List W32) => !(l.all (fun x => x == inf32 true))
  (rows.flatMap (fun e => match e.1.kind with
    | .draft 255 => if usable e.2 then ((orderOf e.2).take branch).map (fun t => ({ tok := t, spec := false, logp := 0, node := none } : Emit)) else []
    | .draft k => if usable e.2 then [{ tok := (orderOf e.2).headD 0, spec := false, logp := 0, node := some k }] else []
    | _ => [])).take room

/-- The rows of a session in a round that are sampled: its generation row and draft nodes, or the rows of its draft session. -/
def Round.sampleRows (r : Round) (k : Nat) : List Row := r.rows.filter (fun w => w.ses == k && w.kind != .prompt && w.kind != .rebuild)

/-- What sampling gives for a session's head request (R338, R339, R341, R342). `ls`: the cleaned logits of its rows. [DESIGN CHOICE: log entry 84] -/
def State.emitsOf (s : State) (r : Round) (h : W32) (draft : Bool) (q : Req) (ls : List (List W32)) : List Emit × Bool :=
  let k := rowKey h draft
  if draft then (draftNodes ((r.sampleRows k).zip ls) q.draftBranch (q.draftNodes - (s.sesOf k).tree.length), false)
  else
    let seed := leAt q.params 0x18 8
    let k0 := if seed = 0 then h else BitVec.ofNat 32 seed
    let k1 := if seed = 0 then BitVec.ofNat 32 q.round else BitVec.ofNat 32 (seed / 2 ^ 32)
    let tree := SMap.get r.trees [] k
    acceptTree q.params k0 k1 tree ls (tree.length + 1) none (s.sesOf h.toNat).hist s.free

/-- The cleaned logits of a session's rows. -/
def State.logitsOf (s : State) (r : Round) (k : Nat) (logits : List (List W32)) : List (List W32) :=
  (List.range (r.sampleRows k).length).map (fun i => cleanLogits (s.model r.model).md.vocab (logits.getD i []))

/-- SAMPLING (R338, R339, R341, R342): once the logits of a session's rows are complete, the vector engine samples. `logits`: those of its
generation row and nodes, or of its draft rows, in row order. -/
def execSampling (num : W64) (h : W32) (draft : Bool) (logits : List (List W32)) (s : State) : Out := s.gate fun s =>
  let k := rowKey h draft
  match s.roundOf num.toNat with
  | none => .next s
  | some r =>
    if (r.sampleRows k).isEmpty ∨ r.layer + 1 < s.layersOf r ∨ (SMap.find r.emits k).isSome then .next s
    else match (s.sesOf h.toNat).headReq with
      | none => .next s
      | some q =>
        let em := s.emitsOf r h draft q (s.logitsOf r k logits)
        .next ({ s with free := s.free + ((r.sampleRows k).length + 1) * drawsPer (s.model r.model).md.vocab }.putRound
          { r with emits := SMap.put r.emits k (some em) })

end Sys2Proof.Machine
end

