-- ==== Sys2Proof/Machine/Telemetry.lean ====
section
/-! DEFINITION. The telemetry ring in host memory (R381 to R384). -/
namespace Sys2Proof.Machine
open Sys2Proof

/-- Records of the ring: SIZE_LOG2 clamped to 10–20. -/
def State.telSize (s : State) : Nat := 2 ^ min 20 (max 10 (s.fld pgTel F.tel_RING_CFG_SIZE_LOG2))

/-- Write a telemetry record of a kind, if it is enabled (R382, R383): a full ring drops it, counts it, and marks the next
QUEUE records. `flags` is FLAGS. The interrupt comes when the pending records reach IRQ_THRESH. [DEDUCED: log entry 34] [DESIGN CHOICE: log entry 36] -/
def State.telRecord (s : State) (kind : Nat) (src : Page) (span stamp : Nat) (body : List Byte) (flags : Nat) : State :=
  if !(s.flag pgTel F.tel_RING_CFG_ENABLE) || !(bitOf (s.fld pgTel F.tel_RING_CFG_KIND_EN) (kind - 1)) then s
  else
    let n := s.telSize
    let tail := s.fld pgTel F.tel_RING_TAIL_VALUE % n
    let head := s.fld pgTel F.tel_RING_HEAD_VALUE % n
    if (tail + 1) % n = head then
      let s1 := (s.bump pgTel F.tel_OVERRUN_VALUE 1).raise pgTel 0
      { s1 with tel := { s1.tel with hwm := [0, 1, 2, 3, 4] ++ (List.range 12).map (· + 16) } }
    else
      let base := (s.fld pgTel F.tel_RING_BASE_LO_ADDR + 2 ^ 32 * s.fld pgTel F.tel_RING_BASE_HI_ADDR) / 4096 * 4096
      let r := leBytes 1 kind ++ leBytes 1 flags ++ leBytes 2 (sourceOf src).toNat ++ leBytes 2 (min 65535 span) ++ [0#8, 0#8]
        ++ leBytes 8 stamp ++ body.take 48 ++ List.replicate (48 - body.length) 0#8
      let s1 := ((s.emit (.hostWrite 0 (BitVec.ofNat 64 (base + 64 * tail)) r)).setFld pgTel F.tel_RING_TAIL_VALUE ((tail + 1) % n)).event pgTel
      let pending := (tail + 1 + n - head) % n
      if pending = s.fld pgTel F.tel_RING_CFG_IRQ_THRESH then s1.irq 0 2 else s1

/-- An EVENT record (R382), stamped with the copy of host time of the block that writes it. The arguments that no chapter
names are free values. [DESIGN CHOICE: log entry 49] -/
def State.telEvent (s : State) (src : Page) (blk code : Nat) : State :=
  let r := s.drawBytes 46
  r.2.telRecord 6 src 0 (s.timeAt blk).toNat (leBytes 2 code ++ r.1) 0

/-- The QUEUE records of a scheduler for a window (R382): one for each sampled queue that held or sent a frame in it; then
its window measurements start anew. [DESIGN CHOICE: log entry 36] -/
def State.telQueues (s : State) (i span stamp : Nat) : State :=
  let hw := s.tel.hwm.contains i
  let sampled := fun (q : Nat) =>
    if q < 32 then bitOf (s.fld (pgQdr i) F.qdr_SAMPLE_MASK_LO_QUEUES) q
    else if q < 64 then bitOf (s.fld (pgQdr i) F.qdr_SAMPLE_MASK_HI_QUEUES) (q - 32)
    else bitOf (s.fld (pgQdr i) F.qdr_GL_CTRL_SAMPLE_LEAD) (q - 64)
  let one := fun (s : State) (q : Nat) =>
    let x := s.queue i q
    let s1 := if sampled q && (x.maxDepth > 0 || x.sent > 0 || !x.frames.isEmpty) then
        let depth := if hw then s.fldB (pgQdr i) q F.qdr_Q_HWM_DEPTH_VALUE else x.maxDepth
        let delay := if hw then s.fldB (pgQdr i) q F.qdr_Q_HWM_DELAY_VALUE else x.maxDelay
        let low := Int.toNat ((x.lowCredit / 65536) % 2 ^ 32)
        s.telRecord 1 (pgQdr i) span stamp (leBytes 4 q ++ leBytes 4 depth ++ leBytes 4 x.depth ++ leBytes 4 (x.sumDelay / max 1 x.sent)
          ++ leBytes 4 delay ++ leBytes 4 x.sent ++ leBytes 8 x.sentBytes ++ leBytes 4 low) (b2n hw)
      else s
    s1.setQueue i q { x with maxDepth := x.depth, sumDelay := 0, maxDelay := 0, sent := 0, sentBytes := 0, lowCredit := x.credit }
  (List.range 67).foldl one { s with tel := { s.tel with hwm := s.tel.hwm.filter (· != i) } }

end Sys2Proof.Machine
end

