-- ==== Sys2Proof/Machine/RoundEnd.lean ====
section
/-! DEFINITION. The end of a round and the round boundary of its sessions (R13, R20, R23 to R26, R152, R213, R319, R336, R337,
R342, R343, R349, R467, R468). -/
namespace Sys2Proof.Machine
open Sys2Proof

/-! ## Stop detection -/

/-- Is a token the one a STOP_TOK-like word names (R334)? -/
def tokIs (p : List Byte) (o t : Nat) : Bool := bitOf (leAt p o 4) 31 && leAt p o 3 == t

/-- Does a list of tokens end with stop sequence `k` of a parameter block? -/
def endsWith (p : List Byte) (gen : List Nat) (k : Nat) : Bool :=
  let n := leAt p (0x4C + k) 1
  let want := (List.range n).map (fun i => leAt p (0x100 + 64 * k + 4 * i) 3)
  n != 0 && gen.drop (gen.length - n) == want

/-- The stop condition that the last token of `gen` meets (R336). -/
def stopOf (p : List Byte) (maxNew : Nat) (gen : List Nat) (tool : Bool) : Option Nat :=
  let t := gen.getLastD 0
  if tool && tokIs p 0x44 t then some stToolCall
  else if (List.range 8).any (fun k => tokIs p (0x20 + 4 * k) t) then some stStopToken
  else if (List.range 4).any (endsWith p gen) then some stStopSequence
  else if gen.length ≥ maxNew then some stMaxTokens
  else none

/-- A token on its way to a record: the token as sampled, TOOL_OPEN and TOOL_CLOSE, and the status it ends the request with. -/
structure Told where
  em : Emit
  flags : Nat
  status : Option Nat
  deriving DecidableEq, Repr

/-- Stop detection over the emitted tokens in order; those after a stop are discarded (R25, R336, R337). Also the request's tokens and
tool mark after them. -/
def runStops (p : List Byte) (maxNew : Nat) : List Emit → List Nat → Bool → List Told × List Nat × Bool
  | [], gen, tool => ([], gen, tool)
  | e :: es, gen, tool =>
    let gen' := gen ++ [e.tok]
    let st := stopOf p maxNew gen' tool
    let fl := (if tokIs p 0x40 e.tok then rToolOpen else 0) + (if tool && tokIs p 0x44 e.tok then rToolClose else 0)
    let tool' := tool || tokIs p 0x40 e.tok
    match st with
    | some c => ([⟨e, fl, some c⟩], gen', tool')
    | none => let r := runStops p maxNew es gen' tool'; (⟨e, fl, none⟩ :: r.1, r.2)

/-! ## What a round leaves to a session -/

/-- The request whose rows a session holds. -/
def Session.running (x : Session) : Option Req := x.headReq.filter (fun r => r.started && (r.typ == tAppend || r.typ == tGenerate))

/-- The status with which a fault in the feed of an object that a session's rows used completes its request (R213, R215). Which rows an
expert served is not kept: for an object that only EXPERT entries name it is open. [DESIGN CHOICE: log entry 81] -/
def State.feedStatus (s : State) (r : Round) (h : Nat) : Option Nat × State :=
  let x := s.sesOf h
  let faults := (List.range 4).flatMap (fun q => (s.keeper q).feedFaults)
  let mine := (x.running.bind (fun q => q.adp.bind (fun a => ((s.adapter a).vers.find? (fun v => v.1 == q.ver)).map (fun v => v.2.1))))
  let kinds := fun (o : Nat) => match (s.model r.model).sched with
    | some c => (c.entries.filter (fun (e : SchedEntry) => decide (e.kind ≤ 1) && e.src / 2 ^ 32 == o)).map (fun (e : SchedEntry) => e.kind)
    | none => []
  faults.foldl (fun (a : Option Nat × State) f =>
    match a.1 with
    | some _ => a
    | none =>
      let st := if f.2.2 = 5 then stTblStale else stMalformed
      if mine == some f.2.1 || (kinds f.2.1).contains 0 then (some st, a.2)
      else if (kinds f.2.1).contains 1 then (let d := a.2.draw; (if d.1 % 2 = 1 then some st else none, d.2))
      else a) (none, s)

/-- The entries of a session that cannot be read are noted for a rebuild (R152, R466). [DEDUCED: log entry 56] -/
def State.noteLost (s : State) (h : Nat) (l : List Lost) : State :=
  let x := s.sesOf h
  s.setSes h { x with lost := x.lost ++ l, rebuilding := false, rebuilt := 0 }

/-- The last round of a session: its host time, and its place in the order of readiness. -/
def State.stampRound (s : State) (h : Nat) : State :=
  let x := s.sesOf h
  (s.setSes h { x with lastRound := s.stampOf x.owner }).stampReady h

/-- The draft session gives its tree up once the target has verified it (R341). -/
def State.dropTree (s : State) (h : Nat) : State :=
  match SMap.find s.sess (draftOf h) with
  | some y => (s.setSes (draftOf h) { y with tree := [], treeDone := false }).kvTrim (draftOf h) y.hist.length
  | none => s

/-- The tokens of a generating session (R23, R25, R336, R337, R342, R343): records, history, key/value entries, the end of its
request. -/
def State.endGen (s : State) (r : Round) (h : Nat) (q : Req) : State :=
  let x := s.sesOf h
  let em := (SMap.get r.emits (some ([], false)) h).getD ([], false)
  let z := runStops q.params q.maxNew em.1 q.gen q.tool
  let told := z.1
  let n := told.length
  let late := s.passed x q.deadline
  let stopped := (told.getLast?.bind (fun t => t.status))
  let ends := match stopped with | some c => some c | none => if late && decide (n > 0) then some stDeadline else none
  let rs := (List.range n).map (fun i =>
    match told[i]? with
    | some t =>
      let last := i + 1 == n && ends.isSome
      tokRecord h (x.hist.length + i) t.em.tok
        ((if last then rLast else 0) + (if late then rLate else 0) + t.flags + (if t.em.spec then rSpec else 0) + (if x.markRebuilt then rRebuilt else 0))
        (if last then ends.getD 0 else 0) q.rtag t.em.logp
    | none => [])
  let s1 := s.writeRecords h r.num rs
  let base := x.hist.length
  let s2 := (List.range n).foldl (fun s i =>
    match told[i]? with
    | some t => (match t.em.node with | some k => s.moveEntry h (base + k) (base + i) | none => s)
    | none => s) s1
  let y := s2.sesOf h
  let q' := { q with gen := z.2.1, tool := z.2.2 }
  let y1 := { y.putReq q q' with hist := y.hist ++ told.map (fun t => t.em.tok), markRebuilt := if n > 0 then false else y.markRebuilt }
  let s3 := ((s2.setSes h y1).kvTrim h (base + n)).dropTree h
  let s4 := ((s3.bump (pgKpr x.owner) F.kpr_SPEC_OFFERED_COUNT (SMap.get r.trees [] h).length).bump (pgKpr x.owner) F.kpr_SPEC_ACCEPTED_COUNT
    (told.filter (fun t => t.em.spec)).length)
  let s5 := s4.stampRound h
  if ends.isSome then (s5.setSes h ((s5.sesOf h).drop q')).settleMove h
  else if em.2 then s5.complete h q' stMalformed
  else s5

/-- A session's prompt rows have run (R18, R347, R349). -/
def State.endPrompt (s : State) (h n : Nat) (q : Req) : State :=
  let s1 := s.setSes h ((s.sesOf h).takePrompt n)
  let s2 := s1.insertNode h q.adp q.ver (n / 64 + 2)
  (s2.stampRound h).finishAppend h

/-- A session's rebuild rows have run (R467, R468). The pages of prefix nodes they filled are whole for every linked session
(R469). -/
def State.endRebuild (s : State) (h n : Nat) : State :=
  let x := s.sesOf h
  let (a, b) := x.span
  if a + x.rebuilt + n ≥ b then
    let s1 := s.setSes h { x with lost := [], rebuilding := false, rebuilt := 0, markRebuilt := true }
    let mine := fun (y : Session) (l : Lost) => (SMap.get y.runs [] (l.layer * 65536 + l.head)).zipIdx.any (fun p =>
      p.1.node.isSome && p.2 == l.first / l.count && (SMap.get x.runs [] (l.layer * 65536 + l.head)).any (fun z => z.pair == p.1.pair && z.slot == p.1.slot))
    { s1 with sess := s1.sess.map (fun (e : Nat × Session) => if e.1 = h then e else (e.1, { e.2 with lost := e.2.lost.filter (fun l => !(mine e.2 l)) })) }.stampRound h
  else (s.setSes h { x with rebuilt := x.rebuilt + n }).stampRound h

/-- A draft session's rows have run (R341). -/
def State.endDraft (s : State) (r : Round) (d : Nat) : State :=
  let y := s.sesOf d
  let h := d - 2 ^ 32
  let rows := r.rows.filter (fun w => w.ses == d)
  if !((s.lostPages d (fun p n => p.hit s.poisonKeys n)).isEmpty) then
    (s.freePages d).setSes d { model := y.model, owner := y.owner }
  else
    let pre := rows.filter (fun w => w.kind == .prompt)
    if !pre.isEmpty then (s.setSes d { y with hist := y.hist ++ pre.map (fun w => w.tok) }).kvTrim d (y.hist.length + pre.length)
    else
      let em := ((SMap.get r.emits (some ([], false)) d).getD ([], false)).1
      let tree := y.tree ++ em.map (fun e => (e.tok, e.node.getD 255))
      let want := ((s.sesOf h).running.map (fun q => q.draftNodes)).getD 0
      s.setSes d { y with hist := (s.sesOf h).hist, tree := tree, treeDone := em.isEmpty || decide (tree.length ≥ want) }

/-- What a round that has ended leaves to one of its sessions. -/
def State.endSessionRound (s : State) (r : Round) (h : Nat) : State :=
  if h ≥ 2 ^ 32 then s.endDraft r h
  else
    let rows := r.rows.filter (fun w => w.ses == h)
    let lost := s.lostPages h (fun p n => p.hit s.poisonKeys n)
    let f := s.feedStatus r h
    let s1 := if lost.isEmpty then f.2 else (f.2.noteLost h lost)
    match (s1.sesOf h).running with
    | none =>
      if lost.isEmpty && f.1.isNone && rows.any (fun w => w.kind == .rebuild) then s1.endRebuild h rows.length
      else (s1.kvTrim h (s1.sesOf h).hist.length).stampRound h
    | some q =>
      match f.1 with
      | some c => ((s1.kvTrim h (s1.sesOf h).hist.length).stampRound h).complete h q c
      | none =>
        if !lost.isEmpty then ((s1.kvTrim h (s1.sesOf h).hist.length).dropTree h).stampRound h
        else if rows.any (fun w => w.kind == .rebuild) then s1.endRebuild h rows.length
        else if q.typ = tAppend then s1.endPrompt h rows.length q
        else s1.endGen r h q

/-- Has sampling finished for every session of a round that holds a row it samples? -/
def Round.sampled (r : Round) : Bool :=
  r.rows.all (fun w => w.kind == .prompt || w.kind == .rebuild || (SMap.find r.emits w.ses).isSome)

/-- The feed faults of a model's objects are settled with its round. -/
def State.clearFeed (s : State) (m : Nat) : State :=
  (List.range 4).foldl (fun s q =>
    let k := s.keeper q
    s.setKeeper q { k with feedFaults := k.feedFaults.filter (fun f => !(s.modelNames m f.2.1)) }) s

/-- The ROUND record of a round that ends (R382); its duration by the sealer's stopwatch is a free value. [DESIGN CHOICE: log entry 36] -/
def State.telRound (s : State) (r : Round) : State :=
  let cnt := fun (p : RowKind → Bool) => (r.rows.filter (fun w => p w.kind)).length
  let gen := cnt (fun k => match k with | .gen | .node _ => true | _ => false)
  let toks := (r.emits.map (fun e => match e.2 with | some x => x.1.length | none => 0)).sum
  let d := s.draw
  d.2.telRecord 2 (pgKpr s.sealer) 0 (s.timeAt s.sealer).toNat
    (leBytes 8 r.num ++ leBytes 1 r.model ++ leBytes 1 s.ses.rounds.length ++ leBytes 2 r.rows.length ++ leBytes 2 gen
      ++ leBytes 2 (r.rows.length - gen) ++ leBytes 8 r.sealed.toNat ++ leBytes 4 d.1 ++ leBytes 2 r.misses ++ leBytes 2 toks) 0

/-- Each session of a round takes what the round gives it, the round is reported, and it is no longer in flight. -/
def State.endRound (s : State) (r : Round) : State :=
  let s1 := r.sessions.foldl (fun s h => s.endSessionRound r h) s
  let s2 := ((s1.telRound r).setRounds (s1.ses.rounds.filter (fun q => q.num != r.num))).clearFeed r.model
  { s2 with ses := { s2.ses with roundEnd := true } }

/-- The round boundary of each session of a round that is neither closing nor held by another round. -/
def State.sessionBoundaries (s : State) (r : Round) : State :=
  r.sessions.foldl (fun s h => if (s.sesOf (h % 2 ^ 32)).closing || s.busy (h % 2 ^ 32) then s else s.boundary (h % 2 ^ 32)) s

/-- ROUND_BOUNDARY (R20, R26, R319, R343): a round whose layers are over and whose rows are sampled ends: each of its sessions takes what
the round gives it, then its round boundary. -/
def execRoundBoundary (num : W64) (s : State) : Out := s.gate fun s =>
  match s.roundOf num.toNat with
  | none => .next s
  | some r => if r.layer < s.layersOf r ∨ !r.sampled then .next s else .next ((s.endRound r).sessionBoundaries r)

end Sys2Proof.Machine
end

