-- ==== Sys2Proof/Machine/Keep.lean ====
section
/-! DEFINITION. What keepers do beside rounds: tag completions and failing bank pairs (R145, R269, R472), adapters (R351 to R354),
PROMPT and CUSTOM programs (R276, R278, R358 to R360), the test window (R363), session queries. -/
namespace Sys2Proof.Machine
open Sys2Proof

/-- OBJECT_LOAD_DONE (R167, R168): the golden bytes arrive and the object becomes READY, or the load fails and the object is
QUARANTINED, with every model that names it. -/
def execObjectLoadDone (fn : Fin 65) (obj : W16) (golden : Option (List Byte)) (s : State) : Out := s.gate fun s =>
  let s1 := s.objectLoadDone fn obj golden
  .next (if fn.val = 0 ∧ (s1.obj 0 obj.toNat).st = .quarantined ∧ (s.obj 0 obj.toNat).st ≠ .quarantined then s1.quarantineObj obj.toNat 3 else s1)

/-! ## Tags -/

/-- A bank pair is retired (R472): no page slot on it is given out again. -/
def State.retirePair (s : State) (pair : Nat) : State :=
  if s.bkt.retired.contains pair then s
  else ({ s with bkt := { s.bkt with retired := s.bkt.retired ++ [pair] } }).retireLog 4 pair

/-- A POISON completion counts against each pair that met poison: the third within 16 rounds retires it (R472). [DEDUCED: log entry 56] -/
def State.pairPoisoned (s : State) (pair : Nat) : State :=
  let recent := s.ses.pairPoison.filter (fun e => decide (s.ses.lastNum < e.1 + 16))
  let l := recent ++ [(s.ses.lastNum, pair)]
  let s1 := { s with ses := { s.ses with pairPoison := l } }
  if (l.filter (fun e => e.2 == pair)).length ≥ 3 then s1.retirePair pair else s1

/-- TAG_COMPLETE (R145, R151, R154, R472). -/
def execTagComplete (st : Fin 20) (t : Fin 256) (s : State) : Out := s.gate fun s =>
  let g := s.tagAt st t
  let s1 := s.tagComplete st t
  .next (if g.life = .opened ∧ (s1.tagAt st t).life = .complete ∧ g.poison then g.bad.foldl (fun s k => s.pairPoisoned (st.val * 1024 + k % 1024)) s1 else s1)

/-- The bank pairs of an open tag that hold it, have been started and have not answered. -/
def State.lateUnits (s : State) (st t : Nat) : List Nat :=
  (s.tagAt st t).units.filter (fun k => !((s.tagAt st t).dones.contains k) && (s.unitAt k).sent && (s.unitAt k).tags.head? == some t)

/-- The units of a tag that have not reported give it up. -/
def State.dropTag (s : State) (st t : Nat) : State :=
  let g := s.tagAt st t
  g.units.foldl (fun s k =>
    let u := s.unitAt k
    if g.dones.contains k then s
    else if u.tags.head? = some t then s.setUnit k { tags := u.tags.drop 1, prog := u.prog }
    else s.setUnit k { u with tags := u.tags.filter (· != t) }) s

/-- BUCKET_UNIT_TIMEOUT (R472): no DONE has come for a started tag within 1 ms: the tag completes ABORTED, and the bank pairs that have
not answered are retired. -/
def execBucketUnitTimeout (st : Fin 20) (t : Fin 256) (s : State) : Out := s.gate fun s =>
  if (s.tagAt st t).life ≠ .opened ∨ (s.lateUnits st t).isEmpty then .next s
  else .next ((s.lateUnits st t).foldl (fun s k => s.retirePair k) ((s.dropTag st t).completeTag st t 3))

/-- COMBINE_SLOT_CARRY (R143, R269): a tier pump carries a completed tag's combine slot into an engine's tile store, as slot `i` of those
placed from `a0` on. [DESIGN CHOICE: log entry 82] -/
def execCombineSlotCarry (st : Fin 20) (t : Fin 256) (e : Fin 32) (a0 : W32) (i : Fin 20) (s : State) : Out := s.gate fun s =>
  let a := a0.toNat
  if (s.tagAt st t).life ≠ .complete ∨ a % 256 ≠ 0 ∨ a ≥ 2 ^ 22 then .next s
  else
    let bs := (List.range 2064).flatMap (fun w => leBytes 4 (s.slotWord st t w).toNat)
    .next (s.storeWrite e ((a + i.val * 0x2100) % 2 ^ 22) (piecesOf 0 bs))

/-! ## Adapters -/

/-- Versions of every adapter present. -/
def State.versionsPresent (s : State) : Nat := (s.ses.adapters.map (fun a => a.2.vers.length)).foldl (· + ·) 0

/-- The next version number (R351): after the last, from 1 to 65,535 and round, skipping versions present. -/
def nextVersion (x : Adapter) : Nat → Nat → Nat
  | 0, v => v
  | fuel + 1, v =>
    let w := if v ≥ 65535 then 1 else v + 1
    if x.vers.any (fun e => e.1 == w) then nextVersion x fuel w else w

/-- Add or drop a command pin of an object (R169). -/
def State.commandPin (s : State) (fn o : Nat) (take : Bool) : State :=
  let x := s.obj fn o
  s.setObj fn o { x with pins := if take then x.pins + 1 else x.pins - 1 }

/-- ADAPTER_INSTALL (R351): OP = 1 written to ADP_CMD makes a new version of the adapter in ADP_SEL from ADP_CFG. [DESIGN CHOICE: log entry 96] -/
def execAdapterInstall (s : State) : Out :=
  let pg := pgSes 0
  .next (s.regWrite pg 0x080 (fun s =>
    let a := s.fld pg F.ses_ADP_SEL_ADAPTER
    let o := s.fldB pg a F.ses_ADP_CFG_OBJ
    let m := s.fldB pg a F.ses_ADP_CFG_MODEL
    let done := fun (s : State) (r : Nat) => s.setFldB pg a F.ses_ADP_STATUS_RESULT r
    if s.versionsPresent ≥ 8192 then (done s 1).raise pg 3
    else if (s.obj 0 o).st ≠ .ready then done s 2
    else if !((s.model m).resident) then done s 3
    else
      let x := s.adapter a
      let v := nextVersion x 65536 x.last
      let s1 := s.setAdapter a { x with cur := v, last := v, retired := false, model := m
                                        vers := x.vers ++ [(v, o, m, s.fldB pg a F.ses_ADP_CFG_RANK_M1 + 1)] }
      done (s1.commandPin 0 o true) 0))

/-- ADAPTER_RETIRE (R354): OP = 2 written to ADP_CMD leaves the adapter in ADP_SEL without a current version. -/
def execAdapterRetire (s : State) : Out :=
  let pg := pgSes 0
  .next (s.regWrite pg 0x080 (fun s =>
    let a := s.fld pg F.ses_ADP_SEL_ADAPTER
    (s.setAdapter a { s.adapter a with cur := 0, retired := true }).setFldB pg a F.ses_ADP_STATUS_RESULT 0))

/-- Does a request, a prefix node or a priming entry refer to an adapter version (R353)? -/
def State.versionUsed (s : State) (a v o : Nat) : Bool :=
  s.sess.any (fun e => e.2.reqs.any (fun r => r.adp == some a && r.ver == v))
    || s.ses.nodes.any (fun e => e.2.adapter == some a && e.2.ver == v)
    || (List.range 32).any (fun e => (s.eng e).staged.any (fun g => match g.src with | .object 0 p _ => p == o | _ => false))

/-- ADAPTER_VERSION_FREE (R353). -/
def execAdapterVersionFree (adapter version : W16) (s : State) : Out := s.gate fun s =>
  let a := adapter.toNat
  let x := s.adapter a
  match x.vers.find? (fun e => e.1 == version.toNat) with
  | none => .next s
  | some (v, o, _, _) =>
    if x.cur = v ∨ s.versionUsed a v o then .next s
    else .next ((s.setAdapter a { x with vers := x.vers.filter (fun e => e.1 != v) }).commandPin 0 o false)

/-! ## Keeper programs -/

/-- The partition a registry entry names (R360): accumulator tiles, first row and rows, row sets, first frame and frames. -/
structure Part where
  acc : Nat
  row : Nat
  rows : Nat
  rs : Nat
  frame : Nat
  frames : Nat
  deriving DecidableEq, Repr

def State.partOf (s : State) (q entry : Nat) : Part :=
  let pg := pgKpr q
  { acc := s.fldB pg entry F.kpr_PROG_PART_ACC, row := s.fldB pg entry F.kpr_PROG_BASE_ROW_BASE, rows := min 256 (s.fldB pg entry F.kpr_PROG_PART_ROWS)
    rs := s.fldB pg entry F.kpr_PROG_PART_RS, frame := s.fldB pg entry F.kpr_PROG_BASE_FRAME_BASE, frames := s.fldB pg entry F.kpr_PROG_PART_FRAMES }

/-- The rows of a partition, and whether all its frames are program frames (R219). -/
def Part.rowList (p : Part) : List Nat := (List.range p.rows).map (fun i => (p.row + i) % 256)
def State.partFrames (s : State) (e : Nat) (p : Part) : Bool := p.frames == 0 || decide (s.primeFrames e ≤ p.frame ∧ p.frame + p.frames ≤ 64)
/-- Are a partition's rows free of every round in flight? -/
def State.partFree (s : State) (p : Part) : Bool := s.ses.rounds.all (fun r => r.rows.all (fun w => !(p.rowList.contains w.row)))

/-- The resources of a partition, as keys of `Eng.granted`. -/
def Part.keys (p : Part) : List Nat :=
  (List.range 4).filter (bitOf p.acc) ++ ((List.range 8).filter (bitOf p.rs)).map (· + 16) ++ p.rowList.map (· + 256)
    ++ (List.range p.frames).map (fun i => 1024 + p.frame + i)

/-- Zero a resource of an engine. -/
def State.zeroResource (s : State) (e k : Nat) : State :=
  let x := s.eng e
  if k < 16 then s.setEng e { x with acc := SMap.keep x.acc (fun a => a / 65536 != k) }
  else if k < 256 then s.setEng e { x with rs := SMap.keep x.rs (fun a => a / 256 != k - 16) }
  else if k < 1024 then s.setEng e { x with rows := SMap.keep x.rows (fun a => a / 16384 != k - 256) }
  else { s with pmp := { s.pmp with store := SMap.keep s.pmp.store (fun a => a / 65536 != e * 64 + (k - 1024))
                                    storeBad := SMap.keep s.pmp.storeBad (fun a => a / 8192 != e * 64 + (k - 1024)) } }

/-- The keeper grants a partition (R276): Y_PART and Y_FRAMES are written, and what was last granted to another function is zeroed. -/
def State.grantPart (s : State) (e func : Nat) (p : Part) : State :=
  let x := s.eng e
  let other := p.keys.filter (fun k => SMap.get x.granted 0 k != 0 && SMap.get x.granted 0 k != func + 1)
  let s1 := other.foldl (fun s k => s.zeroResource e k) s
  let y := s1.eng e
  let s2 := s1.setEng e { y with granted := p.keys.foldl (fun g k => SMap.set g 0 k (func + 1)) y.granted }
  let pg := pgVxe e
  let s3 := (((s2.setFld pg F.vxe_Y_PART_ACC p.acc).setFld pg F.vxe_Y_PART_ROW_BASE p.row).setFld pg F.vxe_Y_PART_ROWS p.rows).setFld pg
    F.vxe_Y_PART_RS p.rs
  (s3.setFld pg F.vxe_Y_FRAMES_BASE p.frame).setFld pg F.vxe_Y_FRAMES_COUNT p.frames

/-- May the keeper start a Y program on an engine: READY, its own, without a Y program? -/
def State.yIdle (s : State) (e : Nat) : Bool :=
  s.engState e == eReady && !(s.testOwn e) && !((s.ctx e true).started) && s.fld (pgMxe e) F.hdr_ENABLE == 1

/-- May the keeper start a PROMPT program of registry entry `entry` on an engine for a session whose head request is `r` (R358)? -/
def State.promptMay (s : State) (e entry k : Nat) (r : Req) : Bool :=
  let pg := pgKpr (engQuad e)
  let x := s.sesOf k
  let p := s.partOf (engQuad e) entry
  s.yIdle e && s.fldB pg entry F.kpr_PROG_ENTRY_VALID != 0 && s.fldB pg entry F.kpr_PROG_ENTRY_CLASS == 1 && r.typ == tAppend && r.started
    && s.offerable k && x.lost.isEmpty && !x.rebuilding && s.modelUp x.model && s.partFrames e p && s.partFree p
    && !(s.ses.rounds.any (fun r => r.holds && !r.engines.isEmpty))

/-- PROMPT_PROGRAM_START (R276, R278, R358): on an idle engine the keeper starts a PROMPT program of the registry over up to 64 prompt rows
of a session. No round's program runs there. -/
def execPromptProgramStart (e : Fin 32) (entry : Fin 64) (h : W32) (count : Fin 65) (s : State) : Out := s.gate fun s =>
  let e : Nat := e
  let q := engQuad e
  let k := h.toNat
  let x := s.sesOf k
  let pg := pgKpr q
  match x.headReq with
  | none => .next s
  | some r =>
    let n := min count.val r.left.length
    if !(s.promptMay e entry k r) ∨ n = 0 then .next s
    else match s.kvReserve k (x.hist.length + n) with
      | .ok s1 =>
        let f := s1.fldB pg entry F.kpr_PROG_ENTRY_FUNC
        let kp := s1.keeper q
        let s2 := (s1.setKeeper q { kp with chunks := kp.chunks ++ [⟨e, k, x.hist.length, n⟩] }).grantPart e f (s.partOf q entry)
        let d := s2.draw
        .next (d.2.startProg e true (d.2.fldB pg entry F.kpr_PROG_ENTRY_ADDR) (d.1 % 2 ^ 64) 1 f false)
      | .wait s1 => .next s1
      | .limit s1 => .next (s1.setSes k { s1.sesOf k with kvLimit := true })

/-- Is a CUSTOM program asked for on engine `e` of a quadrant taken: none is queued, the engine has no Y program, and the registry entry is
valid and CUSTOM (R360)? -/
def State.yrunTaken (s : State) (q prog e : Nat) : Bool :=
  let pg := pgKpr q
  !(s.flag pg F.kpr_YRUN_GO) && !((s.ctx (8 * q + e) true).started) && s.fldB pg prog F.kpr_PROG_ENTRY_VALID != 0
    && s.fldB pg prog F.kpr_PROG_ENTRY_CLASS == 2

/-- YRUN (R360): a write of KPR.YRUN. GO asks for a CUSTOM program when its engine has no Y program; one whose frames are not all program
frames, or whose partition `meets` resources declared for GENERATION programs, ends PART_RANGE. [DEDUCED: log entry 65] [DESIGN CHOICE: log entry 83] -/
def execYrun (q : Fin 4) (value : W32) (meets : Bool) (s : State) : Out :=
  let q : Nat := q
  let pg := pgKpr q
  .next (s.regWrite pg 0x070 (fun s =>
    let v := value.toNat
    let prog := bitsOf v 5 0
    let e := bitsOf v 8 6
    let s1 := (s.setFld pg F.kpr_YRUN_PROG prog).setFld pg F.kpr_YRUN_ENGINE e
    if !(bitOf v 9) || !(s.yrunTaken q prog e) then s1
    else if meets || !(s.partFrames (8 * q + e) (s.partOf q prog)) then
      (let d := s1.draw
       ((d.2.setFld pg F.kpr_YRUN_STATUS_STATE 3).setFld pg F.kpr_YRUN_STATUS_CAUSE 4).setFld pg F.kpr_YRUN_STATUS_PC (d.1 % 2 ^ 14))
    else
      ((((s1.setFld pg F.kpr_YRUN_GO 1).setFld pg F.kpr_YRUN_STATUS_STATE 1).setFld pg F.kpr_YRUN_STATUS_CAUSE 0).setFld pg
        F.kpr_YRUN_STATUS_PC 0).setKeeper q { s1.keeper q with yrun := some (prog, e) }))

/-- CUSTOM_PROGRAM_START (R276, R278, R360): the partition of the queued CUSTOM program is free; it is granted and the program starts. -/
def execCustomProgramStart (q : Fin 4) (s : State) : Out := s.gate fun s =>
  let q : Nat := q
  let pg := pgKpr q
  match (s.keeper q).yrun with
  | none => .next s
  | some (prog, e8) =>
    let e := 8 * q + e8
    let p := s.partOf q prog
    let inFlight := (s.ses.rounds.map (fun r => r.rows.length)).foldl (· + ·) 0
    if s.fld pg F.kpr_YRUN_STATUS_STATE ≠ 1 ∨ !(s.yIdle e) ∨ !(s.partFree p) ∨ inFlight + p.rows > 256 then .next s
    else
      let f := s.fldB pg prog F.kpr_PROG_ENTRY_FUNC
      let s1 := (s.grantPart e f p).setFld pg F.kpr_YRUN_STATUS_STATE 2
      let d := s1.draw
      .next (d.2.startProg e true (d.2.fldB pg prog F.kpr_PROG_ENTRY_ADDR) (d.1 % 2 ^ 64) 2 f false)

/-! ## The test window -/

/-- TEST_WIN (R363): a write of KPR.WIN_CTRL. Clearing TEST_WIN closes the window. -/
def execTestWin (q : Fin 4) (value : W32) (s : State) : Out :=
  let pg := pgKpr q
  .next (s.regWrite pg 0x080 (fun s =>
    let v := value.toNat
    let s1 := (s.setFld pg F.kpr_WIN_CTRL_TEST_WIN (v % 2)).setFld pg F.kpr_WIN_CTRL_STACK (bitsOf v 6 2)
    if v % 2 = 0 then s1.setFld pg F.kpr_WIN_CTRL_ACTIVE 0 else s1))

/-- TEST_WINDOW_ACTIVE (R363): no round is in flight, and the window opens. -/
def execTestWindowActive (q : Fin 4) (s : State) : Out := s.gate fun s =>
  if s.flag (pgKpr q) F.kpr_WIN_CTRL_TEST_WIN ∧ s.ses.rounds.isEmpty then .next (s.setFld (pgKpr q) F.kpr_WIN_CTRL_ACTIVE 1) else .next s

/-- The next state of an outcome, or the state given. -/
def Out.after (o : Out) (s : State) : State := match o with | .next t => t | _ => s

/-- A word of a stack's command window (R125); none where the layout gives the offset no contents. [DESIGN CHOICE: log entry 97] -/
def State.windowRead (s : State) (st off : Nat) : Option W32 :=
  if off < 0x100000 then some (BitVec.ofNat 32 (leNat (SMap.getList s.bkt.query 0#8 (st * 256 * 4096 + off) 4)))
  else if off < 0x104000 then
    (if off % 0x40 = 0x3C then some 0#32 else some (BitVec.ofNat 32 (leNat (SMap.getList s.bkt.record 0#8 (st * 256 * 64 + (off - 0x100000)) 4))))
  else if off < 0x104100 then some (BitVec.ofNat 32 (SMap.get s.bkt.tail 0 (pcIx st ((off - 0x104000) / 4))))
  else if off < 0x104200 then some (BitVec.ofNat 32 (SMap.get s.bkt.head 0 (pcIx st ((off - 0x104100) / 4))))
  else if off = 0x104200 then some 0#32
  else if 0x110000 ≤ off ∧ off < 0x210000 then some (BitVec.ofNat 32 (leNat (SMap.getList s.bkt.ring 0#8 (st * 64 * 16384 + (off - 0x110000)) 4)))
  else if 0x300000 ≤ off ∧ off < 0x504000 then some (s.slotWord st ((off - 0x300000) / 0x2040) ((off - 0x300000) % 0x2040 / 4))
  else none

/-- A write of a word of a stack's command window (R125 to R129, R146). -/
def State.windowWrite (s : State) (st : Fin 20) (off : Nat) (v : W32) : State :=
  let b := leBytes 4 v.toNat
  if off < 0x100000 then
    (let t : Nat := off / 4096
     let s1 := { s with bkt := { s.bkt with query := SMap.setList s.bkt.query 0#8 (st.val * 256 * 4096 + off) b } }
     if (s.tagAt st t).life = .opened then s1.setTag st t { s1.tagAt st t with tainted := true } else s1)
  else if off < 0x104000 then
    (let t : Fin 256 := ⟨(off - 0x100000) / 64 % 256, Nat.mod_lt _ (by decide)⟩
     if off % 0x40 = 0x3C then (execTagOpen st t [] [] v s).after s
     else
       let s1 := { s with bkt := { s.bkt with record := SMap.setList s.bkt.record 0#8 (st.val * 256 * 64 + (off - 0x100000)) b } }
       if (s.tagAt st t).life = .opened then s1.setTag st t { s1.tagAt st t with tainted := true } else s1)
  else if off < 0x104100 then (execRunRingPublish st ⟨(off - 0x104000) / 4 % 64, Nat.mod_lt _ (by decide)⟩ [] v s).after s
  else if off = 0x104200 then (execTagRelease st ⟨v.toNat % 256, Nat.mod_lt _ (by decide)⟩ s).after s
  else if 0x110000 ≤ off ∧ off < 0x210000 then
    { s with bkt := { s.bkt with ring := SMap.setList s.bkt.ring 0#8 (st.val * 64 * 16384 + (off - 0x110000)) b } }
  else s

/-- A read of WIN_DATA (R125, R363): the window word at OFFSET, which grows by 4; zero while ACTIVE is 0. -/
def State.winWord (s : State) (q : Nat) : W32 × State :=
  let pg := pgKpr q
  let st := s.fld pg F.kpr_WIN_CTRL_STACK
  let r : W32 × State :=
    if s.winActive q && decide (st < 20) then
      match s.windowRead st (s.fld pg F.kpr_WIN_ADDR_OFFSET / 4 * 4) with
      | some w => (w, s)
      | none => let d := s.draw; (BitVec.ofNat 32 d.1, d.2)
    else (0#32, s)
  (r.1, r.2.setFld pg F.kpr_WIN_ADDR_OFFSET ((s.fld pg F.kpr_WIN_ADDR_OFFSET + 4) % 2 ^ 24))

/-- WIN_DATA (R125, R363): a read (no value) or a write of WIN_DATA reads or writes the window word at OFFSET, which grows by 4. While ACTIVE
is 0 a write is dropped and a read returns zero. -/
def execWinData (q : Fin 4) (value : Option W32) (s : State) : Out :=
  let pg := pgKpr q
  .next (s.regWrite pg 0x088 (fun s =>
    let off := s.fld pg F.kpr_WIN_ADDR_OFFSET / 4 * 4
    let st := s.fld pg F.kpr_WIN_CTRL_STACK
    match value with
    | some v =>
      let s1 := if s.winActive q && decide (st < 20) then s.windowWrite ⟨st % 20, Nat.mod_lt _ (by decide)⟩ off v else s
      s1.setFld pg F.kpr_WIN_ADDR_OFFSET ((s.fld pg F.kpr_WIN_ADDR_OFFSET + 4) % 2 ^ 24)
    | none =>
      let r := s.winWord q
      r.2.emit (.regData 0 (leBytes 4 r.1.toNat))))

/-- TAG_CPL_POP (R363): the oldest queued completion is removed. -/
def execTagCplPop (q : Fin 4) (s : State) : Out :=
  .next (s.regWrite (pgKpr q) 0x09C (fun s => s.setKeeper q { s.keeper q with cpl := (s.keeper q).cpl.drop 1 }))

/-- SESSION_QUERY (R325): a write of SES.QUERY_HANDLE copies the session's record into QUERY0 to QUERY3. -/
def execSessionQuery (q : Fin 4) (handle : W32) (s : State) : Out :=
  let pg := pgSes q
  .next (s.regWrite pg 0x064 (fun s =>
    let x := s.sesOf handle.toNat
    let s1 := s.setReg pg 0 0x064 handle
    if x.owner = q.val ∧ x.st ≠ .gone then
      let w0 := x.st.code + 2 ^ 4 * b2n x.suspended + 2 ^ 5 * b2n x.lead + 2 ^ 6 * b2n x.share + 2 ^ 7 + 2 ^ 8 * x.model
        + 2 ^ 16 * x.adapter.getD 0 + 2 ^ 28 * b2n x.adapter.isSome
      let pages := x.runs.foldl (fun a e => a + e.2.length) 0
      let ver := ((x.headReq).map (fun r => r.ver)).getD 0
      (((s1.setReg pg 0 0x068 (BitVec.ofNat 32 w0)).setReg pg 0 0x06C (BitVec.ofNat 32 x.hist.length)).setReg pg 0 0x070
        (BitVec.ofNat 32 (min x.reqs.length 127 + 65536 * ver))).setReg pg 0 0x074 (BitVec.ofNat 32 pages)
    else [0x068, 0x06C, 0x070, 0x074].foldl (fun s o => s.setReg pg 0 o 0#32) s1))

end Sys2Proof.Machine
end

