-- ==== Sys2Proof/Machine/Remote.lean ====
section
/-! DEFINITION. Glith data frames at a receiving port: requests at their destination (R447), replies at their source (R446,
R448), messages (R435, R478), and the timers and resets of a port (R428, R431, R433, R446). -/
namespace Sys2Proof.Machine
open Sys2Proof

/-! ## Taking a data frame -/

/-- Is a frame type one of R435? -/
def frmType (t : Nat) : Bool := (1 ≤ t && t ≤ 7) || t == 0x10 || t == 0x11

/-- A READY port takes a data frame (R440): one for another device waits to be forwarded (R443), one with a reserved TYPE
or a PLEN above 16 is a FORMAT violation whose content is discarded (R449), and one of type `typ` for this device is
consumed by `k`. A sound frame of another type is not this event. -/
def State.dataFrame (s : State) (p : Nat) (bs : List Byte) (typ : Nat) (k : Frm → State → State) : State :=
  let t := leAt bs 0 1
  if s.portState p ≠ pReady ∨ (frmCrcOk bs && frmType t && t != typ) then s
  else
    let r := s.takeData p bs
    let s1 := match r.1 with
      | none => r.2
      | some f =>
        if !(frmType f.typ) || frmPlen bs > 16 then (r.2.giveBack p f).linkViolation p 5 f.seq
        else if f.dst ≠ s.devId then
          r.2.setPort p { r.2.port p with rxq := (r.2.port p).rxq ++ [f] }
        else k f (r.2.giveBack p f)
    s1.maybeOff p

/-! ## Requests at their destination -/

/-- Is a request MALFORMED (R447): a non-zero reserved or unused field, a reserved adder code, a PLEN outside R435, an
operand breaking R97, or ADDR[63:48] non-zero? [DEDUCED: log entry 105] -/
def reqMalformed (bs : List Byte) (f : Frm) : Bool :=
  let pl := f.plen
  frmReserved bs || f.func > 64 || f.status != 0 || f.addr ≥ 2 ^ 48
    || (match f.typ with
        | 1 => pl < 1 || pl > 16 || f.op != 0 || f.arg != 0
        | 2 => pl != 0 || f.op != 0 || f.arg < 1 || f.arg > 512
        | 3 => pl < 1 || pl > 8 || f.op > 0x0B || f.arg != 0 || !(adderOk f.op (f.addr % 256) f.payload)
        | 4 => pl != 1 || f.op < 0x0C || f.op > 0x11 || f.arg != 0
            || !(adderOk f.op (f.addr % 256) (List.replicate (adderSize f.op * (if f.op = 0x0E || f.op = 0x0F then 2 else 1)) 0#8))
        | _ => pl != 1 || f.op != 0 || f.arg != 0)

/-- Does a VALID remote window that allows a request type hold an object index (WIN_k)? -/
def State.windowAllows (s : State) (typ o : Nat) : Bool :=
  (List.range 16).any (fun k =>
    let w0 := (s.reg (pgGll 0) 0 (0x140 + 8 * k)).toNat
    let w1 := (s.reg (pgGll 0) 0 (0x144 + 8 * k)).toNat
    bitOf w1 0 && bitOf w1 typ && decide (w0 % 65536 ≤ o) && decide (o ≤ w0 / 65536))

/-- The first address of a range at which an access through the PF space faults (R74). -/
def State.firstFault (s : State) (a n : Nat) (write : Bool) : Option Nat :=
  ((dvaSpans a n).find? (fun sp => s.addrFault 0 sp.1 write)).map (fun sp => sp.1)

/-- The lowest link pump in service: it applies requests of peers. [DEDUCED: log entry 105] -/
def State.linkPump (s : State) : Nat := ((List.range 4).find? (fun i => !(s.pmp.retired.contains (9 * 8 + i)))).getD 0

/-- Apply a request to memory when every check has passed: the status, reply bytes and state. A destination tile that
cannot be placed has no status in R447: it is a free one. A request that does not end OK changes no memory. [DEDUCED: log entry 105] -/
def State.applyRequest (s : State) (f : Frm) : Nat × List Byte × State :=
  let ctx : DCtx := { page := 9, pump := s.linkPump, queue := none, bytes := [], d := descOf [] }
  let space := fun (_ : Unit) => let r := s.draw; (r.1 % 256, ([] : List Byte), r.2)
  match f.typ with
  | 1 =>
    match s.writeDva 0 0 f.addr (piecesOf f.addr f.payload) with
    | (.done, t) => (0, [], t.countBytes ctx f.payload.length)
    | _ => space ()
  | 2 =>
    let r := s.readDva 0 0 (dvaSpans f.addr f.arg)
    (if poisonIn r.1 then 4 else 0, bytesOf r.1, r.2.2)
  | 3 =>
    let r := s.adderAt 0 0 f.op f.addr f.payload
    if r.2.1 then (4, [], s)
    else match r.2.2.1 with
      | .done => (0, [], (r.2.2.2.countAdd 0 f.addr).countBytes ctx f.payload.length)
      | _ => space ()
  | _ =>
    let n := adderSize f.op
    let data := if f.op = 0x0E ∨ f.op = 0x0F then slice f.payload 8 n ++ slice f.payload 0 n else slice f.payload 0 n
    let r := s.adderAt 0 0 f.op f.addr data
    if r.2.1 then (4, leBytes 8 (leNat r.1), s)
    else match r.2.2.1 with
      | .done => (0, leBytes 8 (leNat r.1), (r.2.2.2.countAdd 0 f.addr).countBytes ctx n)
      | _ => space ()

/-- Answer a request: the first status of R447 that applies, or what applying it gives. -/
def State.answer (s : State) (bs : List Byte) (f : Frm) : State :=
  let typ := if f.typ = 2 ∨ f.typ = 4 then 5 else 6
  let n := if f.typ = 2 then f.arg else if f.typ = 4 then adderSize f.op else f.payload.length
  if reqMalformed bs f then s.reply f typ 3 []
  else if !(s.windowAllows f.typ (f.addr / 2 ^ 32)) then s.reply f typ 2 []
  else match s.firstFault f.addr n (f.typ != 2) with
    | some a => (s.recordAddr 0 (pgPmp 9) a).reply f typ 1 []
    | none =>
      let r := s.applyRequest f
      let pay := r.2.2.padUnits r.2.1
      pay.2.reply f typ r.1 pay.1

/-- WRITE (R447): checked, applied as a COPY, and answered with ACKR. -/
def execWrite (p : Fin 12) (frame : List Byte) (s : State) : Out := s.gate fun s =>
  .next (s.dataFrame p frame 1 (fun f s => s.answer frame f))

/-- READ (R447): checked and answered with RDATA. -/
def execRead (p : Fin 12) (frame : List Byte) (s : State) : Out := s.gate fun s =>
  .next (s.dataFrame p frame 2 (fun f s => s.answer frame f))

/-- REDUCE (R96 to R99, R447): checked, applied in the memory-side adders, and answered with ACKR. -/
def execReduce (p : Fin 12) (frame : List Byte) (s : State) : Out := s.gate fun s =>
  .next (s.dataFrame p frame 3 (fun f s => s.answer frame f))

/-- ATOMIC (R96 to R99, R447): checked and applied; RDATA returns the old value. -/
def execAtomic (p : Fin 12) (frame : List Byte) (s : State) : Out := s.gate fun s =>
  .next (s.dataFrame p frame 4 (fun f s => s.answer frame f))

/-! ## Replies at their source -/

/-- Record a failure of a descriptor in flight: of the peer errors the lowest address in the peer space stands; a failure of
another kind that came first stays. [DEDUCED: log entry 106] -/
def Flying.fail (f : Flying) (st reply a : Nat) : Flying :=
  match f.bad with
  | none => { f with bad := some (st, reply, a) }
  | some (8, r, b) => if st = 8 ∧ a < b then { f with bad := some (8, reply, a) } else { f with bad := some (8, r, b) }
  | some _ => f

/-- The descriptor in flight and the request that a TID names, if the reply's type fits the request's (R445). -/
def State.outstanding (s : State) (tid typ : Nat) : Option (Flying × PeerReq) :=
  s.pmp.flying.findSome? (fun f =>
    (f.reqs.find? (fun r => r.tid == tid && (typ == 0 || (if r.typ = 2 ∨ r.typ = 4 then 5 else 6) == typ))).map (fun r => (f, r)))

/-- A request's reply has come, or its time has run out (R446): its data goes where the descriptor sends it, its failure is
kept, and the descriptor ends once no request is outstanding. [DEDUCED: log entry 106] -/
def State.takeReply (s : State) (f : Flying) (r : PeerReq) (status : Nat) (payload : List Byte) : State :=
  let d := descOf f.desc
  let g := { f with reqs := f.reqs.filter (fun x => x.tid != r.tid) }
  let peer := r.dev * 2 ^ 48 + r.addr
  if status ≠ 0 ∧ status ≠ 4 then s.settleFlying (g.fail 8 status peer)
  else
    let bad := status == 4
    let g1 := if bad && !g.poison then { g with poison := true, old := peer } else g
    if r.typ = 2 then
      let w := s.spaceWrite f.ctx d.dspace (d.dst + r.off) [(slice payload 0 r.len, bad)]
      match w.1 with
      | some (st, a) => w.2.settleFlying (g1.fail st 0 a)
      | none => w.2.settleFlying g1
    else if r.typ = 4 && !bad then s.settleFlying { g1 with old := leAt payload 0 8 }
    else s.settleFlying g1

/-- A reply at its source (R446, R448): one that comes after its request's time is discarded and counted, one that matches
no request is a TID violation. A round whose request ended other than OK is abandoned (R478). -/
def State.replyFrame (s : State) (p : Nat) (f : Frm) : State :=
  match s.outstanding f.tid f.typ with
  | some (g, r) => (s.takeReply g r f.status f.payload).remoteFailures
  | none =>
    if s.pmp.late.contains f.tid then
      { s with pmp := { s.pmp with late := s.pmp.late.erase f.tid } }.bump (pgGll 0) F.gll_LATE_REPLY_VALUE 1
    else s.linkViolation p 7 f.seq

/-- RDATA (R446): completes its request at the source pump. -/
def execRdata (p : Fin 12) (frame : List Byte) (s : State) : Out := s.gate fun s =>
  .next (s.dataFrame p frame 5 (fun f s => s.replyFrame p f))

/-- ACKR (R446): completes its request at the source pump. -/
def execAckr (p : Fin 12) (frame : List Byte) (s : State) : Out := s.gate fun s =>
  .next (s.dataFrame p frame 6 (fun f s => s.replyFrame p f))

/-- REQUEST_TIMEOUT (R446): a request has had no reply within REQ_TIMEOUT; its reply status is TIMEOUT. -/
def execRequestTimeout (tid : W16) (s : State) : Out := s.gate fun s =>
  match s.outstanding tid.toNat 0 with
  | none => .next s
  | some (f, r) =>
    let s1 := { s with pmp := { s.pmp with late := s.pmp.late ++ [tid.toNat] } }.raise (pgGll 0) 9
    .next (s1.takeReply f r 6 []).remoteFailures

/-! ## Messages -/

/-- MSG (R435, R447, R478): 16 bytes for the keeper's mailbox; an ABANDON gives up the round in flight of its model. [DEDUCED: log entry 107] -/
def execMsg (p : Fin 12) (frame : List Byte) (s : State) : Out := s.gate fun s =>
  .next (s.dataFrame p frame 7 (fun f s =>
    if reqMalformed frame f then s.bump (pgGll 0) F.gll_UNREACH_VALUE 1
    else
      let s1 := s.post s.sealer (slice f.payload 0 16)
      if leAt f.payload 0 1 = 1 then
        match s1.ses.rounds.find? (fun r => r.model == leAt f.payload 1 1) with
        | some r => s1.abandonRemote r.num
        | none => s1
      else s1))

/-! ## A port's training timer and reset -/

/-- Retire a Glith port (R63, R431, R472, R488): OFFLINE, its bit of RETIRED1, its log record and cause RETIRE. -/
def State.retirePort (s : State) (p : Nat) : State :=
  (((s.setPortState p pOffline).setPort p {}).setFld pgRas ⟨0x048, p, p, .RO, 0⟩ 1).retireLog 9 p

/-- TRAINING_TIMEOUT (R428, R431): training has not completed within 150 ms; the attempt is counted and retried from order 1.
The fourth in succession in a retrain takes the port to FAULT, and the keeper retires it. -/
def execTrainingTimeout (p : Fin 12) (s : State) : Out := s.gate fun s =>
  let st := s.portState p
  if !(st = pInit ∨ st = pRetraining) then .next s
  else
    let x := s.port p
    let s1 := (s.bump (pgGll p) F.gll_TRAIN_FAILS_COUNT 1).setPort p { x with fails := x.fails + 1, trained := false }
    if st = pRetraining ∧ x.fails + 1 ≥ 4 then
      .next (((s1.setPortState p pFault).raise (pgGll p) 4).retirePort p)
    else .next (s1.emit (.link p 1 []))

/-- A reset is noted (R479, R488): LAST_RESET, and an error-log record of its scope. Scopes: 1 engine, 2 link port, 3 tenant,
4 quadrant, 5 warm, 6 cold; causes: 0 pin, 1 command, 2 PF FLR, 3 keeper, 4 retirement. -/
def State.noteReset (s : State) (scope cause quad : Nat) : State :=
  (s.setReg pgRas 0 0x054 (BitVec.ofNat 32 (scope + 8 * cause + 128 * quad))).logErr 0xB pgRas scope 0 0

/-- LINK_PORT_RESET (R432, R433): a write of CTRL.RESET discards the port's replay buffer, frames not forwarded, credits and
sequence state, and the port goes OFF. [DEDUCED: log entry 107] -/
def execLinkPortReset (p : Fin 12) (s : State) : Out := s.gate fun s =>
  if s.portState p = pOffline then .next s
  else
    let s1 := (((s.setPort p {}).setPortState p pOff).setReg (pgGll p) 0 0x044 0#32).setReg (pgGll p) 0 0x050 0#32
    let s2 := (s1.setFld (pgGll p) F.gll_PORT_CMD_RETRAIN 0)
    .next (((List.range 8).foldl (fun s v => s.setFldB (pgGll p) v F.gll_VL_CREDIT_TX_CREDIT 0) s2).noteReset 2 1 0)

end Sys2Proof.Machine
end

