-- ==== Sys2Proof/Machine/Restore.lean ====
section
/-! DEFINITION. What a failure leaves of the stacks' contents: lost key/value pages (R466, R469), tiles whose copies are
destroyed (R455), tiles that lose their lines (R108, R476). -/
namespace Sys2Proof.Machine
open Sys2Proof

/-! ## Key/value pages -/

/-- Give a page another place, for every session and prefix node that names it. -/
def State.renamePage (s : State) (old new : KvPage) : State :=
  let f := fun (p : KvPage) => if p.pair = old.pair ∧ p.slot = old.slot then { p with pair := new.pair, slot := new.slot } else p
  let g := fun (m : SMap (List KvPage)) => m.map (fun e => (e.1, e.2.map f))
  { s with sess := s.sess.map (fun e => (e.1, { e.2 with runs := g e.2.runs }))
           ses := { s.ses with nodes := s.ses.nodes.map (fun e => (e.1, { e.2 with pages := g e.2.pages })) } }

/-- The pages on the bank pairs that `bad` names are lost (R466): sessions note what is to be rebuilt, draft sessions are made
anew, and prefix nodes without references are freed (R469). [DEDUCED: log entry 110] -/
def State.losePairs (s : State) (bad : Nat → Bool) : State :=
  let one := fun (s : State) (h : Nat) =>
    let l := s.lostPages h (fun p n => bad p.pair && decide (n > 0))
    if l.isEmpty then s
    else if h ≥ 2 ^ 32 then (let y := s.sesOf h; (s.freePages h).setSes h { model := y.model, owner := y.owner })
    else s.noteLost h l
  let s1 := (s.sess.map (fun e => e.1)).foldl one s
  let dead := s1.ses.nodes.filter (fun e => e.2.refs == 0 && e.2.pages.any (fun r => r.2.any (fun p => bad p.pair)))
  dead.foldl (fun s e =>
    let s2 := e.2.pages.foldl (fun s r => r.2.foldl (fun s p => s.useSlots p.pair p.slot 1 false) s) s
    { s2 with ses := { s2.ses with nodes := SMap.del s2.ses.nodes e.1 } }) s1

/-- Does a page lie on one of a channel's bank pairs? -/
def onChannel (st ch pair : Nat) : Bool := pair / 32 == st * 32 + ch

/-- Are key/value pages left on a channel's bank pairs (R111)? -/
def State.pagesOn (s : State) (p : Nat → Bool) : Bool :=
  let has := fun (m : SMap (List KvPage)) => m.any (fun r => r.2.any (fun g => p g.pair))
  s.sess.any (fun e => has e.2.runs) || s.ses.nodes.any (fun e => has e.2.pages)

/-! ## Destroyed tiles -/

/-- The tier manager asks for a tile's golden bytes (R455, R482): of a host source it reads the tile's bytes; the read of a peer
source, or of expanded data that the tile is compressed from, is shown as a note with the address. -/
def State.askGolden (s : State) (k : Nat) : State :=
  let x := s.objOfTile k
  if x.gold = 1 ∧ x.comp = 0 then s.emit (.hostRead (k / 2 ^ 32) (BitVec.ofNat 64 (x.golden.toNat + 65536 * (k % 65536))) 65536)
  else s.emit (.note 1 (leBytes 8 x.golden.toNat ++ leBytes 4 (k % 65536)))

/-- No tile of an object waits for its golden bytes any more: what stays destroyed is recorded once (R455). -/
def State.settleRestore (s : State) (ok : Nat) : State :=
  if s.mem.restoring.any (fun k => k / 65536 == ok) then s
  else match s.mem.unrest.filter (fun k => k / 65536 == ok) with
    | [] => s
    | k :: ks =>
      let t := ks.foldl min k
      { s with mem := { s.mem with unrest := s.mem.unrest.filter (fun k => k / 65536 != ok) } }.logErr 6
        (pgTir (SMap.get s.mem.objs {} ok).home) 2 (ok % 65536 * 2 ^ 32 + t % 65536 * 65536) (ok / 65536)

/-- The only current copy of a tile is destroyed: a current sump copy takes its place, its golden bytes are asked for, or it
stays destroyed (R455). -/
def State.tileLost (s : State) (k : Nat) : State :=
  let r := s.tileAt k
  if r.sump.isSome && !r.dirty then s.setTile k { r with stack := none, well := none }
  else
    let s1 := match r.sump with
      | some u => { s with mem := { s.mem with
          sumpUse := SMap.set s.mem.sumpUse 0 u 0
          sump := SMap.keep s.mem.sump (fun b => !(b / 65536 == u))
          sumpBad := SMap.keep s.mem.sumpBad (fun b => !(b / 2048 == u)) } }
      | none => s
    let s2 := s1.setTile k { lost := true }
    if (s.objOfTile k).gold ≠ 0 then
      { s2 with mem := { s2.mem with restoring := s2.mem.restoring.filter (· != k) ++ [k] } }.askGolden k
    else { s2 with mem := { s2.mem with unrest := s2.mem.unrest.filter (· != k) ++ [k] } }

/-- Record the objects of which destroyed tiles have nothing to wait for. -/
def State.settleRestores (s : State) : State :=
  ((s.mem.unrest.map (fun k => k / 65536)).eraseDups).foldl State.settleRestore s

/-- Move the current sump copies of tiles up again, as far as there is room (R455). [DEDUCED: log entry 47] -/
def State.liftTiles (s : State) (ks : List Nat) : State :=
  ks.foldl (fun s k => if (s.tileAt k).stack.isNone && (s.tileAt k).well.isNone && (s.tileAt k).sump.isSome then s.moveToStack k else s) s

/-! ## Copying a tile's place -/

/-- Copy one column to another, poison included. -/
def State.copyCol (s : State) (a b : Nat) : State :=
  let r := s.readCol a
  r.2.setCol b (if r.1.poison then poisonCol (encodeCol r.1.data) else encodeCol r.1.data)

/-- Copy the bytes of a stack place to another. -/
def State.copyLoc (s : State) (va : Nat → Nat) (a : StackLoc) (vb : Nat → Nat) (b : StackLoc) : State :=
  (List.range 2048).foldl (fun s c =>
    let x := s.tileCol va a (32 * c)
    let y := x.2.tileCol vb b (32 * c)
    match x.1, y.1 with
    | some i, some j => y.2.copyCol i j
    | _, _ => y.2) s

/-- Move a tile's stack place to a free one (R51, R108); when there is none, it leaves the stack as an eviction does, or stays. [DESIGN CHOICE: log entry 46] -/
def State.relocate (s : State) (k : Nat) : State :=
  let o := s.objOfTile k
  let r := s.tileAt k
  match r.stack with
  | none => s
  | some a =>
    match s.freeLoc o with
    | some b => (((s.useLoc b o.slotVer true).copyLoc o.ver a o.ver b).useLoc a o.slotVer false).setTile k { r with stack := some b }
    | none => if r.well.isSome then s else (s.leaveStack k).getD s

/-- Does a stack place lie in a line that `p` names by quadrant and number? -/
def StackLoc.inLine (p : Nat → Nat → Bool) : StackLoc → Bool
  | .spread q l _ => p q l
  | .full l _ => (List.range 4).any (fun q => p q l)
  | .banked _ _ _ _ => false

/-- Move the settled state of a session out of lines that `p` names (R108). -/
def State.relocateKept (s : State) (h : Nat) (p : Nat → Nat → Bool) : State :=
  let n := (s.sesOf h).spread.length
  (List.range n).foldl (fun s i =>
    let x := s.sesOf h
    match x.spread[i]? with
    | none => s
    | some a =>
      if !(a.inLine p) then s
      else match a with
        | .spread q _ _ =>
          match s.freeSpread q (x.ver / 4 ^ q % 4) with
          | none => s
          | some (l, pos) =>
            let b := StackLoc.spread q l pos
            let v := fun q => x.ver / 4 ^ q % 4
            let s1 := ((s.useLoc b x.ver true).copyLoc v a v b).useLoc a x.ver false
            s1.setSes h { s1.sesOf h with spread := (s1.sesOf h).spread.set i b }
        | _ => s) s

end Sys2Proof.Machine
end

