-- ==== Sys2Proof/Machine/Bringup.lean ====
section
/-! DEFINITION. The end of a boot: the profile is applied (R30, R82, R387), the program stores are loaded (R241), a quadrant leaves
reset, and the TOP page becomes READY (R493). -/
namespace Sys2Proof.Machine
open Sys2Proof

/-- The pages of a quadrant but for those of its stacks and engines. -/
def quadPages (q : Nat) : List Page :=
  [pgKpr q, pgSes q, pgWel q, pgTir q, pgPmp (2 * q), pgPmp (2 * q + 1), pgCmp q, pgQdr q, pgCisQ q]
/-- The pages of a compute die's engines. -/
def engPages (q : Nat) : List Page := (List.range 8).flatMap (fun e => [pgMxe (8 * q + e), pgVxe (8 * q + e)])
/-- The pages of the IOD but for the link ports. -/
def iodPages : List Page :=
  [pgDir, pgTop, pgPci, ⟨.pci, 1⟩, pgSec, pgPwr, pgPkg, pgTel, pgRas, pgQdr 4, pgPmp 8, pgPmp 9, ⟨.glr, 0⟩, ⟨.glr, 1⟩, ⟨.glr, 2⟩, ⟨.glr, 3⟩]
    ++ (List.range 12).map (fun p => pgQdr (16 + p))

/-- Pages become READY, but those that are OFFLINE. -/
def State.readyPages (s : State) (l : List Page) : State :=
  l.foldl (fun s pg => if s.fld pg F.hdr_STATE = 5 then s else s.setFld pg F.hdr_STATE 2) s

/-- The scheduler sets (R387): the quantum of ensemble queues at the tier-pump arbiters, the PCIe egress and the Glith ports, the
floor shaper's GB/s and burst at the tier-pump arbiters, and whether ensemble and floor queues are sampled. -/
def schedSet : Profile → Nat × Nat × Nat × Nat × Nat × Bool
  | .state => (16384, 8192, 4096, 200, 1048576, true)
  | .sprint => (65536, 16384, 4096, 50, 262144, false)
  | .balance => (32768, 8192, 4096, 100, 524288, true)
  | .fabric => (16384, 4096, 16384, 100, 524288, true)

/-- A scheduler takes its settings of the profile's set (R387): its queues are empty and unshaped but for the floor queue of a
tier-pump arbiter, and it has no gate list. -/
def State.loadScheduler (s : State) (i : Nat) : State :=
  let (t, p, g, rate, burst, all) := schedSet s.profile
  let quantum := if i < 4 then t else if i = 4 then p else g
  let s1 := (List.range 64).foldl (fun s q => s.setReg (pgQdr i) q 0x044 (BitVec.ofNat 32 (quantum + 2 ^ 21 + 2 ^ 22 * 0x100))) s
  let mask : W32 := if all then 0xFFFFFFFF#32 else 0#32
  let s2 := ((s1.setReg (pgQdr i) 0 0x06C mask).setReg (pgQdr i) 0 0x070 mask).setFld (pgQdr i) F.qdr_GL_CTRL_SAMPLE_LEAD (if all then 7 else 3)
  if i < 4 then
    (((s2.setFldB (pgQdr i) qFloor F.qdr_Q_CFG_SHAPE_EN 1).setFldB (pgQdr i) qFloor F.qdr_Q_RATE_VALUE (rate * 65536)).setFldB (pgQdr i) qFloor
      F.qdr_Q_BURST_VALUE burst).setQueue i qFloor { credit := ((burst * 65536 : Nat) : Int) }
  else s2

/-- Engine power limit per compute die, in W (R30). -/
def engineWatts : Profile → Nat
  | .state => 200 | .sprint => 240 | .balance => 230 | .fabric => 240
/-- Bucket units active per stack, at most (R30). -/
def unitBudget : Profile → Nat
  | .fabric => 384 | _ => 512
/-- Tenant functions available (R30). -/
def tenantCount : Profile → Nat
  | .state => 64 | .sprint => 8 | .balance => 64 | .fabric => 16

/-- What a quadrant takes from the profile (R30): its bucket units' budget and its tier-pump arbiter. -/
def State.profileQuad (s : State) (q : Nat) : State :=
  ((List.range 5).foldl (fun s k => s.setFld (pgBkt (5 * q + k)) F.bkt_BUDGET_GRANTS (unitBudget s.profile)) s).loadScheduler q

/-- Well slices in scratchpad at the start: under P1 the lowest 48 of each die (R30, R161). -/
def State.profileSlices (s : State) : State :=
  (List.range 4).foldl (fun s q =>
    if s.profile = .sprint then (s.setReg (pgWel q) 0 0x040 0xFFFFFFFF#32).setReg (pgWel q) 0 0x044 0x0000FFFF#32
    else (s.setReg (pgWel q) 0 0x040 0#32).setReg (pgWel q) 0 0x044 0#32) s

/-- The keepers apply the profile (R30, R387). -/
def State.applyProfile (s : State) : State :=
  let s1 := (List.range 4).foldl (fun s q => (s.profileQuad q).setFldB pgPwr q F.pwr_DIE_LIMIT_WATTS (engineWatts s.profile)) s
  (4 :: (List.range 12).map (· + 16)).foldl State.loadScheduler (s1.setFld pgTel F.tel_WINDOW_WINDOW_US 100)

/-- The keeper loads the program stores of a die with the firmware's programs (R241), whose words the spec does not give: each is a
free value. [DESIGN CHOICE: log entry 83] -/
def State.loadStores (s : State) (q : Nat) : State :=
  (List.range 8).foldl (fun s i =>
    let e := 8 * q + i
    { s.setEng e { s.eng e with prog := [], fw := some s.free } with free := s.free + 16384 }) s

/-- R480: journal copies that were written elsewhere while a quadrant was in reset go back. -/
def State.copiesBack (s : State) : State :=
  s.setJournal (s.ses.journal.map (fun r => if r.copies.length = 2 then { r with copies := s.journalQuads (s.sesOf r.ses).owner } else r))

/-- A stack whose bring-up or return from reset is done: its page is READY, or OFFLINE. -/
def State.stackUp (s : State) (st : Nat) : Bool := s.fld (pgCis st) F.hdr_STATE == 2 || s.fld (pgCis st) F.hdr_STATE == 5

/-- Once every stack of a quadrant in reset is up, the quadrant's reset ends (R479). -/
def State.quadReady (s : State) (q : Nat) : State :=
  if s.quadInReset q && (List.range 5).all (fun k => s.stackUp (5 * q + k)) then
    let s1 := ((s.readyPages (quadPages q ++ engPages q)).profileQuad q).loadStores q
    let s2 := if (List.range 4).any s1.quadInReset then s1 else s1.setFld pgRas F.ras_RESET_CMD_QUAD 0
    s2.copiesBack
  else s

/-- Once every stack is up, order 8 of R493 ends: the other pages become READY, and at order 9 the TOP page. [DESIGN CHOICE: log entry 6] -/
def State.bootReady (s : State) : State :=
  if s.boot.running then
    if (List.range 20).all s.stackUp then
      let s1 := (List.range 4).foldl (fun s q => (s.readyPages (quadPages q ++ engPages q)).loadStores q) s
      let s2 := (s1.readyPages iodPages).applyProfile
      let s3 := if s2.boot.newProfile.isSome || s2.fld pgRas F.ras_LAST_RESET_SCOPE = 6 then s2.profileSlices else s2
      let s4 := (s3.setFld pgSec F.sec_BOOT_STATUS_STAGE 9).setFld pgSec F.sec_PROFILE_SELECT_GO 0
      let s5 := { s4 with boot := { s4.boot with running := false, newProfile := none } }.copiesBack
      (List.range 64).foldl State.startRead s5
    else s
  else (List.range 4).foldl State.quadReady s

end Sys2Proof.Machine
end

