-- ==== Sys2Proof/Machine/Channels.lean ====
section
/-! DEFINITION. Column and adder commands (R86 to R99), scrubbing (R95), pacing (R100, R101), the life of a channel (R102 to R104),
map-out (R105 to R111), bring-up and repair (R112 to R114). -/
namespace Sys2Proof.Machine
open Sys2Proof

/-! ## Columns -/

/-- Does a Cistern have the granule (R75, R83)? [DESIGN CHOICE: log entry 3] -/
def granExists (g : Gran) : Bool := granWf g

/-- The stack that a granule's request goes to, before the exception table. -/
def granStack : Gran → Nat
  | .spread q p _ => 5 * q.val + p.val / 64
  | .at st _ _ _ _ => st.val

/-- A controller request `q` to a granule (R87). The controller takes it while its page serves and CTRL.ENABLE is 1 (R69); until then it waits
and nothing changes. A granule that no Cistern has is a fault. [DESIGN CHOICE: log entry 3] -/
def State.onGran (s : State) (g : Gran) (q : ColReq) : Out :=
  if granExists g then
    .next (if s.pageLive (pgCis (granStack g)) && s.flag (pgCis (granStack g)) F.hdr_ENABLE then s.request g q else s)
  else .fault .noGranule

/-- COLUMN_READ (R87, R91 to R93, R104, R106): a controller read of one column of a granule. -/
def execColumnRead (g : Gran) (col : Fin 8) (s : State) : Out := s.onGran g (.read col)

/-- COLUMN_WRITE (R86, R87, R94): a controller write within a granule. -/
def execColumnWrite (g : Gran) (off : Byte) (data : List Byte) (s : State) : Out :=
  s.onGran g (.write off.toNat (data.take (256 - off.toNat)))

/-- An adder operation within a granule (R96 to R99). -/
def State.addReq (s : State) (op : Nat) (g : Gran) (off : Byte) (data : List Byte) : Out := s.onGran g (.adder op off.toNat data)

/-- ADD_FP32 (R98). -/
def execAddFp32 (g : Gran) (off : Byte) (data : List Byte) (s : State) : Out := s.addReq 0x00 g off data
/-- ADD_BF16 (R98). -/
def execAddBf16 (g : Gran) (off : Byte) (data : List Byte) (s : State) : Out := s.addReq 0x01 g off data
/-- ADD_INT32 (R98). -/
def execAddInt32 (g : Gran) (off : Byte) (data : List Byte) (s : State) : Out := s.addReq 0x02 g off data
/-- ADD_INT64 (R98). -/
def execAddInt64 (g : Gran) (off : Byte) (data : List Byte) (s : State) : Out := s.addReq 0x03 g off data
/-- MIN_FP32 (R98). -/
def execMinFp32 (g : Gran) (off : Byte) (data : List Byte) (s : State) : Out := s.addReq 0x04 g off data
/-- MAX_FP32 (R98). -/
def execMaxFp32 (g : Gran) (off : Byte) (data : List Byte) (s : State) : Out := s.addReq 0x05 g off data
/-- MIN_BF16 (R98). -/
def execMinBf16 (g : Gran) (off : Byte) (data : List Byte) (s : State) : Out := s.addReq 0x06 g off data
/-- MAX_BF16 (R98). -/
def execMaxBf16 (g : Gran) (off : Byte) (data : List Byte) (s : State) : Out := s.addReq 0x07 g off data
/-- MIN_INT32 (R98). -/
def execMinInt32 (g : Gran) (off : Byte) (data : List Byte) (s : State) : Out := s.addReq 0x08 g off data
/-- MAX_INT32 (R98). -/
def execMaxInt32 (g : Gran) (off : Byte) (data : List Byte) (s : State) : Out := s.addReq 0x09 g off data
/-- MIN_INT64 (R98). -/
def execMinInt64 (g : Gran) (off : Byte) (data : List Byte) (s : State) : Out := s.addReq 0x0A g off data
/-- MAX_INT64 (R98). -/
def execMaxInt64 (g : Gran) (off : Byte) (data : List Byte) (s : State) : Out := s.addReq 0x0B g off data
/-- SWAP_32 (R98): the old value is returned. -/
def execSwap32 (g : Gran) (off : Byte) (data : List Byte) (s : State) : Out := s.addReq 0x0C g off data
/-- SWAP_64 (R98): the old value is returned. -/
def execSwap64 (g : Gran) (off : Byte) (data : List Byte) (s : State) : Out := s.addReq 0x0D g off data
/-- CAS_32 (R98): `data` is the compare value, then the new one; the old value is returned. -/
def execCas32 (g : Gran) (off : Byte) (data : List Byte) (s : State) : Out := s.addReq 0x0E g off data
/-- CAS_64 (R98): `data` is the compare value, then the new one; the old value is returned. -/
def execCas64 (g : Gran) (off : Byte) (data : List Byte) (s : State) : Out := s.addReq 0x0F g off data
/-- FETCH_ADD_INT32 (R98): the old value is returned. -/
def execFetchAddInt32 (g : Gran) (off : Byte) (data : List Byte) (s : State) : Out := s.addReq 0x10 g off data
/-- FETCH_ADD_INT64 (R98): the old value is returned. -/
def execFetchAddInt64 (g : Gran) (off : Byte) (data : List Byte) (s : State) : Out := s.addReq 0x11 g off data

/-- Columns of a stack. -/
def stackCols : Nat := 64 * 32 * 49152 * 32

/-- SCRUB_READ (R95): the next column of the stack's scrub pass is read. -/
def execScrubRead (st : Fin 20) (s : State) : Out := s.gate fun s =>
  let c := SMap.get s.cis.scrubAt 0 st
  let k := st * stackCols + c
  if s.fld (pgCis st) F.hdr_STATE ≠ 2 ∨ s.fld (pgCis st) F.hdr_SCRUB_EN = 0 ∨ (s.chanOf st ((placeOfKey k).pc / 2)).parked then .next s
  else
    let s1 := (s.readCol k).2
    .next { s1 with cis := { s1.cis with scrubAt := SMap.set s1.cis.scrubAt 0 st ((c + 1) % stackCols) } }

/-! ## Pacing and alerts -/

/-- Does the condition of ALERT_STATUS bit `b` hold (R523, R524)? -/
def State.alertHolds (s : State) (b : Nat) : Bool :=
  match b with
  | 0 => (List.range 20).any (fun st => decide (s.fld (pgCis st) F.cis_THERM_TEMP_C ≥ s.fld (pgCis st) F.cis_THERM_CFG_CRIT_TEMP))
  | 1 => [F.pkg_TEMP_TJ0, F.pkg_TEMP_TJ1, F.pkg_TEMP_TJ2, F.pkg_TEMP_TJ3].any (fun f => decide (s.fld pgPkg f ≥ s.fld pgPkg F.pkg_TJ_ALERT_TJ))
  | 2 => decide (s.tel.overTime ≥ 4)
  | _ => decide (10800 ≤ s.fld pgPkg F.pkg_VIN_MV ∧ s.fld pgPkg F.pkg_VIN_MV < 11400)

/-- ALERT_STATUS takes the bits whose conditions hold; a bit gained sets cause ALERT of the PKG page. -/
def State.refreshAlerts (s : State) : State :=
  let v := s.reg pgPkg 0 0x054
  let w := v ||| BitVec.ofNat 32 (sumTo 4 (fun b => if s.alertHolds b then 2 ^ b else 0))
  if w = v then s else (s.setReg pgPkg 0 0x054 w).raise pgPkg 0

/-- The level a temperature takes a stack to from its present level (R100). [DEDUCED: log entry 43] -/
def paceLevel (pace step temp : Nat) : Nat → Nat → Nat
  | 0, n => n
  | fuel + 1, n =>
    if n < 15 ∧ temp ≥ pace + n * step then paceLevel pace step temp fuel (n + 1)
    else if n > 0 ∧ temp + 2 < pace + (n - 1) * step then paceLevel pace step temp fuel (n - 1)
    else n

/-- STACK_TEMP_READ (R100, R101, R524): the base die reads its stack's temperature; THERM, the pacing level and the alert follow. -/
def execStackTempRead (st : Fin 20) (temp : Byte) (s : State) : Out := s.gate fun s =>
  let pg := pgCis st
  let t := temp.toNat
  let old := s.fld pg F.cis_THERM_LEVEL
  let n := paceLevel (s.fld pg F.cis_THERM_CFG_PACE_TEMP) (max 1 (s.fld pg F.cis_THERM_CFG_STEP_C)) t 32 old
  let s1 := ((s.setFld pg F.cis_THERM_TEMP_C t).setFld pg F.cis_THERM_MAX_C (max t (s.fld pg F.cis_THERM_MAX_C))).setFld pg F.cis_THERM_LEVEL n
  let s2 := if n = old then s1 else s1.telEvent pg (quadOf st) 3
  let s3 := if old = 0 ∧ n > 0 then s2.raise pg 5 else s2
  let s4 := if t ≥ s3.fld pg F.cis_THERM_CFG_CRIT_TEMP then s3.raise pg 6 else s3
  .next s4.refreshAlerts

/-! ## Channel states -/

/-- A channel enters a state (R102): a CH_CMD whose change is under way ends with it, RETIRED and LOST are logged, and the change is
reported in the telemetry stream. -/
def State.enterChan (s : State) (st c : Nat) (x : Chan) : State :=
  let pg := pgCis st
  let s1 := s.setChan st c x
  let settled := match x.st with | .retrainPending | .retraining | .migrating => false | _ => true
  let s2 := if settled && s1.fld pg F.cis_CH_CMD_STATUS_CHANNEL == c then s1.setFld pg F.cis_CH_CMD_STATUS_BUSY 0 else s1
  let s3 := s2.telEvent pg (quadOf st) 5
  if x.st = .retired ∨ x.st = .lost then
    s3.logErr 4 pg (c + 32 * st + 1024 * x.st.code) 0 ((s3.liveLines (quadOf st)) * 640 / 1024)
  else s3

/-- Stripe of an exception entry with a reserve base and survivor count (R105). -/
def State.stripe (s : State) (resBase surv : Nat) : Nat := ceilDiv (2 * (s.spreadGranules + min resBase 98304)) (max 1 surv)
/-- Granules of a mapped-out channel that its entry moves. -/
def State.movedAll (s : State) (resBase : Nat) : Nat := 2 * (s.spreadGranules + min resBase 98304)
/-- RESERVE_USED and RESERVE_SIZE of a quadrant. -/
def State.resUsed (s : State) (q : Nat) : Nat := SMap.get s.cis.resUsed 0 q
def State.resSize (s : State) (q : Nat) : Nat := 98304 + 8 * SMap.get s.cis.withdrawn 0 q
/-- The lowest exception entry that is free. -/
def State.freeExc (s : State) (q : Nat) : Option Nat := (List.range 16).find? (fun k => !((s.excOf q k).valid))
/-- The exception entry of a channel. -/
def State.excFor (s : State) (st c : Nat) : Option Nat :=
  (List.range 16).find? (fun k => let e := s.excOf (quadOf st) k; e.valid && e.stack == st % 5 && e.channel == c)

/-- SURVIVORS of a new entry (R105). -/
def State.survivors (s : State) (st c : Nat) : Nat :=
  let q := quadOf st
  (rangeP 320 (fun p => !(p / 64 == st % 5 && p % 64 / 2 == c)
    && (List.range 16).all (fun i => !((s.excOf q i).valid && (s.excOf q i).covers p)))).length

/-- Why a map-out is refused (R110): cause RESERVE_LOW or EXC_FULL of the quadrant page. -/
def State.mapOutRefused (s : State) (st c : Nat) : Option Nat :=
  let q := quadOf st
  if s.resUsed q + s.stripe (s.resUsed q) (s.survivors st c) > s.resSize q then some 2
  else if (s.freeExc q).isNone then some 1 else none

/-- The keeper writes an exception entry and adds its stripe to RESERVE_USED (R105). `all`: with nothing to move. -/
def State.writeExc (s : State) (st c : Nat) (lost all : Bool) : State :=
  let q := quadOf st
  match s.freeExc q with
  | none => s
  | some k =>
    let rb := s.resUsed q
    let n := s.survivors st c
    let e : ExcEntry := { valid := true, lost := lost, stack := st % 5, channel := c, survivors := n, resBase := rb
                          movedMark := if all then s.movedAll rb else 0 }
    { s with cis := { s.cis with exc := SMap.set s.cis.exc {} (16 * q + k) e
                                 resUsed := SMap.set s.cis.resUsed 0 q (rb + s.stripe rb n) } }

/-- A stack is handed over for retirement (R110, R476). [DESIGN CHOICE: log entry 45] -/
def State.handOver (s : State) (st : Nat) : State :=
  if s.cis.dead.contains st then s else { s with cis := { s.cis with dead := s.cis.dead ++ [st] } }

/-- A map-out is refused (R110): its cause is set, the last command reports it, and the stack is handed over. -/
def State.refuseMapOut (s : State) (st c cause : Nat) : State :=
  let pg := pgCis st
  let s1 := s.raise (pgCisQ (quadOf st)) cause
  let s2 := if s1.fld pg F.cis_CH_CMD_STATUS_CHANNEL = c then s1.setFld pg F.cis_CH_CMD_STATUS_RESULT 4 else s1
  s2.handOver st

/-- Lines are withdrawn for a retired channel (R108): tiles and settled state in the newly withdrawn lines move to others. [DESIGN CHOICE: log entry 46] -/
def State.withdraw (s : State) (q : Nat) : State :=
  let w := SMap.get s.cis.withdrawn 0 q + ceilDiv s.profile.spreadLines 640
  let s1 := { s with cis := { s.cis with withdrawn := SMap.set s.cis.withdrawn 0 q w } }
  let p := fun (x l : Nat) => x == q && decide (l ≥ s1.liveLines q)
  let ks := (s1.mem.tiles.filter (fun e => match e.2.stack with | some a => a.inLine p | none => false)).map (fun e => e.1)
  let s2 := ks.foldl State.relocate s1
  (s2.sess.map (fun e => e.1)).foldl (fun s h => s.relocateKept h p) s2

/-- A channel with nothing left to move is RETIRED (R108). [DESIGN CHOICE: log entry 49] -/
def State.retireChan (s : State) (st c : Nat) : State :=
  let s1 := s.withdraw (quadOf st)
  (s1.enterChan st c { st := .retired }).telEvent (pgCisQ (quadOf st)) (quadOf st) 4

/-- Fill the stripe of an exception entry with poisoned columns (R109). The part of it that lies in a channel named by a
later entry is redirected in turn, and is filled column by column. [DESIGN CHOICE: log entry 48] -/
def State.fillStripe (s : State) (q k : Nat) : State :=
  let e := s.excOf q k
  let later := (List.range 16).filter (· > k)
  let moved := fun (p : Nat) => later.any (fun i => (s.excOf q i).valid && (s.excOf q i).covers p)
  let surv := s.survivorsOf q k
  let n := s.stripe e.resBase e.survivors
  let f : Fill := ⟨q, surv.filter (fun p => !(moved p)), e.resBase, e.resBase + n, s.spreadBase + 8 * s.profile.spreadLines - 1⟩
  let s1 := { s with cis := { s.cis with
    fills := s.cis.fills ++ [f], cols := SMap.keep s.cis.cols (fun c => !(f.covers c)) } }
  (surv.filter moved).foldl (fun s p => (List.range n).foldl (fun s i =>
    let r := s.redirectFrom q later p (s.reserveL (e.resBase + i)) 0
    (List.range 8).foldl (fun (s : State) c => s.setCol ((granPlace q r.1 r.2.1).key c) (poisonCol zeroCol)) s) s) s1

/-- A channel becomes LOST (R102, R109, R111): its exception entry says LOST and all moved, its stripe is poisoned, and its key/value
pages are to be rebuilt. With no entry or reserve for it, its stack is handed over (R110). [DESIGN CHOICE: log entry 49] -/
def State.loseChan (s : State) (st c : Nat) : State :=
  let q := quadOf st
  let s0 := (s.raise (pgCis st) 4).losePairs (onChannel st c)
  let banked := (s0.mem.tiles.filter (fun e => match e.2.stack with
    | some (.banked a b _ _) => a == st && b / 2 == c
    | _ => false)).map (fun e => e.1)
  let s0' := banked.foldl (fun s k =>
    let r := s.tileAt k
    match r.stack with
    | some loc => (s.useLoc loc (s.objOfTile k).slotVer false).tileLost k
    | none => s) s0
  let s1 := ({ s0' with cis := { s0'.cis with retrainQ := s0'.cis.retrainQ.filter (· != st * 32 + c) } }).settleRestores
  let s2 := s1.enterChan st c { st := .lost }
  let s3 := match s2.excFor st c with
    | some k =>
      let e := s2.excOf q k
      { s2 with cis := { s2.cis with exc := SMap.set s2.cis.exc {} (16 * q + k) { e with lost := true, movedMark := s2.movedAll e.resBase } } }
    | none =>
      match s2.mapOutRefused st c with
      | some cause => s2.refuseMapOut st c cause
      | none => s2.writeExc st c true true
  let s4 := match s3.excFor st c with
    | some k => s3.fillStripe q k
    | none => s3
  s4.releaseHeld st c

/-! ## Commands of a channel -/

/-- A retrain request (R102): its result code, and the state. -/
def State.retrainRequest (s : State) (st c : Nat) : Nat × State :=
  let x := s.chanOf st c
  let queued := fun (s : State) => { s with cis := { s.cis with retrainQ := s.cis.retrainQ ++ [st * 32 + c] } }
  match x.st with
  | .online => (0, queued (s.enterChan st c { x with st := .retrainPending }))
  | .retrainPending | .retraining => (1, s)
  | .migrating => if x.retrainPend then (1, s) else (0, queued (s.setChan st c { x with retrainPend := true }))
  | .retired | .lost => (3, s)
  | .off | .margin => (5, s)

/-- Set CH_CMD_STATUS after a command. -/
def State.chResult (s : State) (st c : Nat) (r : Nat) : State :=
  let x := (s.chanOf st c).st
  let busy := decide (r ≤ 2) && (x == .retrainPending || x == .retraining || x == .migrating)
  s.setReg (pgCis st) 0 0x064 (BitVec.ofNat 32 (b2n busy + 2 * r + 16 * c))

/-- CH_CMD_RETRAIN (R102): a write of CH_CMD with OP RETRAIN. -/
def execChCmdRetrain (st : Fin 20) (c : Fin 32) (s : State) : Out :=
  .next (s.regWrite (pgCis st) 0x060 (fun s =>
    let r := s.retrainRequest st c
    r.2.chResult st c r.1))

/-- CH_CMD_MAP_OUT (R102, R105, R110): a write of CH_CMD with OP MAP_OUT. [DEDUCED: log entry 44] -/
def execChCmdMapOut (st : Fin 20) (c : Fin 32) (s : State) : Out :=
  .next (s.regWrite (pgCis st) 0x060 (fun s =>
    let x := s.chanOf st c
    match x.st with
    | .online =>
      match s.mapOutRefused st c with
      | some cause => (s.chResult st c 4).refuseMapOut st c cause
      | none => (s.enterChan st c { x with st := .migrating }).chResult st c 0
    | .retrainPending | .retraining => (s.setChan st c { x with mapLatched := true }).chResult st c 2
    | .retired | .lost => s.chResult st c 3
    | .migrating | .off | .margin => s.chResult st c 5))

/-- Is a stack idle with its ENABLE at 0 (R113)? [DEDUCED: log entry 41] -/
def State.stackIdle (s : State) (st : Nat) : Bool :=
  s.fld (pgCis st) F.hdr_ENABLE == 0 && !(s.cis.held.any (fun h => h.stack == st)) && !(s.cis.yield.any (fun h => h.stack == st))
    && (List.range 256).all (fun t => (s.tagAt st t).life != .opened)
    && (List.range 32).all (fun c => (s.chanOf st c).st != .retraining && (s.chanOf st c).st != .migrating)

/-- MARGIN_ENTER (R102): a channel of a quiesced stack is parked in MARGIN. -/
def execMarginEnter (st : Fin 20) (c : Fin 32) (s : State) : Out :=
  .next (s.regWrite (pgCis st) 0x060 (fun s =>
    let x := s.chanOf st c
    match x.st with
    | .online => if s.stackIdle st then (s.enterChan st c { x with st := .margin }).chResult st c 0 else s.chResult st c 5
    | .retired | .lost => s.chResult st c 3
    | _ => s.chResult st c 5))

/-- MARGIN_EXIT (R102): the channel is retrained and returns to ONLINE. -/
def execMarginExit (st : Fin 20) (c : Fin 32) (s : State) : Out :=
  .next (s.regWrite (pgCis st) 0x060 (fun s =>
    let x := s.chanOf st c
    match x.st with
    | .margin => ((s.enterChan st c { x with st := .online }).releaseHeld st c).chResult st c 0
    | .retired | .lost => s.chResult st c 3
    | _ => s.chResult st c 5))

/-- MARGIN_MEASURE: a write of MARGIN_CTRL; START measures, if the channel is in MARGIN. -/
def execMarginMeasure (st : Fin 20) (value : W32) (s : State) : Out :=
  let pg := pgCis st
  .next (s.regWrite pg 0x0A0 (fun s =>
    let v := value.toNat
    let c := v % 32
    let lane := bitsOf v 11 5
    let s1 := (s.setFld pg F.cis_MARGIN_CTRL_CHANNEL c).setFld pg F.cis_MARGIN_CTRL_LANE (min lane 65)
    if bitOf v 12 && (s.chanOf st c).st == .margin && !(s.cis.measuring.contains st.val) then
      { s1.setFld pg F.cis_MARGIN_CTRL_START 1 with cis := { s1.cis with measuring := s1.cis.measuring ++ [st.val] } }
    else s1))

/-- MARGIN_MEASURE_DONE: the measurement ends; its four edges read in MARGIN_RESULT. -/
def execMarginMeasureDone (st : Fin 20) (edges : W32) (s : State) : Out := s.gate fun s =>
  if s.cis.measuring.contains st.val then
    let s1 := (s.setFld (pgCis st) F.cis_MARGIN_CTRL_START 0).setReg (pgCis st) 0 0x0A4 edges
    .next { s1 with cis := { s1.cis with measuring := s1.cis.measuring.filter (· != st.val) } }
  else .next s

/-- RETRAIN_REQUEST (R102): the keeper asks, or, with `retries`, the base die has met interface retries on the channel: when they exceed
LINK_THRESH in this window it sets LINK_RETRY and, with AUTO_RETRAIN, asks. [DESIGN CHOICE: log entry 42] -/
def execRetrainRequest (st : Fin 20) (c : Fin 32) (retries : Option W16) (s : State) : Out := s.gate fun s =>
  match retries with
  | none => .next (s.retrainRequest st c).2
  | some n =>
    let pg := pgCis st
    let w := SMap.get s.cis.linkWin 0 (st * 32 + c) + n.toNat
    let s1 : State := { s.bump pg F.cis_LINK_RETRY_COUNT n.toNat with cis := { s.cis with linkWin := SMap.set s.cis.linkWin 0 (st * 32 + c) w } }
    if w > s1.fld pg F.cis_LINK_THRESH_RETRIES then
      let s2 := s1.raise pg 2
      .next (if s2.fld pg F.hdr_AUTO_RETRAIN = 1 then (s2.retrainRequest st c).2 else s2)
    else .next s1

/-- RETRAIN_START (R102, R103): with no round in flight, or at a round's end, the keeper starts the retrain of a stack that was asked for
first. -/
def execRetrainStart (st : Fin 20) (s : State) : Out := s.gate fun s =>
  if !(s.ses.rounds.isEmpty || s.ses.roundEnd) || (List.range 32).any (fun c => (s.chanOf st c).st == .retraining) then .next s
  else match s.cis.retrainQ.find? (fun k => k / 32 == st.val) with
    | none => .next s
    | some k =>
      let c := k % 32
      let x := s.chanOf st c
      let s1 := { s with cis := { s.cis with retrainQ := s.cis.retrainQ.filter (· != k) } }
      match x.st with
      | .retrainPending => .next (s1.enterChan st c { x with st := .retraining })
      | .migrating => .next (s1.enterChan st c { x with st := .retraining, retrainPend := false, mapLatched := true })
      | _ => .next s1

/-- A training attempt of a channel ends (R102): it passes, or fails with previous settings that pass the link check or not. -/
def State.retrainEnd (s : State) (st c : Nat) (passed linkOk : Bool) : State :=
  let x := s.chanOf st c
  if x.st ≠ .retraining then s
  else if passed then
    (s.enterChan st c { x with st := if x.mapLatched || x.moving then .migrating else .online, mapLatched := false }).releaseHeld st c
  else
    let s1 := s.raise (pgCis st) 3
    if linkOk then (s1.enterChan st c { x with st := .migrating, mapLatched := false }).releaseHeld st c
    else s1.loseChan st c

/-- RETRAIN_COMPLETE (R102, R104). -/
def execRetrainComplete (st : Fin 20) (c : Fin 32) (passed linkOk : Bool) (s : State) : Out := s.gate fun s => .next (s.retrainEnd st c passed linkOk)

/-- RETRAIN_TIMEOUT (R104): an attempt that has not passed within 40 µs has failed. -/
def execRetrainTimeout (st : Fin 20) (c : Fin 32) (linkOk : Bool) (s : State) : Out := s.gate fun s => .next (s.retrainEnd st c false linkOk)

/-! ## Map-out -/

/-- MAP_OUT_START (R105, R110): the keeper writes the exception entry of a MIGRATING channel, or refuses. [DEDUCED: log entry 44] -/
def execMapOutStart (st : Fin 20) (c : Fin 32) (s : State) : Out := s.gate fun s =>
  let x := s.chanOf st c
  if x.st ≠ .migrating ∨ x.moving then .next s
  else match s.mapOutRefused st c with
    | some cause => .next (s.refuseMapOut st c cause)
    | none => .next ((s.writeExc st c false false).setChan st c { x with moving := true })

/-- Move one key/value page to a new place chosen by R123 among the others of its head; none when there is no place. -/
def State.movePage (s : State) (idx l hd : Nat) (pages : List KvPage) (p : KvPage) : Option State :=
  (s.kvPlace idx l hd (pages.filter (fun g => !(g.pair == p.pair && g.slot == p.slot)))).map (fun n =>
    let s1 := s.useSlots n.pair n.slot 1 true
    let s2 := [0, 1].foldl (fun s half => (List.range 256).foldl (fun s c => s.copyCol (p.col half (32 * c)) (n.col half (32 * c))) s) s1
    (s2.renamePage p n).useSlots p.pair p.slot 1 false)

/-- One run leaves a bank pair (R111): the pages there of one head of the first session or prefix node that has some, else a tile of a BANKED
object there, which moves like a run. [DEDUCED: log entry 47] -/
def State.moveFrom (s : State) (pair : Nat) : State :=
  let run := fun (key : Nat) (m : SMap (List KvPage)) =>
    (m.find? (fun r => r.2.any (fun p => p.pair == pair))).map (fun r => (key, r.1, r.2))
  match (s.sess.findSome? (fun e => run (e.1 % 2 ^ 26) e.2.runs)).orElse (fun _ => s.ses.nodes.findSome? (fun e => run 0 e.2.pages)) with
  | some (idx, lh, pages) =>
    (pages.filter (fun p => p.pair == pair)).foldl (fun s p => (s.movePage idx (lh / 65536) (lh % 65536) pages p).getD s) s
  | none =>
    match s.mem.tiles.find? (fun e => match e.2.stack with | some (.banked a b d _) => unitIx a b d == pair | _ => false) with
    | some e => s.relocate e.1
    | none => s

/-- KV_RUN_MOVE (R111, R472): the keeper moves a run of a bank pair of a mapped-out channel, or of a retired pair, to other pairs by copy. -/
def execKvRunMove (st : Fin 20) (pc : Fin 64) (bp : Fin 16) (s : State) : Out := s.gate fun s =>
  let pair := unitIx st pc bp
  .next (if (s.chanOf st (pc.val / 2)).st == .migrating || s.bkt.retired.contains pair then s.moveFrom pair else s)

/-- MAPOUT_GRANULE_COPY (R105 to R108, R111): a tier pump has copied the granule at MOVED_MARK; once the last is moved the channel is
RETIRED. -/
def execMapoutGranuleCopy (q : Fin 4) (k : Fin 16) (s : State) : Out := s.gate fun s =>
  let e := s.excOf q k
  let st := 5 * q.val + e.stack
  let x := s.chanOf st e.channel
  let m := e.movedMark
  if !e.valid ∨ e.lost ∨ x.st ≠ .migrating ∨ !x.moving ∨ s.pagesOn (onChannel st e.channel) ∨ m ≥ s.movedAll e.resBase then .next s
  else
    let r := m / 2
    let p := 64 * e.stack + 2 * e.channel + m % 2
    let l := if r < s.spreadGranules then s.spreadBase + r else r - s.spreadGranules
    let t := ((s.survivorsOf q k).drop (m % e.survivors)).headD 0
    let d := s.redirectFrom q ((List.range 16).filter (· > k.val)) t (s.reserveL (e.resBase + m / e.survivors)) 0
    let a := granPlace q p l
    let b := granPlace q d.1 d.2.1
    let s1 := (List.range 8).foldl (fun s c => s.copyCol (a.key c) (b.key c)) s
    let s2 := { s1 with cis := { s1.cis with exc := SMap.set s1.cis.exc {} (16 * q + k) { e with movedMark := m + 1 } } }
    .next (if m + 1 = s.movedAll e.resBase then s2.retireChan st e.channel else s2)

/-- CHANNEL_LOST (R102, R109): a channel stops responding. -/
def execChannelLost (st : Fin 20) (c : Fin 32) (s : State) : Out := s.gate fun s =>
  match (s.chanOf st c).st with
  | .online | .retrainPending | .migrating => .next (s.loseChan st c)
  | _ => .next s

/-! ## Bring-up -/

/-- A channel that fails its bring-up is mapped out with nothing to move (R102, R108, R112), or its stack is handed over (R110). -/
def State.failedBringUp (s : State) (st c : Nat) : State :=
  match s.mapOutRefused st c with
  | some cause => s.refuseMapOut st c cause
  | none => (s.writeExc st c false true).retireChan st c

/-- Set both pages of a stack to a state. -/
def State.setStackState (s : State) (st v : Nat) : State := (s.setFld (pgCis st) F.hdr_STATE v).setFld (pgBkt st) F.hdr_STATE v

/-- The spare-lane field of a channel: register offset and bit. -/
def spareFld (c : Nat) : Fld := ⟨0x0B8 + 4 * (c / 16), 2 * (c % 16) + 1, 2 * (c % 16), .RO, 2⟩

/-- A stack's training has repaired lanes and rows with spares and zeroed every column (R112). -/
def State.broughtUp (s : State) (st : Nat) (lanes : List (Fin 32)) (rows : List (Fin 64 × Fin 32)) : State :=
  let pg := pgCis st
  let s1 := lanes.foldl (fun s c => s.setFld pg (spareFld c.val) (s.fld pg (spareFld c.val) - 1)) s
  let s2 := rows.foldl (fun (s : State) r =>
    let k := (st * 64 + r.1.val) * 32 + r.2.val
    { s.setFld pg F.cis_REPAIR_STATUS_ROWS_REPAIRED (s.fld pg F.cis_REPAIR_STATUS_ROWS_REPAIRED + 1) with
      cis := { s.cis with rowsUsed := SMap.set s.cis.rowsUsed 0 k (SMap.get s.cis.rowsUsed 0 k + 1) } }) s1
  let fills := s2.cis.fills.map (fun (f : Fill) => { f with pcs := f.pcs.filter (fun p => !(5 * f.quad + p / 64 == st)) })
  let cols := SMap.keep s2.cis.cols (fun k => !(k / stackCols == st))
  { s2 with cis := { s2.cis with cols := cols, fills := fills } }

/-- The channels of a stack go ONLINE; those that failed are mapped out. -/
def State.bringChannels (s : State) (st : Nat) (failed : W32) : State :=
  (List.range 32).foldl (fun s c => if bitOf failed.toNat c then s.failedBringUp st c else s.enterChan st c { st := .online }) s

/-- STACK_BRING_UP (R112): after cold reset, the base die has trained and tested its stack, repaired lanes and rows with the spares named,
and zeroed every column; channels that still fail are mapped out; the stack is READY. -/
def execStackBringUp (st : Fin 20) (failed : W32) (lanes : List (Fin 32)) (rows : List (Fin 64 × Fin 32)) (s : State) : Out :=
  if s.fld (pgCis st) F.hdr_STATE ≠ 1 ∨ !s.boot.running then .next s
  else .next (((s.broughtUp st lanes rows).bringChannels st failed).setStackState st 2).bootReady

/-- A stack leaves self-refresh and retrains its channels that are in service. -/
def State.resumeChannels (s : State) (st : Nat) (failed linkOk : W32) : State :=
  let s1 := { s with cis := { s.cis with selfRefresh := s.cis.selfRefresh.filter (· != st)
                                         retrainQ := s.cis.retrainQ.filter (fun k => k / 32 != st) } }
  (List.range 32).foldl (fun s c =>
    let x := s.chanOf st c
    match x.st with
    | .retired | .lost | .off => s
    | _ =>
      let y := { x with st := .retraining, retrainPend := false, mapLatched := x.mapLatched || x.st == .migrating }
      (s.setChan st c y).retrainEnd st c (!(bitOf failed.toNat c)) (bitOf linkOk.toNat c)) s1

/-- STACK_RESUME (R114): on exit from quadrant or warm reset, the base die leaves self-refresh and retrains its channels that are in service;
`failed` and `linkOk` say how their training ends. -/
def execStackResume (st : Fin 20) (failed linkOk : W32) (s : State) : Out :=
  if !(s.cis.selfRefresh.contains st.val) then .next s
  else .next ((s.resumeChannels st failed linkOk).setStackState st 2).bootReady

/-! ## Repair -/

/-- May repair commands run on a stack (R113)? [DEDUCED: log entry 41] -/
def State.repairOk (s : State) (st : Nat) : Bool := s.fld (pgCis st) F.hdr_STATE == 1 || s.stackIdle st

/-- A repair command (R113): refused, without a spare, or begun. One that comes while a repair runs is ignored. [DEDUCED: log entry 41] -/
def State.beginRepair (s : State) (st : Nat) (spare : Bool) (r : Repair) : State :=
  let pg := pgCis st
  s.regWrite pg 0x0B0 (fun s =>
    if (SMap.get s.cis.repair none st).isSome then s
    else if !(s.repairOk st) then s.setFld pg F.cis_REPAIR_STATUS_RESULT 3
    else if !spare then (s.setFld pg F.cis_REPAIR_STATUS_RESULT 1).raise pg 7
    else { s.setFld pg F.cis_REPAIR_STATUS_BUSY 1 with cis := { s.cis with repair := SMap.set s.cis.repair none st (some r) } })

/-- LANE_REPAIR (R113). -/
def execLaneRepair (st : Fin 20) (c : Fin 32) (lane : Fin 128) (s : State) : Out :=
  .next (s.beginRepair st (decide (s.fld (pgCis st) (spareFld c.val) > 0)) ⟨false, c, lane, 0⟩)

/-- The bank that a ROW_REPAIR names: (stack × 64 + pseudo-channel) × 32 + bank. -/
def rowBank (st c target : Nat) : Nat := (st * 64 + 2 * c + target / 32 % 2) * 32 + target % 32

/-- ROW_REPAIR (R113). [PRESUMED: log entry 40] -/
def execRowRepair (st : Fin 20) (c : Fin 32) (target : Fin 128) (row : W16) (s : State) : Out :=
  let k := rowBank st c target
  .next (s.beginRepair st (decide (SMap.get s.cis.rowsUsed 0 k < Config.spareRows k)) ⟨true, c, target, row.toNat⟩)

/-- REPAIR_COMPLETE (R113): the repair ends; a good one has used its spare. The bytes of a repaired row are kept (R75). -/
def execRepairComplete (st : Fin 20) (ok : Bool) (s : State) : Out := s.gate fun s =>
  let pg := pgCis st
  match SMap.get s.cis.repair none st with
  | none => .next s
  | some r =>
    let s1 := { s.setFld pg F.cis_REPAIR_STATUS_BUSY 0 with cis := { s.cis with repair := SMap.set s.cis.repair none st none } }
    if !ok then .next ((s1.setFld pg F.cis_REPAIR_STATUS_RESULT 2).raise pg 7)
    else
      let s2 := s1.setFld pg F.cis_REPAIR_STATUS_RESULT 0
      if r.rowOp then
        let k := rowBank st r.channel r.target
        .next { s2.setFld pg F.cis_REPAIR_STATUS_ROWS_REPAIRED (s2.fld pg F.cis_REPAIR_STATUS_ROWS_REPAIRED + 1) with
          cis := { s2.cis with rowsUsed := SMap.set s2.cis.rowsUsed 0 k (SMap.get s2.cis.rowsUsed 0 k + 1) } }
      else .next (s2.setFld pg (spareFld r.channel) (s2.fld pg (spareFld r.channel) - 1))

/-! ## Slot weights -/

/-- SLOT_WEIGHT_WRITE (R115): a write of SLOT_W_v_j; a weight of 9 to 15 is stored as 8. -/
def execSlotWeightWrite (q : Fin 4) (v : Fin 4) (j : Fin 8) (value : W32) (s : State) : Out :=
  let off := 0x100 + 0x20 * v.val + 4 * j.val
  .next (s.regWrite (pgCisQ q) off (fun s =>
    s.setReg (pgCisQ q) 0 off (BitVec.ofNat 32 (sumTo 8 (fun i => min 8 (bitsOf value.toNat (4 * i + 3) (4 * i)) * 16 ^ i)))))

end Sys2Proof.Machine
end

