-- ==== Sys2Proof/Machine/Retire.lean ====
section
/-! DEFINITION. Parts that fail (R471 to R477): engines, pumps, compute dies, stacks, stalled rounds; and the journal (R463, R465) and the
rebuilding of key/value entries (R466 to R470). -/
namespace Sys2Proof.Machine
open Sys2Proof

/-- Every round in flight is abandoned (R471). [DEDUCED: log entry 99] -/
def State.abandonAll (s : State) (cause : Nat := 4) : State :=
  (s.ses.rounds.map (fun r => r.num)).foldl (fun s n => s.abandonRound n cause) s

/-! ## Engines and compute dies -/

/-- The models whose installed schedule names an engine are quarantined (R477). -/
def State.quarantineEngine (s : State) (e : Nat) : State :=
  (s.ses.models.map (fun m => m.1)).foldl (fun s m =>
    let x := s.model m
    let names := match x.next with
      | some c => c.uses e
      | none => match x.sched with | some c => c.uses e | none => false
    if names then s.quarantine m 2 false 0 else s) s

/-- Does a round in flight use an engine (R471): it has run on it, or the schedule of its model names it? [DESIGN CHOICE: log entry 81] -/
def State.roundUses (s : State) (r : Round) (e : Nat) : Bool :=
  r.used.contains e || (match (s.model r.model).sched with | some c => c.uses e | none => false)

/-- An engine leaves service (R63, R472): its programs end, its pages go OFFLINE. -/
def State.engineOff (s : State) (e : Nat) : State := (s.resetEngine e).setEngState e eOffline

/-- The owner of a session whose owner is no longer in service (R307). -/
def State.reown (s : State) : State :=
  { s with sess := s.sess.map (fun (e : Nat × Session) => (e.1, if s.dieUp e.2.owner then e.2 else { e.2 with owner := s.ownerOfIndex (e.1 % 2 ^ 26) })) }

/-- The Well of a die is lost with it (R455, R475): a clean tile keeps its stack copy; the granules of a dirty one are destroyed. -/
def State.loseWell (s : State) (q : Nat) : State :=
  let fs := s.mem.frames.filter (fun (f : Nat × Frame) => f.1 / 4096 == q && f.2.owner != 0)
  let s1 := fs.foldl (fun (s : State) (f : Nat × Frame) =>
    let k := f.2.owner - 1
    let r := s.tileAt k
    let s1 := { s with mem := { s.mem with
      frames := SMap.set s.mem.frames {} f.1 {}
      well := SMap.keep s.mem.well (fun b => !(b / 65536 == f.1))
      wellBad := SMap.keep s.mem.wellBad (fun w => !(w / 8192 == f.1)) } }
    if f.2.dirty.isEmpty && r.stack.isSome then s1.setTile k { r with well := none }
    else
      let s2 := match r.stack with
        | some loc => s1.useLoc loc (s1.objOfTile k).slotVer false
        | none => s1
      (s2.setTile k { r with well := none, stack := none, dirty := r.dirty || !f.2.dirty.isEmpty }).tileLost k) s
  { s1 with mem := { s1.mem with switching := s1.mem.switching.filter (fun x => x / 64 != q), moves := s1.mem.moves.filter (fun m => !(m.dest == 0 && m.quad == q)) } }.settleRestores

/-- Descriptors in flight on a page end ABORTED (R199, R472). -/
def State.abortPage (s : State) (page : Nat) : State :=
  (s.pmp.flying.filter (fun f => f.page == page)).foldl (fun s f => s.endFlying f { status := 10 }) s

/-- A compute die is retired (R475). [DEDUCED: log entry 110] -/
def State.retireDie (s : State) (n : Nat) : State :=
  if !(s.dieUp n) then s
  else
    let s1 := s.abandonAll 3
    let s2 := (List.range 8).foldl (fun s e => s.engineOff (8 * n + e)) ((s1.abortPage (2 * n)).abortPage (2 * n + 1))
    let s3 := [pgKpr n, pgSes n, pgWel n, pgTir n, pgPmp (2 * n), pgPmp (2 * n + 1), pgCmp n, pgQdr n].foldl (fun s pg => s.setFld pg F.hdr_STATE 5) s2
    let s4 := (s3.setKeeper n { failed := true }).setReg pgRas 0 0x040
      (BitVec.ofNat 32 (setBitsNat (s3.reg pgRas 0 0x040).toNat (2 + n) (2 + n) 0))
    let s5 := ((s4.retireLog 7 n).reown).loseWell n
    (List.range 8).foldl (fun s e => s.quarantineEngine (8 * n + e)) s5

/-- An engine is retired (R472, R477); with the last of its die, the die. -/
def State.retireEngine (s : State) (e : Nat) : State :=
  if s.engState e = eOffline then s
  else
    let used := (s.ses.rounds.filter (fun r => s.roundUses r e)).map (fun r => r.num)
    let s1 := ((used.foldl (fun s n => s.abandonRound n 3) s).engineOff e).retireLog 1 e
    let s2 := s1.quarantineEngine e
    if (List.range 8).all (fun i => s2.engState (8 * engQuad e + i) == eOffline) then s2.retireDie (engQuad e) else s2

/-- ENGINE_RESET (R244, R471, R472): asked for by the keeper after a FAULT, or through MXE.CTRL.RESET. A second FAULT with the same cause
within 64 rounds retires the engine. -/
def execEngineReset (e : Fin 32) (s : State) : Out := s.gate fun s =>
  let e : Nat := e
  if s.engState e = eOffline ∨ !s.booted then .next s
  else
    let fault := decide (s.engState e = eFault)
    let cause := (s.eng e).faultCause
    let recent := s.ses.engFaults.filter (fun f => decide (s.ses.lastNum < f.1 + 64))
    let again := fault && recent.any (fun f => f.2.1 == e && f.2.2 == cause)
    let used := (s.ses.rounds.filter (fun r => s.roundUses r e)).map (fun r => r.num)
    let s1 := used.foldl (fun s n => s.abandonRound n) s
    let s2 := if fault then { s1 with ses := { s1.ses with engFaults := recent ++ [(s.ses.lastNum, e, cause)] } } else s1
    if again then .next (s2.retireEngine e)
    else .next ((s2.resetEngine e).noteReset 1 (if fault then 3 else 1) 0)

/-- HEARTBEAT (R474): a keeper core posts a heartbeat; the management core takes note of it, and nothing that the spec names changes. [DEDUCED: log entry 110] -/
def execHeartbeat (_ : Fin 4) (s : State) : Out := s.gate fun s => .next s

/-- HEARTBEAT_TIMEOUT (R474, R475): no heartbeat for 200 µs: the keeper has failed and its compute die is retired. [DEDUCED: log entry 110] -/
def execHeartbeatTimeout (q : Fin 4) (s : State) : Out := s.gate fun s => .next (if s.booted then s.retireDie q else s)

/-- PF queues of a pump go to the lowest pump of its group in service (R472). -/
def State.movePumpQueues (s : State) (page pump : Nat) : State :=
  match (List.range (pumpCount page)).find? (fun i => !(s.pmp.retired.contains (page * 8 + i))) with
  | none => s
  | some i => (List.range 4).foldl (fun s q =>
      if s.fldB (pgPmp page) q F.pmp_SQ_CFG_PUMP = pump then s.setFldB (pgPmp page) q F.pmp_SQ_CFG_PUMP i else s) s

/-- A pump is retired (R472): its descriptors end ABORTED, its queues move, and the engine of an engine-feed pump is retired. -/
def State.retirePump (s : State) (page pump : Nat) : State :=
  let k := page * 8 + pump
  if s.pmp.retired.contains k then s
  else
    let s1 := (s.pmp.flying.filter (fun f => f.page == page && f.pump == pump)).foldl (fun s f => s.endFlying f { status := 10 }) s
    let s2 := ({ s1 with pmp := { s1.pmp with retired := s1.pmp.retired ++ [k] } }).retireLog 2 k
    let s3 := s2.movePumpQueues page pump
    if pumpKind page = 0 then s3.retireEngine (8 * pumpQuad page + pump) else s3

/-- PUMP_HANG_TIMEOUT (R472): a pump has withheld its acknowledge for 1 ms unprompted. -/
def execPumpHangTimeout (page : Fin 10) (pump : Fin 8) (s : State) : Out := s.gate fun s =>
  .next (if s.booted && decide (pump.val < pumpCount page) then s.retirePump page pump else s)

/-- A stalled round is abandoned, its stuck engines are reset, and the stall is noted; the third at one program address quarantines the
model (R473). [DEDUCED: log entry 110] -/
def State.stall (s : State) (r : Round) (stuck : List Nat) : State :=
  let pcs := (stuck.map (fun e => (s.ctx e false).pc)).eraseDups
  let s1 := (s.abandonRound r.num 6).raise pgRas 6
  let s2 := stuck.foldl (fun s e => (s.resetEngine e).noteReset 1 3 0) s1
  let x := s2.model r.model
  let l := x.stalls.filter (fun e => decide (r.num < e.1 + 64)) ++ pcs.map (fun a => (r.num, a))
  let s3 := s2.setModel r.model { x with stalls := l }
  if pcs.any (fun a => decide ((l.filter (fun e => e.2 == a)).length ≥ 3)) then s3.quarantine r.model 2 true 0 else s3

/-- ROUND_STALL (R473): no instruction of a round's programs has retired for 10 ms: the round is abandoned, engines whose program had not
ended are reset, and the third stall of a model at one program address within 64 rounds quarantines it. -/
def execRoundStall (num : W64) (s : State) : Out := s.gate fun s =>
  match s.roundOf num.toNat with
  | none => .next s
  | some r =>
    let stuck := r.engines.filter (fun e => (s.ctx e false).started)
    if stuck.isEmpty ∨ stuck.any (fun e => (s.ctx e false).poisonWaited) then .next s
    else .next (s.stall r stuck)

/-! ## Stacks -/

/-- Does an object, or a settled copy, record a slot-table version of a quadrant (R47, R51)? -/
def State.verRecorded (s : State) (q v : Nat) : Bool :=
  s.mem.objs.any (fun (o : Nat × Obj) => o.2.st != .free && o.2.layout == 0 && (o.2.full || o.2.home == q) && o.2.ver q == v)
    || s.sess.any (fun (e : Nat × Session) => e.2.ver / 4 ^ q % 4 == v && e.2.spread.any (fun a => a.inLine (fun x _ => x == q)))
/-- The lowest version that is not current and that nothing records. -/
def State.freeVersion (s : State) (q : Nat) : Option Nat :=
  (List.range 4).find? (fun v => v != s.fld (pgCisQ q) F.cisq_HASH_CFG_CUR_VER && !(s.verRecorded q v))

/-- Slot `j` of a version's table, as a field of SLOT_W_v_j. -/
def slotFld (v j : Nat) : Fld := ⟨0x100 + 0x20 * v + 4 * (j / 8), 4 * (j % 8) + 3, 4 * (j % 8), .RW, 8⟩

/-- A new version: a copy of the current table with the weights that `w` changes; it becomes current and the change is reported (R47,
R49). -/
def State.newTable (s : State) (q v : Nat) (w : Nat → Nat → Nat) : State :=
  let cur := s.fld (pgCisQ q) F.cisq_HASH_CFG_CUR_VER
  let s1 := (List.range 64).foldl (fun s j => s.setFld (pgCisQ q) (slotFld v j) (w j (s.fld (pgCisQ q) (slotFld cur j)))) s
  (s1.setFld (pgCisQ q) F.cisq_HASH_CFG_CUR_VER v).telEvent (pgCisQ q) q 1

/-- Does slot `j` cover a pseudo-channel of stack `k` of the quadrant? -/
def slotOnStack (k j : Nat) : Bool := decide (64 * k < 5 * j + 5 ∧ 5 * j < 64 * k + 64)

/-- The version without a retired stack is written and the system pool placed again under it (R476). -/
def State.dropWeights (s : State) (q v : Nat) : State :=
  let gone := rangeP 5 (fun k => s.stackRetired (5 * q + k))
  let s1 := s.newTable q v (fun j x => if gone.any (fun k => slotOnStack k j) then 0 else x)
  let s2 := { s1 with cis := { s1.cis with weightPend := s1.cis.weightPend.filter (fun st => st / 5 != q) } }
  s2.setFld (pgTir q) F.tir_SYS_LINES_LINES (ceilDiv (4096 * 2560) (max 1 (s2.lineCap q v)))

/-- A tile of a withdrawn line (R476): its place is given up; a tile that the Well holds takes a new place, all of it to be written back. [DESIGN CHOICE: log entry 46] -/
def State.withdrawTile (s : State) (k : Nat) : State :=
  let r := s.tileAt k
  match r.stack with
  | none => s
  | some loc =>
    let s1 := s.useLoc loc (s.objOfTile k).slotVer false
    match r.well with
    | none => (s1.setTile k { r with stack := none }).tileLost k
    | some f =>
      let fr := SMap.get s1.mem.frames {} f
      ({ s1 with mem := { s1.mem with frames := SMap.set s1.mem.frames {} f { fr with dirty := List.range 256 } } }).setTile k { r with stack := none, dirty := true }

/-- A withdrawn tile that the Well holds takes a new place in the stacks. -/
def State.rehome (s : State) (k : Nat) : State :=
  let r := s.tileAt k
  let o := s.objOfTile k
  if r.well.isSome && r.stack.isNone && o.layout == 0 then
    match s.freeLoc o with
    | some b => (s.useLoc b o.slotVer true).setTile k { r with stack := some b }
    | none => s
  else s

/-- A settled copy is lost with its line (R470, R476): the session wakes, and its entries will be rebuilt. -/
def State.loseKept (s : State) (h : Nat) (p : Nat → Nat → Bool) : State :=
  let x := s.sesOf h
  if !(x.spread.any (fun a => a.inLine p)) then s
  else
    let s1 := x.spread.foldl (fun s l => s.useLoc l x.ver false) s
    let s2 := s1.setSes h { x with spread := [] }
    if h < 2 ^ 32 ∧ (x.st = .settled ∨ x.st = .sinking) then s2.enter h .waking else s2

/-- The journal copies of a quadrant are lost (R465). -/
def State.loseJournal (s : State) (q : Nat) : State :=
  if s.ses.journal.any (fun r => r.copies.contains q) then
    ((s.setJournal (s.ses.journal.map (fun r => { r with copies := r.copies.filter (· != q) }))).raise pgRas 0).logErr 0x0C (pgKpr q) 0 q 0
  else s

/-- The base die of a stack and what waits there go (R476). -/
def State.stackOff (s : State) (st : Nat) : State :=
  let s1 := (s.setFld (pgCis st) F.hdr_STATE 5).setFld (pgBkt st) F.hdr_STATE 5
  let s2 := { s1 with
    cis := { s1.cis with
      chan := (List.range 32).foldl (fun m c => SMap.set m {} (st * 32 + c) { st := .lost }) s1.cis.chan
      held := s1.cis.held.filter (fun h => h.stack != st), yield := s1.cis.yield.filter (fun h => h.stack != st)
      retrainQ := s1.cis.retrainQ.filter (fun k => k / 32 != st), dead := s1.cis.dead.filter (· != st)
      measuring := s1.cis.measuring.filter (· != st), repair := SMap.del s1.cis.repair st
      selfRefresh := s1.cis.selfRefresh.filter (· != st) }
    bkt := { s1.bkt with
      tags := SMap.keep s1.bkt.tags (fun k => k / 256 != st), units := SMap.keep s1.bkt.units (fun k => k / 1024 != st)
      entries := SMap.keep s1.bkt.entries (fun k => k / 256 != st), bus := SMap.keep s1.bkt.bus (fun k => k / 64 != st) } }
  s2

/-- A stack is retired (R476). -/
def State.retireStack (s : State) (st : Nat) : State :=
  if s.stackRetired st then s
  else
    let q := quadOf st
    let inQ := fun (x _ : Nat) => x == q
    let s1 := ((s.setFld pgRas ⟨0x044, st, st, .RO, 0⟩ 1).stackOff st).retireLog 6 st
    let s2 := s1.abandonAll 3
    let tiles := (s2.mem.tiles.filter (fun (e : Nat × TileRec) => match e.2.stack with
      | some (.banked a _ _ _) => a == st
      | some a => a.inLine inQ
      | none => false)).map (fun e => e.1)
    let s3 := tiles.foldl State.withdrawTile s2
    let s4 := (s3.sess.map (fun e => e.1)).foldl (fun s h => s.loseKept h inQ) s3
    let s5 := match s4.freeVersion q with
      | some v =>
        let t := s4.dropWeights q v
        { t with mem := { t.mem with objs := t.mem.objs.map (fun (o : Nat × Obj) =>
            if o.2.layout = 0 ∧ (o.2.full ∨ o.2.home = q) then (o.1, { o.2 with slotVer := setBitsNat o.2.slotVer (2 * q + 1) (2 * q) v }) else o) } }
      | none => { s4 with cis := { s4.cis with weightPend := s4.cis.weightPend ++ [st] } }
    let s6 := (tiles.foldl State.rehome s5).losePairs (fun p => p / 1024 == st)
    ((s6.loseJournal q).settleRestores).liftTiles tiles

/-- STACK_RETIRE (R110, R472, R476): a stack's base die stops responding, or a channel of it has been handed over. [DESIGN CHOICE: log entry 45] -/
def execStackRetire (st : Fin 20) (s : State) : Out := s.gate fun s => .next (s.retireStack st)

/-! ## The journal -/

/-- A HISTORY record's body (R461): 64 bytes of session state, the history's tokens, and the ACCEPT bodies of the outstanding requests,
each with its count of committed tokens. [DESIGN CHOICE: log entry 95] -/
def State.historyBody (s : State) (h : Nat) : List Byte :=
  let x := s.sesOf h
  let adp := match x.adapter with | some a => 0x8000 + a | none => 0
  let head := leBytes 1 x.st.code ++ leBytes 1 (b2n x.suspended + 2 * b2n (x.reqs.any (fun q => q.tool))) ++ leBytes 1 x.model ++ [0#8]
    ++ leBytes 2 adp ++ leBytes 2 ((x.reqs.head?.map (fun q => q.ver)).getD 0) ++ leBytes 8 x.rnum ++ leBytes 4 x.slot ++ leBytes 4 x.reqs.length
  let req := fun (r : Req) =>
    let extra := r.params ++ r.toks.flatMap (leBytes 4)
    r.entry ++ leBytes 2 r.ver ++ List.replicate 2 0#8 ++ leBytes 4 (if r.typ = tOpen then x.slot else 0) ++ List.replicate 24 0#8 ++ extra
      ++ leBytes 8 r.gen.length
  padTo 64 head ++ x.hist.flatMap (leBytes 4) ++ x.reqs.flatMap req

/-- JOURNAL_COMPACT (R463): one HISTORY record takes the place of a session's records, once both its copies are applied. -/
def execJournalCompact (h : W32) (s : State) : Out := s.gate fun s =>
  let h := h.toNat
  let x := s.sesOf h
  if !x.inUse ∨ s.journalling h ∨ !(s.ses.journal.any (fun r => r.ses == h)) then .next s
  else .next (s.journalAdd h x.owner 4 0 x.hist.length (s.historyBody h) .history)

/-- JOURNAL_REMIRROR (R465, R488): a lost copy of a session's records is written anew from the surviving one, in the quadrants R458 chooses
now. -/
def execJournalRemirror (h : W32) (s : State) : Out := s.gate fun s =>
  let h := h.toNat
  let qs := s.journalQuads (s.sesOf h).owner
  let short := fun (r : JRec) => r.ses == h && !r.copies.isEmpty && r.copies.length < qs.length
  if !(s.ses.journal.any short) then .next s
  else
    let new := (qs.find? (fun q => s.ses.journal.any (fun r => short r && !(r.copies.contains q)))).getD 0
    let s1 := s.setJournal (s.ses.journal.map (fun r => if short r then { r with copies := qs } else r))
    .next ((s1.logErr 0x0C (pgKpr (s.sesOf h).owner) 1 new 0).journalCheck)

/-! ## Rebuilding -/

/-- The page of a session that a lost entry names. -/
def Session.lostPage (x : Session) (l : Lost) : Option KvPage :=
  (SMap.get x.runs [] (runIx l.layer l.head))[l.first / max 1 l.count]?

/-- Does another session, of a lower handle, hold the same prefix node (R469)? -/
def State.lowerLinked (s : State) (h n : Nat) : Bool :=
  s.sess.any (fun (e : Nat × Session) => decide (e.1 < h) && e.2.links.contains n)

/-- Free the page of a lost entry and reserve its replacement (R467). None when there is no place. -/
def State.replaceLost (s : State) (h : Nat) (l : Lost) : Option State :=
  let x := s.sesOf h
  match x.lostPage l with
  | none => some s
  | some p =>
    let s1 := s.useSlots p.pair p.slot 1 false
    let others := (SMap.get x.runs [] (runIx l.layer l.head)).filter (fun g => !(g.pair == p.pair && g.slot == p.slot))
    (s1.kvPlace (h % 2 ^ 26) l.layer l.head others).map (fun n => (s1.useSlots n.pair n.slot 1 true).renamePage p n)

/-- May a session's lost pages be rebuilt now (R466)? A lost page of a prefix node is its lowest linked session's to rebuild. [DEDUCED: log entry 111] -/
def State.mayRebuild (s : State) (h : Nat) : Bool :=
  let x := s.sesOf h
  let waits := x.lost.any (fun l => match (x.lostPage l).bind (fun p => p.node) with
    | some n => s.lowerLinked h n
    | none => false)
  !x.lost.isEmpty && !x.rebuilding && !x.closing && (x.st == .active || x.st == .parked) && !(s.busy h) && !waits
/-- Every lost page of a session gets a new place; none when one cannot be had. -/
def State.replaceAll (s : State) (h : Nat) : Option State :=
  (s.sesOf h).lost.foldl (fun (o : Option State) l => o.bind (fun s => s.replaceLost h l)) (some s)

/-- REBUILD (R466 to R469): the keeper frees a session's lost pages, reserves their replacements, and offers its rebuild rows. A prefix
node's pages are rebuilt through its linked session of lowest handle. -/
def execRebuild (h : W32) (s : State) : Out := s.gate fun s =>
  let h := h.toNat
  let x := s.sesOf h
  if !(s.mayRebuild h) then .next s
  else match s.replaceAll h with
    | none => .next s
    | some s1 =>
      let top := x.lost.foldl (fun a l => max a l.layer) 0
      let s2 := s1.setSes h { s1.sesOf h with rebuilding := true, rebuilt := 0 }
      .next ((s2.bump pgRas F.ras_REBUILDS_COUNT 1).logErr 9 (pgKpr x.owner) top h (x.span.1 + 2 ^ 32 * (x.span.2 - 1)))

end Sys2Proof.Machine
end

