-- ==== Sys2Proof/Machine/Refetch.lean ====
section
/-! DEFINITION. Bad weights (R482 to R486), restored tiles (R455), and fault injection (R489, R490). -/
namespace Sys2Proof.Machine
open Sys2Proof

/-! ## Refetch -/

/-- A 64 KiB unit of an object as an engine's latch takes it: its bytes, expanded when the object is compressed, and its mark. [DEDUCED: log entry 61] -/
def State.unitNow (s : State) (e fn o u : Nat) : (List Byte × Bool) × State :=
  let q := engQuad e
  let x := s.obj fn o
  if x.comp = 0 then
    let r := s.readDva q fn (dvaSpans (o * 2 ^ 32 + u * 65536) 65536)
    ((bytesOf r.1, poisonIn r.1), r.2.2)
  else
    let tbl := s.tblData x.tblSlot x.tblGen
    let k := blocksPerUnit (tblElem tbl)
    let rd := fun (s : State) (off n : Nat) =>
      let r := s.readDva q fn (spans (n / 32 + 2) (o * 2 ^ 32 + off) n)
      ((r.1, none, r.2.2) : List Piece × SpaceEnd × State)
    let b := u * k / 64 * 64
    let first := if x.comp = 2 then b else u * k
    let r := expandBlocks rd tbl (x.comp == 2) x.slotBytes (u * k) (u * k + k - 1) false (u * k + k - first) first none false s
    ((r.1.flatMap (fun b => b.data), r.1.any (fun b => b.poison)), r.2.2.2)

/-- Order 5 of R482: what an engine has staged or latched of an object's poisoned units is staged and filled again. -/
def State.refill (s : State) (e fn o : Nat) : State :=
  let fresh := fun (s : State) (t : LatchTile) =>
    match t.src with
    | .object f p u =>
      if t.poison && f == fn && p == o then
        let a := s.unitNow e fn o u
        let b := if t.data.length > 65536 then a.2.unitNow e fn o (u + 1) else (([], false), a.2)
        ({ t with data := a.1.1 ++ b.1.1, poison := a.1.2 || b.1.2 }, b.2)
      else (t, s)
    | _ => (t, s)
  let stage := fun (s : State) (g : Staged) =>
    match g.src with
    | .object f p u =>
      if f = fn ∧ p = o ∧ g.bad = 0 then
        let x := s.obj fn o
        if x.comp = 0 then
          let r := s.readDva (engQuad e) fn (dvaSpans (o * 2 ^ 32 + u * 65536) 65536)
          r.2.2.storeWrite e (g.frame * 65536) r.1
        else
          let b := s.unitBytes (engQuad e) o u (tblElem (s.tblData x.tblSlot x.tblGen)) x
          let r := b.2.readDva (engQuad e) fn (spans (b.1.2.1 / 32 + 2) (o * 2 ^ 32 + b.1.1) b.1.2.1)
          r.2.2.storeWrite e (g.frame * 65536) (recutFor 0 r.1)
      else s
    | _ => s
  let s1 := (s.eng e).staged.foldl stage s
  let a := (s1.eng e).smooth.foldl (fun (a : List (LatchTile × Nat) × State) z =>
    let r := fresh a.2 z.1
    (a.1 ++ [(r.1, z.2)], r.2)) ([], s1)
  let b := (a.2.eng e).latch.foldl (fun (b : List (Option LatchTile) × State) t =>
    match t with
    | some t => let r := fresh b.2 t; (b.1 ++ [some r.1], r.2)
    | none => (b.1 ++ [none], b.2)) ([], a.2)
  let x := b.2.eng e
  let s2 := b.2.setEng e { x with smooth := a.1, latch := b.1 }
  let go := fun (s : State) (y : Bool) =>
    let c := s.ctx e y
    if c.poisonWaited && !((b.1.getD x.cur none).any (fun t => t.poison)) then s.setCtx e y { c with poisonWaited := false } else s
  go (go s2 false) true

/-- Does a tile read poisoned? -/
def State.tilePoisoned (s : State) (k : Nat) : Bool :=
  ((s.readTile (k / 2 ^ 32) (k / 65536 % 65536) (k % 65536)).1).any (fun (p : Piece) => p.2)

/-- The DVA of a tile, and its golden address. -/
def tileDva (k : Nat) : Nat := k / 65536 % 65536 * 2 ^ 32 + k % 65536 * 65536
def State.goldAddr (s : State) (k : Nat) : Nat := (s.objOfTile k).golden.toNat + 65536 * (k % 65536)

/-- MIG_LOCK of a tile's object. -/
def State.lockTile (s : State) (k : Nat) (on : Bool) : State :=
  s.setObj (k / 2 ^ 32) (k / 65536 % 65536) { s.objOfTile k with migLock := on }

/-- A refetch fails (R484): its object and the models that name it are quarantined, and a round that waits for it is abandoned. [DEDUCED: log entry 111] -/
def State.refetchFail (s : State) (k : Nat) : State :=
  let fn := k / 2 ^ 32
  let o := k / 65536 % 65536
  let s1 := { s with mem := { s.mem with refetch := SMap.del s.mem.refetch k } }.lockTile k false
  let s2 := (s1.setObj fn o { s1.obj fn o with st := .quarantined }).logErr 6 (pgTir (s.objOfTile k).home) 1 (tileDva k) (s.goldAddr k)
  let s3 := if fn = 0 then s2.quarantineObj o 1 else s2
  let waits := fun (e : Nat) => (s3.ctx e false).poisonWaited && (s3.eng e).latch.any (fun t => t.any (fun t =>
    t.poison && (match t.src with | .object f p _ => f == fn && p == o | _ => false)))
  let es := (List.range 32).filter waits
  let rs := (s3.ses.rounds.filter (fun r => r.engines.any (fun e => es.contains e))).map (fun r => r.num)
  es.foldl (fun s e => s.resetEngine e) (rs.foldl (fun s n => s.abandonRound n 2) s3)

/-- May the tier manager refetch a tile now (R482): the object is in use and not locked, and the tile is placed and poisoned? -/
def State.mayRefetch (s : State) (fn o tile : Nat) : Bool :=
  let x := s.obj fn o
  (x.st == .ready || x.st == .migrating) && !x.migLock && decide (tile ≤ x.tilesM1) && (s.tileAt (tileIx fn o tile)).placed
    && s.tilePoisoned (tileIx fn o tile)
/-- Has an object no golden bytes to refetch: no golden source, or its table generation has gone (R482, R483)? -/
def State.noGolden (s : State) (x : Obj) : Bool := x.gold == 0 || (x.comp != 0 && !(s.genPresent x.tblSlot x.tblGen))

/-- REFETCH (R482, R484): a pump has met poison in a tile; the tier manager takes the object's MIG_LOCK and asks for the tile's golden
bytes, or the refetch fails at once. -/
def execRefetch (fn : Fin 65) (obj tile : W16) (s : State) : Out := s.gate fun s =>
  let o := obj.toNat
  let k := tileIx fn o tile.toNat
  if !(s.mayRefetch fn o tile.toNat) then .next s
  else
    let s1 := s.lockTile k true
    if s.noGolden (s.obj fn o) then .next (s1.refetchFail k)
    else .next ({ s1 with mem := { s1.mem with refetch := SMap.set s1.mem.refetch 0 k 1 } }.askGolden k)

/-- The bytes of a tile that its golden source's answer gives: the tile's own bytes, or those of the object's expanded data compressed
again (R483). -/
def State.goldenTile (s : State) (k : Nat) (data : List Byte) : List Byte :=
  let x := s.objOfTile k
  if x.comp = 0 then slice data 0 65536 else slice (s.goldenBytes x data) (65536 * (k % 65536)) 65536

/-- A destroyed tile's golden bytes have come (R455): it is placed and written, or stays destroyed. -/
def State.restoreTile (s : State) (k : Nat) (golden : Option (List Byte)) : State :=
  let fn := k / 2 ^ 32
  let o := k / 65536 % 65536
  let x := s.objOfTile k
  let s0 := { s with mem := { s.mem with restoring := s.mem.restoring.filter (· != k) } }
  let lose := fun (_ : Unit) => ({ s0 with mem := { s0.mem with unrest := s0.mem.unrest ++ [k] } }.settleRestore (k / 65536))
  match golden with
  | none => lose ()
  | some data =>
    if x.comp ≠ 0 ∧ !(s.genPresent x.tblSlot x.tblGen) then lose ()
    else
      let bytes := s0.goldenTile k data
      match s0.placeTile fn o (k % 65536) with
      | none => lose ()
      | some s1 =>
        let s2 := s1.writeTile fn o (k % 65536) (piecesOf 0 bytes)
        (s2.setTile k { s2.tileAt k with lost := false }).settleRestore (k / 65536)

/-- A refetched tile that reads clean: the lock goes, the refetch is logged, and engines that wait for the tile take it (R482). -/
def State.endRefetch (s : State) (fn o k : Nat) : State :=
  let s2 := { s with mem := { s.mem with refetch := SMap.del s.mem.refetch k } }.lockTile k false
  let s3 := s2.logErr 6 (pgTir (s.obj fn o).home) 0 (tileDva k) (s.goldAddr k)
  (List.range 32).foldl (fun s e => s.refill e fn o) s3

/-- REFETCH_GOLDEN_DONE (R455, R482 to R484): the golden read completes; `golden` is what it answers (the tile, or the object's expanded
data), none for another end than OK. [DEDUCED: log entry 61] -/
def execRefetchGoldenDone (fn : Fin 65) (obj tile : W16) (golden : Option (List Byte)) (s : State) : Out := s.gate fun s =>
  let o := obj.toNat
  let k := tileIx fn o tile.toNat
  let x := s.obj fn o
  if s.mem.restoring.contains k then .next (s.restoreTile k golden)
  else match SMap.get s.mem.refetch 0 k with
    | 0 => .next s
    | n + 1 =>
      match golden with
      | none => .next (s.refetchFail k)
      | some data =>
        if x.comp ≠ 0 ∧ !(s.genPresent x.tblSlot x.tblGen) then .next (s.refetchFail k)
        else
          let s1 := s.writeTile fn o tile.toNat (piecesOf 0 (s.goldenTile k data))
          if !(s1.tilePoisoned k) then .next (s1.endRefetch fn o k)
          else if n = 0 then .next ({ s1 with mem := { s1.mem with refetch := SMap.set s1.mem.refetch 0 k 2 } }.askGolden k)
          else .next (s1.refetchFail k)

/-- UNLOAD (R486): a write of RAS.MODEL_CMD. For a quarantined model, every outstanding request of its sessions completes
MODEL_QUARANTINED. [DEDUCED: log entry 111] -/
def execUnload (s : State) : Out :=
  .next (s.regWrite pgRas 0x068 (fun s =>
    let m := s.fld pgRas F.ras_MODEL_SEL_MODEL
    if !((s.model m).quarantined) then s
    else
      let hs := (s.sess.filter (fun (e : Nat × Session) => decide (e.1 < 2 ^ 32) && e.2.model == m && e.2.inUse && !e.2.closing)).map (fun e => e.1)
      hs.foldl (fun s h =>
        let s1 := (s.sesOf h).reqs.foldl (fun s r => s.complete h r stQuarantined) s
        s1.setSes h { s1.sesOf h with unloaded := true }) s))

/-! ## Injection -/

/-- INJECTION_ENABLE (R489): a write of INJ_CTRL; ENABLE is set only by a write that carries KEY 0x1A7E. -/
def execInjectionEnable (value : W32) (s : State) : Out :=
  .next (s.regWrite pgRas 0x0A0 (fun s =>
    let v := value.toNat
    if v % 2 = 0 then s.setFld pgRas F.ras_INJ_CTRL_ENABLE 0
    else if v / 65536 = 0x1A7E then s.setFld pgRas F.ras_INJ_CTRL_ENABLE 1 else s))

/-- A write of INJ_CMD with GO (R490): refused while injection is not enabled; otherwise `k` injects at the target, or names none. -/
def State.inject (s : State) (kind : Nat) (target : Bool) (k : State → Nat → Option State) : State :=
  s.regWrite pgRas 0x0AC (fun s =>
    let s1 := (s.setFld pgRas F.ras_INJ_CMD_KIND kind).setFld pgRas F.ras_INJ_CMD_TARGET (b2n target)
    if s1.fld pgRas F.ras_INJ_CTRL_ENABLE = 0 then s1.setFld pgRas F.ras_INJ_STATUS_RESULT 2
    else match k s1 (s1.pair64 pgRas F.ras_INJ_ADDR_LO_ADDR F.ras_INJ_ADDR_HI_ADDR) with
      | some s2 => s2.setFld pgRas F.ras_INJ_STATUS_RESULT 0
      | none => s1.setFld pgRas F.ras_INJ_STATUS_RESULT 1)

/-- What an injection address names (R490): a column, or a Well word. -/
inductive InjAt where
  | column (key : Nat)
  | word (w : Nat)
  deriving DecidableEq, Repr

/-- The authoritative copy of an injection's byte (R490): with TARGET 0 of a PF DVA; with TARGET 1 the first column of a session's page. [DESIGN CHOICE: log entry 112] -/
def State.injAt (s : State) (target : Bool) (a : Nat) : Option InjAt × State :=
  if target then
    let x := s.sesOf (a % 2 ^ 32)
    let l := a / 2 ^ 32 % 256
    let hd := a / 2 ^ 40 % 16
    let page := (SMap.get x.runs [] (runIx l hd))[64 * (a / 2 ^ 44) / max 1 (mdTpp (s.model x.model).md)]?
    (page.map (fun p => .column (p.col 0 0)), s)
  else if s.addrFault 0 a false then (none, s)
  else
    let r := s.tileAt (tileIx 0 (a / 2 ^ 32) (a / 65536 % 65536))
    match r.well with
    | some f => (some (.word ((f * 65536 + a % 65536) / 8)), s)
    | none =>
      match r.stack with
      | some loc => let c := s.tileCol (s.obj 0 (a / 2 ^ 32)).ver loc (a % 65536); (c.1.map .column, c.2)
      | none => (none, s)

/-- Corrupt `n` byte-symbols of a column (R90, R490): which ones, and to what, is free. [DESIGN CHOICE: log entry 112] -/
def corruptCol (d : Nat → Nat) (n : Nat) (c : Column) : Column :=
  (List.range n).foldl (fun (c : Column) i =>
    let p := (d 0 + i) % 36
    c.set p (c.getD p 0#8 ^^^ BitVec.ofNat 8 (1 + d (i + 1) % 255))) c

/-- INJECT_CORRUPT (R490): a write of INJ_CMD with GO and KIND 1 to 3. -/
def execInjectCorrupt (kind : Fin 3) (target : Bool) (s : State) : Out :=
  let n := kind.val + 1
  .next (s.inject n target (fun s a =>
    let t := s.injAt target a
    match t.1 with
    | none => none
    | some (.column k) =>
      let b := t.2.free
      some { t.2.setCol k (corruptCol (fun i => Config.freeNat (b + i)) n (t.2.col k)) with free := b + n + 1 }
    | some (.word w) => some { t.2 with mem := { t.2.mem with wellBad := SMap.set t.2.mem.wellBad 0 w n } }))

/-- INJECT_POISON (R490): a write of INJ_CMD with GO and KIND 4. -/
def execInjectPoison (target : Bool) (s : State) : Out :=
  .next (s.inject 4 target (fun s a =>
    let t := s.injAt target a
    match t.1 with
    | none => none
    | some (.column k) => some (t.2.setCol k (poisonCol (t.2.col k)))
    | some (.word w) => some { t.2 with mem := { t.2.mem with wellBad := SMap.set t.2.mem.wellBad 0 w 4 } }))

/-- A bank pair fails (R472): its entries cannot be read, and no page slot on it is given out again. -/
def State.failPair (s : State) (pair : Nat) : State := (s.retirePair pair).losePairs (· == pair)

/-- INJECT_PART_FAILURE (R490): a write of INJ_CMD with GO and KIND 5 fails a part in service, which is handled as a real failure. A
keeper core that fails stops its heartbeat: HEARTBEAT_TIMEOUT then retires its die (R474). [DESIGN CHOICE: log entry 112] -/
def execInjectPartFailure (s : State) : Out :=
  .next (s.inject 5 false (fun s a =>
    let i := a % 65536
    match a / 65536 % 256 with
    | 1 => if i < 32 ∧ s.engState i ≠ eOffline then some (s.retireEngine i) else none
    | 2 => if i / 8 < 10 ∧ i % 8 < pumpCount (i / 8) ∧ !(s.pmp.retired.contains i) ∧ s.fld (pgPmp (i / 8)) F.hdr_STATE ≠ 5
        then some (s.retirePump (i / 8) (i % 8)) else none
    | 3 => if i < 4 ∧ s.dieUp i then some (s.setKeeper i { s.keeper i with failed := true }) else none
    | 4 => if i / 1024 < 20 ∧ !(s.stackRetired (i / 1024)) ∧ !(s.bkt.retired.contains i) then some (s.failPair i) else none
    | 5 => if i / 32 < 20 then
        (match (s.chanOf (i / 32) (i % 32)).st with
         | .retired | .lost | .off => none
         | _ => some (s.loseChan (i / 32) (i % 32)))
        else none
    | 6 => if i < 20 ∧ !(s.stackRetired i) then some (s.retireStack i) else none
    | 7 => if i < 4 ∧ s.dieUp i then some (s.retireDie i) else none
    | 8 => if h : i / 4 < 12 then
        (if s.portReady (i / 4) then some ((execLaneLockLoss ⟨i / 4, h⟩ ⟨i % 4, Nat.mod_lt _ (by decide)⟩ s).after s) else none)
        else none
    | 9 => if i < 12 ∧ s.portState i ≠ pOffline then some ((s.raise (pgGll i) 4).retirePort i) else none
    | _ => none))

end Sys2Proof.Machine
end

