-- ==== Sys2Proof/Machine/Time.lean ====
section
/-! DEFINITION. Host time and what follows from it: publications and copies (R35 to R44), telemetry windows (R381 to R384), slot
weights (R49 to R51), the priming lead (R188) and the power governor (R385). -/
namespace Sys2Proof.Machine
open Sys2Proof

/-- The word a write of a _LO register has staged (R66, R67). [DEDUCED: log entry 12] -/
def State.staged (s : State) (pg : Page) (bank off : Nat) : Nat := (SMap.get s.stage (resetWord pg bank off) (regKey pg bank off)).toNat

/-! ## Publications -/

/-- A publication is taken (R36): it is on its way to every block that holds a copy. -/
def State.takePublication (s : State) (v : Nat) : State :=
  let s1 := (s.setFld pgTop F.top_HOST_TIME_STATUS_VALID 1).setFld pgTop F.top_HOST_TIME_STATUS_STALE 0
  let w : W64 := BitVec.ofNat 64 v
  { s1 with hostTime := w, inflight := copyBlocks.foldl (fun m b => SMap.set m [] b (SMap.get m [] b ++ [w])) s1.inflight }

/-- HOST_TIME_PUBLISH (R35, R36): a write of HOST_TIME_HI publishes; a lower value than the one held is ignored and reported. -/
def execHostTimePublish (hi : W32) (s : State) : Out :=
  .next (s.regWrite pgTop 0x044 fun s =>
    let v := s.staged pgTop 0 0x040 + 2 ^ 32 * hi.toNat
    if v < s.hostTime.toNat then
      ((s.setFld pgTop F.top_HOST_TIME_STATUS_REGRESSED 1).bump pgTop F.top_HOST_TIME_STATUS_REGRESS_COUNT 1).logErr 1 pgTop 0 0 v
    else s.takePublication v)

/-- The stopwatch of a block takes a publication at a count (R44). Two publications at one count give no scale that the spec states:
it is a free value. [DESIGN CHOICE: log entry 31] -/
def State.calibrate (s : State) (blk host count : Nat) : State :=
  let x := SMap.get s.watches {} blk
  let d := s.draw
  let scale := if x.haveRef ∧ host > x.refHost then
      some (if count = x.refCount then d.1 else (host - x.refHost) * 2 ^ 24 / (count - x.refCount)) else x.scale
  { d.2 with watches := SMap.set s.watches {} blk ⟨count, scale, host, count, true⟩ }

/-- The telemetry window length that TEL.WINDOW asks for, in ns. [DESIGN CHOICE: log entry 30] -/
def State.windowNs (s : State) : Nat := 1000 * max 10 (s.fld pgTel F.tel_WINDOW_WINDOW_US)

/-- HOST_TIME_COPY_UPDATE (R41, R44, R375, R376): a block takes the oldest publication on its way to it, its stopwatch standing at `count`; a
scheduler's gate lists follow. The first one opens the block's telemetry window (R381). [DESIGN CHOICE: log entry 30] -/
def execHostTimeCopyUpdate (blk : Fin 44) (count : W64) (s : State) : Out :=
  let b := blk.val
  match SMap.get s.inflight [] b with
  | [] => .next s
  | v :: vs =>
    if count.toNat < (SMap.get s.watches {} b).count then .next s
    else
      let s1 : State := { s with inflight := SMap.set s.inflight [] b vs, copies := SMap.set s.copies 0#64 b v }
      let s2 := s1.calibrate b v.toNat count.toNat
      let s3 : State := match SMap.find s2.tel.wins b with
        | some _ => s2
        | none => { s2 with tel := { s2.tel with wins := SMap.put s2.tel.wins b (s2.windowNs, v.toNat / s2.windowNs) } }
      .next (if b ≥ 16 then s3.gateUpdate (b - 16) v.toNat else s3)

/-- HOST_TIME_STALE (R36): STALE_LIMIT_US have passed by the IOD's stopwatch since the last publication taken. [DEDUCED: log entry 32] -/
def execHostTimeStale (s : State) : Out :=
  if s.fld pgTop F.top_HOST_TIME_CFG_STALE_LIMIT_US = 0 ∨ !s.timeValid ∨ s.flag pgTop F.top_HOST_TIME_STATUS_STALE then .next s
  else
    let s1 := s.setFld pgTop F.top_HOST_TIME_STATUS_STALE 1
    .next (if s1.flag pgTop F.top_HOST_TIME_CFG_STALE_IRQ then s1.irq 0 0 else s1)

/-! ## Slot weights -/

/-- Is a quadrant pseudo-channel in service? -/
def State.pcInService (s : State) (q p : Nat) : Bool :=
  match (s.chanOf (5 * q + p / 64) (p % 64 / 2)).st with | .off | .retired | .lost => false | _ => true

/-- The keeper's samples of the mean latencies of its pseudo-channels (R49, R50): runs of slow windows, and for one that has been marked
slow the windows since it was (held plus one). [DESIGN CHOICE: log entry 33] -/
def State.countSlow (s : State) (q span : Nat) (lat : Nat → Nat) (med : Nat) : State :=
  (List.range 320).foldl (fun s p =>
    let k := 320 * q + p
    if s.pcInService q p && decide (med > 0) && decide (4 * lat p ≥ 5 * med) then
      let n := SMap.get s.cis.slowRun 0 k + span
      let fast := if n ≥ 16 then SMap.put s.cis.fastRun k 1 else s.cis.fastRun
      { s with cis := { s.cis with slowRun := SMap.set s.cis.slowRun 0 k n, fastRun := fast } }
    else
      let f := SMap.get s.cis.fastRun 0 k
      { s with cis := { s.cis with slowRun := SMap.set s.cis.slowRun 0 k 0, fastRun := SMap.set s.cis.fastRun 0 k (if f = 0 then 0 else f + span) } }) s

/-- The weight of R49: round(8 × median / mean), from 1 to 8. [DESIGN CHOICE: log entry 33] -/
def slowWeight (med mean : Nat) : Nat := max 1 (min 8 ((16 * med + mean) / (2 * max 1 mean)))

/-- The weight that slot `j` of a quadrant is to have after a sample: lowered when one of its pseudo-channels has just been marked slow, or has
been and the change was deferred (R51); 8 again when none that was marked has been slow for 64 windows (R50). [DESIGN CHOICE: log entry 33] -/
def State.wantWeight (s : State) (q span : Nat) (lat : Nat → Nat) (med j w : Nat) : Nat :=
  let ps := (List.range 5).map (· + 5 * j)
  let run := fun (p : Nat) => SMap.get s.cis.slowRun 0 (320 * q + p)
  let fast := fun (p : Nat) => SMap.get s.cis.fastRun 0 (320 * q + p)
  let marked := ps.filter (fun p => decide (run p ≥ 16))
  let fresh := marked.filter (fun p => decide (run p < 16 + span) || w == 8)
  let once := ps.filter (fun p => decide (fast p > 0))
  if w = 0 then 0
  else if !fresh.isEmpty then fresh.foldl (fun a p => min a (slowWeight med (lat p))) 8
  else if !once.isEmpty && once.all (fun p => decide (fast p > 64)) then 8 else w

/-- The keeper steers the slot weights of its quadrant (R49 to R51): one new version holds every change; without a version that no object
records the change waits. [DESIGN CHOICE: log entry 33] -/
def State.steer (s : State) (q span : Nat) (lat : Nat → Nat) : State :=
  let med := median (((List.range 320).filter (s.pcInService q)).map lat)
  let s1 := s.countSlow q span lat med
  let cur := s1.fld (pgCisQ q) F.cisq_HASH_CFG_CUR_VER
  let w := fun (j : Nat) => s1.fld (pgCisQ q) (slotFld cur j)
  if (List.range 64).all (fun j => s1.wantWeight q span lat med j (w j) == w j) || s1.cis.weightPend.any (fun st => st / 5 == q) then s1
  else match s1.freeVersion q with
    | none => s1
    | some v =>
      let s2 := s1.newTable q v (fun j x => s1.wantWeight q span lat med j x)
      { s2 with cis := { s2.cis with fastRun := SMap.keep s2.cis.fastRun (fun k => !(k / 320 == q && decide (SMap.get s2.cis.fastRun 0 k > 64))) } }

/-- What waits for a slot-table version that nothing records: the weights of retired stacks (R476). [DESIGN CHOICE: log entry 33] -/
def State.retryWeights (s : State) (q : Nat) : State :=
  if s.cis.weightPend.any (fun st => st / 5 == q) then
    match s.freeVersion q with
    | some v => s.dropWeights q v
    | none => s
  else s

/-- The quadrants whose lines an object's tiles lie in. -/
def Obj.spreadQuads (x : Obj) : List Nat := if x.full then [0, 1, 2, 3] else [x.home]

/-- Is an object to be placed again: READY, SPREAD, not locked, without a move under way, and recording a version that is not current (R51)? -/
def State.migrates (s : State) (fn o : Nat) : Bool :=
  let x := s.obj fn o
  x.st == .ready && x.layout == 0 && !x.migLock && !(x.spreadQuads.all (fun q => x.ver q == s.fld (pgCisQ q) F.cisq_HASH_CFG_CUR_VER))
    && !(s.mem.moves.any (fun m => m.active && m.fn == fn && m.obj == o))

/-- Every tile of an object takes a place under the versions in force, with its columns; none if one finds no place (R51). [DESIGN CHOICE: log entry 35] -/
def State.placeAgain (s : State) (fn o : Nat) : Option State :=
  let x := s.obj fn o
  let y : Obj := { x with slotVer := sumTo 4 (fun q => 4 ^ q * (if x.spreadQuads.contains q then s.fld (pgCisQ q) F.cisq_HASH_CFG_CUR_VER else x.ver q)) }
  ((List.range (x.tilesM1 + 1)).foldl (fun (a : Option State) t =>
    match a with
    | none => none
    | some s =>
      let r := s.tileAt (tileIx fn o t)
      match r.stack with
      | none => some s
      | some loc => (s.freeLoc y).map (fun b =>
          (((s.useLoc b y.slotVer true).copyLoc x.ver loc y.ver b).useLoc loc x.slotVer false).setTile (tileIx fn o t) { r with stack := some b })) (some s)).map
    (fun s1 => x.spreadQuads.foldl State.retryWeights (s1.setObj fn o y))

/-- SLOT_VERSION_MIGRATE (R51): a spread object that records a version older than a current one is placed again under the versions in force,
if every tile of it finds a place; a version that nothing records any more is free. [DESIGN CHOICE: log entry 35] -/
def execSlotVersionMigrate (fn : Fin 65) (obj : W16) (s : State) : Out := s.gate fun s =>
  if s.migrates fn obj.toNat then .next ((s.placeAgain fn obj.toNat).getD s) else .next s

/-! ## The priming lead -/

/-- LEAD_MAX as taken: 0 as 1, 9 to 15 as 8. [DESIGN CHOICE: log entry 20] -/
def State.leadMax (s : State) (q m : Nat) : Nat := max 1 (min 8 (s.fldB (pgTir q) m F.tir_MODEL_PRIME_LEAD_MAX))

/-- The keeper looks at each model's priming misses of a sample of `span` windows (R188): LEAD rises in all four TIR pages, or cause LEAD_MAX
is set. [DESIGN CHOICE: log entry 20] [DEDUCED: log entry 34] -/
def State.raiseLeads (s : State) (span : Nat) : State :=
  s.ses.models.foldl (fun (s : State) (e : Nat × Model) =>
    let m := e.1
    let q := s.sealer
    let n := (s.model m).misses
    let s0 := s.setModel m { s.model m with misses := 0 }
    let lead := s.fldB (pgTir q) m F.tir_MODEL_PRIME_LEAD
    if n ≤ span * s.fldB (pgTir q) m F.tir_MODEL_PRIME_MISS_THRESH then s0
    else if lead ≥ s.leadMax q m then s0.raise (pgTir q) 3
    else
      ((List.range 4).foldl (fun (s : State) i => (s.setFldB (pgTir i) m F.tir_MODEL_PRIME_LEAD (lead + 1)).bumpB (pgTir i) m
        F.tir_MODEL_RAISES_COUNT 1) s0).telEvent (pgKpr q) q 2) s

/-! ## Closing a window -/

/-- The CHANNEL records of a stack (R382): 16 pseudo-channels each. -/
def State.telChannels (s : State) (st span stamp : Nat) (lat : Nat → Nat) : State :=
  (List.range 4).foldl (fun s j =>
    let retries := sumTo 8 (fun i => SMap.get s.cis.linkWin 0 (st * 32 + 8 * j + i))
    s.telRecord 3 (pgCis st) span stamp (leBytes 1 st ++ leBytes 1 (16 * j) ++ (List.range 16).flatMap (fun i => leBytes 2 (lat (st % 5 * 64 + 16 * j + i)))
      ++ leBytes 2 retries) 0) s

/-- A keeper's window closes: the latencies of its quadrant's pseudo-channels, its control decisions, and its CHANNEL records. -/
def State.closeKeeper (s : State) (q span stamp : Nat) (lat : Nat → Nat) : State :=
  let s1 := (List.range 160).foldl (fun s k =>
    s.setReg (pgCis (5 * q + k / 32)) 0 (0x100 + 4 * (k % 32)) (BitVec.ofNat 32 (lat (2 * k) % 65536 + 65536 * lat (2 * k + 1)))) s
  let s2 := (s1.steer q span lat).retryWeights q
  let s3 := if q = s2.sealer then s2.raiseLeads span else s2
  let s4 := (List.range 5).foldl (fun s k => s.telChannels (5 * q + k) span stamp lat) s3
  { s4 with cis := { s4.cis with
      ceWin := SMap.keep s4.cis.ceWin (fun k => !(k / 320 == q)), linkWin := SMap.keep s4.cis.linkWin (fun k => !(k / 160 == q)) } }

/-- One step of the governor for a compute die (R385, R524): the new VDD_C, and whether cause FLOOR is set. `hot` stands for a die at
TJ_ALERT. [DEDUCED: log entry 34] -/
def governVdd (vdd step vmin vmax e d p dieLimit pkgLimit : Nat) (hot : Bool) : Nat × Bool :=
  if hot || decide (e > dieLimit) || decide (d > 240) || decide (p > pkgLimit) then
    let v := max (vdd - step) vmin
    (v, v == vmin)
  else if 100 * e ≤ 97 * dieLimit ∧ 100 * d ≤ 97 * 240 ∧ 100 * p ≤ 97 * pkgLimit then (min (vdd + step) vmax, false)
  else (vdd, false)

/-- The governor adjusts every die at a window close; whether a die stepped down. `x` gives the samples: 0–3 die power, 4–7 engine power, 10
package power. [DEDUCED: log entry 34] -/
def State.govern (s : State) (x : Nat → Nat) : Bool × State :=
  let vmin := max 650 (s.fld pgPwr F.pwr_VDD_CFG_VMIN)
  let vmax := min 850 (s.fld pgPwr F.pwr_VDD_CFG_VMAX)
  let step := max 1 (s.fld pgPwr F.pwr_VDD_CFG_VSTEP)
  let pkg := max 1000 (min 2400 (s.fld pgPwr F.pwr_PKG_LIMIT_WATTS))
  (List.range 4).foldl (fun (a : Bool × State) n =>
    let vdd := a.2.fldB pgPwr n F.pwr_DIE_STATUS_VDD
    let hot := decide (x (15 + n) ≥ a.2.fld pgPkg F.pkg_TJ_ALERT_TJ)
    let lim := max 50 (min 240 (a.2.fldB pgPwr n F.pwr_DIE_LIMIT_WATTS))
    let r := governVdd vdd step vmin vmax (x (4 + n)) (x n) (x 10) lim pkg hot
    let s1 := ((a.2.setFldB pgPwr n F.pwr_DIE_STATUS_VDD r.1).setFldB pgPwr n F.pwr_DIE_STATUS_POWER (x n)).setFldB pgPwr n F.pwr_DIE_STATUS_ENGINE (x (4 + n))
    let s2 := if r.2 then s1.raise pgPwr 0 else s1
    (a.1 || decide (r.1 < vdd), if r.1 = vdd then s2 else (s2.event pgPwr).telEvent pgPwr 8 6)) (false, s)

/-- Is ALERT# low (R520)? -/
def State.alertLow (s : State) : Bool := s.reg pgPkg 0 0x054 &&& ~~~ (s.reg pgPkg 0 0x058) != 0#32

/-- The telemetry block's window closes. The samples: 0–3 die power, 4–7 estimated engine power, 8 stacks, 9 IOD, 10 package power, in W;
11–14 handshake rates, MHz; 15–18 junction temperatures of the compute dies, 19 of the IOD, 20 the hottest regulator, °C; 21 VIN and 23 VAUX, mV; 22 VIN
current, 1/8 A. [DESIGN CHOICE: log entry 36] -/
def State.closeTel (s : State) (span stamp : Nat) (x : Nat → Nat) : State :=
  let s1 := (List.range 4).foldl (fun s n => s.setFld pgPkg ⟨0x048, 8 * n + 7, 8 * n, .RO, 0⟩ (x (15 + n))) s
  let s2 := (((s1.setReg pgPkg 0 0x04C (BitVec.ofNat 32 (x 19 % 256 + 256 * (x 20 % 256)))).setFld pgPkg F.pkg_VIN_MV (x 21)).setFld pgPkg
    F.pkg_VIN_AMPS_DIV8 (x 22)).setFld pgPkg F.pkg_VAUX_MV (x 23)
  let g := s2.govern x
  let s3 := (g.2.setReg pgPwr 0 0x054 (BitVec.ofNat 32 (x 10 % 4096)))
  let s4 := if g.1 then s3.bump pgPwr F.pwr_THROTTLED_VALUE span else s3
  let s5 := (List.range 32).foldl (fun s e => s.setFld (pgMxe e) F.mxe_RATE_MHZ (x (11 + e / 8))) s4
  let high := x 10 > max 1000 (min 2400 (s5.fld pgPwr F.pwr_PKG_LIMIT_WATTS))
  let s6 := { s5 with tel := { s5.tel with overTime := if high then s5.tel.overTime + span else 0 } }.refreshAlerts
  let s7 := if s6.alertLow then s6.bump pgPkg F.hdr_EVT_COUNT span else s6
  let temps := (List.range 20).flatMap (fun st => leBytes 1 (s7.fld (pgCis st) F.cis_THERM_TEMP_C))
  let levels := (List.range 10).flatMap (fun i => leBytes 1 (s7.fld (pgCis (2 * i)) F.cis_THERM_LEVEL + 16 * s7.fld (pgCis (2 * i + 1)) F.cis_THERM_LEVEL))
  let s8 := s7.telRecord 4 pgTel span stamp (temps ++ levels ++ (List.range 5).flatMap (fun i => leBytes 1 (x (15 + i)))) 0
  s8.telRecord 5 pgPwr span stamp ((List.range 11).flatMap (fun i => leBytes 2 (x i)) ++ (List.range 4).flatMap (fun n =>
    leBytes 2 (s8.fldB pgPwr n F.pwr_DIE_STATUS_VDD)) ++ (List.range 4).flatMap (fun n => leBytes 2 (x (11 + n)))) 0

/-- The page of a block that holds a copy of host time. -/
def blockPage (b : Nat) : Page := if b < 4 then pgKpr b else if b < 8 then pgTir (b - 4) else if b = 8 then pgTel else pgQdr (b - 16)

/-- A block's window of length `w` numbered `i` closes, with the windows passed since as one sample (R381, R382): `x` gives its measurements. -/
def State.closeWindow (s : State) (b w i : Nat) (x : Nat → Nat) : State :=
  let n := s.windowNs
  let k := (s.timeAt b).toNat / n
  let span := 1 + (k - (i + 1) * w / n)
  let s1 : State := { s with tel := { s.tel with wins := SMap.put s.tel.wins b (n, k) } }
  if b < 4 then s1.closeKeeper b span (i * w) x
  else if b < 8 then { s1 with mem := { s1.mem with wellCe := SMap.set s1.mem.wellCe 0 (b - 4) 0 } }
  else if b = 8 then s1.closeTel span (i * w) x
  else s1.telQueues (b - 16) span (i * w)

/-- TELEMETRY_WINDOW_CLOSE (R381 to R385): a block whose copy of host time has reached the end of its window closes the windows passed as one
sample. `samples` are the block's measurements: a keeper's the mean latencies of its quadrant's 320 pseudo-channels, the telemetry block's those
that `closeTel` names. -/
def execTelemetryWindowClose (blk : Fin 44) (samples : List W16) (s : State) : Out := s.gate fun s =>
  match SMap.find s.tel.wins blk with
  | none => .next s
  | some (w, i) =>
    if (s.timeAt blk).toNat < (i + 1) * w ∨ !s.timeValid ∨ !(s.pageLive (blockPage blk)) then .next s
    else .next (s.closeWindow blk w i (fun k => (samples.getD k 0#16).toNat))

end Sys2Proof.Machine
end

