-- ==== Sys2Proof/Machine/Tenant.lean ====
section
/-! DEFINITION. The life of a tenant function (R409 to R416). -/
namespace Sys2Proof.Machine
open Sys2Proof

/-- Are both ring bases of a function non-zero (R409)? Their bits [11:0] are ignored. -/
def State.ringsSet (s : State) (t : Nat) : Bool :=
  s.pair64 (pgTnt t) F.tnt0_SQ_BASE_LO_ADDR F.tnt0_SQ_BASE_HI_ADDR / 4096 != 0 && s.trBase t != 0

/-- Is accepted work held for a function: a session that is not GONE, an outstanding request, or a pending record? -/
def State.hasWork (s : State) (t : Nat) : Bool :=
  s.sess.any (fun (e : Nat × Session) => decide (e.1 < 2 ^ 32) && sesTenant e.1 == t && (e.2.inUse || e.2.closing))
    || !((s.ten t).pend.isEmpty) || !((s.ten t).purges.isEmpty)

/-- DETACHED when work is kept for a function, else OFF (R409). [DEDUCED: log entry 101] -/
def State.restState (s : State) (t : Nat) : Nat := if s.hasWork t then fnDetached else fnOff

/-- A function in OFF or DETACHED is enabled (R409): READY with its rings set, else cause RING_CFG. `rest` is where it stays in that case. -/
def State.enableNow (s : State) (t rest : Nat) : State :=
  if s.ringsSet t then (((s.setFld (pgTnt t) F.hdr_ENABLE 1).setFnState t fnReady)).startRead t
  else ((s.setFld (pgTnt t) F.hdr_ENABLE 0).raise (pgTnt t) 0).setFnState t rest

/-- Discard a function's sessions, requests and pending records as PURGE does, writing no record (R411, R416). -/
def State.discardWork (s : State) (t : Nat) : State :=
  let hs := (s.sess.filter (fun (e : Nat × Session) => decide (e.1 < 2 ^ 32) && sesTenant e.1 == t)).map (fun e => e.1)
  let s1 := hs.foldl State.discardSilent s
  s1.setTen t { s1.ten t with pend := [], purges := [], refusing := false, entry := none }

/-- An import or an export in hand stops and completes CANCELLED (R411, R413). [DEDUCED: log entry 93] -/
def State.stopExchange (s : State) (t : Nat) : State :=
  (s.tenantSessions t).foldl (fun s h =>
    match (s.sesOf h).headReq with
    | some r => if (s.sesOf h).st = .active ∧ (r.typ = tImport ∨ r.typ = tExport) then s.complete h r stCancelled else s
    | none => s) s

/-- A READY or FAULT function starts its shut-down (R410, R411): KEEP_WORK is sampled, and no entry is taken any more. -/
def State.quiesce (s : State) (t : Nat) (flr : Bool) : State :=
  let x := s.ten t
  let s1 := s.setTen t { x with keep := s.flag (pgTnt t) F.tnt0_T_CTRL_KEEP_WORK, entry := none, reading := x.reading && !flr }
  ((((s1.setFld (pgTnt t) F.hdr_ENABLE 0).setFld (pgTnt t) fFlr (b2n flr)).setFnState t fnQuiescing).stopExchange t).noteReset 3 1 0

/-- A write of 0 to ENABLE (R409, R412). -/
def State.disable (s : State) (t : Nat) : State :=
  let st := s.fnState t
  if st = fnReady ∨ st = fnFault then s.quiesce t false
  else if st = fnQuiescing then (s.setFld (pgTnt t) F.hdr_ENABLE 0).setFld (pgTnt t) fEnableLatched 0
  else s.setFld (pgTnt t) F.hdr_ENABLE 0

/-- A write of 1 to ENABLE (R409, R412). -/
def State.enable (s : State) (t : Nat) : State :=
  let st := s.fnState t
  if st = fnOff ∨ st = fnDetached then s.enableNow t st
  else if st = fnQuiescing then (s.setFld (pgTnt t) F.hdr_ENABLE 1).setFld (pgTnt t) fEnableLatched 1
  else s

/-- May a shut-down end (R411): the reads are done, the rounds that hold the tenant's sessions have ended, and what they produced is
journalled? [DEDUCED: log entry 101] -/
def State.shutdownReady (s : State) (t : Nat) : Bool :=
  s.fnState t == fnQuiescing && !((s.ten t).reading) && !((s.ten t).taking)
    && s.sess.all (fun (e : Nat × Session) => !(decide (e.1 < 2 ^ 32) && sesTenant e.1 == t && (s.busy e.1 || s.journalling e.1)))

/-- A shut-down ends (R411, R412, R415): work is kept or discarded, and the function takes its next state. [DEDUCED: log entry 101] -/
def State.endShutdown (s : State) (t : Nat) : State :=
  let s1 := if (s.ten t).keep then s else s.discardWork t
  let latched := s1.flag (pgTnt t) fEnableLatched
  let s2 := (s1.setFld (pgTnt t) fEnableLatched 0).setFld (pgTnt t) fFlr 0
  if !((s2.ten t).present) then s2.setFnState t fnNotProvisioned
  else if latched then s2.enableNow t (s2.restState t)
  else s2.setFnState t (s2.restState t)

/-- Function Level Reset of a function (R410 to R412, R415, R479): its shut-down starts with the KEEP_WORK held before, and its registers
return to their reset values but for STATE and what R60 keeps. [DEDUCED: log entry 101] -/
def State.flr (s : State) (t : Nat) : State :=
  let st := s.fnState t
  let s1 := if st = fnReady ∨ st = fnFault then s.quiesce t true
    else if st = fnQuiescing then s.setTen t { s.ten t with reading := false } else s
  let keepBits := s1.reg (pgTnt t) 0 0x00C
  let s2 := s1.resetRegs (fun k i o => (i == t && decide (22 ≤ k ∧ k ≤ 26) && o != 0x010 && o != 0x014 && o != 0x01C) || (k == 27 && i == t + 1))
  let s3 := { s2 with flog := SMap.keep s2.flog (fun k => k / 64 != t) }
  let s4 := (s3.setReg (pgTnt t) 0 0x00C (BitVec.ofNat 32 (setBitsNat keepBits.toNat 4 4 0)))
  let s5 := s4.setTen t { s4.ten t with d3 := false, unsignalled := 0 }
  if st = fnReady ∨ st = fnFault then s5 else s5.noteReset 3 1 0

/-- VF Enable is cleared, or NumVFs no longer covers a function (R409, R415): an FLR, and the function is absent. [DEDUCED: log entry 101] -/
def State.removeFn (s : State) (t : Nat) : State :=
  let s1 := s.flr t
  let s2 := s1.setTen t { s1.ten t with present := false }
  if s2.fnState t = fnQuiescing then s2 else s2.setFnState t fnNotProvisioned

/-- The port that presents a tenant, and its place there (R391). -/
def State.tenPort (s : State) (t : Nat) : Nat × Nat :=
  if s.fld pgPci F.pci_LINK_CFG_MODE = 1 then (t / 32, t % 32) else (0, t)

end Sys2Proof.Machine
end

