-- ==== Sys2Proof/Machine/Image.lean ====
section
/-! DEFINITION. The firmware image (R496 to R499), its measurements (R510), recovery (R501), and orders 6 to 8 of a boot (R493, R505). -/
namespace Sys2Proof.Machine
open Sys2Proof

/-! ## Contents of the part -/

/-- The fused hash of the firmware key and of the debug key, the serial number, the digest of the boot ROM, the certificate chain, and the
low bits of IDCODE: what the part holds and the spec does not give. -/
def fwKeyHash : List Byte := slice (Config.partBytes 0) 0 32
def debugKeyHash : List Byte := slice (Config.partBytes 1) 0 32
def partSerial : List Byte := slice (Config.partBytes 2) 0 8
def romDigest : List Byte := slice (Config.partBytes 3) 0 64
def certChain : List Byte := Config.partBytes 4

/-! ## The image -/

/-- The bytes of the image slot in all (R496). -/
def slotSize : Nat := 48 * 2 ^ 20
/-- `n` bytes of a flash region from offset `o`; bytes that were never written read erased. [DEDUCED: log entry 114] -/
def flashAt (img : List Byte) (o n : Nat) : List Byte :=
  let t := (img.drop o).take n
  t ++ List.replicate (n - t.length) 0xFF#8
/-- The number in `n` bytes of a flash region. -/
def flashNum (img : List Byte) (o n : Nat) : Nat := leNat (flashAt img o n)

/-- SVN and COUNT of a manifest (R498). -/
def imgSvn (img : List Byte) : Nat := flashNum img 0x0C 1
def imgCount (img : List Byte) : Nat := flashNum img 0x0D 1
/-- TYPE, OFFSET and LENGTH of entry `i` (R498). -/
def compType (img : List Byte) (i : Nat) : Nat := flashNum img (0x60 + 80 * i) 1
def compOff (img : List Byte) (i : Nat) : Nat := flashNum img (0x64 + 80 * i) 4
def compLen (img : List Byte) (i : Nat) : Nat := flashNum img (0x68 + 80 * i) 4
/-- The digest of a component's bytes. -/
def compDigest (img : List Byte) (i : Nat) : List Byte := shake256 64 (flashAt img (compOff img i) (compLen img i))
/-- The entry of a component type. -/
def compOf (img : List Byte) (typ : Nat) : Option Nat := (List.range (imgCount img)).find? (fun i => compType img i == typ)

/-- Are MAGIC, FORMAT and the reserved bytes of the manifest right (R499)? -/
def imgHead (img : List Byte) : Bool :=
  flashNum img 0 4 == 0x30324B51 && flashNum img 4 4 == 1 && (flashAt img 0x0E 18).all (· == 0#8) && (flashAt img 0x560 160).all (· == 0#8)
    && (List.range 16).all (fun i => (flashAt img (0x61 + 80 * i) 3).all (· == 0#8) && (flashAt img (0x6C + 80 * i) 4).all (· == 0#8))

/-- Is the component table right (R499): the types, and the places of the components? -/
def imgTable (img : List Byte) : Bool :=
  let n := imgCount img
  let is := List.range n
  let count := fun (t : Nat) => (is.filter (fun i => compType img i == t)).length
  decide (1 ≤ n ∧ n ≤ 16) && [1, 2, 3, 0x10, 0x11, 0x12, 0x13].all (fun t => count t == 1) && decide (count 4 ≤ 1) && decide (n = 7 + count 4)
    && is.all (fun i =>
      let a := compOff img i
      let b := a + compLen img i
      decide (0x7A60 ≤ a ∧ b ≤ slotSize) && is.all (fun j => j == i || decide (b ≤ compOff img j ∨ compOff img j + compLen img j ≤ a)))

/-- Why an image is refused, as SEC.BOOT_STATUS.CAUSE gives it: the first condition of R499 that fails; 0 when every one holds. [DEDUCED: log entry 114] -/
def imageCause (img : List Byte) (fuse : Nat) : Nat :=
  if !(imgHead img) then 1
  else if (shake256 32 (flashAt img 0x20 64)) != fwKeyHash then 2
  else if !(Config.slhVerify (flashAt img 0x20 64) (flashAt img 0 0x600) (flashAt img 0x600 29792)) then 3
  else if imgSvn img < fuse then 4
  else if !(imgTable img) then 5
  else if (List.range (imgCount img)).any (fun i => compDigest img i != flashAt img (0x70 + 80 * i) 64) then 6
  else 0

/-! ## Recovery, and a good image -/

/-- The ROM enters recovery (R501): STAGE, CAUSE, IMAGE_BAD or SVN_LOW, and PF vector 3; no image runs. [DEDUCED: log entry 114] -/
def State.enterRecovery (s : State) (cause : Nat) : State :=
  let s1 := ((s.setFld pgSec F.sec_BOOT_STATUS_STAGE 0xF).setFld pgSec F.sec_BOOT_STATUS_CAUSE cause).setFld pgSec F.sec_BOOT_STATUS_FROM_HOST 0
  let s2 := (s1.setFld pgSec F.sec_BOOT_STATUS_SVN 0).setFld pgSec F.sec_IMAGE_VERSION_VERSION 0
  let s3 := (if cause = 7 then s2.raise pgSec 4 else s2).raise pgSec (if cause = 4 then 1 else 0)
  ({ s3 with boot := { s3.boot with running := false, recovery := true, fromHost := false, svn := 0, blobs := []
                                    meas := SMap.keep s3.boot.meas (fun k => k == 8) } }).irq 0 3

/-- Under a new profile (R505) the keepers map out every RETIRED and LOST channel again with nothing to move; lines are withdrawn afresh. -/
def State.regeometry (s : State) : State :=
  let s1 := { s with cis := { s.cis with exc := [], withdrawn := [], resUsed := [] } }
  (List.range 640).foldl (fun s k =>
    let st := k / 32
    let c := k % 32
    match (s.chanOf st c).st with
    | .retired | .lost =>
      let s2 := s.writeExc st c false true
      let q := quadOf st
      { s2 with cis := { s2.cis with withdrawn := SMap.set s2.cis.withdrawn 0 q (SMap.get s2.cis.withdrawn 0 q + ceilDiv s2.profile.spreadLines 640) } }
    | _ => s) s1

/-- The profile of the boot under way takes force: a new one that PROFILE_SELECT has named, or the one in force; functions beyond its count
are not provisioned (R31). -/
def State.takeProfile (s : State) : State :=
  let s1 := match s.boot.newProfile with
    | some p => if p = s.profile.num then s else ({ s with profile := Profile.ofNum p }).regeometry
    | none => s
  let s2 := s1.setFld pgSec F.sec_BOOT_STATUS_PROFILE s1.profile.num
  (List.range 64).foldl (fun s t => if t ≥ tenantCount s.profile then s.setFnState t fnNotProvisioned else s) s2

/-- An image has passed R499: its components are measured (R510) and run, and order 8 begins. -/
def State.runImage (s : State) (img : List Byte) (fromHost : Bool) : State :=
  let s1 := s.takeProfile
  let dig := fun (t : Nat) => match compOf img t with | some i => compDigest img i | none => List.replicate 64 0#8
  let blobs := [0x10, 0x11, 0x12, 0x13].map dig
  let m := SMap.setList s1.boot.meas [] 2 [shake256 64 (flashAt img 0 0x600), dig 1, dig 2, dig 3, dig 4, blobs.getD s1.profile.num []]
  let s2 := ((s1.setFld pgSec F.sec_BOOT_STATUS_STAGE 8).setFld pgSec F.sec_BOOT_STATUS_CAUSE 0).setFld pgSec F.sec_BOOT_STATUS_FROM_HOST (b2n fromHost)
  let s3 := (s2.setFld pgSec F.sec_BOOT_STATUS_SVN (imgSvn img)).setReg pgSec 0 0x044 (BitVec.ofNat 32 (flashNum img 8 4))
  ({ s3 with boot := { s3.boot with running := true, recovery := false, fromHost := fromHost, svn := imgSvn img, blobs := blobs, meas := m } }).bootReady

/-- Orders 6 and 7 of R493 with the image of the slot; `flashOk`: the flash could be read. -/
def State.bootSlot (s : State) (flashOk : Bool) : State :=
  let c := if flashOk then imageCause s.boot.slot s.boot.fuse else 7
  if c = 0 then s.runImage s.boot.slot false else s.enterRecovery c

/-- The value of a measurement index (R510), if the part answers with it now. -/
def State.measurement (s : State) (i : Nat) : Option (List Byte) :=
  if i = 1 then some romDigest
  else if i = 9 then
    some (leBytes 1 (s.fld pgSec F.sec_DEBUG_STATUS_UNLOCKED) ++ leBytes 1 (b2n s.boot.prod) ++ leBytes 1 (b2n s.boot.debugDis)
      ++ leBytes 1 (b2n s.boot.fromHost) ++ leBytes 1 s.boot.fuse ++ leBytes 1 s.boot.svn ++ leBytes 1 s.profile.num ++ [0#8])
  else if 2 ≤ i ∧ i ≤ 8 then SMap.find s.boot.meas i
  else none

/-- Its DMTF value type (R510). -/
def measType (i : Nat) : Nat :=
  if i = 1 then 0x80 else if i = 2 then 0x84 else if i ≤ 5 then 0x81 else if i ≤ 7 then 0x83 else if i = 8 then 0x82 else 0x85

end Sys2Proof.Machine
end

