-- ==== Sys2Proof/Machine/Reset.lean ====
section
/-! DEFINITION. Quadrant reset, warm device reset and cold reset (R479 to R481, R60, R67, R114, R153, R164, R207, R241, R282). -/
namespace Sys2Proof.Machine
open Sys2Proof

/-! ## What a reset ends -/

/-- The journal writes under way complete (R459): a reset keeps the journal. `n` bounds their number. [DEDUCED: log entry 108] -/
def State.finishJournal : Nat → State → State
  | 0, s => s
  | n + 1, s =>
    match s.ses.journal.find? (fun r => !r.done) with
    | none => s
    | some r => State.finishJournal n ((execJournalWriteComplete (BitVec.ofNat 32 r.ses) s).after s)

/-- Work in hand ends before the blocks' logic is reset: journal writes complete, rounds in flight are abandoned and will be sealed again. -/
def State.endWork (s : State) : State := (s.finishJournal (4 * s.ses.journal.length + 64)).abandonAll

/-- A compute die's logic is reset: its engines with both contexts, their program stores (R241), its pumps' work, its keeper core. -/
def State.resetDie (s : State) (q : Nat) : State :=
  let s1 := (s.abortPage (2 * q)).abortPage (2 * q + 1)
  let s2 := (List.range 8).foldl (fun s i =>
    let e := 8 * q + i
    let s1 := s.resetEngine e
    s1.setEng e { s1.eng e with prog := [], fw := none }) s1
  let s3 := s2.setKeeper q { failed := (s2.keeper q).failed }
  { s3 with
    pmp := { s3.pmp with queues := SMap.keep s3.pmp.queues (fun k => !(k / 8 == q)) }
    mem := { s3.mem with primeNow := SMap.del s3.mem.primeNow q, wellCe := SMap.del s3.mem.wellCe q }
    link := { s3.link with qdr := SMap.del s3.link.qdr q, queues := SMap.keep s3.link.queues (fun k => !(k / 128 == q)) } }

/-- The controllers of a stack's base die are reset (R114, R153): every tag is free and its slot clear (R146), no completion is posted, and the units' copies of the
micro-programs are those of the stores. [DEDUCED: log entry 108] -/
def State.resetStack (s : State) (st : Nat) : State :=
  let mine := fun (k n : Nat) => k / n == st
  let bus := SMap.keep s.bkt.bus (fun k => !(mine k 64))
  let units := SMap.keep s.bkt.units (fun k => !(mine k 1024))
  let fresh := (List.range 1024).foldl (fun (m : SMap BktUnit) i =>
    let k := st * 1024 + i
    let prog := (s.bkt.store.filter (fun e => e.1 / 256 == k / 16)).map (fun e => (e.1 % 256, e.2))
    SMap.set m {} k { prog := prog }) units
  { s with
    bkt := { s.bkt with
      tags := SMap.keep s.bkt.tags (fun k => !(mine k 256)), entries := SMap.keep s.bkt.entries (fun k => !(mine k 256))
      slots := SMap.keep s.bkt.slots (fun k => !(mine k (256 * 2064)))
      tail := SMap.keep s.bkt.tail (fun k => !(mine k 64)), head := SMap.keep s.bkt.head (fun k => !(mine k 64))
      units := fresh, bus := bus }
    cis := { s.cis with
      held := s.cis.held.filter (fun h => h.stack != st), yield := s.cis.yield.filter (fun h => h.stack != st)
      ceWin := SMap.keep s.cis.ceWin (fun k => !(mine k 64)), linkWin := SMap.keep s.cis.linkWin (fun k => !(mine k 32))
      scrubAt := SMap.del s.cis.scrubAt st, repair := SMap.del s.cis.repair st, measuring := s.cis.measuring.filter (· != st) } }

/-- A stack of a reset goes into self-refresh, unless it is retired (R114). -/
def State.toSelfRefresh (s : State) (st : Nat) : State :=
  if s.stackRetired st then s
  else
    let s1 := s.setStackState st 4
    { s1 with cis := { s1.cis with selfRefresh := if s1.cis.selfRefresh.contains st then s1.cis.selfRefresh else s1.cis.selfRefresh ++ [st] } }

/-! ## What the registers keep -/

/-- The block registers, by page kind number and offset, that quadrant and warm device resets leave (R114, R164, R479): base-die state, slice
modes, and the placement registers whose contents the objects rest on. [DEDUCED: log entry 108] -/
def resetKeeps (k o : Nat) : Bool :=
  (k == 19 && (o == 0x0B4 || o == 0x0B8 || o == 0x0BC)) || (k == 20 && o ≥ 0x040) || (k == 14 && (o == 0x040 || o == 0x044))
    || (k == 15 && (o == 0x050 || o == 0x058 || o == 0x05C || o == 0x068 || o == 0x06C || o == 0x070 || (0x07C ≤ o && o ≤ 0x084) || o == 0x08C))

/-- Counts kept since warm reset, which a quadrant reset leaves: column operations, bytes, array and vector handshakes. [DEDUCED: log entry 108] -/
def quadCounts (k o : Nat) : Bool :=
  (k == 21 && (o == 0x050 || o == 0x054)) || (k == 9 && (o == 0x064 || o == 0x068)) || (k == 8 && (o == 0x064 || o == 0x068))
    || (k == 17 && 0x06C ≤ o && o ≤ 0x078) || (k == 18 && (o == 0x068 || o == 0x06C))

/-- The registers that a warm device reset leaves beside those: host time, the PCIe link and the MSI-X tables, the security block, the error
log and what has been retired, the tenant functions' registers but what R60 names, and the package's record and straps (R479, R481). [DEDUCED: log entry 108] -/
def warmKeeps (k o : Nat) : Bool :=
  resetKeeps k o || (k == 1 && 0x040 ≤ o && o ≤ 0x048) || ((k == 2 || k == 3) && o ≥ 0x040) || k == 27
    || (k == 5 && (o ≤ 0x04C && o ≥ 0x040 || o == 0x05C || o == 0x060)) || (k == 7 && (o == 0x040 || o == 0x044 || o == 0x048 || (0x070 ≤ o && o ≤ 0x078)))
    || (decide (22 ≤ k ∧ k ≤ 26) && o != 0x010 && o != 0x014 && o != 0x01C)

/-- Registers return to their reset values but for those that `keeps` names and the STATE of pages that are OFFLINE. -/
def State.resetPages (s : State) (covers : Nat → Nat → Bool) (keeps : Nat → Nat → Bool) : State :=
  let off := s.regs.filter (fun e => e.1 % 2 ^ 28 == 0x00C && e.2.toNat % 16 == 5)
  let s1 := s.resetRegs (fun k i o => covers k i && !(keeps k o))
  let s2 : State := { s1 with regs := off.foldl (fun m e => SMap.put m e.1 e.2) s1.regs }
  { s2 with stage := SMap.keep s2.stage (fun k => !(covers (k / 2 ^ 36) (k / 2 ^ 28 % 256)) || decide (22 ≤ k / 2 ^ 36 ∧ k / 2 ^ 36 ≤ 26))
            latch := SMap.keep s2.latch (fun k => !(covers (k / 2 ^ 36) (k / 2 ^ 28 % 256)) || decide (22 ≤ k / 2 ^ 36 ∧ k / 2 ^ 36 ≤ 26)) }

/-- Repair commands in hand are forgotten; ROWS_REPAIRED stays (R114). -/
def State.clearRepair (s : State) (st : Nat) : State :=
  (s.setFld (pgCis st) F.cis_REPAIR_STATUS_BUSY 0).setFld (pgCis st) F.cis_REPAIR_STATUS_RESULT 0

/-! ## Quadrant reset -/

/-- Is a page of a kind and instance of quadrant `q`? -/
def inQuad (q k i : Nat) : Bool :=
  ((12 ≤ k && k ≤ 16) && i == q) || (k == 8 && i == q) || (k == 9 && i / 2 == q) || ((k == 17 || k == 18) && i / 8 == q)
    || ((k == 19 || k == 21) && i / 5 == q) || (k == 20 && i == q)

/-- A quadrant reset (R479, R480): the compute die, the controllers of its stacks' base dies and its program stores; stack contents, the Well,
the slot tables, exception entries, decoding tables, journal and commit table stay. -/
def State.quadReset (s : State) (q cause : Nat) : State :=
  let s1 := (s.endWork).resetDie q
  let s2 := (List.range 5).foldl (fun s k => s.resetStack (5 * q + k)) s1
  let s3 := s2.resetPages (inQuad q) (fun k o => resetKeeps k o || quadCounts k o || o == 0x010 || o == 0x014 || o == 0x01C)
  let s4 := (quadPages q ++ engPages q).foldl (fun s pg => if s.fld pg F.hdr_STATE = 5 then s else s.setFld pg F.hdr_STATE 4) s3
  let s5 := (List.range 5).foldl (fun s k => (s.clearRepair (5 * q + k)).toSelfRefresh (5 * q + k)) s4
  let s6 := (s5.setFld pgRas F.ras_RESET_CMD_QUAD 1).noteReset 4 cause q
  s6.quadReady q

/-- QUAD (R59, R479): a write of RAS.RESET_CMD.QUAD resets the quadrant it selects, unless a quadrant reset runs or its compute die is retired. [DEDUCED: log entry 109] -/
def execQuad (q : Fin 4) (s : State) : Out :=
  .next (s.regWrite pgRas 0x050 fun s =>
    let s1 := s.setFld pgRas F.ras_RESET_CMD_QUADRANT q.val
    if s.flag pgRas F.ras_RESET_CMD_QUAD || !(s.dieUp q) then s1 else s1.quadReset q 1)

/-! ## Warm device reset -/

/-- Order 6 of a warm reset: it waits for an image that is being written to the slot (R503). [DEDUCED: log entry 109] -/
def State.order6 (s : State) (flashOk : Bool) : State :=
  if s.boot.writing.isSome then { s with boot := { s.boot with warmWaits := true } } else s.bootSlot flashOk

/-- Every die's logic is reset (R479); what a warm device reset keeps stays, and orders 6 to 9 of R493 run again. Functions that were shutting
down complete it (R481). [DEDUCED: log entry 109] -/
def State.warmReset (s : State) (cause : Nat) (flashOk : Bool) : State :=
  let s1 := (List.range 4).foldl State.resetDie s.endWork
  let s2 := s1.pmp.flying.foldl (fun s f => s.endFlying f { status := 10 }) s1
  let s3 := (List.range 20).foldl State.resetStack s2
  let s4 : State := { s3 with
    pmp := { s3.pmp with queues := [], late := [], lostRounds := [] }
    link := {}
    tel := { s3.tel with hwm := [], overTime := 0 }
    cis := { s3.cis with slowRun := [], fastRun := [] }
    ses := { s3.ses with roundEnd := false, pairPoison := [], engFaults := []
                         models := s3.ses.models.map (fun (m : Nat × Model) => (m.1, { m.2 with misses := 0, prime := [] }))
                         tens := s3.ses.tens.map (fun (t : Nat × Ten) => (t.1, { t.2 with reading := false, entry := none })) } }
  let s5 := s4.resetPages (fun _ _ => true) warmKeeps
  let s6 := (List.range 20).foldl (fun s st => (s.clearRepair st).toSelfRefresh st) s5
  let s7 := [pgDir, pgPci, ⟨.pci, 1⟩, pgSec].foldl (fun s pg => s.setFld pg F.hdr_STATE 2) s6
  let s8 := (List.range 64).foldl (fun s t => if s.fnState t = fnQuiescing then s.endShutdown t else s) s7
  let s9 := ((s8.setFld pgSec F.sec_BOOT_STATUS_STAGE 6).noteReset 5 cause 0).refreshAlerts
  ({ s9 with boot := { s9.boot with running := false, recovery := false } }).order6 flashOk

/-- Does the part run a firmware image, so that a warm device reset may start? A reset that starts while orders 6 to 9 run starts them anew. [DEDUCED: log entry 109] -/
def State.powered (s : State) : Bool := !s.boot.perst && s.boot.vin && s.boot.vaux && !s.boot.tripped && s.flag pgSec F.sec_BOOT_STATUS_LOCKED

/-- WARM (R479): a write of 1 to RAS.RESET_CMD.WARM. -/
def execWarm (flashOk : Bool) (s : State) : Out :=
  .next (s.regWrite pgRas 0x050 fun s => if s.powered then s.warmReset 1 flashOk else s)

/-- WARM_RST (R479, R520): a falling edge on WARM_RST# starts a warm device reset, which completes after the rising edge. -/
def execWarmRst (flashOk : Bool) (s : State) : Out := .next (if s.powered then s.warmReset 0 flashOk else s)

/-! ## Cold reset -/

/-- The part held in cold reset (R479, R492, R520): everything at its reset value but the fuses and the flash; what works on VAUX stays, and the
JTAG port. A write to the image slot that it cuts off leaves the slot invalid (R503). [PRESUMED: log entry 122] -/
def State.coldReset (s : State) : State :=
  let b := s.boot
  { regs := SMap.keep s.regs (fun k => k / 2 ^ 28 == 5 * 256 && (k % 4096 == 0x044 || k % 4096 == 0x05C || k % 4096 == 0x060))
    boot := { perst := true, vaux := b.vaux, vin := b.vin, tripped := b.tripped
              slot := if b.writing.isSome then [] else b.slot, board := b.board, fuse := b.fuse, prod := b.prod, debugDis := b.debugDis
              ir := b.ir, bsr := b.bsr, dyn := b.dyn }
    egress := s.egress, free := s.free, pending := s.pending }

end Sys2Proof.Machine
end

