-- ==== Sys2Proof/Machine/Boot.lean ====
section
/-! DEFINITION. Boot, updates and profiles (R492 to R505), SPDM (R508 to R510) and the JTAG port (R512, R513). -/
namespace Sys2Proof.Machine
open Sys2Proof

/-! ## Cold boot -/

/-- The 16 bytes of the board configuration as used, and whether they were rejected (R496): the defaults stand in when FORMAT or the CRC fails. [DEDUCED: log entry 114] -/
def State.boardConfig (s : State) : List Byte × Bool :=
  let b := flashAt s.boot.board 0 16
  if leAt b 0 4 = 1 ∧ leAt b 12 4 = crc32 (b.take 12) then (b, false)
  else
    let d := leBytes 4 1 ++ leBytes 2 0 ++ leBytes 2 0 ++ leBytes 1 0 ++ leBytes 1 6 ++ leBytes 2 0
    (d ++ leBytes 4 (crc32 d), true)

/-- PERST (R493, R504): PERST# is deasserted with power good, the pins PROF[1:0] reading `prof`. Orders 1 to 7 run: the profile, the board
configuration, the boot lock point, the PCIe port and its pages, and the image of the slot. `flashOk`: the image could be read. [DESIGN CHOICE: log entry 6] -/
def execPerst (prof : Fin 4) (flashOk : Bool) (s : State) : Out :=
  if !s.boot.perst || !s.boot.vin || !s.boot.vaux || s.boot.tripped then .next s
  else
    let b := s.boardConfig
    let s1 := { s with profile := Profile.ofNum prof.val, boot := { s.boot with perst := false, meas := SMap.put s.boot.meas 8 (shake256 64 b.1) } }
    let s2 := (s1.setFld pgPkg F.pkg_STRAPS_PROF prof.val).setFld pgSec F.sec_BOOT_STATUS_PROFILE prof.val
    let s3 := (s2.setReg pgPci 0 0x040 (BitVec.ofNat 32 (leAt b.1 8 1 % 2 + 2 * (leAt b.1 9 1 % 8)))).setReg pgPci 0 0x05C (BitVec.ofNat 32 (leAt b.1 4 4))
    let s4 := if b.2 then s3.raise pgSec 2 else s3
    let s5 := (s4.setFld pgSec F.sec_BOOT_STATUS_LOCKED 1).setFld pgSec F.sec_BOOT_STATUS_STAGE 5
    .next (([pgDir, pgPci, ⟨.pci, 1⟩, pgSec].foldl (fun s pg => s.setFld pg F.hdr_STATE 2) s5).bootSlot flashOk)

/-! ## Anti-rollback, profiles, recovery and update -/

/-- COMMIT (R500): a write of SVN_CMD.COMMIT. Fuse bits are blown until the counter equals the running SVN; `reached` is where the counter
stands when that ends, lower when a fuse did not blow. [DEDUCED: log entry 114] [DESIGN CHOICE: log entry 115] -/
def execCommit (reached : Fin 65) (s : State) : Out :=
  .next (s.regWrite pgSec 0x04C fun s =>
    if !s.booted then s.setFld pgSec F.sec_SVN_CMD_RESULT 2
    else if s.boot.svn ≤ s.boot.fuse then s.setFld pgSec F.sec_SVN_CMD_RESULT 1
    else
      let n := max s.boot.fuse (min s.boot.svn reached.val)
      { s with boot := { s.boot with fuse := n } }.setFld pgSec F.sec_SVN_CMD_RESULT (if n = s.boot.svn then 0 else 3))

/-- Quiesce (R505): no function works or has kept work, no session exists, no function holds an object. -/
def State.quiesced (s : State) : Bool :=
  (List.range 64).all (fun t => (s.fnState t == fnOff || s.fnState t == fnNotProvisioned) && !(s.hasWork t))
    && s.sess.all (fun (e : Nat × Session) => !e.2.inUse) && s.mem.objs.all (fun (o : Nat × Obj) => o.2.st == .free)

/-- PROFILE_SELECT (R505): a write of GO with a profile; at quiesce a warm device reset runs with it. -/
def execProfileSelect (profile : Fin 4) (flashOk : Bool) (s : State) : Out :=
  .next (s.regWrite pgSec 0x050 fun s =>
    let s1 := s.setFld pgSec F.sec_PROFILE_SELECT_PROFILE profile.val
    if s1.flag pgSec F.sec_PROFILE_SELECT_GO || !s1.powered then s1
    else if !s1.quiesced then s1.setFld pgSec F.sec_PROFILE_SELECT_RESULT 1
    else
      let s2 := (s1.setFld pgSec F.sec_PROFILE_SELECT_RESULT 0).setFld pgSec F.sec_PROFILE_SELECT_GO 1
      { s2 with boot := { s2.boot with newProfile := some profile.val } }.warmReset 1 flashOk)

/-- A completion of LOAD (R502): RESULT, CAUSE, and PF vector 3. -/
def State.endLoad (s : State) (result cause : Nat) : State :=
  let s1 := (s.setReg pgSec 0 0x064 (BitVec.ofNat 32 (result + 8 * cause))).setFld pgSec F.sec_RCV_CMD_LOAD 0
  { s1 with boot := { s1.boot with loading := false } }.irq 0 3

/-- LOAD (R502, R503): a write of RCV_CMD.LOAD with FLASH. The image is read from host memory in recovery, or while the TOP page is READY with
FLASH = 1; otherwise the write is ignored. -/
def execLoad (flash : Bool) (s : State) : Out :=
  .next (s.regWrite pgSec 0x060 fun s =>
    let s1 := s.setFld pgSec F.sec_RCV_CMD_FLASH (b2n flash)
    if s.boot.loading || s.boot.writing.isSome then s1
    else if s.boot.recovery || (s.booted && flash) then
      let n := s.fld pgSec F.sec_RCV_LEN_BYTES
      if n > slotSize then s1.endLoad 3 0
      else
        let a := s.pair64 pgSec F.sec_RCV_ADDR_LO_ADDR F.sec_RCV_ADDR_HI_ADDR / 4096 * 4096
        let s2 := (s1.setFld pgSec F.sec_RCV_CMD_LOAD 1).emit (.hostRead 0 (BitVec.ofNat 64 a) n)
        { s2 with boot := { s2.boot with loading := true } }
    else s1.setReg pgSec 0 0x064 5#32)

/-- LOAD_COMPLETE (R502, R503): the read of a LOAD ends with the image's bytes, or fails; the image is verified, and is refused, written to the
slot, or run. [DESIGN CHOICE: log entry 6] -/
def execLoadComplete (data : Option (List Byte)) (s : State) : Out :=
  if !s.boot.loading then .next s
  else match data with
    | none => .next (s.endLoad 1 0)
    | some d =>
      let img := d.take (s.fld pgSec F.sec_RCV_LEN_BYTES)
      let c := imageCause img s.boot.fuse
      if c ≠ 0 then .next ((s.raise pgSec (if c = 4 then 1 else 0)).endLoad 2 c)
      else if s.flag pgSec F.sec_RCV_CMD_FLASH then
        .next { s with boot := { s.boot with loading := false, writing := some (img, s.boot.recovery) } }
      else if s.boot.recovery then .next ((s.endLoad 0 0).runImage img true)
      else .next (s.endLoad 5 0)

/-- FLASH_WRITE_COMPLETE (R502, R503): the write of an image to the slot ends, or fails and leaves the slot invalid. In recovery the ROM goes on
from the staged copy; a warm device reset that waits runs its order 6, `readOk` saying whether it can read the flash. [DEDUCED: log entry 114] -/
def execFlashWriteComplete (ok readOk : Bool) (s : State) : Out :=
  match s.boot.writing with
  | none => .next s
  | some (img, run) =>
    let s1 := { s with boot := { s.boot with writing := none, slot := if ok then img else [] } }
    let s2 := if ok then s1.endLoad 0 0 else (s1.raise pgSec 4).endLoad 4 0
    if s.boot.warmWaits then .next ({ s2 with boot := { s2.boot with warmWaits := false } }.bootSlot readOk)
    else if ok && run then .next (s2.runImage img true)
    else .next s2

/-! ## SPDM -/

/-- The DOE mailbox takes a request once the PF answers (R493, R508): the answer leaves, EVT_COUNT counts it, and vector 3 is raised. [PRESUMED: log entry 116] -/
def State.spdm (s : State) (m : SpdmResp) (k : State → State := id) : Out :=
  if s.boot.perst || !(s.flag pgSec F.sec_BOOT_STATUS_LOCKED) then .next s
  else .next ((((k s).emit (.spdm m)).event pgSec).irq 0 3)

/-- GET_VERSION (R508): 1.4 only. -/
def execGetVersion (s : State) : Out := s.spdm (.version 1 4)

/-- GET_CAPABILITIES (R508). -/
def execGetCapabilities (s : State) : Out := s.spdm (.capabilities true true true true 262144 262144)

/-- NEGOTIATE_ALGORITHMS (R508): SLH-DSA-SHAKE-256f, SHA3-512, raw bit stream. -/
def execNegotiateAlgorithms (s : State) : Out :=
  s.spdm (.algorithms true true true) (fun s => { s with boot := { s.boot with negotiated := true } })

/-- GET_DIGESTS (R508): slot 0 only. -/
def execGetDigests (s : State) : Out := s.spdm (.digests [(0, sha3_512 certChain)])

/-- GET_CERTIFICATE (R508, R509): a portion of slot 0's chain; any other slot, or an offset past its end, is an invalid request. -/
def execGetCertificate (slot : Byte) (off len : W32) (s : State) : Out :=
  if slot ≠ 0#8 ∨ off.toNat ≥ certChain.length then s.spdm (.error false)
  else
    let p := (certChain.drop off.toNat).take len.toNat
    s.spdm (.certificate 0 p (certChain.length - off.toNat - p.length))

/-- The blocks of measurements that the part answers with now (R510). -/
def State.measBlocks (s : State) : List (Nat × Nat × List Byte) :=
  (List.range 10).filterMap (fun i => (s.measurement i).map (fun v => (i, measType i, v)))

/-- CHALLENGE (R508): slot 0; the measurement summary of all indices (0xFF) or none (0). The byte layout that the summary hash and the signature
cover is the SPDM specification's: the hash is a free value. [PRESUMED: log entry 116] -/
def execChallenge (slot summary : Byte) (nonce : List Byte) (s : State) : Out :=
  if slot ≠ 0#8 ∨ !(summary = 0#8 ∨ summary = 0xFF#8) then s.spdm (.error false)
  else
    let d := s.drawBytes 64
    let sum := if summary = 0#8 then [] else d.1
    let t := d.2.draw
    s.spdm (.challengeAuth 0 (sha3_512 certChain) sum (Config.slhSign t.1 (sha3_512 certChain ++ sum ++ nonce))) (fun _ => t.2)

/-- GET_MEASUREMENTS (R508, R510): 0 asks for their number, 0xFF for all, and any other index for one; signed on request. -/
def execGetMeasurements (index : Byte) (signed : Bool) (nonce : List Byte) (s : State) : Out :=
  let all := s.measBlocks
  let bs := if index = 0#8 then [] else if index = 0xFF#8 then all else all.filter (fun b => b.1 == index.toNat)
  if index ≠ 0#8 ∧ bs.isEmpty then s.spdm (.error false)
  else
    let t := s.draw
    let sig := if signed then some (Config.slhSign t.1 (bs.flatMap (fun b => leBytes 1 b.1 ++ leBytes 1 b.2.1 ++ b.2.2) ++ nonce)) else none
    s.spdm (.measurements all.length bs sig) (fun s => if signed then t.2 else s)

/-- SPDM_UNSUPPORTED (R508): any other request is answered with ERROR UnsupportedRequest. -/
def execSpdmUnsupported (_ : Byte) (s : State) : Out := s.spdm (.error true)

/-! ## JTAG -/

/-- Does the port work (R512): is power good? -/
def State.jtagUp (s : State) : Bool := s.boot.vaux && s.boot.vin && !s.boot.tripped
/-- Is the port unlocked; is it locked, past the boot lock point (R512)? -/
def State.jtagUnlocked (s : State) : Bool := s.flag pgSec F.sec_DEBUG_STATUS_UNLOCKED
def State.jtagLocked (s : State) : Bool := !s.boot.perst && s.flag pgSec F.sec_BOOT_STATUS_LOCKED && !s.jtagUnlocked

/-- An instruction selects its register and acts when it is offered; otherwise it selects BYPASS (R512). -/
def State.jtag (s : State) (offered : Bool) (ir : JtagIr) (k : State → State) : Out :=
  if !s.jtagUp then .next s
  else if offered then .next (k { s with boot := { s.boot with ir := ir } })
  else .next { s with boot := { s.boot with ir := .bypass } }

/-- BYPASS (R512). -/
def execBypass (s : State) : Out := s.jtag true .bypass id

/-- IDCODE (R512): part number 0x5120 and version 1; bits [11:0] are the part's. [DEDUCED: log entry 117] -/
def execIdcode (s : State) : Out :=
  s.jtag true .idcode (fun s => s.emit (.jtag (leBytes 4 (leNat (Config.partBytes 5) % 4096 + 0x5120 * 2 ^ 12 + 2 ^ 28))))

/-- SAMPLE/PRELOAD (R512): the pins are sampled and shift out, whose levels are free values; the boundary scan register takes what is shifted in. [DEDUCED: log entry 117] -/
def execSamplePreload (data : List Byte) (s : State) : Out :=
  s.jtag (!s.jtagLocked) .sample (fun s =>
    let d := s.drawBytes data.length
    { d.2 with boot := { d.2.boot with bsr := data } }.emit (.jtag d.1))

/-- EXTEST (R512): the boundary scan register drives the pins. -/
def execExtest (s : State) : Out := s.jtag (!s.jtagLocked) .extest (fun s => s.emit (.note 2 s.boot.bsr))

/-- CLAMP (R512): the pins are held from the boundary scan register. -/
def execClamp (s : State) : Out := s.jtag (!s.jtagLocked) .clamp (fun s => s.emit (.note 3 s.boot.bsr))

/-- HIGHZ (R512): outputs go to high impedance. -/
def execHighz (s : State) : Out := s.jtag (!s.jtagLocked) .highz (fun s => s.emit (.note 4 []))

/-- UNLOCK_CHAL (R512, R513): a fresh nonce and the serial number shift out. -/
def execUnlockChal (s : State) : Out :=
  s.jtag s.jtagLocked .chal (fun s =>
    let d := s.drawBytes 32
    { d.2 with boot := { d.2.boot with nonce := some d.1 } }.emit (.jtag (d.1 ++ partSerial)))

/-- UNLOCK_RESP (R512, R513): the key's hash, then the signature over nonce and serial; a failure counts, and after 8, or with DEBUG_DISABLE blown,
the response is refused. [DEDUCED: log entry 117] -/
def execUnlockResp (key sig : List Byte) (s : State) : Out :=
  s.jtag s.jtagLocked .resp (fun s =>
    let fails := s.fld pgSec F.sec_DEBUG_STATUS_FAILS
    if fails ≥ 8 ∨ s.boot.debugDis then (s.setFld pgSec F.sec_DEBUG_STATUS_LOCKED_OUT 1).raise pgSec 3
    else
      let ok := match s.boot.nonce with
        | some n => (shake256 32 key == debugKeyHash) && Config.slhVerify key (n ++ partSerial) sig
        | none => false
      if ok then s.setFld pgSec F.sec_DEBUG_STATUS_UNLOCKED 1
      else
        let s1 := s.setFld pgSec F.sec_DEBUG_STATUS_FAILS (fails + 1)
        if fails + 1 ≥ 8 then (s1.setFld pgSec F.sec_DEBUG_STATUS_LOCKED_OUT 1).raise pgSec 3 else s1)

end Sys2Proof.Machine
end

