-- ==== Sys2Proof/Machine/Port.lean ====
section
/-! DEFINITION. The host port (R389 to R397, R409 to R421): functions, power states, the sump's address translation, the partner's violations and
the link. -/
namespace Sys2Proof.Machine
open Sys2Proof

/-- Does the PCIe port serve: past the boot lock point (R493)? [DESIGN CHOICE: log entry 18] -/
def State.linkServes (s : State) : Bool := !s.boot.perst && s.flag pgSec F.sec_BOOT_STATUS_LOCKED

/-! ## Tenant functions -/

/-- FUNCTION_ENABLE (R409, R412): a write of 1 to CTRL.ENABLE of a tenant's page 0. -/
def execFunctionEnable (t : Fin 64) (s : State) : Out := .next (if s.booted && (s.ten t).present then s.enable t else s)

/-- FUNCTION_DISABLE (R409, R412): a write of 0 to CTRL.ENABLE. -/
def execFunctionDisable (t : Fin 64) (s : State) : Out := .next (if s.booted && (s.ten t).present then s.disable t else s)

/-- D3HOT_ENTRY (R394): function 0 is the PF, 1–64 the tenants, 65 the proxy. A tenant's entry acts as a write of 0 to ENABLE; requests on the
port of the PF or proxy wait. -/
def execD3hotEntry (fn : Fin 66) (s : State) : Out :=
  let f : Nat := fn
  if !s.linkServes then .next s
  else if f = 0 ∨ f = 65 then .next (if s.d3hot.contains f then s else { s with d3hot := s.d3hot ++ [f] })
  else
    let t := f - 1
    let x := s.ten t
    if x.d3 || !x.present then .next s
    else .next ((s.setTen t { x with d3 := true }).disable t)

/-- The function whose D3hot holds back an item, by its port (R394, R395). -/
def State.holder (s : State) (e : Egress) : Nat := if s.portOf (e.requester.getD 0) = 1 then 65 else 0

/-- RETURN_TO_D0 (R394): for the PF or proxy, the requests that waited are issued on its port; for a tenant nothing else changes. -/
def execReturnToD0 (fn : Fin 66) (s : State) : Out :=
  let f : Nat := fn
  if f = 0 ∨ f = 65 then
    if !(s.d3hot.contains f) then .next s
    else .next { s with d3hot := s.d3hot.filter (· != f), waiting := s.waiting.filter (fun e => s.holder e != f)
                        egress := s.egress ++ s.waiting.filter (fun e => s.holder e == f) }
  else .next (s.setTen (f - 1) { s.ten (f - 1) with d3 := false })

/-- FLR (R410, R411): Function Level Reset of a tenant. -/
def execFlr (t : Fin 64) (s : State) : Out := .next (if s.linkServes && (s.ten t).present then s.flr t else s)

/-- PF_FLR (R415, R479): every tenant function is reset and removed; then a warm device reset starts. -/
def execPfFlr (flashOk : Bool) (s : State) : Out :=
  if !s.powered then .next s
  else
    let s1 := (List.range 64).foldl (fun s t => if (s.ten t).present then s.removeFn t else s) s
    .next ({ s1 with d3hot := [] }.warmReset 2 flashOk)

/-- SHUTDOWN_COMPLETE (R411 to R413): order 5 of a shut-down. -/
def execShutdownComplete (t : Fin 64) (s : State) : Out := .next (if s.booted && s.shutdownReady t then s.endShutdown t else s)

/-- VF_DISABLE (R415): on a port, VF Enable is cleared (`num` 0) or NumVFs lowered to `num`: each function that it no longer covers is removed. -/
def execVfDisable (port : Fin 2) (num : Fin 65) (s : State) : Out :=
  if !s.linkServes then .next s
  else .next ((List.range 64).foldl (fun s t =>
    if (s.ten t).present && (s.tenPort t).1 == port.val && decide ((s.tenPort t).2 ≥ num.val) then s.removeFn t else s) s)

/-- FUNCTION_PROVISIONED (R392, R409, R481): a function is present, and when the profile provides it, enters DETACHED or OFF. -/
def execFunctionProvisioned (t : Fin 64) (s : State) : Out :=
  if !s.linkServes then .next s
  else
    let s1 := s.setTen t { s.ten t with present := true }
    .next (if s1.fnState t = fnNotProvisioned ∧ t.val < tenantCount s1.profile then s1.setFnState t (s1.restState t) else s1)

/-- DISCARD (R416): a write of FUNC_CMD.DISCARD discards the kept work of the function that FUNC_SEL names. -/
def execDiscard (s : State) : Out :=
  .next (s.regWrite pgPci 0x074 fun s =>
    let f := s.fld pgPci F.pci_FUNC_SEL_FUNC
    if f = 0 ∨ f > 64 then s
    else
      let st := s.fnState (f - 1)
      if st = fnDetached then (s.discardWork (f - 1)).setFnState (f - 1) fnOff
      else if st = fnNotProvisioned then s.discardWork (f - 1) else s)

/-! ## Address translation -/

/-- ATS_TRANSLATION (R417, R419): a translation of a sump chunk completes and fills an entry of the cache, the oldest making room, or fails. [DESIGN CHOICE: log entry 103] -/
def execAtsTranslation (chunk : Fin 2097152) (ok : Bool) (s : State) : Out :=
  let c : Nat := chunk
  if !s.linkServes || decide (c ≥ s.fld (pgTir 0) F.tir_SUMP_CHUNKS_COUNT) then .next s
  else
    let b := s.boot
    let rest := b.atc.filter (· != c)
    if ok then
      .next { s with boot := { b with atc := rest.drop (rest.length - 1023) ++ [c], atcBad := b.atcBad.filter (· != c) } }
    else
      let s1 := { s with boot := { b with atc := rest, atcBad := b.atcBad.filter (· != c) ++ [c] } }
      .next (((s1.bump pgPci F.pci_ATS_FAULTS_VALUE 1).raise pgPci 2).raise (pgTir 0) 2)

/-- INVALIDATE_REQUEST (R418): the entries of the chunks it covers are used no more. [DESIGN CHOICE: log entry 103] -/
def execInvalidateRequest (itag : Fin 32) (chunks : List Nat) (s : State) : Out :=
  if !s.linkServes || s.boot.invals.contains itag.val then .next s
  else .next { s with boot := { s.boot with atc := s.boot.atc.filter (fun c => !(chunks.contains c)), invals := s.boot.invals ++ [itag.val] } }

/-- INVALIDATE_COMPLETION (R418): the accesses issued under the invalidated entries have completed. -/
def execInvalidateCompletion (itag : Fin 32) (s : State) : Out :=
  if !(s.boot.invals.contains itag.val) then .next s
  else
    let s1 := { s with boot := { s.boot with invals := s.boot.invals.filter (· != itag.val) } }
    .next ((s1.bump pgPci F.pci_ATC_INVAL_VALUE 1).emit (.invalCpl 0 itag))

/-! ## The partner -/

/-- The page of a function's BAR0 at a page slot, if one stands there (R53, R55, R70, R391). -/
def pageAtSlot (fn slot : Nat) : Option Page :=
  let all : List Page :=
    if fn = 0 then
      [pgDir, pgTop, pgPci, pgSec, pgPwr, pgPkg, pgTel, pgRas, pgQdr 4, pgPmp 8, pgPmp 9, ⟨.msix, 0⟩]
        ++ (List.range 4).map (fun i => (⟨.glr, i⟩ : Page)) ++ (List.range 12).flatMap (fun p => [pgGll p, pgQdr (16 + p)])
        ++ (List.range 4).flatMap (fun q => [pgKpr q, pgSes q, pgWel q, pgTir q, pgPmp (2 * q), pgPmp (2 * q + 1), pgCmp q, pgQdr q, pgCisQ q])
        ++ (List.range 32).flatMap (fun e => [pgMxe e, pgVxe e]) ++ (List.range 20).flatMap (fun k => [pgCis k, pgBkt k])
    else if fn = 65 then [⟨.pci, 1⟩, ⟨.msix, 65⟩]
    else [⟨.tnt0, fn - 1⟩, ⟨.tnt1, fn - 1⟩, ⟨.tnt2, fn - 1⟩, ⟨.tnt3, fn - 1⟩, ⟨.tnt4, fn - 1⟩, ⟨.msix, fn⟩]
  all.find? (fun pg => pageOffset pg / 4096 == slot)

/-- A violation is recorded: both PCI pages count it and show it, and the port's page raises its cause (R420). [DEDUCED: log entry 104] -/
def State.noteViolation (s : State) (c f port low : Nat) : State :=
  let s1 := [pgPci, (⟨.pci, 1⟩ : Page)].foldl (fun s p =>
    ((s.bump p F.pci_VIOL_COUNT_COUNT 1).setReg p 0 0x054 (BitVec.ofNat 32 (c + 256 * (if f = 65 then 127 else f) + 32768 * port))).setReg p 0 0x058
      (BitVec.ofNat 32 low)) s
  (s1.raise ⟨.pci, port⟩ 0).event ⟨.pci, port⟩
/-- Its fault record, and the answer it gets: UR where nothing answers a read, all ones and a bad access at a register, or the failed read (R397, R421). [DEDUCED: log entry 104] -/
def State.answerViolation (s : State) (c f : Nat) (write : Bool) (addr : Nat) : State :=
  let s3 := if 1 ≤ f ∧ f ≤ 64 then s.fault f 7 c pgPci 0 (if c = 4 ∨ c = 5 ∨ c = 7 then 0 else addr) 0 else s
  let s4 := if (c = 1 ∨ c = 3) ∧ !write then s3.emit (.cplStatus f 1) else s3
  if c = 2 then
    (match pageAtSlot f (addr % 2 ^ 26 / 4096) with
     | some p => (s4.badAccess p (addr % 4096) false).emit (.cplStatus f 4)
     | none => s4.emit (.cplStatus f 4))
  else if c = 7 ∧ 1 ≤ f ∧ f ≤ 64 then s4.ringRead' (f - 1) none
  else s4

/-- PARTNER_VIOLATION (R420, R421): the partner breaks the protocol with code 1 to 7. `write`: the request is posted, and has no completion;
`addr` is its address, for codes 1 to 3 and 6. -/
def execPartnerViolation (code : Fin 8) (fn : Fin 66) (port : Fin 2) (write : Bool) (addr : W64) (s : State) : Out :=
  let c : Nat := code
  if c = 0 || !s.linkServes then .next s
  else
    let low := if c = 4 ∨ c = 5 ∨ c = 7 then 0 else addr.toNat % 2 ^ 32
    .next ((s.noteViolation c fn port low).answerViolation c fn write addr.toNat)

/-- May a host port train to this width, rate code and FLIT mode (R389)? -/
def State.mayTrain (s : State) (port width rate : Nat) (flit : Bool) : Bool :=
  let mode := s.fld pgPci F.pci_LINK_CFG_MODE
  s.linkServes && decide (port ≤ mode) && [1, 2, 4, 8, 16].contains width && decide (width ≤ (if mode = 0 then 16 else 8))
    && decide (rate ≤ min 6 (s.fld pgPci F.pci_LINK_CFG_MAX_RATE)) && (flit == decide (rate ≥ 5))

/-- PCIE_LINK_TRAIN (R389, R390): a host port trains, or trains again, to a width, a rate code and FLIT mode within its mode. -/
def execPcieLinkTrain (port : Fin 2) (width : Fin 17) (rate : Fin 7) (flit : Bool) (s : State) : Out :=
  let p : Nat := port
  if !(s.mayTrain p width rate flit) then .next s
  else
    let again := s.fldB pgPci p F.pci_LINK_STATUS_UP = 1
    let s1 := s.setReg pgPci p 0x048 (BitVec.ofNat 32 (1 + 2 * width.val + 64 * rate.val + 512 * b2n flit))
    .next (if again then (s1.bumpB pgPci p F.pci_RETRAINS_COUNT 1).raise ⟨.pci, p⟩ 1 else s1)

end Sys2Proof.Machine
end

