-- ==== Sys2Proof/Machine/Package.lean ====
section
/-! DEFINITION. Power, the sideband pins and the thermal trip (R520 to R525). -/
namespace Sys2Proof.Machine
open Sys2Proof

/-- What TRIP_LOG records (R523, R525). -/
def State.logTrip (s : State) (cause unit temp : Nat) : State :=
  s.setReg pgPkg 0 0x05C (BitVec.ofNat 32 (1 + 2 * (cause % 8) + 16 * (unit % 32) + 512 * (temp % 256)))

/-- VAUX_GOOD (R520 to R522): VAUX comes into range at `mv`; MADDR is sampled. The record of a shut-down starts anew, but for one that VAUX itself
caused. [DEDUCED: log entry 118] -/
def execVauxGood (maddr : Fin 4) (mv : W16) (s : State) : Out :=
  if s.boot.vaux then .next s
  else
    let s1 := { s with boot := { s.boot with vaux := true, dyn := none } }
    let s2 := if s.fld pgPkg F.pkg_TRIP_LOG_CAUSE = 6 then s1 else s1.setReg pgPkg 0 0x05C 0#32
    .next ((s2.setReg pgPkg 0 0x060 (BitVec.ofNat 32 (4 * maddr.val))).setFld pgPkg F.pkg_VAUX_MV mv.toNat)

/-- VIN_RAMP (R522, R525): VIN rises above 10.8 V and the package starts its rails; a thermal trip is over. -/
def execVinRamp (s : State) : Out :=
  if s.boot.vin || !s.boot.vaux then .next s
  else .next { s with boot := { s.boot with vin := true, tripped := false } }

/-- VIN_LOSS (R523): VIN falls below 10.8 V, or VAUX leaves its range while VIN is applied (`vaux`): the rails go, and with them the part's state.
While a thermal trip already holds the rails off, no shut-down is left to record. [DEDUCED: log entry 118] -/
def execVinLoss (vaux : Bool) (s : State) : Out :=
  if !s.boot.vin then .next s
  else
    let s1 := (if s.boot.tripped then s else s.logTrip (if vaux then 6 else 5) 0 0).coldReset
    .next { s1 with boot := { s1.boot with vin := false, vaux := s1.boot.vaux && !vaux } }

/-- VIN_LOW (R523): a reading of VIN between 10.8 V and 11.4 V. [DEDUCED: log entry 118] -/
def execVinLow (mv : W16) (s : State) : Out :=
  if !s.boot.vin || s.boot.tripped || s.boot.perst || !(decide (10800 ≤ mv.toNat ∧ mv.toNat < 11400)) then .next s
  else .next (s.setFld pgPkg F.pkg_VIN_MV mv.toNat).refreshAlerts

/-- THERMAL_TRIP (R524, R525): a compute die (1) or the IOD (2) at 115 °C, a stack (3) at 110 °C, or a regulator (4) at its own limit: the rails go
until VIN has been cycled. [DEDUCED: log entry 118] -/
def execThermalTrip (cause : Fin 5) (unit : Fin 32) (temp : Byte) (s : State) : Out :=
  let c : Nat := cause
  let hot := match c with
    | 1 => decide (temp.toNat ≥ 115 ∧ unit.val < 4) | 2 => decide (temp.toNat ≥ 115) | 3 => decide (temp.toNat ≥ 110 ∧ unit.val < 20) | 4 => true | _ => false
  if !hot || !s.boot.vin || s.boot.tripped then .next s
  else
    let s1 := (s.logTrip c unit temp.toNat).coldReset
    .next { s1 with boot := { s1.boot with tripped := true } }

/-- MGMT_BUS_WRITE (R521): refused with NACK. -/
def execMgmtBusWrite (_ : Fin 4096) (_ : List Byte) (s : State) : Out :=
  .next (if s.boot.vaux then s.emit (.mgmt false []) else s)

/-- I3C_ADDRESS_ASSIGN (R521): SETDASA or ENTDAA gives a dynamic address. -/
def execI3cAddressAssign (addr : Fin 128) (s : State) : Out :=
  if !s.boot.vaux then .next s
  else .next ({ s with boot := { s.boot with dyn := some addr.val } }.setFld pgPkg F.pkg_STRAPS_I3C 1)

/-- PERST_ASSERTION (R520): PERST# goes low. -/
def execPerstAssertion (s : State) : Out := .next (if s.boot.perst then s else s.coldReset)

/-- VAUX_LOSS (R521): VAUX falls while VIN is off: the management bus stops, and the standby state is lost. -/
def execVauxLoss (s : State) : Out :=
  if s.boot.vin || !s.boot.vaux then .next s
  else
    let s1 := ((s.setReg pgPkg 0 0x044 0#32).setReg pgPkg 0 0x05C 0#32).setReg pgPkg 0 0x060 0#32
    .next { s1 with boot := { s1.boot with vaux := false, dyn := none } }

end Sys2Proof.Machine
end

