-- ==== Sys2Proof/Machine/RegView.lean ====
section
/-! DEFINITION. What the registers show: where a windowed register's value lies, and the read-only registers that are read off the
state (the register tables of the chapters, R56 to R63). -/
namespace Sys2Proof.Machine
open Sys2Proof

/-! ## Page identity -/

/-- INSTANCE of a page (R57, R70). -/
def Page.instNum (pg : Page) : Nat := if pg.kind = .cisq then 32 + pg.inst else if pg.kind = .glr then 12 else pg.inst

/-- QUAD of a page (R57). -/
def Page.quad (pg : Page) : Nat :=
  match pg.kind with
  | .kpr | .ses | .wel | .tir | .cmp | .cisq => pg.inst
  | .qdr => if pg.inst < 4 then pg.inst else 0xF
  | .pmp => if pg.inst < 8 then pg.inst / 2 else 0xF
  | .mxe | .vxe => pg.inst / 8
  | .cis | .bkt => pg.inst / 5
  | _ => 0xF

/-- PAGE_INDEX of a page (R58, R70). -/
def Page.index (pg : Page) : Nat :=
  match pg.kind with
  | .glr => pg.inst
  | .tnt1 => 1
  | .tnt2 => 2
  | .tnt3 => 3
  | .tnt4 => 4
  | _ => 0

/-- PAGE_ID (R58). -/
def pageId (pg : Page) : Nat := pg.kind.typeCode + 2 ^ 8 * pg.instNum + 2 ^ 16 * pg.quad + 2 ^ 20 * pg.index + 2 ^ 24

/-- Does a page's CTRL.RESET start a reset (R58): matrix engines and Glith ports? -/
def Page.resetCap (pg : Page) : Bool := pg.kind == .mxe || pg.kind == .gll
/-- Does a page implement ERR_INJECT and EVT_COUNT? The DIR and TOP pages have no causes and count nothing. [DEDUCED: log entry 15] -/
def Page.injectCap (pg : Page) : Bool := pg.kind != .dir && pg.kind != .top && pg.kind != .msix

/-- PAGE_CAPS (R58 and the chapters' header specifics). [DEDUCED: log entry 15] -/
def pageCaps (pg : Page) : Nat :=
  b2n pg.resetCap + 2 * b2n pg.injectCap + 4 * b2n pg.injectCap + (match pg.kind with
    | .cis => 0x20 * 2 ^ 8 + 2 * 2 ^ 16
    | .bkt => 0x10 * 2 ^ 8
    | .wel => 0x40 * 2 ^ 8
    | .pmp => pumpCount pg.inst * 2 ^ 8 + pumpKind pg.inst * 2 ^ 12
    | .mxe => 0x04 * 2 ^ 8 + 0x10 * 2 ^ 16
    | .vxe => 0x10 * 2 ^ 8 + 0x20 * 2 ^ 16
    | .qdr => (if pg.inst < 4 then 0 else if pg.inst = 4 then 1 else 2) * 2 ^ 8
    | _ => 0)

/-- BLOCK_STATE of a page (the chapters' header specifics), beside what the STATE register itself holds. -/
def State.blockState (s : State) (pg : Page) : Nat :=
  let i := pg.inst
  match pg.kind with
  | .cis => 2 ^ 4 * s.fld pg F.cis_THERM_LEVEL
      + 2 ^ 8 * ((List.range 32).filter (fun c => (s.chanOf i c).st == .retired || (s.chanOf i c).st == .lost)).length
  | .bkt => 2 ^ 4 * ((List.range 256).filter (fun t => (s.tagAt i t).life != .free)).length
  | .wel => 2 ^ 4 * ((List.range 64).filter (s.sliceScratch i)).length
  | .pmp => 2 ^ 4 * sumTo (pumpCount i) (s.chainsOn i)
  | .mxe =>
    let x := s.eng i
    2 ^ 4 * x.cur + 2 ^ 5 * b2n (x.g.waited || x.y.waited) + 2 ^ 6 * (if x.g.started then x.g.cls else if x.y.started then x.y.cls else 0)
  | .vxe =>
    let x := s.eng i
    2 ^ 4 * s.fld pg F.vxe_Y_STATUS_STATE + 2 ^ 6 * b2n (x.g.waitBranch || x.y.waitBranch) + 2 ^ 7 * b2n (!x.g.started && x.y.started)
  | .gll => 2 ^ 4 * s.fld pg F.gll_PORT_STATUS_WIDTH
  | _ => 0

/-- STATE of a page as it reads (R63, R72, R495): until order 9 of a boot a page that does not serve early reports INIT, unless it is OFFLINE
or NOT_PROVISIONED. [DEDUCED: log entry 15] -/
def State.stateWord (s : State) (pg : Page) : Nat :=
  let w := (s.reg pg 0 0x00C).toNat
  let st := if !pg.kind.early && !s.booted && w % 16 != 5 && w % 16 != 6 then 1 else w % 16
  st + (w / 16 * 16) + s.blockState pg

/-! ## The directory -/

/-- The page instances of the PF BAR0 in ascending order of page slot (R62). -/
def dirPages : List Page :=
  [pgDir, pgTop, pgPci, pgSec, pgPwr, pgPkg, pgTel, pgRas, pgQdr 4, pgPmp 8, pgPmp 9, ⟨.msix, 0⟩, ⟨.glr, 0⟩]
    ++ (List.range 12).flatMap (fun p => [pgGll p, pgQdr (16 + p)])
    ++ (List.range 4).flatMap (fun q =>
      [pgKpr q, pgSes q, pgWel q, pgTir q, pgPmp (2 * q), pgPmp (2 * q + 1), pgCmp q, pgQdr q, pgCisQ q]
        ++ (List.range 8).flatMap (fun e => [pgMxe (8 * q + e), pgVxe (8 * q + e)])
        ++ (List.range 5).flatMap (fun k => [pgCis (5 * q + k), pgBkt (5 * q + k)]))

/-- The word of the DIR page at an offset of its entries (R62, R63). -/
def State.dirEntry (s : State) (off : Nat) : Nat :=
  match dirPages[(off - 0x100) / 8]? with
  | none => 0
  | some pg =>
    if off % 8 = 0 then pg.kind.typeCode + 2 ^ 8 * pg.instNum + 2 ^ 16 * pg.quad + 2 ^ 20 * (if pg.kind = .glr then 3 else 0) + 2 ^ 24
    else pageOffset pg / 4096 + 2 ^ 16 * b2n (pg.kind != .msix && s.fld pg F.hdr_STATE == 5)

/-! ## Windows -/

/-- The page and the window bank that hold the register a page shows at an offset: its selector picks it. [DESIGN CHOICE: log entry 13] -/
def State.home (s : State) (pg : Page) (off : Nat) : Page × Nat :=
  match pg.kind with
  | .qdr => (pg, if 0x044 ≤ off ∧ off ≤ 0x068 then s.fld pg F.qdr_Q_SEL_QUEUE else 0)
  | .pmp => (pg, if 0x044 ≤ off ∧ off ≤ 0x058 then s.fld pg F.pmp_SQ_SEL_QUEUE
      else if 0x060 ≤ off ∧ off ≤ 0x074 then s.fld pg F.pmp_PUMP_SEL_PUMP else 0)
  | .gll => (pg, if off = 0x058 then s.fld pg F.gll_VL_SEL_VL else if off = 0x08C then s.fld pg F.gll_LANE_SEL_LANE else 0)
  | .kpr => (pg, if (0x05C ≤ off ∧ off ≤ 0x06C) ∨ off = 0x0A0 then s.fld pg F.kpr_PROG_SEL_ENTRY else 0)
  | .ses => (pg, if off = 0x04C ∨ off = 0x050 then s.fld pg F.ses_TTL_SEL_TTL
      else if off = 0x05C ∨ off = 0x060 then s.fld pg F.ses_TEN_SEL_VALUE % 64
      else if off = 0x07C ∨ off = 0x084 then s.fld pg F.ses_ADP_SEL_ADAPTER else 0)
  | .tir =>
    if off = 0x058 ∨ off = 0x05C ∨ off = 0x060 then
      let tier := s.fld pg F.tir_QUOTA_SEL_TIER
      (quotaPage tier pg.inst, quotaBank (s.fld pg F.tir_QUOTA_SEL_FUNC) tier)
    else (pg, if 0x044 ≤ off ∧ off ≤ 0x04C then s.fld pg F.tir_POOL_SEL_POOL
      else if 0x07C ≤ off ∧ off ≤ 0x08C then s.fld pg F.tir_MODEL_SEL_MODEL else 0)
  | .cmp => (pg, if off = 0x08C then s.fld pg F.cmp_TEN_SEL_FUNC else 0)
  | .pwr => (pg, if off = 0x048 ∨ off = 0x050 then s.fld pg F.pwr_DIE_SEL_DIE else 0)
  | .pci => if off = 0x048 ∨ off = 0x04C then (pgPci, if pg.inst = 1 then 1 else s.fld pg F.pci_PORT_SEL_PORT) else (pg, 0)
  | _ => (pg, 0)

/-- The registers that a page's kind has and this instance has not: they read zero, and writes to them are dropped. -/
def Page.lacks (pg : Page) (off : Nat) : Bool :=
  match pg.kind with
  | .pci => pg.inst == 1 && !(decide (0x044 ≤ off ∧ off ≤ 0x058))
  | .tir => pg.inst != 0 && (decide (0x068 ≤ off ∧ off ≤ 0x070) || decide (0x100 ≤ off))
  | .cmp => pg.inst != 0 && decide (off ≤ 0x084)
  | .gll => pg.inst != 0 && decide (0x100 ≤ off)
  | .ses => pg.inst != 0 && (decide (0x048 ≤ off ∧ off ≤ 0x060) || decide (0x078 ≤ off))
  | _ => false

/-- Does the selector of a windowed register name nothing: a reserved queue, pool, function, tier or time-to-live, or a sump quota outside
TIR 0? Then the register reads zero, and a write to it changes nothing. [DESIGN CHOICE: log entry 13] [DEDUCED: log entry 72] -/
def State.unselected (s : State) (pg : Page) (off : Nat) : Bool :=
  match pg.kind with
  | .qdr => decide (0x044 ≤ off ∧ off ≤ 0x068) && decide (s.fld pg F.qdr_Q_SEL_QUEUE > 66)
  | .tir => (decide (0x044 ≤ off ∧ off ≤ 0x04C) && decide (s.fld pg F.tir_POOL_SEL_POOL > 4))
      || (decide (0x058 ≤ off ∧ off ≤ 0x060) && (decide (s.fld pg F.tir_QUOTA_SEL_FUNC > 64) || decide (s.fld pg F.tir_QUOTA_SEL_TIER = 3)
        || (s.fld pg F.tir_QUOTA_SEL_TIER == 2 && pg.inst != 0)))
  | .ses => (off == 0x04C || off == 0x050) && s.fld pg F.ses_TTL_SEL_TTL == 3
  | .cmp => off == 0x08C && decide (s.fld pg F.cmp_TEN_SEL_FUNC > 64)
  | .pmp => decide (0x060 ≤ off ∧ off ≤ 0x074) && decide (s.fld pg F.pmp_PUMP_SEL_PUMP ≥ pumpCount pg.inst)
  | .gll => off == 0x058 && decide (s.fld pg F.gll_VL_SEL_VL > 7)
  | _ => false

/-! ## Registers read off the state -/

/-- A log record's 32 bytes (R422, R488). -/
def recBytes (r : LogRec) : List Byte :=
  leBytes 2 r.kind.toNat ++ leBytes 2 r.source.toNat ++ leBytes 4 r.detail.toNat ++ leBytes 8 r.addr.toNat ++ leBytes 8 r.arg.toNat
    ++ leBytes 8 r.stamp.toNat

/-- The state of a tenant function as PCI.FUNC_STATUS shows it. [DEDUCED: log entry 25] -/
def State.funcStatus (s : State) (f : Nat) : Nat :=
  if f = 0 ∨ f > 64 then 0
  else
    let t := f - 1
    let st := s.fnState t
    st + 2 ^ 4 * s.fld (pgTnt t) fEnableLatched + 2 ^ 5 * b2n (s.hasWork t) + 2 ^ 6 * s.fld (pgTnt t) fFlr
      + 2 ^ 7 * (s.tenPort t).1 + 2 ^ 8 * min (2 ^ 20 - 1) (s.ten t).pend.length

/-- RAS.GUARD (R455, R465, R467): COVERED while every session has two good journal copies and nothing is to be rebuilt. [DEDUCED: log entry 25] -/
def State.guard (s : State) : Nat :=
  let mirrored := s.ses.journal.all (fun r => decide (r.copies.length ≥ 2))
  let rebuilt := s.sess.all (fun (e : Nat × Session) => e.2.lost.isEmpty)
  b2n (mirrored && rebuilt) + 2 * b2n (!mirrored || !rebuilt || !s.cis.dead.isEmpty) + 4 * s.fld pgRas F.ras_GUARD_QUADS

/-- RAS.MODEL_STATUS of a model (R484). [DEDUCED: log entry 25] -/
def State.modelStatus (s : State) (m : Nat) : Nat :=
  let x := s.model m
  if x.quarantined then 1 + 2 * x.reason + 2 ^ 3 * x.obj + 2 ^ 19 * b2n x.stall else 0

/-- Owned generation-ready sessions of a keeper, and their prompt tokens not yet processed. -/
def State.readyCount (s : State) (q : Nat) : Nat :=
  (s.sess.filter (fun (e : Nat × Session) => decide (e.1 < 2 ^ 32) && e.2.owner == q && s.offerable e.1 && (s.genReq e.1).isSome)).length
def State.promptPending (s : State) (q : Nat) : Nat :=
  s.sess.foldl (fun a (e : Nat × Session) =>
    if e.1 < 2 ^ 32 ∧ e.2.owner = q then a + e.2.reqs.foldl (fun b r => if r.typ = tAppend then b + (if r.started then r.left.length else r.toks.length) else b) 0
    else a) 0

/-- The word that a PMP page shows in PUMP_STATUS. [DEDUCED: log entry 72] -/
def State.pumpStatus (s : State) (page pump : Nat) : Nat :=
  s.chainsOn page pump + 2 ^ 3 * (if pumpKind page = 0 then 64 * (s.eng (8 * (page / 2) + pump)).smooth.length else 0)

/-- A register whose value is read off the state rather than stored: its value, if the offset is one's. `b` is its window bank. [DESIGN CHOICE: log entry 20] [DEDUCED: log entry 25] -/
def State.view (s : State) (pg : Page) (b off : Nat) : Option Nat :=
  let i := pg.inst
  match pg.kind with
  | .dir =>
    if 0x080 ≤ off ∧ off ≤ 0x09C then
      some (sumTo 32 (fun k => match dirPages[(off - 0x080) * 8 + k]? with
        | some p => if p.kind != .msix && s.errPending p then 2 ^ k else 0
        | none => 0))
    else if 0x100 ≤ off ∧ off ≤ 0x68C then some (s.dirEntry off) else none
  | .top => if off = 0x040 then some (s.hostTime.toNat % 2 ^ 32) else if off = 0x044 then some (s.hostTime.toNat / 2 ^ 32) else none
  | .pci =>
    if off = 0x060 then some s.boot.atc.length
    else if off = 0x070 then some (s.funcStatus (s.fld pg F.pci_FUNC_SEL_FUNC)) else none
  | .sec =>
    if off = 0x048 then some (s.boot.fuse + 2 ^ 7 * b2n s.boot.prod + 2 ^ 8 * b2n s.boot.debugDis)
    else if 0x070 ≤ off ∧ off ≤ 0x0AC then some (leAt ((s.measurement (s.fld pg F.sec_MEAS_SEL_INDEX)).getD []) (off - 0x070) 4) else none
  | .ras =>
    if off = 0x040 then some s.guard
    else if off = 0x04C then some (sumTo 4 (fun q => 256 ^ q * (100 * s.journalUsed q / max 1 (s.journalSize q) % 256)))
    else if off = 0x064 then some (s.modelStatus (s.fld pg F.ras_MODEL_SEL_MODEL))
    else if 0x080 ≤ off ∧ off ≤ 0x09C then
      some (leAt (recBytes (SMap.get s.errLog {} (s.fld pg F.ras_LOG_SEL_INDEX))) (off - 0x080) 4) else none
  | .qdr =>
    if off = 0x050 then some (((s.queue i b).credit / 65536) % 2 ^ 32).toNat
    else if off = 0x054 then some (s.queue i b).deficit
    else if off = 0x058 then some (s.queue i b).depth
    else if off = 0x088 then some (b2n (s.qdr i).oper.isSome + 2 * b2n (s.qdr i).pend.isSome + 4 * (s.qdr i).cur) else none
  | .pmp => if off = 0x060 then some (s.pumpStatus i b) else none
  | .kpr =>
    if off = 0x040 then some (b2n (decide (s.sealer = i)) + 2 * s.ses.rounds.length + 2 ^ 3 * s.readyCount i)
    else if off = 0x044 then some (s.ses.lastNum % 2 ^ 32)
    else if off = 0x048 then some (s.ses.lastNum / 2 ^ 32)
    else if off = 0x04C then some (s.promptPending i)
    else if off = 0x080 then some ((s.reg pg 0 0x080).toNat % 2 ^ 7 + 2 ^ 7 * b2n (s.keeper i).cpl.isEmpty)
    else if 0x08C ≤ off ∧ off ≤ 0x098 then some (leAt ((s.keeper i).cpl.headD []) (off - 0x08C) 4) else none
  | .ses =>
    if off = 0x044 then
      let c := s.fld pg F.ses_STATE_SEL_STATE
      some (if c = 0 then 0 else (s.sess.filter (fun (e : Nat × Session) => e.2.owner == i && e.2.st.code == c)).length)
    else if off = 0x060 then some (s.sessionsOf (some b))
    else if off = 0x084 then
      let x := s.adapter b
      some (x.cur + 2 ^ 16 * b2n x.retired + 2 ^ 18 * s.fldB pg b F.ses_ADP_STATUS_RESULT + 2 ^ 20 * min 31 x.vers.length)
    else none
  | .wel =>
    if off = 0x04C then some (s.poolUsed i 0 + 2 ^ 13 * s.poolUsed i 1)
    else if off = 0x050 then
      some ((s.mem.frames.filter (fun (e : Nat × Frame) => e.1 / 4096 == i && !(s.sliceScratch i (e.1 % 4096 / 64)))).foldl
        (fun a (e : Nat × Frame) => a + e.2.dirty.length) 0)
    else none
  | .tir =>
    if off = 0x044 then some (s.poolTotal i b)
    else if off = 0x048 then some (s.poolFree i b)
    else if off = 0x060 then some (s.quotaUsed (b % 128) (b / 128) i) else none
  | .cmp =>
    if 0x078 ≤ off ∧ off ≤ 0x07C then
      let x := s.tbl (s.fld pg F.cmp_TBL_SEL_SLOT)
      some (if off = 0x078 then x.cur.num + 2 ^ 12 * x.ret.num + 2 ^ 24 * b2n x.held.isSome else min 65535 x.ret.refs)
    else none
  | .mxe =>
    let x := s.eng i
    if 0x044 ≤ off ∧ off ≤ 0x050 then some (s.progWord i (s.fld pg F.mxe_PROG_ADDR_ADDR) / 2 ^ (8 * (off - 0x044)) % 2 ^ 32)
    else if off = 0x058 then some (if !x.g.started && x.y.started then x.y.pc else x.g.pc)
    else if off = 0x068 then
      some (sumTo 2 (fun l => if (x.latch.getD l none).isSome then 2 ^ l else 0) + 2 ^ 2 * b2n (x.g.poisonWaited || x.y.poisonWaited)
        + 2 ^ 3 * (x.scale.map (fun c => c.planes.length - c.bound)).sum)
    else none
  | .cis =>
    if off = 0x044 then some (s.profile.bankedRows + 2 ^ 16 * 768)
    else if 0x050 ≤ off ∧ off ≤ 0x05C then some (sumTo 8 (fun c => 16 ^ c * (s.chanOf i (8 * ((off - 0x050) / 4) + c)).st.code))
    else if off = 0x068 then
      some (sumTo 32 (fun c => if (s.chanOf i c).st = .retired ∨ (s.chanOf i c).st = .lost then 2 ^ c else 0))
    else none
  | .cisq =>
    let w := SMap.get s.cis.withdrawn 0 i
    if off = 0x040 then some (s.fld pg F.cisq_HASH_CFG_CUR_VER + sumTo 4 (fun v => if s.verRecorded i v then 2 ^ (4 + v) else 0))
    else if off = 0x044 then some s.profile.spreadLines
    else if off = 0x048 then some ((s.profile.spreadLines - w) * 640 / 1024)
    else if off = 0x04C then some w
    else if off = 0x050 then some (s.resUsed i)
    else if off = 0x054 then some (s.resSize i)
    else if 0x200 ≤ off ∧ off < 0x300 then
      let e := s.excOf i ((off - 0x200) / 16)
      some (if off % 16 = 0 then b2n e.valid + 2 * b2n e.lost + 2 ^ 2 * e.stack + 2 ^ 5 * e.channel + 2 ^ 10 * e.survivors
        else if off % 16 = 4 then e.resBase else if off % 16 = 8 then e.movedMark else 0)
    else none
  | .bkt =>
    let p := s.fld pg F.bkt_PC_SEL_PC
    if off = 0x044 then
      some (((List.range 1024).filter (fun u => (s.unitAt (i * 1024 + u)).phase != .idle)).length
        + 2 ^ 11 * ((List.range 256).filter (fun t => (s.tagAt i t).life == .opened)).length)
    else if off = 0x04C then
      some (SMap.get s.bkt.store 0x58000000#32 ((i * 64 + s.fld pg F.bkt_PROG_ADDR_PC) * 256 + s.fld pg F.bkt_PROG_ADDR_ADDR)).toNat
    else if off = 0x074 then
      let us := (List.range 16).map (fun u => s.unitAt ((i * 64 + p) * 16 + u))
      some (sumTo 16 (fun u => if (s.unitAt ((i * 64 + p) * 16 + u)).phase != .idle then 2 ^ u else 0)
        + 2 ^ 16 * min 255 (us.map (fun u => u.tags.length - 1)).sum)
    else if off = 0x078 then
      some ((SMap.get s.bkt.tail 0 (i * 64 + p) + 16384 - SMap.get s.bkt.head 0 (i * 64 + p)) % 16384)
    else none
  | .tnt0 =>
    if off = 0x074 then some (s.sessionsOf (some i)) else if off = 0x078 then some (min (2 ^ 21 - 1) (s.ten i).pend.length) else none
  | .tnt3 => if 0x100 ≤ off ∧ off < 0x900 then some (leAt (recBytes (SMap.get s.flog {} (i * 64 + (off - 0x100) / 32))) (off % 32) 4) else none
  | _ => none

/-- The bits of a register that reads return: those of its fields but write-only ones (R8, R9). -/
def Reg.readMask (r : Reg) : Nat := r.flds.foldl (fun a f => a + (if f.acc = .WO then 0 else (2 ^ (f.msb + 1 - f.lsb) - 1) * 2 ^ f.lsb)) 0

/-- Does a register of the page stand at an offset (R54)? Directory entries and the words after the last one are registers. -/
def Page.regAt (pg : Page) (off : Nat) : Option (Reg × Nat) :=
  if pg.lacks off then none else findReg (blockRegs pg.kind) off

/-- Vectors of a function's MSI-X table (R393). -/
def vectors (fn : Nat) : Nat := if fn = 0 then 16 else 4

/-- The word a register access reads, without the effects of reading it (R8, R9, R54, R58, R69). -/
def State.peek (s : State) (pg : Page) (off : Nat) : W32 :=
  BitVec.ofNat 32 <|
    if pg.kind = .msix then (s.reg pg 0 off).toNat
    else if off < 0x040 then
      (if off = 0x000 then pageId pg
       else if off = 0x004 then pageCaps pg
       else if off = 0x00C then s.stateWord pg
       else if off = 0x018 ∨ 0x020 ≤ off then 0
       else (s.reg pg 0 off).toNat)
    else if !(s.pageLive pg) || pg.lacks off || s.unselected pg off then 0
    else
      let h := s.home pg off
      match s.view pg h.2 off with
      | some v => v
      | none => match pg.regAt off with
        | some (r, _) => (s.reg h.1 h.2 off).toNat &&& r.readMask
        | none => 0

/-- The low registers of the _LO/_HI pairs of a page kind (R66). -/
def pairLows : PageKind → List Nat
  | .top => [0x040]
  | .pci => [0x054, 0x078]
  | .sec => [0x054]
  | .tel => [0x040]
  | .ras => [0x0A4]
  | .qdr => [0x064, 0x06C, 0x078, 0x08C]
  | .pmp => [0x044, 0x064]
  | .gll => [0x078, 0x080]
  | .kpr => [0x044, 0x064]
  | .ses => [0x04C]
  | .wel => [0x040]
  | .tir => [0x068, 0x080, 0x10C]
  | .cmp => [0x080]
  | .mxe => [0x05C, 0x06C, 0x074]
  | .vxe => [0x058, 0x068]
  | .cis => [0x088]
  | .bkt => [0x050, 0x064]
  | .tnt0 => [0x044, 0x050, 0x05C]
  | .tnt4 => [0x04C]
  | _ => []

/-- Is an offset the low, or the high, register of a pair that the page has? -/
def Page.isLow (pg : Page) (off : Nat) : Bool := (pairLows pg.kind).contains off && !(pg.lacks off)
def Page.isHigh (pg : Page) (off : Nat) : Bool := decide (4 ≤ off) && pg.isLow (off - 4)

end Sys2Proof.Machine
end

