-- ==== Sys2Proof/Machine/RegWrite.lean ====
section
/-! DEFINITION. Register writes (R8, R9, R54, R58 to R61, R64 to R69, R71, R72, R406 and the register tables). -/
namespace Sys2Proof.Machine
open Sys2Proof

/-! ## Access codes -/

/-- The word a register holds after a write of `v` over `w` (R8, R9); `locked`: the boot lock point is passed. -/
def Reg.written (r : Reg) (locked : Bool) (w v : Nat) : Nat :=
  r.flds.foldl (fun a f =>
    let old := bitsOf a f.msb f.lsb
    let new := bitsOf v f.msb f.lsb
    match f.acc with
    | .RW => setBitsNat a f.msb f.lsb new
    | .RWL => if locked then a else setBitsNat a f.msb f.lsb new
    | .W1C => setBitsNat a f.msb f.lsb (old - (old &&& new))
    | .W1S => setBitsNat a f.msb f.lsb (old ||| new)
    | .RO | .WO | .RC => a) w

/-- The word a register holds after a read of it (R9): its RC fields are back at their reset values. -/
def Reg.afterRead (r : Reg) (w : Nat) : Nat :=
  r.flds.foldl (fun a f => if f.acc = .RC then setBitsNat a f.msb f.lsb f.reset else a) w

/-- A write under the access codes alone, to the register that a page shows at an offset. -/
def State.store (s : State) (pg : Page) (off v : Nat) : State :=
  let h := s.home pg off
  match pg.regAt off with
  | some (r, _) =>
    s.setReg h.1 h.2 off (BitVec.ofNat 32 (r.written (s.flag pgSec F.sec_BOOT_STATUS_LOCKED) (s.reg h.1 h.2 off).toNat v))
  | none => s

/-- The next state of a command, which a register write here stands for. [DESIGN CHOICE: log entry 19] -/
def State.act (s : State) (c : State → Out) : State := (c s).after s

/-! ## The header -/

/-- A write of CTRL (R58, R59 and the header specifics): tenants, links and engines act on it. -/
def State.writeCtrl (s : State) (pg : Page) (v : Nat) : State :=
  let i := pg.inst
  let s0 := s.setFld pg F.hdr_ERR_IRQ_EN (bitsOf v 2 2)
  match pg.kind with
  | .tnt0 => s0.act (if bitOf v 0 then execFunctionEnable (Fin.ofNat 64 i) else execFunctionDisable (Fin.ofNat 64 i))
  | .gll =>
    let p := Fin.ofNat 12 i
    let s1 := s0.act (if bitOf v 0 then execPortEnable p else execPortDisable p)
    if bitOf v 1 then s1.act (execLinkPortReset p) else s1
  | .mxe =>
    let e := Fin.ofNat 32 i
    let s1 := (s0.setFld pg F.hdr_ENABLE (bitsOf v 0 0)).setFld pg F.hdr_TEST_OWN (bitsOf v 16 16)
    let s2 := if bitOf v 17 == s1.flag pg F.hdr_HALT then s1 else s1.act (if bitOf v 17 then execEngineHalt e else execEngineResume e)
    let s3 := if bitOf v 18 then s2.act (execEngineStep e) else s2
    if bitOf v 1 then s3.act (execEngineReset e) else s3
  | .cis => ((s0.setFld pg F.hdr_ENABLE (bitsOf v 0 0)).setFld pg F.hdr_SCRUB_EN (bitsOf v 16 16)).setFld pg F.hdr_AUTO_RETRAIN (bitsOf v 17 17)
  | _ => s0.setFld pg F.hdr_ENABLE (bitsOf v 0 0)

/-- A write of ERR_INJECT (R58, R489): while injection is enabled, each cause written 1 is raised as if it had occurred. -/
def State.injectErr (s : State) (pg : Page) (causes : Nat) : State :=
  if !pg.injectCap || s.fld pgRas F.ras_INJ_CTRL_ENABLE == 0 then s
  else (List.range 31).foldl (fun s c => if bitOf causes c then s.raise pg c else s) s

/-- A write of a header register (R54, R58, R61, R69). [DEDUCED: log entry 22] -/
def State.writeHeader (s : State) (pg : Page) (off v : Nat) : State :=
  let was := s.errPending pg
  match off with
  | 0x008 => s.writeCtrl pg v
  | 0x010 => (s.setReg pg 0 0x010 (s.reg pg 0 0x010 &&& ~~~ (BitVec.ofNat 32 v))).errEdge pg was
  | 0x014 => (s.setReg pg 0 0x014 (BitVec.ofNat 32 v)).errEdge pg was
  | 0x018 => s.injectErr pg v
  | 0x000 | 0x004 | 0x00C | 0x01C => s
  | _ => s.badAccess pg off true

/-! ## Registers whose write has a command of its own -/

/-- OBJ_CMD of a function (R170). -/
def State.objCmd (s : State) (fn v : Nat) : State :=
  let f := Fin.ofNat 65 fn
  let o : W16 := BitVec.ofNat 16 v
  let tier := Fin.ofNat 4 (bitsOf v 22 21)
  match bitsOf v 19 16 with
  | 1 => s.act (execObjCreate f o)
  | 2 => s.act (execObjRelease f o)
  | 3 => s.act (execObjPin f o (bitOf v 20))
  | 4 => s.act (execObjUnpin f o)
  | 5 => s.act (execObjPromote f o)
  | 6 => s.act (execObjDemote f o tier)
  | 7 => s.act (execObjSetPref f o tier)
  | 8 => s.act (execObjQuery f o)
  | _ => s

/-- CH_CMD and REPAIR_CTRL of a stack (R102, R113). -/
def State.chCmd (s : State) (st v : Nat) : State :=
  let k := Fin.ofNat 20 st
  let c := Fin.ofNat 32 v
  match bitsOf v 7 5 with
  | 1 => s.act (execChCmdRetrain k c)
  | 2 => s.act (execChCmdMapOut k c)
  | 3 => s.act (execMarginEnter k c)
  | 4 => s.act (execMarginExit k c)
  | _ => s
def State.repairCmd (s : State) (st v : Nat) : State :=
  let k := Fin.ofNat 20 st
  let c := Fin.ofNat 32 (bitsOf v 6 2)
  match v % 4 with
  | 1 => s.act (execLaneRepair k c (Fin.ofNat 128 (bitsOf v 13 7)))
  | 2 => s.act (execRowRepair k c (Fin.ofNat 128 (bitsOf v 13 7)) (BitVec.ofNat 16 (bitsOf v 29 14)))
  | _ => s

/-- RAS.RESET_CMD and RAS.INJ_CMD (R479, R490). A warm device reset here can or cannot read the flash: free. [DESIGN CHOICE: log entry 19] -/
def State.resetCmd (s : State) (v : Nat) : State :=
  let s1 := s.setFld pgRas F.ras_RESET_CMD_QUADRANT (bitsOf v 3 2)
  let s2 := if bitOf v 1 then s1.act (execQuad (Fin.ofNat 4 (bitsOf v 3 2))) else s1
  if bitOf v 0 then (let d := s2.draw; d.2.act (execWarm (d.1 % 2 == 1))) else s2
def State.injCmd (s : State) (v : Nat) : State :=
  let kind := v % 8
  let s1 := (s.setFld pgRas F.ras_INJ_CMD_KIND kind).setFld pgRas F.ras_INJ_CMD_TARGET (bitsOf v 3 3)
  if !(bitOf v 4) then s1
  else if 1 ≤ kind ∧ kind ≤ 3 then s1.act (execInjectCorrupt (Fin.ofNat 3 (kind - 1)) (bitOf v 3))
  else if kind = 4 then s1.act (execInjectPoison (bitOf v 3))
  else if kind = 5 then s1.act execInjectPartFailure
  else s1

/-- SVN_CMD, PROFILE_SELECT and RCV_CMD of the SEC page (R500, R502, R505). Whether the fuses blow and the flash can be read is free. [DESIGN CHOICE: log entry 19] -/
def State.secCmd (s : State) (off v : Nat) : State :=
  let d := s.draw
  if off = 0x04C then (if bitOf v 0 then d.2.act (execCommit (Fin.ofNat 65 d.1)) else s)
  else if off = 0x050 then
    (if bitOf v 2 then d.2.act (execProfileSelect (Fin.ofNat 4 v) (d.1 % 2 == 1)) else s.setFld pgSec F.sec_PROFILE_SELECT_PROFILE (v % 4))
  else if bitOf v 0 then s.act (execLoad (bitOf v 1)) else s.setFld pgSec F.sec_RCV_CMD_FLASH (bitsOf v 1 1)

/-- The effect of a write to a register whose write has a command of its own, if it is one. [DESIGN CHOICE: log entry 19] -/
def State.rowWrite (s : State) (pg : Page) (off v : Nat) : Option State :=
  let i := pg.inst
  let w : W32 := BitVec.ofNat 32 v
  match pg.kind, off with
  | .top, 0x044 => some (s.act (execHostTimePublish w))
  | .pci, 0x074 => some (if bitOf v 0 then s.act execDiscard else s)
  | .sec, 0x04C | .sec, 0x050 | .sec, 0x060 => some (s.secCmd off v)
  | .ras, 0x050 => some (s.resetCmd v)
  | .ras, 0x068 => some (if bitOf v 0 then s.act execUnload else s)
  | .ras, 0x0A0 => some (s.act (execInjectionEnable w))
  | .ras, 0x0AC => some (s.injCmd v)
  | .qdr, 0x044 => some (s.act (execQueueConfigWrite (Fin.ofNat 17 (if i < 5 then i else i - 11)) w))
  | .qdr, 0x04C => some (s.act (execShaperBurstWrite (Fin.ofNat 17 (if i < 5 then i else i - 11)) w))
  | .qdr, 0x07C => some (s.act (execGateListCommit (Fin.ofNat 17 (if i < 5 then i else i - 11)) w))
  | .qdr, 0x074 =>
    let s1 := s.setFld pg F.qdr_GL_CTRL_SAMPLE_LEAD (bitsOf v 4 2)
    some (if bitOf v 0 then s1.act (execGateListCancel (Fin.ofNat 17 (if i < 5 then i else i - 11))) else s1)
  | .pmp, 0x050 => some (s.act (execPumpSqDoorbell (Fin.ofNat 10 i) w))
  | .pmp, 0x058 => some (s.act (execPumpQueueResume (Fin.ofNat 10 i) w))
  | .gll, 0x048 => some (if bitOf v 0 then s.act (execPortRetrain (Fin.ofNat 12 i)) else s)
  | .kpr, 0x070 => some (let d := s.draw; d.2.act (execYrun (Fin.ofNat 4 i) w (d.1 % 2 == 1)))
  | .kpr, 0x080 => some (s.act (execTestWin (Fin.ofNat 4 i) w))
  | .kpr, 0x088 => some (s.act (execWinData (Fin.ofNat 4 i) (some w)))
  | .kpr, 0x09C => some (if bitOf v 0 then s.act (execTagCplPop (Fin.ofNat 4 i)) else s)
  | .ses, 0x064 => some (s.act (execSessionQuery (Fin.ofNat 4 i) w))
  | .ses, 0x080 => some (if v % 4 = 1 then s.act execAdapterInstall else if v % 4 = 2 then s.act execAdapterRetire else s)
  | .wel, 0x044 => some (s.act (execSliceModeChange (Fin.ofNat 4 i) w))
  | .tir, 0x058 => some (s.act (execQuotaFloorWrite (Fin.ofNat 4 i) w))
  | .tir, 0x070 => some (s.act (execSumpChunksWrite w))
  | .tir, 0x084 => some (s.act (execScheduleInstall (Fin.ofNat 4 i) w (s.model (s.fld pg F.tir_MODEL_SEL_MODEL)).md))
  | .tir, 0x114 => some (s.objCmd 0 v)
  | .tnt4, 0x054 => some (s.objCmd (i + 1) v)
  | .cmp, 0x074 => some (s.act (execTableCommit w))
  | .mxe, 0x050 => some (s.act (execProgramStoreWrite (Fin.ofNat 32 i) w))
  | .mxe, 0x054 => some (s.act (execTestProgramStart (Fin.ofNat 32 i) w))
  | .vxe, 0x064 => some (s.act (execBranchCmd (Fin.ofNat 32 i) w))
  | .cis, 0x060 => some (s.chCmd i v)
  | .cis, 0x0A0 => some (s.act (execMarginMeasure (Fin.ofNat 20 i) w))
  | .cis, 0x0B0 => some (s.repairCmd i v)
  | .cisq, _ =>
    if 0x100 ≤ off ∧ off < 0x180 then
      some (s.act (execSlotWeightWrite (Fin.ofNat 4 i) (Fin.ofNat 4 ((off - 0x100) / 0x20)) (Fin.ofNat 8 (off % 0x20 / 4)) w))
    else none
  | .bkt, 0x04C => some (s.act (execMicroprogramWrite (Fin.ofNat 20 i) w))
  | .tnt1, 0x040 => some (s.act (execSqDoorbell (Fin.ofNat 64 i) w))
  | .tnt1, 0x044 => some (s.act (execTrDoorbell (Fin.ofNat 64 i) w))
  | _, _ => none

/-! ## Registers that check or clamp what is written -/

/-- A value clamped to a range. [DEDUCED: log entry 14] -/
def clampTo (lo hi v : Nat) : Nat := max lo (min hi v)

/-- The word that is stored for a word written, where the table clamps a field. [DEDUCED: log entry 14] -/
def clampWord (pg : Page) (off v : Nat) : Nat :=
  match pg.kind, off with
  | .pwr, 0x040 => setBitsNat v 11 0 (clampTo 1000 2400 (bitsOf v 11 0))
  | .pwr, 0x048 => setBitsNat v 8 0 (clampTo 50 240 (bitsOf v 8 0))
  | .pkg, 0x050 => setBitsNat v 7 0 (min 0x69 (bitsOf v 7 0))
  | .bkt, 0x040 => setBitsNat v 9 0 (clampTo 64 512 (bitsOf v 9 0))
  | .tir, 0x074 => setBitsNat v 5 0 (clampTo 8 56 (bitsOf v 5 0))
  | .ses, 0x054 => setBitsNat v 15 0 (clampTo 40 164 (bitsOf v 15 0) / 4 * 4)
  | .tel, 0x048 => setBitsNat v 4 0 (clampTo 10 20 (bitsOf v 4 0))
  | .tnt0, 0x04C => setBitsNat v 4 0 (clampTo 4 16 (bitsOf v 4 0))
  | .tnt0, 0x058 => setBitsNat v 4 0 (clampTo 8 20 (bitsOf v 4 0))
  | _, _ => v

/-- Is a write ignored by a condition of its register (R406, R432 and the register tables)? [DEDUCED: log entry 16] -/
def State.writeIgnored (s : State) (pg : Page) (off v : Nat) : Bool :=
  let i := pg.inst
  match pg.kind, off with
  | .tnt0, 0x044 | .tnt0, 0x048 | .tnt0, 0x04C | .tnt0, 0x050 | .tnt0, 0x054 | .tnt0, 0x058 | .tnt0, 0x05C | .tnt0, 0x060 =>
    !([fnOff, fnDetached, fnQuiescing].contains (s.fnState i))
  | .pmp, 0x048 => s.fldB pg (s.fld pg F.pmp_SQ_SEL_QUEUE) F.pmp_SQ_CFG_ENABLE == 1
  | .gll, 0x058 => s.portState i != pOff
  | .gll, 0x100 | .gll, 0x104 => !s.allPortsOff
  | .vxe, 0x04C | .vxe, 0x050 => !(s.testOwn i) || (s.ctx i true).started
  | .ras, 0x074 =>
    let h := s.fld pgRas F.ras_LOG_HEAD_VALUE
    decide ((v % 1024 + 1024 - h % 1024) % 1024 > (s.fld pgRas F.ras_LOG_TAIL_VALUE + 1024 - h % 1024) % 1024)
  | .tnt2, 0x044 =>
    let h := s.fld pg F.tnt2_FLOG_HEAD_VALUE
    decide ((v % 64 + 64 - h % 64) % 64 > (s.fld pg F.tnt2_FLOG_TAIL_VALUE + 64 - h % 64) % 64)
  | _, _ => false

/-- SQ_CFG of a pump page: SIZE_LOG2 clamped, PUMP modulo the group's pumps, both as they were while ENABLE is 1. -/
def State.writeSqCfg (s : State) (pg : Page) (v : Nat) : State :=
  let q := s.fld pg F.pmp_SQ_SEL_QUEUE
  let s1 := if s.fldB pg q F.pmp_SQ_CFG_ENABLE = 1 then s
    else (s.setFldB pg q F.pmp_SQ_CFG_SIZE_LOG2 (clampTo 4 12 (bitsOf v 3 0))).setFldB pg q F.pmp_SQ_CFG_PUMP (bitsOf v 6 4 % pumpCount pg.inst)
  s1.setFldB pg q F.pmp_SQ_CFG_ENABLE (bitsOf v 7 7)

/-- MODEL_PRIME (R188): LEAD is stored from 1 to LEAD_MAX, in all four TIR pages. -/
def State.writeModelPrime (s : State) (pg : Page) (v : Nat) : State :=
  let m := s.fld pg F.tir_MODEL_SEL_MODEL
  let s1 := (s.setFldB pg m F.tir_MODEL_PRIME_LEAD_MAX (bitsOf v 7 4)).setFldB pg m F.tir_MODEL_PRIME_MISS_THRESH (bitsOf v 15 8)
  let lead := clampTo 1 (s1.leadMax pg.inst m) (bitsOf v 3 0)
  (List.range 4).foldl (fun s q => s.setFldB (pgTir q) m F.tir_MODEL_PRIME_LEAD lead) s1

/-- A ring's base or size is written (R406): its positions return to 0. [DESIGN CHOICE: log entry 21] -/
def State.ringMoved (s : State) (t : Nat) (sq : Bool) : State :=
  if sq then
    let s1 := (s.setFld (pgTnt t) F.tnt0_SQ_HEAD_INDEX 0).setFld (pgTnt1 t) F.tnt1_SQ_DB_INDEX 0
    s1.setTen t { s1.ten t with entry := none }
  else (s.setFld (pgTnt t) F.tnt0_TR_TAIL_INDEX 0).setFld (pgTnt1 t) F.tnt1_TR_DB_INDEX 0

/-- What else a write that has been stored does. -/
def State.afterWrite (s : State) (pg : Page) (off : Nat) : State :=
  match pg.kind, off with
  | .top, 0x04C => if s.fld pgTop F.top_HOST_TIME_CFG_STALE_LIMIT_US = 0 then s.setFld pgTop F.top_HOST_TIME_STATUS_STALE 0 else s
  | .pkg, 0x050 | .pkg, 0x054 => s.refreshAlerts
  | .tnt0, 0x048 | .tnt0, 0x04C => s.ringMoved pg.inst true
  | .tnt0, 0x054 | .tnt0, 0x058 => s.ringMoved pg.inst false
  | _, _ => s

/-! ## One register -/

/-- A write of a word of an MSI-X page, laid out as the PCIe specification requires: an entry that is unmasked while its pending bit is set sends
its message. The pending bits are read-only. [PRESUMED: log entry 11] -/
def State.writeMsix (s : State) (fn off v : Nat) : State :=
  if off ≥ 16 * vectors fn then s
  else
    let pg : Page := ⟨.msix, fn⟩
    let vec := off / 16
    let w := if off % 16 = 12 then v % 2 else if off % 16 = 0 then v / 4 * 4 else v
    let s1 := s.setReg pg 0 off (BitVec.ofNat 32 w)
    if off % 16 = 12 ∧ w = 0 ∧ bitOf (s.reg pg 0 0x800).toNat vec then
      (s1.setReg pg 0 0x800 (BitVec.ofNat 32 (setBitsNat (s.reg pg 0 0x800).toNat vec vec 0))).irq fn vec
    else s1

/-- The commit of a pair (R66): {written _HI, staging register}, under the access codes of both registers. [DEDUCED: log entry 12] -/
def State.commitPair (s : State) (pg : Page) (off v : Nat) : State :=
  let lo := s.staged pg 0 (off - 4)
  (s.store pg (off - 4) lo).store pg off v

/-- A write of one register (R8, R9, R54, R66, R69, R72). -/
def State.writeWord (s : State) (pg : Page) (off : Nat) (w : W32) : State :=
  let v := w.toNat
  if pg.kind = .msix then s.writeMsix pg.inst off v
  else if off < 0x040 then s.writeHeader pg off v
  else if pg.kind = .dir ∧ 0x100 ≤ off ∧ off ≤ 0x68C then s
  else if !(s.pageLive pg) || (pg.regAt off).isNone then s.badAccess pg off true
  else match s.rowWrite pg off v with
    | some t => t
    | none =>
      if s.unselected pg off || s.writeIgnored pg off v then s
      else if pg.isLow off then { s with stage := SMap.set s.stage (resetWord pg 0 off) (regKey pg 0 off) w }
      else if pg.isHigh off then (s.commitPair pg off v).afterWrite pg off
      else if pg.kind = .pmp ∧ off = 0x04C then s.writeSqCfg pg v
      else if pg.kind = .tir ∧ off = 0x07C then s.writeModelPrime pg v
      else (s.store pg off (clampWord pg off v)).afterWrite pg off

/-- Counts of waiting times, of bus occupancy and of bit errors corrected below the commands: no command of the table tells them. [DESIGN CHOICE: log entry 119] -/
def Page.untold (pg : Page) (off : Nat) : Bool :=
  match pg.kind with
  | .pmp => off == 0x074 && pumpKind pg.inst == 0
  | .gll => off == 0x05C
  | .mxe => off == 0x07C || off == 0x084
  | .vxe => off == 0x078
  | .bkt => off == 0x05C || off == 0x060
  | _ => false

/-- What a read of such a count returns: a free value in the register's bits; for BKT.WL_UTIL a peak of at most 100, its pseudo-channel, and a mean
of at most the peak. [DESIGN CHOICE: log entry 119] -/
def State.untoldWord (s : State) (pg : Page) (r : Reg) : W32 × State :=
  let d := s.draw
  let v := if pg.kind = .bkt ∧ r.off = 0x060 then d.1 % 101 + 2 ^ 8 * (d.1 / 10201 % 64) + 2 ^ 14 * (d.1 / 101 % (d.1 % 101 + 1)) else d.1 &&& r.readMask
  (BitVec.ofNat 32 v, d.2)

/-- A read of one register with its effects (R9, R66): RC fields clear, a _LO register loads the pair's read latch, and a _HI register
returns it. [DEDUCED: log entry 12] -/
def State.readWord (s : State) (pg : Page) (off : Nat) : W32 × State :=
  if pg.kind = .kpr ∧ off = 0x088 ∧ s.pageLive pg then s.winWord pg.inst
  else if pg.isHigh off && s.pageLive pg then (SMap.get s.latch (resetWord pg 0 off) (regKey pg 0 (off - 4)), s)
  else
    let v := s.peek pg off
    let s1 := if pg.isLow off && s.pageLive pg then
        { s with latch := SMap.set s.latch (resetWord pg 0 (off + 4)) (regKey pg 0 off) (s.peek pg (off + 4)) }
      else s
    if pg.kind = .msix then (v, s1)
    else if off = 0x01C then (v, s1.setReg pg 0 0x01C 0#32)
    else if off < 0x040 || !(s.pageLive pg) || s.unselected pg off then (v, s1)
    else match pg.regAt off with
      | some (r, _) =>
        let h := s.home pg off
        if pg.untold off then s1.untoldWord pg r
        else (v, s1.setReg h.1 h.2 off (BitVec.ofNat 32 (r.afterRead (s.reg h.1 h.2 off).toNat)))
      | none => (v, s1)

end Sys2Proof.Machine
end

