-- ==== Sys2Proof/Machine/Registers.lean ====
section
/-! DEFINITION. Bus accesses to registers (R54, R64 to R66, R71, R420), error injection (R489), the management bus (R521) and debug access
(R514). -/
namespace Sys2Proof.Machine
open Sys2Proof

/-- The size of a function's BAR0 (R53, R70, R391): 0 PF, 1–64 tenants, 65 proxy. -/
def barSize (fn : Nat) : Nat := if fn = 0 then 2 ^ 26 else if fn = 65 then 2 ^ 16 else 2 ^ 18

/-- Does an access of a function to its BAR0 reach the registers: the port serves, a tenant is present, and the offset lies in the BAR? [DESIGN CHOICE: log entry 18] -/
def State.reaches (s : State) (fn off : Nat) : Bool :=
  s.linkServes && decide (off < barSize fn) && (decide (fn = 0) || (if fn = 65 then s.fld pgPci F.pci_LINK_CFG_MODE == 1 else (s.ten (fn - 1)).present))

/-- Is an access taken (R64): 4 bytes, or 8 to 64 bytes of whole registers within one page? -/
def wordsOk (off len : Nat) : Bool := off % 4 == 0 && len % 4 == 0 && decide (4 ≤ len ∧ len ≤ 64) && decide (off % 4096 + len ≤ 4096)
/-- Or a read of 1 to 3 bytes within one register. -/
def readOk (off len : Nat) : Bool := wordsOk off len || decide (1 ≤ len ∧ off % 4 + len ≤ 4)

/-- A dropped access of a function (R54, R65, R71): to a page, or to a slot that holds none, which a tenant's page 0 reports. [DEDUCED: log entry 16] -/
def State.dropped (s : State) (fn off : Nat) (write : Bool) : State :=
  match pageAtSlot fn (off / 4096) with
  | some pg => s.badAccess pg (off % 4096) write
  | none =>
    if fn = 0 then (s.bump pgDir F.dir_BAD_ACCESS_COUNT 1).setReg pgDir 0 0x0A4 (BitVec.ofNat 32 (off % 2 ^ 26 + 2 ^ 31 * b2n write))
    else if fn = 65 then s else s.badAccess (pgTnt (fn - 1)) off write

/-- The page of a function at an offset, and the page within the GLL 12 instance. -/
def State.busWrite (s : State) (fn off : Nat) (w : W32) : State :=
  match pageAtSlot fn (off / 4096) with
  | some pg => s.writeWord pg (off % 4096) w
  | none => s.dropped fn off true

/-- A read of one register by a function: a slot that holds no page reads zero (R54). -/
def State.busRead (s : State) (fn off : Nat) : W32 × State :=
  match pageAtSlot fn (off / 4096) with
  | some pg => s.readWord pg (off % 4096)
  | none => (0#32, s)

/-- REGISTER_WRITE (R9, R54, R64 to R68): a function writes bytes at an offset of its BAR0. A write that R64 does not take is dropped; any other
is its registers' writes in ascending order. -/
def execRegisterWrite (fn : Fin 66) (off : W32) (data : List Byte) (s : State) : Out :=
  let o := off.toNat
  let f : Nat := fn
  if !(s.reaches f o) || data.isEmpty then .next s
  else if !(wordsOk o data.length) then .next (s.dropped f o true)
  else .next ((List.range (data.length / 4)).foldl (fun s k => s.busWrite f (o + 4 * k) (BitVec.ofNat 32 (leAt data (4 * k) 4))) s)

/-- The registers from an offset, read in ascending order. -/
def State.readWords (s : State) (fn off : Nat) : Nat → List Byte × State
  | 0 => ([], s)
  | n + 1 =>
    let r := s.busRead fn off
    let t := State.readWords r.2 fn (off + 4) n
    (leBytes 4 r.1.toNat ++ t.1, t.2)

/-- A read of a function's registers (R64 to R66, R420): the data leaves as a completion. [DEDUCED: log entry 17] -/
def State.regRead (s : State) (fn : Fin 66) (o len : Nat) : State :=
  let f : Nat := fn
  if readOk o len then
    let r := s.readWords f (o / 4 * 4) ((o % 4 + len + 3) / 4)
    r.2.emit (.regData f (slice r.1 (o % 4) len))
  else if len > 64 ∧ o % 4096 + len ≤ 4096 then
    s.act (execPartnerViolation 2 fn (Fin.ofNat 2 (s.portOf f)) false (BitVec.ofNat 64 o))
  else (s.dropped f o false).emit (.regData f (List.replicate len 0#8))

/-- REGISTER_READ_CLEAR (R9, R64, R65): a function reads `len` bytes at an offset of its BAR0; each RC field read clears. -/
def execRegisterReadClear (fn : Fin 66) (off : W32) (len : Fin 4097) (s : State) : Out :=
  if !(s.reaches fn off.toNat) || len.val == 0 then .next s else .next (s.regRead fn off.toNat len)

/-- PAIR_LO_READ (R66): a read of a _LO register returns the low half and loads the pair's read latch with the high half. -/
def execPairLoRead (fn : Fin 66) (off : W32) (s : State) : Out :=
  let o := off.toNat
  match pageAtSlot fn (o / 4096) with
  | some pg => if s.reaches fn o && o % 4 == 0 && pg.isLow (o % 4096) then .next (s.regRead fn o 4) else .next s
  | none => .next s

/-- ERROR_INJECT (R58, R489): a write to the ERR_INJECT register of the page at a slot of a function's BAR0. -/
def execErrorInject (fn : Fin 66) (slot : Fin 16384) (causes : W32) (s : State) : Out :=
  match pageAtSlot fn slot with
  | some pg => if s.reaches fn (4096 * slot.val) && pg.kind != .msix then .next (s.injectErr pg causes.toNat) else .next s
  | none => .next s

/-! ## The management bus -/

/-- A byte of the PKG page as the management bus returns it (R521): while VIN is off only what stays valid on VAUX, and it reads those registers at
any time. A read over the bus has no effect of its own. [DEDUCED: log entry 24] -/
def State.mgmtByte (s : State) (o : Nat) : Byte :=
  let r := o % 4096 / 4 * 4
  let w : W32 := if r = 0x044 ∨ r = 0x05C ∨ r = 0x060 then s.reg pgPkg 0 r
    else if s.boot.vin && !s.boot.tripped then s.peek pgPkg r else 0#32
  BitVec.ofNat 8 (w.toNat / 256 ^ (o % 4))

/-- MGMT_BUS_READ (R521): a read of `len` bytes at a byte offset of the PKG page. [DEDUCED: log entry 24] -/
def execMgmtBusRead (off : Fin 4096) (len : Fin 257) (s : State) : Out :=
  .next (if s.boot.vaux then s.emit (.mgmt true ((List.range len).map (fun i => s.mgmtByte (off + i)))) else s)

/-! ## Debug access -/

/-- DEBUG_ACCESS (R514): on an unlocked port, device state outside the security block is read or changed. Registers are read and set as they
are stored, in the window that their selector shows. [DESIGN CHOICE: log entry 23] -/
def execDebugAccess (op : DebugOp) (s : State) : Out :=
  if !s.jtagUp || !s.jtagUnlocked then .next s
  else
    let s0 := { s with boot := { s.boot with ir := .debug } }
    match op with
    | .readReg off =>
      match pageAtSlot 0 (off.toNat / 4096) with
      | some pg => if pg.kind = .sec then .next s0
          else .next (s0.emit (.jtag (leBytes 4 (s.peek pg (off.toNat % 4096 / 4 * 4)).toNat)))
      | none => .next (s0.emit (.jtag (leBytes 4 0)))
    | .writeReg off value =>
      match pageAtSlot 0 (off.toNat / 4096) with
      | some pg =>
        if pg.kind = .sec then .next s0
        else let h := s.home pg (off.toNat % 4096 / 4 * 4); .next (s0.setReg h.1 h.2 (off.toNat % 4096 / 4 * 4) value)
      | none => .next s0
    | .readCol g c =>
      if !(granExists g) then .fault .noGranule else
      let r := s0.resolve g
      .next (r.2.emit (.jtag ((r.2.col (r.1.key c)).take 32)))
    | .writeCol g c data =>
      if !(granExists g) then .fault .noGranule else
      let r := s0.resolve g
      .next (r.2.setCol (r.1.key c) (encodeCol (slice data 0 32)))
    | .readWell q b => .next (s0.emit (.jtag [SMap.get s.mem.well 0#8 (q.val * 268435456 + b.val)]))
    | .writeWell q b v => .next { s0 with mem := { s0.mem with well := SMap.set s0.mem.well 0#8 (q.val * 268435456 + b.val) v } }
    | .readStore e b => .next (s0.emit (.jtag [SMap.get s.pmp.store 0#8 (e.val * 4194304 + b.val)]))
    | .writeStore e b v => .next { s0 with pmp := { s0.pmp with store := SMap.set s0.pmp.store 0#8 (e.val * 4194304 + b.val) v } }

end Sys2Proof.Machine
end

