-- ==== Sys2Proof/Machine/Dispatch.lean ====
section
/-! DEFINITION. What each command does: one direct call of its meaning. -/
namespace Sys2Proof.Machine
open Sys2Proof

def exec (i : Instr) (s : State) : Host.Outcome State Fault Refusal :=
  match i with
  | .sealRound m drafts => Sys2Proof.Machine.execSealRound m drafts s
  | .kvTailWrite num h draft layer head data => Sys2Proof.Machine.execKvTailWrite num h draft layer head data s
  | .layerBoundary => Sys2Proof.Machine.execLayerBoundary s
  | .sampling num h draft logits => Sys2Proof.Machine.execSampling num h draft logits s
  | .roundBoundary num => Sys2Proof.Machine.execRoundBoundary num s
  | .deadlineExpiry h => Sys2Proof.Machine.execDeadlineExpiry h s
  | .timeToLiveExpiry h => Sys2Proof.Machine.execTimeToLiveExpiry h s
  | .tokenDelivery t count => Sys2Proof.Machine.execTokenDelivery t count s
  | .tokenIrqDelayExpiry t => Sys2Proof.Machine.execTokenIrqDelayExpiry t s
  | .hostTimePublish hi => Sys2Proof.Machine.execHostTimePublish hi s
  | .hostTimeCopyUpdate blk count => Sys2Proof.Machine.execHostTimeCopyUpdate blk count s
  | .hostTimeStale => Sys2Proof.Machine.execHostTimeStale s
  | .telemetryWindowClose blk samples => Sys2Proof.Machine.execTelemetryWindowClose blk samples s
  | .slotVersionMigrate fn obj => Sys2Proof.Machine.execSlotVersionMigrate fn obj s
  | .registerWrite fn off data => Sys2Proof.Machine.execRegisterWrite fn off data s
  | .registerReadClear fn off len => Sys2Proof.Machine.execRegisterReadClear fn off len s
  | .pairLoRead fn off => Sys2Proof.Machine.execPairLoRead fn off s
  | .errorInject fn slot causes => Sys2Proof.Machine.execErrorInject fn slot causes s
  | .columnRead g col => Sys2Proof.Machine.execColumnRead g col s
  | .columnWrite g off data => Sys2Proof.Machine.execColumnWrite g off data s
  | .addFp32 g off data => Sys2Proof.Machine.execAddFp32 g off data s
  | .addBf16 g off data => Sys2Proof.Machine.execAddBf16 g off data s
  | .addInt32 g off data => Sys2Proof.Machine.execAddInt32 g off data s
  | .addInt64 g off data => Sys2Proof.Machine.execAddInt64 g off data s
  | .minFp32 g off data => Sys2Proof.Machine.execMinFp32 g off data s
  | .maxFp32 g off data => Sys2Proof.Machine.execMaxFp32 g off data s
  | .minBf16 g off data => Sys2Proof.Machine.execMinBf16 g off data s
  | .maxBf16 g off data => Sys2Proof.Machine.execMaxBf16 g off data s
  | .minInt32 g off data => Sys2Proof.Machine.execMinInt32 g off data s
  | .maxInt32 g off data => Sys2Proof.Machine.execMaxInt32 g off data s
  | .minInt64 g off data => Sys2Proof.Machine.execMinInt64 g off data s
  | .maxInt64 g off data => Sys2Proof.Machine.execMaxInt64 g off data s
  | .swap32 g off data => Sys2Proof.Machine.execSwap32 g off data s
  | .swap64 g off data => Sys2Proof.Machine.execSwap64 g off data s
  | .cas32 g off data => Sys2Proof.Machine.execCas32 g off data s
  | .cas64 g off data => Sys2Proof.Machine.execCas64 g off data s
  | .fetchAddInt32 g off data => Sys2Proof.Machine.execFetchAddInt32 g off data s
  | .fetchAddInt64 g off data => Sys2Proof.Machine.execFetchAddInt64 g off data s
  | .scrubRead st => Sys2Proof.Machine.execScrubRead st s
  | .stackTempRead st temp => Sys2Proof.Machine.execStackTempRead st temp s
  | .retrainRequest st c retries => Sys2Proof.Machine.execRetrainRequest st c retries s
  | .chCmdRetrain st c => Sys2Proof.Machine.execChCmdRetrain st c s
  | .chCmdMapOut st c => Sys2Proof.Machine.execChCmdMapOut st c s
  | .marginEnter st c => Sys2Proof.Machine.execMarginEnter st c s
  | .marginExit st c => Sys2Proof.Machine.execMarginExit st c s
  | .marginMeasure st value => Sys2Proof.Machine.execMarginMeasure st value s
  | .marginMeasureDone st edges => Sys2Proof.Machine.execMarginMeasureDone st edges s
  | .retrainStart st => Sys2Proof.Machine.execRetrainStart st s
  | .retrainComplete st c passed linkOk => Sys2Proof.Machine.execRetrainComplete st c passed linkOk s
  | .retrainTimeout st c linkOk => Sys2Proof.Machine.execRetrainTimeout st c linkOk s
  | .mapOutStart st c => Sys2Proof.Machine.execMapOutStart st c s
  | .kvRunMove st pc bp => Sys2Proof.Machine.execKvRunMove st pc bp s
  | .mapoutGranuleCopy q k => Sys2Proof.Machine.execMapoutGranuleCopy q k s
  | .channelLost st c => Sys2Proof.Machine.execChannelLost st c s
  | .stackBringUp st failed lanes rows => Sys2Proof.Machine.execStackBringUp st failed lanes rows s
  | .stackResume st failed linkOk => Sys2Proof.Machine.execStackResume st failed linkOk s
  | .laneRepair st c lane => Sys2Proof.Machine.execLaneRepair st c lane s
  | .rowRepair st c target row => Sys2Proof.Machine.execRowRepair st c target row s
  | .repairComplete st ok => Sys2Proof.Machine.execRepairComplete st ok s
  | .slotWeightWrite q v j value => Sys2Proof.Machine.execSlotWeightWrite q v j value s
  | .runRingPublish st pc bytes tail => Sys2Proof.Machine.execRunRingPublish st pc bytes tail s
  | .tagOpen st t query record value => Sys2Proof.Machine.execTagOpen st t query record value s
  | .tagRelease st t => Sys2Proof.Machine.execTagRelease st t s
  | .unitTagStart st pc bp => Sys2Proof.Machine.execUnitTagStart st pc bp s
  | .queryBroadcast st pc t => Sys2Proof.Machine.execQueryBroadcast st pc t s
  | .bktNop st pc bp => Sys2Proof.Machine.execBktNop st pc bp s
  | .bktInit st pc bp => Sys2Proof.Machine.execBktInit st pc bp s
  | .bktZero st pc bp => Sys2Proof.Machine.execBktZero st pc bp s
  | .bktQk st pc bp => Sys2Proof.Machine.execBktQk st pc bp s
  | .bktMask st pc bp => Sys2Proof.Machine.execBktMask st pc bp s
  | .bktSmax st pc bp => Sys2Proof.Machine.execBktSmax st pc bp s
  | .bktPv st pc bp => Sys2Proof.Machine.execBktPv st pc bp s
  | .bktNext st pc bp => Sys2Proof.Machine.execBktNext st pc bp s
  | .bktBr st pc bp => Sys2Proof.Machine.execBktBr st pc bp s
  | .bktMaxx st pc bp => Sys2Proof.Machine.execBktMaxx st pc bp s
  | .bktSendacc st pc bp => Sys2Proof.Machine.execBktSendacc st pc bp s
  | .bktEnd st pc bp => Sys2Proof.Machine.execBktEnd st pc bp s
  | .windlassProg st pc => Sys2Proof.Machine.execWindlassProg st pc s
  | .windlassStart st pc => Sys2Proof.Machine.execWindlassStart st pc s
  | .windlassPagelist st pc => Sys2Proof.Machine.execWindlassPagelist st pc s
  | .windlassQuery st pc => Sys2Proof.Machine.execWindlassQuery st pc s
  | .maxUp st pc => Sys2Proof.Machine.execMaxUp st pc s
  | .maxDown st pc => Sys2Proof.Machine.execMaxDown st pc s
  | .accUp st pc => Sys2Proof.Machine.execAccUp st pc s
  | .windlassDone st pc => Sys2Proof.Machine.execWindlassDone st pc s
  | .windlassPoison st pc => Sys2Proof.Machine.execWindlassPoison st pc s
  | .tagComplete st t => Sys2Proof.Machine.execTagComplete st t s
  | .combineSlotCarry st t e a0 slot => Sys2Proof.Machine.execCombineSlotCarry st t e a0 slot s
  | .yieldService st pc bp => Sys2Proof.Machine.execYieldService st pc bp s
  | .microprogramWrite st word => Sys2Proof.Machine.execMicroprogramWrite st word s
  | .bucketUnitTimeout st t => Sys2Proof.Machine.execBucketUnitTimeout st t s
  | .objCreate fn obj => Sys2Proof.Machine.execObjCreate fn obj s
  | .objRelease fn obj => Sys2Proof.Machine.execObjRelease fn obj s
  | .objPin fn obj promote => Sys2Proof.Machine.execObjPin fn obj promote s
  | .objUnpin fn obj => Sys2Proof.Machine.execObjUnpin fn obj s
  | .objPromote fn obj => Sys2Proof.Machine.execObjPromote fn obj s
  | .objDemote fn obj tier => Sys2Proof.Machine.execObjDemote fn obj tier s
  | .objSetPref fn obj tier => Sys2Proof.Machine.execObjSetPref fn obj tier s
  | .objQuery fn obj => Sys2Proof.Machine.execObjQuery fn obj s
  | .objectLoadDone fn obj golden => Sys2Proof.Machine.execObjectLoadDone fn obj golden s
  | .objectFreed fn obj => Sys2Proof.Machine.execObjectFreed fn obj s
  | .tileMoveComplete fn obj hostOk => Sys2Proof.Machine.execTileMoveComplete fn obj hostOk s
  | .promotion fn obj => Sys2Proof.Machine.execPromotion fn obj s
  | .eviction q pool => Sys2Proof.Machine.execEviction q pool s
  | .sliceModeChange q hi => Sys2Proof.Machine.execSliceModeChange q hi s
  | .sliceSwitchComplete q slice => Sys2Proof.Machine.execSliceSwitchComplete q slice s
  | .quotaFloorWrite q units => Sys2Proof.Machine.execQuotaFloorWrite q units s
  | .sumpChunksWrite value => Sys2Proof.Machine.execSumpChunksWrite value s
  | .scheduleInstall q hi md => Sys2Proof.Machine.execScheduleInstall q hi md s
  | .primingStage e m expert => Sys2Proof.Machine.execPrimingStage e m expert s
  | .pumpNop page src => Sys2Proof.Machine.execPumpNop page src s
  | .pumpCopy page src host => Sys2Proof.Machine.execPumpCopy page src host s
  | .pumpFill page src => Sys2Proof.Machine.execPumpFill page src s
  | .pumpAdder page src host => Sys2Proof.Machine.execPumpAdder page src host s
  | .pumpCompress page src host => Sys2Proof.Machine.execPumpCompress page src host s
  | .compressSecondPass id => Sys2Proof.Machine.execCompressSecondPass id s
  | .pumpExpand page src host => Sys2Proof.Machine.execPumpExpand page src host s
  | .pumpFence page src => Sys2Proof.Machine.execPumpFence page src s
  | .pumpSqDoorbell page value => Sys2Proof.Machine.execPumpSqDoorbell page value s
  | .pumpQueueResume page value => Sys2Proof.Machine.execPumpQueueResume page value s
  | .tableCommit value => Sys2Proof.Machine.execTableCommit value s
  | .tableGenerationDrain slot => Sys2Proof.Machine.execTableGenerationDrain slot s
  | .feedExpand e => Sys2Proof.Machine.execFeedExpand e s
  | .latchFill e => Sys2Proof.Machine.execLatchFill e s
  | .mma e y => Sys2Proof.Machine.execMma e y s
  | .accset e y => Sys2Proof.Machine.execAccset e y s
  | .programStart e entry => Sys2Proof.Machine.execProgramStart e entry s
  | .testProgramStart e value => Sys2Proof.Machine.execTestProgramStart e value s
  | .programStoreWrite e value => Sys2Proof.Machine.execProgramStoreWrite e value s
  | .engineHalt e => Sys2Proof.Machine.execEngineHalt e s
  | .engineStep e => Sys2Proof.Machine.execEngineStep e s
  | .engineResume e => Sys2Proof.Machine.execEngineResume e s
  | .engineReset e => Sys2Proof.Machine.execEngineReset e s
  | .vxNop e y => Sys2Proof.Machine.execVxNop e y s
  | .add e y => Sys2Proof.Machine.execAdd e y s
  | .sub e y => Sys2Proof.Machine.execSub e y s
  | .mul e y => Sys2Proof.Machine.execMul e y s
  | .fma e y => Sys2Proof.Machine.execFma e y s
  | .max e y => Sys2Proof.Machine.execMax e y s
  | .min e y => Sys2Proof.Machine.execMin e y s
  | .sel e y => Sys2Proof.Machine.execSel e y s
  | .mov e y => Sys2Proof.Machine.execMov e y s
  | .abs e y => Sys2Proof.Machine.execAbs e y s
  | .neg e y => Sys2Proof.Machine.execNeg e y s
  | .exp e y => Sys2Proof.Machine.execExp e y s
  | .log e y => Sys2Proof.Machine.execLog e y s
  | .rcp e y => Sys2Proof.Machine.execRcp e y s
  | .rsqrt e y => Sys2Proof.Machine.execRsqrt e y s
  | .silu e y => Sys2Proof.Machine.execSilu e y s
  | .gelu e y => Sys2Proof.Machine.execGelu e y s
  | .sigm e y => Sys2Proof.Machine.execSigm e y s
  | .tanh e y => Sys2Proof.Machine.execTanh e y s
  | .f2i e y => Sys2Proof.Machine.execF2i e y s
  | .i2f e y => Sys2Proof.Machine.execI2f e y s
  | .rotp e y => Sys2Proof.Machine.execRotp e y s
  | .and e y => Sys2Proof.Machine.execAnd e y s
  | .or e y => Sys2Proof.Machine.execOr e y s
  | .xor e y => Sys2Proof.Machine.execXor e y s
  | .shl e y => Sys2Proof.Machine.execShl e y s
  | .shr e y => Sys2Proof.Machine.execShr e y s
  | .sra e y => Sys2Proof.Machine.execSra e y s
  | .cmpeq e y => Sys2Proof.Machine.execCmpeq e y s
  | .cmpne e y => Sys2Proof.Machine.execCmpne e y s
  | .cmplt e y => Sys2Proof.Machine.execCmplt e y s
  | .cmple e y => Sys2Proof.Machine.execCmple e y s
  | .cmpgt e y => Sys2Proof.Machine.execCmpgt e y s
  | .cmpge e y => Sys2Proof.Machine.execCmpge e y s
  | .isnan e y => Sys2Proof.Machine.execIsnan e y s
  | .mand e y => Sys2Proof.Machine.execMand e y s
  | .mor e y => Sys2Proof.Machine.execMor e y s
  | .mandn e y => Sys2Proof.Machine.execMandn e y s
  | .mnot e y => Sys2Proof.Machine.execMnot e y s
  | .mfill e y => Sys2Proof.Machine.execMfill e y s
  | .rowset e y => Sys2Proof.Machine.execRowset e y s
  | .rsum e y => Sys2Proof.Machine.execRsum e y s
  | .rmax e y => Sys2Proof.Machine.execRmax e y s
  | .rmin e y => Sys2Proof.Machine.execRmin e y s
  | .rargmax e y => Sys2Proof.Machine.execRargmax e y s
  | .rargmin e y => Sys2Proof.Machine.execRargmin e y s
  | .rband e y => Sys2Proof.Machine.execRband e y s
  | .rbor e y => Sys2Proof.Machine.execRbor e y s
  | .tsum e y => Sys2Proof.Machine.execTsum e y s
  | .tsumsq e y => Sys2Proof.Machine.execTsumsq e y s
  | .tmax e y => Sys2Proof.Machine.execTmax e y s
  | .tmin e y => Sys2Proof.Machine.execTmin e y s
  | .targmax e y => Sys2Proof.Machine.execTargmax e y s
  | .targmin e y => Sys2Proof.Machine.execTargmin e y s
  | .scan e y => Sys2Proof.Machine.execScan e y s
  | .findge e y => Sys2Proof.Machine.execFindge e y s
  | .kth e y => Sys2Proof.Machine.execKth e y s
  | .perm e y => Sys2Proof.Machine.execPerm e y s
  | .bcast e y => Sys2Proof.Machine.execBcast e y s
  | .compress e y => Sys2Proof.Machine.execCompress e y s
  | .expand e y => Sys2Proof.Machine.execExpand e y s
  | .scmb e y => Sys2Proof.Machine.execScmb e y s
  | .rng e y => Sys2Proof.Machine.execRng e y s
  | .summary e y => Sys2Proof.Machine.execSummary e y s
  | .branchWord e y => Sys2Proof.Machine.execBranchWord e y s
  | .branchCmd e value => Sys2Proof.Machine.execBranchCmd e value s
  | .figure e y => Sys2Proof.Machine.execFigure e y s
  | .yProgramYield e row => Sys2Proof.Machine.execYProgramYield e row s
  | .yProgramResume e => Sys2Proof.Machine.execYProgramResume e s
  | .feed e y => Sys2Proof.Machine.execFeed e y s
  | .scale e y => Sys2Proof.Machine.execScale e y s
  | .get e y => Sys2Proof.Machine.execGet e y s
  | .put e y => Sys2Proof.Machine.execPut e y s
  | .rowin e y => Sys2Proof.Machine.execRowin e y s
  | .rowout e y => Sys2Proof.Machine.execRowout e y s
  | .endCmd e y => Sys2Proof.Machine.execEnd e y s
  | .fence e y => Sys2Proof.Machine.execFence e y s
  | .signal e y => Sys2Proof.Machine.execSignal e y s
  | .wait e y => Sys2Proof.Machine.execWait e y s
  | .notify e y => Sys2Proof.Machine.execNotify e y s
  | .jump e y => Sys2Proof.Machine.execJump e y s
  | .keeperCounterAdd e ctr value => Sys2Proof.Machine.execKeeperCounterAdd e ctr value s
  | .sqDoorbell t value => Sys2Proof.Machine.execSqDoorbell t value s
  | .trDoorbell t value => Sys2Proof.Machine.execTrDoorbell t value s
  | .submissionTake t host => Sys2Proof.Machine.execSubmissionTake t host s
  | .openCmd h => Sys2Proof.Machine.execOpen h s
  | .append h => Sys2Proof.Machine.execAppend h s
  | .generate h => Sys2Proof.Machine.execGenerate h s
  | .park h => Sys2Proof.Machine.execPark h s
  | .resume h => Sys2Proof.Machine.execResume h s
  | .close h => Sys2Proof.Machine.execClose h s
  | .cancel h => Sys2Proof.Machine.execCancel h s
  | .kvImport h data => Sys2Proof.Machine.execKvImport h data s
  | .kvExport h => Sys2Proof.Machine.execKvExport h s
  | .adapterBind h => Sys2Proof.Machine.execAdapterBind h s
  | .purge h => Sys2Proof.Machine.execPurge h s
  | .settleComplete h => Sys2Proof.Machine.execSettleComplete h s
  | .sinkComplete h => Sys2Proof.Machine.execSinkComplete h s
  | .wakeComplete h => Sys2Proof.Machine.execWakeComplete h s
  | .adapterInstall => Sys2Proof.Machine.execAdapterInstall s
  | .adapterRetire => Sys2Proof.Machine.execAdapterRetire s
  | .adapterVersionFree adapter version => Sys2Proof.Machine.execAdapterVersionFree adapter version s
  | .promptProgramStart e entry h count => Sys2Proof.Machine.execPromptProgramStart e entry h count s
  | .yrun q value meets => Sys2Proof.Machine.execYrun q value meets s
  | .customProgramStart q => Sys2Proof.Machine.execCustomProgramStart q s
  | .testWin q value => Sys2Proof.Machine.execTestWin q value s
  | .testWindowActive q => Sys2Proof.Machine.execTestWindowActive q s
  | .winData q value => Sys2Proof.Machine.execWinData q value s
  | .tagCplPop q => Sys2Proof.Machine.execTagCplPop q s
  | .sessionQuery q handle => Sys2Proof.Machine.execSessionQuery q handle s
  | .frameEnqueue n queue len bytes => Sys2Proof.Machine.execFrameEnqueue n queue len bytes s
  | .frameSend n delay => Sys2Proof.Machine.execFrameSend n delay s
  | .shaperTick n queue => Sys2Proof.Machine.execShaperTick n queue s
  | .queueConfigWrite n value => Sys2Proof.Machine.execQueueConfigWrite n value s
  | .shaperBurstWrite n value => Sys2Proof.Machine.execShaperBurstWrite n value s
  | .gateListCommit n hi => Sys2Proof.Machine.execGateListCommit n hi s
  | .gateListCancel n => Sys2Proof.Machine.execGateListCancel n s
  | .hostReadCompletion t data => Sys2Proof.Machine.execHostReadCompletion t data s
  | .completionTimeout t => Sys2Proof.Machine.execCompletionTimeout t s
  | .functionEnable t => Sys2Proof.Machine.execFunctionEnable t s
  | .functionDisable t => Sys2Proof.Machine.execFunctionDisable t s
  | .d3hotEntry fn => Sys2Proof.Machine.execD3hotEntry fn s
  | .flr t => Sys2Proof.Machine.execFlr t s
  | .pfFlr flashOk => Sys2Proof.Machine.execPfFlr flashOk s
  | .shutdownComplete t => Sys2Proof.Machine.execShutdownComplete t s
  | .vfDisable port num => Sys2Proof.Machine.execVfDisable port num s
  | .functionProvisioned t => Sys2Proof.Machine.execFunctionProvisioned t s
  | .discard => Sys2Proof.Machine.execDiscard s
  | .atsTranslation chunk ok => Sys2Proof.Machine.execAtsTranslation chunk ok s
  | .invalidateRequest itag chunks => Sys2Proof.Machine.execInvalidateRequest itag chunks s
  | .invalidateCompletion itag => Sys2Proof.Machine.execInvalidateCompletion itag s
  | .partnerViolation code fn port write addr => Sys2Proof.Machine.execPartnerViolation code fn port write addr s
  | .pcieLinkTrain port width rate flit => Sys2Proof.Machine.execPcieLinkTrain port width rate flit s
  | .getVersion => Sys2Proof.Machine.execGetVersion s
  | .getCapabilities => Sys2Proof.Machine.execGetCapabilities s
  | .negotiateAlgorithms => Sys2Proof.Machine.execNegotiateAlgorithms s
  | .getDigests => Sys2Proof.Machine.execGetDigests s
  | .getCertificate slot off len => Sys2Proof.Machine.execGetCertificate slot off len s
  | .challenge slot summary nonce => Sys2Proof.Machine.execChallenge slot summary nonce s
  | .getMeasurements index signed nonce => Sys2Proof.Machine.execGetMeasurements index signed nonce s
  | .spdmUnsupported arg => Sys2Proof.Machine.execSpdmUnsupported arg s
  | .portEnable p => Sys2Proof.Machine.execPortEnable p s
  | .portDisable p => Sys2Proof.Machine.execPortDisable p s
  | .portTrain p lanes snr => Sys2Proof.Machine.execPortTrain p lanes snr s
  | .trainingTimeout p => Sys2Proof.Machine.execTrainingTimeout p s
  | .hello p payload => Sys2Proof.Machine.execHello p payload s
  | .portRetrain p => Sys2Proof.Machine.execPortRetrain p s
  | .laneLockLoss p lane => Sys2Proof.Machine.execLaneLockLoss p lane s
  | .write p frame => Sys2Proof.Machine.execWrite p frame s
  | .read p frame => Sys2Proof.Machine.execRead p frame s
  | .reduce p frame => Sys2Proof.Machine.execReduce p frame s
  | .atomic p frame => Sys2Proof.Machine.execAtomic p frame s
  | .rdata p frame => Sys2Proof.Machine.execRdata p frame s
  | .ackr p frame => Sys2Proof.Machine.execAckr p frame s
  | .msg p frame => Sys2Proof.Machine.execMsg p frame s
  | .linkctl p frame => Sys2Proof.Machine.execLinkctl p frame s
  | .frameForward p => Sys2Proof.Machine.execFrameForward p s
  | .ackTimer p => Sys2Proof.Machine.execAckTimer p s
  | .replayTimeout p => Sys2Proof.Machine.execReplayTimeout p s
  | .requestTimeout tid => Sys2Proof.Machine.execRequestTimeout tid s
  | .linkPortReset p => Sys2Proof.Machine.execLinkPortReset p s
  | .journalWriteComplete h => Sys2Proof.Machine.execJournalWriteComplete h s
  | .journalCompact h => Sys2Proof.Machine.execJournalCompact h s
  | .journalRemirror h => Sys2Proof.Machine.execJournalRemirror h s
  | .rebuild h => Sys2Proof.Machine.execRebuild h s
  | .pumpHangTimeout page pump => Sys2Proof.Machine.execPumpHangTimeout page pump s
  | .heartbeat arg => Sys2Proof.Machine.execHeartbeat arg s
  | .heartbeatTimeout q => Sys2Proof.Machine.execHeartbeatTimeout q s
  | .stackRetire st => Sys2Proof.Machine.execStackRetire st s
  | .roundStall num => Sys2Proof.Machine.execRoundStall num s
  | .refetch fn obj tile => Sys2Proof.Machine.execRefetch fn obj tile s
  | .refetchGoldenDone fn obj tile golden => Sys2Proof.Machine.execRefetchGoldenDone fn obj tile golden s
  | .unload => Sys2Proof.Machine.execUnload s
  | .warm flashOk => Sys2Proof.Machine.execWarm flashOk s
  | .quad q => Sys2Proof.Machine.execQuad q s
  | .warmRst flashOk => Sys2Proof.Machine.execWarmRst flashOk s
  | .injectionEnable value => Sys2Proof.Machine.execInjectionEnable value s
  | .injectCorrupt kind target => Sys2Proof.Machine.execInjectCorrupt kind target s
  | .injectPoison target => Sys2Proof.Machine.execInjectPoison target s
  | .injectPartFailure => Sys2Proof.Machine.execInjectPartFailure s
  | .perst prof flashOk => Sys2Proof.Machine.execPerst prof flashOk s
  | .commit reached => Sys2Proof.Machine.execCommit reached s
  | .profileSelect profile flashOk => Sys2Proof.Machine.execProfileSelect profile flashOk s
  | .load flash => Sys2Proof.Machine.execLoad flash s
  | .loadComplete data => Sys2Proof.Machine.execLoadComplete data s
  | .flashWriteComplete ok readOk => Sys2Proof.Machine.execFlashWriteComplete ok readOk s
  | .unlockChal => Sys2Proof.Machine.execUnlockChal s
  | .unlockResp key sig => Sys2Proof.Machine.execUnlockResp key sig s
  | .bypass => Sys2Proof.Machine.execBypass s
  | .idcode => Sys2Proof.Machine.execIdcode s
  | .samplePreload data => Sys2Proof.Machine.execSamplePreload data s
  | .extest => Sys2Proof.Machine.execExtest s
  | .clamp => Sys2Proof.Machine.execClamp s
  | .highz => Sys2Proof.Machine.execHighz s
  | .debugAccess op => Sys2Proof.Machine.execDebugAccess op s
  | .vauxGood maddr mv => Sys2Proof.Machine.execVauxGood maddr mv s
  | .vinRamp => Sys2Proof.Machine.execVinRamp s
  | .vinLoss vaux => Sys2Proof.Machine.execVinLoss vaux s
  | .vinLow mv => Sys2Proof.Machine.execVinLow mv s
  | .thermalTrip cause unit temp => Sys2Proof.Machine.execThermalTrip cause unit temp s
  | .mgmtBusRead off len => Sys2Proof.Machine.execMgmtBusRead off len s
  | .mgmtBusWrite arg arg2 => Sys2Proof.Machine.execMgmtBusWrite arg arg2 s
  | .i3cAddressAssign addr => Sys2Proof.Machine.execI3cAddressAssign addr s
  | .uncorrectableCodeword p => Sys2Proof.Machine.execUncorrectableCodeword p s
  | .perstAssertion => Sys2Proof.Machine.execPerstAssertion s
  | .returnToD0 fn => Sys2Proof.Machine.execReturnToD0 fn s
  | .vauxLoss => Sys2Proof.Machine.execVauxLoss s

end Sys2Proof.Machine
end

