-- ==== Sys2Proof/Safety.lean ====
section
/-! DEFINITION. What the statements speak of: the byte memories and their canonical form, the parts of the state that a command
may leave alone, what a safe step is, and tables of commands that share one form. -/
namespace Sys2Proof.Machine
open Sys2Proof

/-! ## The byte memories -/

/-- The memories that the spec gives the block, each addressed by byte. -/
inductive Space where
  /-- The columns of the stacks, 36 bytes each with their check bytes, by `colIx` × 36 + byte. -/
  | column
  /-- The Wells, by (quadrant × 4,096 + frame) × 65,536 + byte. -/
  | well
  /-- The sump, by unit × 65,536 + byte. -/
  | sump
  /-- What the golden sources hold for tiles that only they hold. -/
  | golden
  /-- Query areas and tag records of the base dies, and their run rings. -/
  | query | record | ring
  /-- The engines' tile stores, by engine × 2^22 + byte. -/
  | tileStore
  deriving DecidableEq, Repr

/-- One byte of a memory. -/
def State.byteOf (s : State) : Space → Nat → Byte
  | .column, a => (s.col (a / 36)).getD (a % 36) 0#8
  | .well, a => SMap.get s.mem.well 0#8 a
  | .sump, a => SMap.get s.mem.sump 0#8 a
  | .golden, a => SMap.get s.mem.goldBytes 0#8 a
  | .query, a => SMap.get s.bkt.query 0#8 a
  | .record, a => SMap.get s.bkt.record 0#8 a
  | .ring, a => SMap.get s.bkt.ring 0#8 a
  | .tileStore, a => SMap.get s.pmp.store 0#8 a

/-- Every byte of every memory reads as before. -/
def SameMemory (s t : State) : Prop := ∀ sp a, t.byteOf sp a = s.byteOf sp a

/-- The columns' canonical form: keys strictly rising, and no column listed that holds what an unlisted one reads as. -/
def State.colsWf (s : State) : Bool :=
  SMap.sorted s.cis.cols && s.cis.cols.all (fun e => decide (e.2 ≠ s.colDefault e.1))

/-- The canonical form of all the byte memories. [DEDUCED: log entry 28] -/
def State.memoryWf (s : State) : Bool :=
  s.colsWf && SMap.wf 0#8 s.mem.well && SMap.wf 0#8 s.mem.sump && SMap.wf 0#8 s.mem.goldBytes && SMap.wf 0#8 s.bkt.query
    && SMap.wf 0#8 s.bkt.record && SMap.wf 0#8 s.bkt.ring && SMap.wf 0#8 s.pmp.store

/-! ## Parts of the state -/

/-- The stacks, their base dies and their bucket units are unchanged. -/
def SameStacks (s t : State) : Prop := t.cis = s.cis ∧ t.bkt = s.bkt
/-- The tiers are unchanged: objects, tiles, the Wells and the sump. -/
def SameTiers (s t : State) : Prop := t.mem = s.mem
/-- The pumps, decoding tables and tile stores are unchanged. -/
def SamePumps (s t : State) : Prop := t.pmp = s.pmp
/-- The engines are unchanged. -/
def SameEngines (s t : State) : Prop := t.engs = s.engs
/-- The schedulers and the link are unchanged. -/
def SameLink (s t : State) : Prop := t.link = s.link
/-- Sessions, rounds, models, the journal, the tenants and the keepers are unchanged. -/
def SameSessions (s t : State) : Prop := t.sess = s.sess ∧ t.ses = s.ses ∧ t.keepers = s.keepers
/-- Boot, trust, the package, and what waits for the host port are unchanged. -/
def SameTrust (s t : State) : Prop := t.boot = s.boot ∧ t.d3hot = s.d3hot
/-- Host time, its copies and the stopwatches are unchanged. -/
def SameTime (s t : State) : Prop :=
  t.hostTime = s.hostTime ∧ t.inflight = s.inflight ∧ t.copies = s.copies ∧ t.watches = s.watches ∧ t.tel.wins = s.tel.wins
/-- The commands that wait are unchanged, and so is the profile. -/
def SameQueue (s t : State) : Prop := t.pending = s.pending ∧ t.profile = s.profile

/-! ## Host time -/

/-- A list of published values never falls. -/
def risingFrom : W64 → List W64 → Prop
  | _, [] => True
  | a, v :: vs => a.toNat ≤ v.toNat ∧ risingFrom v vs

/-- The last of a list of published values, or the value before it. -/
def lastOf (a : W64) (l : List W64) : W64 := l.getLastD a

/-- For every block: its copy, then the publications on their way to it in their order, then the held value, never fall (R36, R41). -/
def State.timeOrdered (s : State) : Prop :=
  ∀ b, risingFrom (s.timeAt b) (SMap.get s.inflight [] b) ∧ (lastOf (s.timeAt b) (SMap.get s.inflight [] b)).toNat ≤ s.hostTime.toNat

/-! ## Safe steps -/

/-- A safe outcome: a next state. -/
def Out.isNext : Out → Bool
  | .next _ => true
  | _ => false

/-- The granule that a command names directly in a stack, if it names one. -/
def granOf : Instr → Option Gran
  | .columnRead g _ | .columnWrite g _ _ | .addFp32 g _ _ | .addBf16 g _ _ | .addInt32 g _ _ | .addInt64 g _ _ | .minFp32 g _ _
  | .maxFp32 g _ _ | .minBf16 g _ _ | .maxBf16 g _ _ | .minInt32 g _ _ | .maxInt32 g _ _ | .minInt64 g _ _ | .maxInt64 g _ _
  | .swap32 g _ _ | .swap64 g _ _ | .cas32 g _ _ | .cas64 g _ _ | .fetchAddInt32 g _ _ | .fetchAddInt64 g _ _ | .debugAccess (.readCol g _) | .debugAccess (.writeCol g _ _) => some g
  | _ => none

/-! ## Requests to a granule -/

/-- Is a controller request to a granule carried out at once: the stack's page serves, the channel of the place is not parked, and its bank
pair's unit is idle with nothing held before it (R69, R87, R104, R147)? -/
def State.servesGran (s : State) (g : Gran) : Bool :=
  let r := s.resolve g
  granExists g && s.pageLive (pgCis (granStack g)) && s.flag (pgCis (granStack g)) F.hdr_ENABLE
    && !(r.2.pairHeld (unitIx r.1.st r.1.pc (r.1.bank / 2))) && !((r.2.chanOf r.1.st (r.1.pc / 2)).parked)

/-- The adder commands with their operation codes (R96). -/
def adderCommands (g : Gran) (off : Byte) (data : List Byte) : List (Instr × Nat) :=
  [(.addFp32 g off data, 0x00), (.addBf16 g off data, 0x01), (.addInt32 g off data, 0x02), (.addInt64 g off data, 0x03),
   (.minFp32 g off data, 0x04), (.maxFp32 g off data, 0x05), (.minBf16 g off data, 0x06), (.maxBf16 g off data, 0x07),
   (.minInt32 g off data, 0x08), (.maxInt32 g off data, 0x09), (.minInt64 g off data, 0x0A), (.maxInt64 g off data, 0x0B),
   (.swap32 g off data, 0x0C), (.swap64 g off data, 0x0D), (.cas32 g off data, 0x0E), (.cas64 g off data, 0x0F),
   (.fetchAddInt32 g off data, 0x10), (.fetchAddInt64 g off data, 0x11)]

/-! ## Pumps -/

/-- The pump commands with the operation of the descriptor each carries out (R193). -/
def pumpCommands (page : Fin 10) (src : DescSrc) (host : Option (List Byte)) : List (Instr × Nat) :=
  [(.pumpNop page src, 0), (.pumpCopy page src host, 1), (.pumpFill page src, 2), (.pumpAdder page src host, 3),
   (.pumpCompress page src host, 4), (.pumpExpand page src host, 5), (.pumpFence page src, 6)]

/-- What follows a COPY or an ADDER: rounds that a peer's failure ends (R478). -/
def afterPump (op : Nat) (s : State) : State := if op = 1 ∨ op = 3 then s.remoteFailures else s

/-! ## Programs of the engines -/

/-- The commands of class MX with their operation codes. -/
def mxCommands (e : Fin 32) (y : Bool) : List (Instr × Nat) :=
  [(.mma e y, 0x01), (.accset e y, 0x02)]

/-- The commands of class VX with their operation codes. -/
def vxCommands (e : Fin 32) (y : Bool) : List (Instr × Nat) :=
  [(.vxNop e y, 0x00), (.add e y, 0x01), (.sub e y, 0x02), (.mul e y, 0x03), (.fma e y, 0x04), (.max e y, 0x05),
   (.min e y, 0x06), (.sel e y, 0x07), (.mov e y, 0x10), (.abs e y, 0x11), (.neg e y, 0x12), (.exp e y, 0x13),
   (.log e y, 0x14), (.rcp e y, 0x15), (.rsqrt e y, 0x16), (.silu e y, 0x17), (.gelu e y, 0x18), (.sigm e y, 0x19),
   (.tanh e y, 0x1A), (.f2i e y, 0x1B), (.i2f e y, 0x1C), (.rotp e y, 0x1D), (.and e y, 0x20), (.or e y, 0x21),
   (.xor e y, 0x22), (.shl e y, 0x23), (.shr e y, 0x24), (.sra e y, 0x25), (.cmpeq e y, 0x30), (.cmpne e y, 0x31)]
  ++
  [(.cmplt e y, 0x32), (.cmple e y, 0x33), (.cmpgt e y, 0x34), (.cmpge e y, 0x35), (.isnan e y, 0x36), (.mand e y, 0x38),
   (.mor e y, 0x39), (.mandn e y, 0x3A), (.mnot e y, 0x3B), (.mfill e y, 0x3C), (.rowset e y, 0x3D), (.rsum e y, 0x40),
   (.rmax e y, 0x41), (.rmin e y, 0x42), (.rargmax e y, 0x43), (.rargmin e y, 0x44), (.rband e y, 0x45), (.rbor e y, 0x46),
   (.tsum e y, 0x48), (.tsumsq e y, 0x49), (.tmax e y, 0x4A), (.tmin e y, 0x4B), (.targmax e y, 0x4C), (.targmin e y, 0x4D),
   (.scan e y, 0x50), (.findge e y, 0x51), (.kth e y, 0x52), (.perm e y, 0x58), (.bcast e y, 0x59), (.compress e y, 0x5A)]
  ++
  [(.expand e y, 0x5B), (.scmb e y, 0x60), (.rng e y, 0x61), (.summary e y, 0x62)]

/-- The commands of class FG with their operation codes. -/
def fgCommands (e : Fin 32) (y : Bool) : List (Instr × Nat) :=
  [(.figure e y, 0x01)]

/-- The commands of class MV with their operation codes. -/
def mvCommands (e : Fin 32) (y : Bool) : List (Instr × Nat) :=
  [(.feed e y, 0x01), (.scale e y, 0x02), (.get e y, 0x03), (.put e y, 0x04), (.rowin e y, 0x05), (.rowout e y, 0x06)]

/-- The commands of class SY with their operation codes. -/
def syCommands (e : Fin 32) (y : Bool) : List (Instr × Nat) :=
  [(.endCmd e y, 0x00), (.fence e y, 0x01), (.signal e y, 0x02), (.wait e y, 0x03), (.notify e y, 0x04), (.jump e y, 0x05)]

/-- Every command that carries out an instruction of a program, with its class and operation code. -/
def programCommands (e : Fin 32) (y : Bool) : List (Instr × Nat × Nat) :=
  (syCommands e y).map (fun p => (p.1, 0, p.2)) ++ (mxCommands e y).map (fun p => (p.1, 1, p.2)) ++ (vxCommands e y).map (fun p => (p.1, 2, p.2))
    ++ (fgCommands e y).map (fun p => (p.1, 3, p.2)) ++ (mvCommands e y).map (fun p => (p.1, 4, p.2))

end Sys2Proof.Machine
end

