-- ==== Sys2Proof/Certificates/Slice0/Obligations.lean ====
section
/-! DEFINITION. The statements for the provers. -/
open Sys2Proof Sys2Proof.Machine

/-! ## The queue and the state after reset -/

/-- The block's step: the command at the front of the queue is carried out with the queue's rest; with no command the block idles, which is
the model's choice (log entry 2). -/
def Obligations.StepRunsTheFrontCommand : Prop :=
  (∀ (c : Instr) (rest : List Instr) (s : State), s.pending = c :: rest → step s = exec c { s with pending := rest })
  ∧ ∀ s : State, s.pending = [] → step s = .next s

/-- R9, R14, R36, R58, R69: what cold reset leaves. Every page but those of tenants, link ports and interrupt tables has ENABLE = 1; nothing is
published; the next round will have number 1; nothing waits; and every memory is in its canonical form with nothing listed. The other values of the
state are those of log entry 4. -/
def Obligations.ResetLeaves : Prop :=
  ((∀ pg : Page, pg.kind ≠ .tnt0 → pg.kind ≠ .gll → pg.kind ≠ .msix → State.reset.flag pg F.hdr_ENABLE = true)
  ∧ (∀ p : Fin 12, State.reset.flag (pgGll p) F.hdr_ENABLE = false)
  ∧ (∀ t : Fin 64, State.reset.flag (pgTnt t) F.hdr_ENABLE = false)
  ∧ State.reset.timeValid = false ∧ State.reset.hostTime = 0#64
  ∧ State.reset.ses.lastNum = 0 ∧ State.reset.ses.rounds = [] ∧ State.reset.sess = []
  ∧ State.reset.pending = [] ∧ State.reset.egress = [] ∧ State.reset.booted = false
  ∧ ∀ k, State.reset.col k = zeroCol)
  ∧ (State.reset.memoryWf = true)

/-- Whatever the command, a step keeps every memory in its canonical form, in every state that has it. -/
def Obligations.StepsKeepMemoryCanonical : Prop :=
  ∀ s t : State, s.memoryWf = true → step s = .next t → t.memoryWf = true

/-- No command is refused, and a command faults only where it names a granule that no stack has (R75, R83). Every command
that names such a granule does fault; a debug access does so on an unlocked port.
That the command stops there is the model's choice (log entry 3). -/
def Obligations.OnlyAbsentGranulesStop : Prop :=
  (∀ (c : Instr) (s : State),
    (∃ t, exec c s = .next t) ∨ (exec c s = .fault .noGranule ∧ ∃ g, granOf c = some g ∧ granExists g = false))
  ∧ (∀ (c : Instr) (s : State) (g : Gran), granOf c = some g → granExists g = false →
    exec c s = .fault .noGranule ∨ (s.jtagUp && s.jtagUnlocked) = false ∧ exec c s = .next s)

/-! ## Memories in canonical form -/

/-- A column written reads as written, and every other column reads as before; the same holds of the maps that keep every
other memory and the registers; and the canonical form is kept. -/
def Obligations.MemoryReadAfterWrite : Prop :=
  (∀ (s : State) (k : Nat) (c : Column), s.colsWf = true →
    (s.setCol k c).colsWf = true ∧ ∀ k', (s.setCol k c).col k' = if k' = k then c else s.col k')
  ∧ (∀ (m : SMap Byte) (d v : Byte) (k : Nat), SMap.wf d m = true →
    SMap.wf d (SMap.set m d k v) = true ∧ ∀ k', SMap.get (SMap.set m d k v) d k' = if k' = k then v else SMap.get m d k')

/-- Registers are independent: a register written at an offset of a page, in a window bank, reads as written, and every other register of
every page reads as before (offsets below 4,096, banks below 65,536, instances below 256). -/
def Obligations.RegisterReadAfterWrite : Prop :=
  ∀ (s : State) (pg pg' : Page) (b b' o o' : Nat) (v : W32),
    o < 4096 → o' < 4096 → b < 65536 → b' < 65536 → pg.inst < 256 → pg'.inst < 256 →
    (s.setReg pg b o v).reg pg' b' o' = if pg' = pg ∧ b' = b ∧ o' = o then v else s.reg pg' b' o'

/-! ## The generation round -/

/-- R14, R28: a sealing gives the round a number one greater than the last, and the round is then the youngest in flight; no sealing
takes place while two rounds are in flight, or one of the model. -/
def Obligations.SealRoundCompletes : Prop :=
  (∀ (s : State) (m : Byte) (drafts : List (W32 × List Byte)), s.booted = true → s.maySeal m.toNat = true →
    let s1 := s.boundaries.takeSchedule m.toNat
    let b := s1.buildRound m.toNat drafts
    (s1.model m.toNat).quarantined = false → b.rows.isEmpty = false →
    ∃ (t : State) (r : Round), exec (.sealRound m drafts) s = .next t ∧ t.ses.rounds = b.s.ses.rounds ++ [r] ∧ r.rows = b.rows
      ∧ r.model = m.toNat ∧ r.num = b.s.ses.lastNum + 1 ∧ t.ses.lastNum = r.num ∧ r.layer = 0 ∧ r.holds = false
      ∧ SameTiers b.s t ∧ SamePumps b.s t ∧ SameEngines b.s t ∧ SameStacks b.s t ∧ SameTime b.s t ∧ SameQueue b.s t)
  ∧ (∀ (s : State) (m : Byte) (drafts : List (W32 × List Byte)), s.booted = true →
    (2 ≤ s.ses.rounds.length ∨ ∃ r ∈ s.ses.rounds, r.model = m.toNat) → exec (.sealRound m drafts) s = .next s)

/-- R15: the rows that a build chooses, with those of the rounds in flight, never exceed 256. -/
def Obligations.RowsNeverExceed256 : Prop :=
  ∀ (s : State) (m : Nat) (drafts : List (W32 × List Byte)),
    (s.ses.rounds.map (fun r => r.rows.length)).foldl (· + ·) 0 ≤ 256 →
    (s.ses.rounds.map (fun r => r.rows.length)).foldl (· + ·) 0 + (s.buildRound m drafts).rows.length ≤ 256

/-- R20, R21, R29, R242, R338: the steps of a round in flight. The keeper writes a head group's keys and values and notes them
as written; a layer boundary ends the holder's layer and gives the engines on, to the round sealed first unless only the other's first tiles are latched, and the
round that gets them holds them alone, with its rows in RS0 and every context-G counter 0; sampling records a session's tokens; and a round whose layers are over and
whose rows are sampled ends, with its sessions' boundaries. -/
def Obligations.RoundStepsComplete : Prop :=
  ((∀ (s : State) (num : W64) (h : W32) (draft : Bool) (l hd : W16) (data : List Byte) (r : Round), s.booted = true →
    s.roundOf num.toNat = some r → r.holds = true → r.engines.isEmpty = false → r.layer = l.toNat →
    r.rows.any (fun w => w.ses == rowKey h draft) = true →
    exec (.kvTailWrite num h draft l hd data) s = .next ((s.tailWrites r (rowKey h draft) l.toNat hd.toNat data).putRound
      { r with written := r.written ++ [rowKey h draft * 2 ^ 32 + runIx l.toNat hd.toNat] }))
  ∧ (∀ s : State, s.booted = true → s.boundaryDue = true →
    exec .layerBoundary s = .next (match s.endLayer.nextHolder with
      | some r => s.endLayer.giveEngines r
      | none => s.endLayer))
  ∧ (∀ (s : State) (num : W64) (h : W32) (draft : Bool) (logits : List (List W32)) (r : Round) (q : Req), s.booted = true →
    s.roundOf num.toNat = some r → (r.sampleRows (rowKey h draft)).isEmpty = false → s.layersOf r ≤ r.layer + 1 →
    SMap.find r.emits (rowKey h draft) = none → (s.sesOf h.toNat).headReq = some q →
    let n := ((r.sampleRows (rowKey h draft)).length + 1) * drawsPer (s.model r.model).md.vocab
    let em := s.emitsOf r h draft q (s.logitsOf r (rowKey h draft) logits)
    exec (.sampling num h draft logits) s
      = .next ({ s with free := s.free + n }.putRound { r with emits := SMap.put r.emits (rowKey h draft) (some em) }))
  ∧ ∀ (s : State) (num : W64) (r : Round), s.booted = true → s.roundOf num.toNat = some r → s.layersOf r ≤ r.layer →
    r.sampled = true → exec (.roundBoundary num) s = .next ((s.endRound r).sessionBoundaries r))
  ∧ ((∀ (s : State) (r q : Round), s.ses.rounds = [r, q] → r.layer < s.layersOf r → q.layer < s.layersOf q →
    s.nextHolder = some (if s.waitsFor r ≠ [] ∧ s.waitsFor q = [] then q else r))
  ∧ ∀ (s : State) (r : Round) (e : Fin 32), s.roundOf r.num = some r →
    (∀ k, SMap.get ((s.giveEngines r).eng e).rs false k = (decide (k < 256) && r.rows.any (fun w => w.row == k)))
    ∧ (∀ c, SMap.get ((s.giveEngines r).eng e).g.sc 0 c = 0)
    ∧ (∀ x ∈ (s.giveEngines r).ses.rounds, x.holds = true ↔ x.num = r.num))

/-- R327, R344, R400, R402, R408: at a session's round boundary its passed deadlines complete and its time-to-live expires; a
token-ring vector is raised once its delay has passed, and nothing is then left unsignalled; and a delivery of k records moves TR_TAIL on by k around the ring and leaves
the later records waiting, in order. -/
def Obligations.ExpiriesAndDeliveriesComplete : Prop :=
  ((∀ (s : State) (h : W32), s.booted = true → (s.sesOf h.toNat).closing = false → s.busy h.toNat = false →
    exec (.deadlineExpiry h) s = .next (((s.sesOf h.toNat).reqs.filter (fun r =>
      [tGenerate, tResume, tExport].contains r.typ && s.passed (s.sesOf h.toNat) r.deadline)).foldl (fun s r => s.complete h.toNat r stDeadline) s)
    ∧ exec (.timeToLiveExpiry h) s = .next (s.expire h.toNat))
  ∧ (∀ (s : State) (h : Nat), s.timeValid = true → s.ttlOf (s.sesOf h) 0 ≠ ttlNever → (s.sesOf h).st = .parked →
    (s.sesOf h).entered.toNat + s.ttlOf (s.sesOf h) 0 ≤ s.nowOf (s.sesOf h) → s.expire h = s.enter h .settling)
  ∧ ∀ (s : State) (t : Fin 64), s.booted = true → (s.ten t).unsignalled ≠ 0 → s.fld (pgTnt t) F.tnt0_TR_IRQ_DELAY_VALUE ≠ 0 →
    (s.fnState t = fnReady ∨ s.fnState t = fnFault) →
    ∃ u, exec (.tokenIrqDelayExpiry t) s = .next u ∧ (u.ten t).unsignalled = 0 ∧ u = (s.setTen t { s.ten t with unsignalled := 0 }).irq (t + 1) 0)
  ∧ (∀ (s : State) (t : Fin 64) (count : W32), s.booted = true → s.deliverable t count.toNat ≠ 0 →
    (s.fnState t = fnReady ∨ s.fnState t = fnFault) →
    ∃ u, exec (.tokenDelivery t count) s = .next u ∧ u.trTail t = (s.trTail t + s.deliverable t count.toNat) % s.trSize t
      ∧ (u.ten t).pend = (s.ten t).pend.drop (s.deliverable t count.toNat)
      ∧ SameStacks s u ∧ SameTiers s u ∧ SamePumps s u ∧ SameEngines s u ∧ SameLink s u ∧ SameTime s u ∧ SameQueue s u ∧ SameTrust s u)

/-! ## Host time and telemetry -/

/-- R35, R36, R66: a write of HOST_TIME_LO stages its value and publishes nothing; one of HOST_TIME_HI publishes the value formed from it and the
staged one. A published value not lower than the held one is taken: it is held, VALID is 1 and STALE 0, and every block that holds a copy will
see it after what is on its way already. A lower value is ignored: the held value stays, REGRESSED is set and REGRESS_COUNT goes up. -/
def Obligations.HostTimePublishCompletes : Prop :=
  (∀ (s : State) (w : W32), s.pageLive pgTop = true →
    let t := s.writeWord pgTop 0x040 w
    t.staged pgTop 0 0x040 = w.toNat ∧ t.hostTime = s.hostTime ∧ t.inflight = s.inflight ∧ t.copies = s.copies ∧ t.regs = s.regs)
  ∧ ∀ (s : State) (hi : W32), s.pageLive pgTop = true →
    let v := s.staged pgTop 0 0x040 + 2 ^ 32 * hi.toNat
    (s.hostTime.toNat ≤ v → ∃ t, exec (.hostTimePublish hi) s = .next t ∧ t.hostTime.toNat = v ∧ t.timeValid = true
      ∧ t.flag pgTop F.top_HOST_TIME_STATUS_STALE = false
      ∧ (∀ b ∈ copyBlocks, SMap.get t.inflight [] b = SMap.get s.inflight [] b ++ [BitVec.ofNat 64 v])
      ∧ t.copies = s.copies ∧ SameStacks s t ∧ SameTiers s t ∧ SamePumps s t ∧ SameEngines s t ∧ SameSessions s t ∧ SameQueue s t)
    ∧ (v < s.hostTime.toNat → ∃ t, exec (.hostTimePublish hi) s = .next t ∧ t.hostTime = s.hostTime
      ∧ t.flag pgTop F.top_HOST_TIME_STATUS_REGRESSED = true ∧ t.inflight = s.inflight ∧ t.copies = s.copies
      ∧ t.fld pgTop F.top_HOST_TIME_STATUS_REGRESS_COUNT
        = min 0xFFFF (s.fld pgTop F.top_HOST_TIME_STATUS_REGRESS_COUNT + 1)
      ∧ SameStacks s t ∧ SameTiers s t ∧ SamePumps s t ∧ SameEngines s t ∧ SameSessions s t ∧ SameQueue s t)

/-- R41: publications on their way to a block never fall below its copy, and rise along the way: the commands of host time keep that, so a
block's copy never decreases. -/
def Obligations.CopiesNeverDecrease : Prop :=
  (∀ (s t : State) (hi : W32), s.timeOrdered → exec (.hostTimePublish hi) s = .next t → t.timeOrdered)
  ∧ ∀ (s t : State) (b : Fin 44) (n : W64), s.timeOrdered → exec (.hostTimeCopyUpdate b n) s = .next t →
    t.timeOrdered ∧ ∀ b', (s.timeAt b').toNat ≤ (t.timeAt b').toNat

/-- R41, R44, R36, R51, R381: a block takes the oldest publication on its way to it; STALE is set once the limit has passed; a sample closes; and
a spread object is placed again under the versions in force.
That an object migrates whole is the model's choice (log entry 35). -/
def Obligations.TimeEventsComplete : Prop :=
  (∀ (s : State) (b : Fin 44) (n v : W64) (vs : List W64), SMap.get s.inflight [] b = v :: vs →
    (SMap.get s.watches {} b).count ≤ n.toNat →
    ∃ t, exec (.hostTimeCopyUpdate b n) s = .next t ∧ t.timeAt b = v ∧ SMap.get t.inflight [] b = vs ∧ t.hostTime = s.hostTime
      ∧ (SMap.get t.watches {} b).refHost = v.toNat ∧ (SMap.get t.watches {} b).refCount = n.toNat)
  ∧ (∀ s : State, s.fld pgTop F.top_HOST_TIME_CFG_STALE_LIMIT_US ≠ 0 → s.timeValid = true →
    s.flag pgTop F.top_HOST_TIME_STATUS_STALE = false →
    ∃ t, exec .hostTimeStale s = .next t ∧ t.flag pgTop F.top_HOST_TIME_STATUS_STALE = true ∧ t.hostTime = s.hostTime
      ∧ t = (if s.flag pgTop F.top_HOST_TIME_CFG_STALE_IRQ then (s.setFld pgTop F.top_HOST_TIME_STATUS_STALE 1).irq 0 0
        else s.setFld pgTop F.top_HOST_TIME_STATUS_STALE 1))
  ∧ (∀ (s : State) (b : Fin 44) (x : List W16) (w i : Nat), s.booted = true → SMap.find s.tel.wins b = some (w, i) →
    (i + 1) * w ≤ (s.timeAt b).toNat → s.timeValid = true → s.pageLive (blockPage b) = true →
    exec (.telemetryWindowClose b x) s = .next (s.closeWindow b w i (fun k => (x.getD k 0#16).toNat)))
  ∧ ∀ (s t : State) (fn : Fin 65) (o : W16), s.booted = true → s.migrates fn o.toNat = true → s.placeAgain fn o.toNat = some t →
    exec (.slotVersionMigrate fn o) s = .next t

/-! ## Registers -/

/-- R8, R9: what a write leaves in each field of every register of every page: an RW field takes the bits written, an RWL field
before the boot lock point does and after it keeps its value, a W1C field loses the bits written 1, a W1S field gains them, and RO, RC and WO fields keep what they hold. A
read returns an RC field to its reset value and leaves every other field as it is; bits that belong to no field read as zero. -/
def Obligations.AccessCodesAreObeyed : Prop :=
  (∀ (k : PageKind) (r : Reg) (f : Fld) (locked : Bool) (w v : Nat), r ∈ blockRegs k → f ∈ r.flds →
    let old := bitsOf w f.msb f.lsb
    let new := bitsOf v f.msb f.lsb
    bitsOf (r.written locked w v) f.msb f.lsb = match f.acc with
      | .RW => new
      | .RWL => if locked then old else new
      | .W1C => old - (old &&& new)
      | .W1S => old ||| new
      | .RO | .RC | .WO => old)
  ∧ ((∀ (k : PageKind) (r : Reg) (f : Fld) (w : Nat), r ∈ blockRegs k → f ∈ r.flds →
    bitsOf (r.afterRead w) f.msb f.lsb = if f.acc = .RC then f.reset else bitsOf w f.msb f.lsb)
  ∧ ∀ (k : PageKind) (r : Reg) (w i : Nat), r ∈ blockRegs k → (∀ f ∈ r.flds, ¬(f.lsb ≤ i ∧ i ≤ f.msb)) →
    bitOf (w &&& r.readMask) i = false)

/-- R64, R66, R9: accesses that reach the registers of a function. A write of one register's four bytes writes that register, and a write of
whole registers within a page writes them in ascending order; a read returns the bytes asked for. -/
def Obligations.RegisterAccessCompletes : Prop :=
  (∀ (s : State) (fn : Fin 66) (off : W32) (data : List Byte), s.reaches fn off.toNat = true → data.isEmpty = false →
    wordsOk off.toNat data.length = true →
    exec (.registerWrite fn off data) s = .next ((List.range (data.length / 4)).foldl (fun s k =>
      s.busWrite fn (off.toNat + 4 * k) (BitVec.ofNat 32 (leAt data (4 * k) 4))) s))
  ∧ (∀ (s : State) (fn : Fin 66) (off : W32) (len : Fin 4097), s.reaches fn off.toNat = true → len.val ≠ 0 →
    readOk off.toNat len = true →
    let r := s.readWords fn (off.toNat / 4 * 4) ((off.toNat % 4 + len + 3) / 4)
    exec (.registerReadClear fn off len) s = .next (r.2.emit (.regData fn (slice r.1 (off.toNat % 4) len))))
  ∧ ∀ (s : State) (fn : Fin 66) (off : W32) (pg : Page), pageAtSlot fn (off.toNat / 4096) = some pg → s.reaches fn off.toNat = true →
    off.toNat % 4 = 0 → pg.isLow (off.toNat % 4096) = true → s.pageLive pg = true →
    ∃ t, exec (.pairLoRead fn off) s = .next t
      ∧ SMap.get t.latch (resetWord pg 0 (off.toNat % 4096 + 4)) (regKey pg 0 (off.toNat % 4096)) = s.peek pg (off.toNat % 4096 + 4)

/-- R66: a write of a _LO register loads the staging register and leaves the pair's value; a write of the _HI register sets the pair to what
was written and the staging register. -/
def Obligations.PairsCommitOnHigh : Prop :=
  ∀ (s : State) (pg : Page) (off : Nat) (w : W32), pg.isLow off = true → s.pageLive pg = true → (pg.regAt off).isSome = true →
    0x040 ≤ off → pg.kind ≠ .msix → pg.kind ≠ .dir → s.rowWrite pg off w.toNat = none → s.unselected pg off = false →
    s.writeIgnored pg off w.toNat = false →
    (s.writeWord pg off w).staged pg 0 off = w.toNat ∧ (s.writeWord pg off w).regs = s.regs
    ∧ ∀ v : W32, (pg.regAt (off + 4)).isSome = true → s.rowWrite pg (off + 4) v.toNat = none → s.unselected pg (off + 4) = false →
      s.writeIgnored pg (off + 4) v.toNat = false →
      s.writeWord pg (off + 4) v = ((s.store pg off (s.staged pg 0 off)).store pg (off + 4) v.toNat).afterWrite pg (off + 4)

/-- R489, R58: an injected cause acts as if it had occurred, while injection is enabled and the page takes injection; while it is disabled nothing
changes, and a command of the injection unit changes nothing but its registers. Injection is enabled only by a write that carries the key, and warm and
cold reset disable it. -/
def Obligations.ErrorInjectCompletes : Prop :=
  (∀ (s : State) (fn : Fin 66) (slot : Fin 16384) (v : W32) (pg : Page), pageAtSlot fn slot = some pg → s.reaches fn (4096 * slot.val) = true →
    pg.kind ≠ .msix →
    (pg.injectCap = true → s.fld pgRas F.ras_INJ_CTRL_ENABLE ≠ 0 →
      exec (.errorInject fn slot v) s = .next ((List.range 31).foldl (fun s c => if bitOf v.toNat c then s.raise pg c else s) s))
    ∧ (s.fld pgRas F.ras_INJ_CTRL_ENABLE = 0 → exec (.errorInject fn slot v) s = .next s))
  ∧ (∀ (s : State) (v : W32), s.pageLive pgRas = true →
    ∃ t, exec (.injectionEnable v) s = .next t ∧ SameMemory s t ∧ t.egress = s.egress
      ∧ t.fld pgRas F.ras_INJ_CTRL_ENABLE = (if v.toNat % 2 = 0 then 0 else if v.toNat / 65536 = 0x1A7E then 1 else s.fld pgRas F.ras_INJ_CTRL_ENABLE))
  ∧ (∀ (s : State) (cause : Nat) (ok : Bool), (s.warmReset cause ok).fld pgRas F.ras_INJ_CTRL_ENABLE = 0 ∧ s.coldReset.fld pgRas F.ras_INJ_CTRL_ENABLE = 0)
  ∧ ∀ (s : State) (kind : Fin 3) (target : Bool), s.pageLive pgRas = true → s.fld pgRas F.ras_INJ_CTRL_ENABLE = 0 →
    ∀ c ∈ [Instr.injectCorrupt kind target, .injectPoison target, .injectPartFailure],
      ∃ t, exec c s = .next t ∧ t.fld pgRas F.ras_INJ_STATUS_RESULT = 2 ∧ SameMemory s t ∧ SameStacks s t ∧ SameTiers s t ∧ SameSessions s t

/-- R61: a page's error is pending while an unmasked cause is set. An error cause sets its bit of ERR_STATUS and no other, and changes nothing of the
device but registers and what leaves it. When that, or a write of ERR_STATUS or ERR_MASK, makes the error pending and ERR_IRQ_EN is 1, the owning
function's error interrupt is raised; while the error is pending already, none is raised again. -/
def Obligations.CausesSetErrStatus : Prop :=
  ∀ (s : State) (pg : Page) (c : Nat), c < 32 → pg.kind ≠ .msix → pg.inst < 256 →
    (s.errPending pg = true ↔ s.reg pg 0 0x010 &&& ~~~(s.reg pg 0 0x014) ≠ 0#32)
    ∧ (s.raise pg c).reg pg 0 0x010 = s.reg pg 0 0x010 ||| BitVec.ofNat 32 (2 ^ c)
    ∧ (s.errPending pg = true → (s.raise pg c).egress = s.egress)
    ∧ (s.errPending pg = false → (s.raise pg c).errPending pg = true → s.flag pg F.hdr_ERR_IRQ_EN = true →
      s.raise pg c = (s.setReg pg 0 0x010 (s.reg pg 0 0x010 ||| BitVec.ofNat 32 (2 ^ c))).irq (errVector pg).1 (errVector pg).2)
    ∧ (∀ o w, o = 0x010 ∨ o = 0x014 →
      let v := if o = 0x010 then s.reg pg 0 0x010 &&& ~~~w else w
      (s.errPending pg = true ∨ (s.setReg pg 0 o v).errPending pg = false → s.writeWord pg o w = s.setReg pg 0 o v)
      ∧ (s.errPending pg = false → (s.setReg pg 0 o v).errPending pg = true → s.flag pg F.hdr_ERR_IRQ_EN = true →
        s.writeWord pg o w = (s.setReg pg 0 o v).irq (errVector pg).1 (errVector pg).2))
    ∧ SameStacks s (s.raise pg c) ∧ SameTiers s (s.raise pg c) ∧ SamePumps s (s.raise pg c) ∧ SameEngines s (s.raise pg c)
    ∧ SameLink s (s.raise pg c) ∧ SameSessions s (s.raise pg c) ∧ SameTrust s (s.raise pg c) ∧ SameTime s (s.raise pg c)
    ∧ SameQueue s (s.raise pg c)

/-! ## Columns and the cistern code -/

/-- R90, R92: every error confined to one byte or to two bytes of a column is corrected, wherever the bytes lie, the check
bytes among them; a code word is the data and four check bytes, vanishes at the generator's roots and decodes as it stands; and a column is poisoned when its syndrome is the
poison syndrome, whatever its data. -/
def Obligations.ColumnCodeCorrects : Prop :=
  (∀ (data : List Byte) (i j : Nat) (u v : Byte), data.length = 32 → i < j → j < 36 → u ≠ 0#8 → v ≠ 0#8 →
    decodeCol (xorAt (xorAt (encodeCol data) i u.toNat) j v.toNat) = .fixed (encodeCol data))
  ∧ ((∀ data : List Byte, data.length = 32 → (encodeCol data).length = 36 ∧ (encodeCol data).take 32 = data
    ∧ ∀ i, i < 4 → syndrome (encodeCol data) i = 0)
  ∧ ∀ (data : List Byte) (i : Nat) (u : Byte), data.length = 32 → i < 36 →
    decodeCol (encodeCol data) = .clean ∧ (u ≠ 0#8 → decodeCol (xorAt (encodeCol data) i u.toNat) = .fixed (encodeCol data)))
  ∧ ((∀ data : List Byte, data.length = 32 → decodeCol (poisonCol data) = .poisoned)
  ∧ ∀ c : Column, decodeCol c = .poisoned ↔ syndromes c = syndromes (List.replicate 32 0#8 ++ [0xE3#8, 0x1B#8, 0x5C#8, 0xA6#8]))

/-- R86, R87, R91, R94, R106: a read of a clean column answers the data of the column that its granule names after the exception table,
and one that corrects a column answers the corrected data and writes it back; a write of a whole column leaves its code word there, whatever was there before, poison
included; a partial write of a poisoned column, or an adder operation on it, leaves it poisoned and answers the mark.
An answer leaves the device as an item of its own (log entry 37). -/
def Obligations.ColumnAccessesComplete : Prop :=
  (∀ (s : State) (g : Gran) (c : Fin 8), s.servesGran g = true → decodeCol ((s.resolve g).2.col ((s.resolve g).1.key c)) = .clean →
    exec (.columnRead g c) s
      = .next ((s.resolve g).2.emit (.column (((s.resolve g).2.col ((s.resolve g).1.key c)).take 32) false)))
  ∧ (∀ (s : State) (g : Gran) (c : Fin 8) (x : Column), s.servesGran g = true → s.colsWf = true →
    decodeCol ((s.resolve g).2.col ((s.resolve g).1.key c)) = .fixed x →
    ∃ t, exec (.columnRead g c) s = .next t ∧ t.col ((s.resolve g).1.key c) = x ∧ t.egress ≠ s.egress
      ∧ ∀ k, k ≠ (s.resolve g).1.key c → t.col k = s.col k)
  ∧ ((∀ (s : State) (g : Gran) (off : Byte) (data : List Byte), s.servesGran g = true →
    let r := (s.resolve g).2.writeGran (s.resolve g).1 off.toNat (data.take (256 - off.toNat))
    exec (.columnWrite g off data) s = .next (if r.1 then r.2.emit (.column [] true) else r.2))
  ∧ (∀ (s : State) (g : Gran) (c : Fin 8) (off : Byte) (data : List Byte), s.servesGran g = true → s.colsWf = true →
    off.toNat = 32 * c.val → data.length = 32 →
    ∃ t, exec (.columnWrite g off data) s = .next t ∧ t.col ((s.resolve g).1.key c) = encodeCol data
      ∧ ∀ k, k ≠ (s.resolve g).1.key c → t.col k = s.col k)
  ∧ ∀ (s : State) (g : Gran) (c : Fin 8) (off : Byte) (data : List Byte), s.servesGran g = true → s.colsWf = true →
    decodeCol (s.col ((s.resolve g).1.key c)) = .poisoned →
    (max off.toNat (32 * c.val) < min (off.toNat + data.length) (32 * c.val + 32) →
      min (off.toNat + data.length) (32 * c.val + 32) < max off.toNat (32 * c.val) + 32 →
      ∃ u : State, exec (.columnWrite g off data) s = .next (u.emit (.column [] true)) ∧ u.col ((s.resolve g).1.key c) = s.col ((s.resolve g).1.key c))
    ∧ ∀ p ∈ adderCommands g off data, adderOk p.2 off.toNat data = true → off.toNat < 32 * c.val + 32 →
      32 * c.val < off.toNat + (if p.2 = 0x0E ∨ p.2 = 0x0F then data.length / 2 else data.length) →
      ∃ (u : State) (old : List Byte), exec p.1 s = .next (u.emit (.adder (some old) true)) ∧ u.col ((s.resolve g).1.key c) = s.col ((s.resolve g).1.key c))

/-- R96 to R99: every adder operation of the table is carried out by its operation code on the columns of its granule, counted, and
answered; a malformed one changes no memory and answers none, and an operand that is not aligned to its element or does not lie in the granule is malformed. -/
def Obligations.AddersComplete : Prop :=
  ∀ (s : State) (g : Gran) (off : Byte) (data : List Byte), s.servesGran g = true → ∀ p ∈ adderCommands g off data,
    let r := (s.resolve g).2.adder (s.resolve g).1 p.2 off.toNat data
    exec p.1 s = .next (r.2.2.emit (.adder r.1 r.2.1))
    ∧ (adderOk p.2 off.toNat data = false
        ∨ off.toNat % (if p.2 ∈ [0x01, 0x06, 0x07] then 2 else if p.2 ∈ [0x03, 0x0A, 0x0B, 0x0D, 0x0F, 0x11] then 8 else 4) ≠ 0
        ∨ 256 < off.toNat + (if p.2 = 0x0E ∨ p.2 = 0x0F then data.length / 2 else data.length) →
      exec p.1 s = .next ((s.resolve g).2.emit (.adder none false)) ∧ ∀ k, ((s.resolve g).2.emit (.adder none false)).col k = s.col k)

/-- R98, R94: one column's operation: on a clean column each element takes the operation's value, the integer ones wrapping, and the old bytes
are answered; a poisoned column stays as it is. -/
def Obligations.AdderElementValues : Prop :=
  (∀ old x : Nat, old < 2 ^ 32 → x < 2 ^ 32 →
    adderEval 0x02 old x 0 = (old + x) % 2 ^ 32 ∧ adderEval 0x10 old x 0 = (old + x) % 2 ^ 32
    ∧ (toSigned 32 x < toSigned 32 old → adderEval 0x08 old x 0 = x ∧ adderEval 0x09 old x 0 = old)
    ∧ adderEval 0x0C old x 0 = x ∧ ∀ y, adderEval 0x0E old x y = if old = x then y else old)
  ∧ (∀ old x : Nat, old < 2 ^ 64 → x < 2 ^ 64 →
    adderEval 0x03 old x 0 = (old + x) % 2 ^ 64 ∧ adderEval 0x11 old x 0 = (old + x) % 2 ^ 64
    ∧ (toSigned 64 x < toSigned 64 old → adderEval 0x0A old x 0 = x ∧ adderEval 0x0B old x 0 = old)
    ∧ adderEval 0x0D old x 0 = x ∧ ∀ y, adderEval 0x0F old x y = if old = x then y else old)
  ∧ ∀ (s : State) (op k off : Nat) (data new : List Byte), s.colsWf = true → decodeCol (s.col k) = .poisoned →
    (s.adderCol op k off data new).2.1 = true ∧ ∀ k', (s.adderCol op k off data new).2.2.col k' = s.col k'

/-- R86, R99: reads, writes and adder operations change no column but the eight of the granule they name, and no other memory. -/
def Obligations.ColumnCommandFrame : Prop :=
  ∀ (s t : State) (g : Gran) (cmd : Instr), s.colsWf = true →
    ((∃ c, cmd = .columnRead g c) ∨ (∃ off data, cmd = .columnWrite g off data) ∨ ∃ off data, ∃ p ∈ adderCommands g off data, cmd = p.1) →
    exec cmd s = .next t →
    (∀ k, (∀ c, c < 8 → k ≠ (s.resolve g).1.key c) → t.col k = s.col k)
    ∧ t.colsWf = true ∧ t.bkt = s.bkt ∧ SameTiers s t ∧ SamePumps s t ∧ SameEngines s t ∧ SameLink s t ∧ SameSessions s t ∧ SameTrust s t
    ∧ SameTime s t ∧ SameQueue s t

/-! ## Channels and stacks -/

/-- R102, R103, R110: retrain requests, map-out and margin. An ONLINE channel asked to retrain becomes RETRAIN_PENDING and waits behind
the requests made before; a pending one merges it; RETIRED and LOST channels stay as they are. MAP_OUT takes an ONLINE channel to MIGRATING when a free entry and enough
reserve exist and is latched during a retrain; MARGIN_ENTER parks an ONLINE channel of an idle stack, MARGIN_EXIT returns it and serves what waited, and a measurement reads
in MARGIN_RESULT when it ends.
The count of interface retries is the command's operand (log entry 42). -/
def Obligations.ChannelRequestsComplete : Prop :=
  (∀ (s : State) (st : Fin 20) (c : Fin 32),
    (s.booted = true → exec (.retrainRequest st c none) s = .next (s.retrainRequest st c).2)
    ∧ (s.pageLive (pgCis st) = true →
      exec (.chCmdRetrain st c) s = .next ((s.retrainRequest st c).2.chResult st c (s.retrainRequest st c).1))
    ∧ (s.booted = true → ∀ n : W16, SMap.get s.cis.linkWin 0 (st.val * 32 + c.val) + n.toNat ≤ s.fld (pgCis st) F.cis_LINK_THRESH_RETRIES →
      ∃ t, exec (.retrainRequest st c (some n)) s = .next t ∧ t.cis.chan = s.cis.chan ∧ t.cis.retrainQ = s.cis.retrainQ)
    ∧ ((s.chanOf st c).st = .online →
      ((s.retrainRequest st c).2.chanOf st c).st = .retrainPending ∧ (s.retrainRequest st c).2.cis.retrainQ = s.cis.retrainQ ++ [st.val * 32 + c.val]
      ∧ ∀ k, k ≠ st.val * 32 + c.val → SMap.get (s.retrainRequest st c).2.cis.chan {} k = SMap.get s.cis.chan {} k)
    ∧ ((s.chanOf st c).st = .retrainPending ∨ (s.chanOf st c).st = .retraining → s.retrainRequest st c = (1, s))
    ∧ ((s.chanOf st c).st = .retired ∨ (s.chanOf st c).st = .lost → s.retrainRequest st c = (3, s)))
  ∧ (∀ (s : State) (st : Fin 20) (c : Fin 32), s.pageLive (pgCis st) = true →
    ((s.chanOf st c).st = .online → s.mapOutRefused st c = none →
      ∃ t, exec (.chCmdMapOut st c) s = .next t ∧ (t.chanOf st c).st = .migrating ∧ t.fld (pgCis st) F.cis_CH_CMD_STATUS_RESULT = 0
        ∧ t.fld (pgCis st) F.cis_CH_CMD_STATUS_BUSY = 1 ∧ t.cis.cols = s.cis.cols ∧ SameTiers s t ∧ SameSessions s t ∧ SameEngines s t)
    ∧ ((s.chanOf st c).st = .retrainPending ∨ (s.chanOf st c).st = .retraining →
      ∃ t, exec (.chCmdMapOut st c) s = .next t ∧ (t.chanOf st c).st = (s.chanOf st c).st ∧ (t.chanOf st c).mapLatched = true
        ∧ t.fld (pgCis st) F.cis_CH_CMD_STATUS_RESULT = 2)
    ∧ ((s.chanOf st c).st = .online → s.stackIdle st = true →
      ∃ t, exec (.marginEnter st c) s = .next t ∧ (t.chanOf st c).st = .margin ∧ t.fld (pgCis st) F.cis_CH_CMD_STATUS_RESULT = 0
        ∧ t.cis.cols = s.cis.cols ∧ SameTiers s t ∧ SameSessions s t ∧ SameEngines s t)
    ∧ ((s.chanOf st c).st = .margin → exec (.marginExit st c) s
      = .next (((s.enterChan st c { s.chanOf st c with st := .online }).releaseHeld st c).chResult st c 0))
    ∧ ((s.chanOf st c).st = .retired ∨ (s.chanOf st c).st = .lost →
      exec (.chCmdMapOut st c) s = .next (s.chResult st c 3) ∧ exec (.marginEnter st c) s = .next (s.chResult st c 3)
      ∧ exec (.marginExit st c) s = .next (s.chResult st c 3)))
  ∧ ((∀ (s : State) (st : Fin 20) (v : W32), s.pageLive (pgCis st) = true → bitOf v.toNat 12 = true →
    (s.chanOf st (v.toNat % 32)).st = .margin → s.cis.measuring.contains st.val = false →
    ∃ t, exec (.marginMeasure st v) s = .next t ∧ t.cis.measuring = s.cis.measuring ++ [st.val]
      ∧ t.fld (pgCis st) F.cis_MARGIN_CTRL_START = 1 ∧ t.fld (pgCis st) F.cis_MARGIN_CTRL_CHANNEL = v.toNat % 32
      ∧ t.fld (pgCis st) F.cis_MARGIN_CTRL_LANE = min (bitsOf v.toNat 11 5) 65 ∧ t.cis.cols = s.cis.cols ∧ t.cis.chan = s.cis.chan)
  ∧ ∀ (s : State) (st : Fin 20) (edges : W32), s.booted = true → s.cis.measuring.contains st.val = true →
    ∃ t, exec (.marginMeasureDone st edges) s = .next t ∧ t.reg (pgCis st) 0 0x0A4 = edges ∧ t.cis.measuring.contains st.val = false
      ∧ t.fld (pgCis st) F.cis_MARGIN_CTRL_START = 0 ∧ t.cis.cols = s.cis.cols ∧ t.cis.chan = s.cis.chan)

/-- R102 to R109: the keeper starts the retrain of a stack that was asked for first, at a round's end or with no round in flight; one that
passes returns the channel to ONLINE, or to MIGRATING when a map-out was asked for meanwhile, and one that fails sets RETRAIN_FAIL and maps the channel out or loses it; a map-out
enters its exception-table entry, moves what must move, copies granule after granule, and ends with the channel RETIRED.
The command and the keeper's start of a map-out are two events (log entry 44). -/
def Obligations.RetrainsAndMapOutsComplete : Prop :=
  ((∀ (s : State) (st : Fin 20) (k : Nat), s.booted = true → (s.ses.rounds = [] ∨ s.ses.roundEnd = true) →
    (∀ c, c < 32 → (s.chanOf st c).st ≠ .retraining) → s.cis.retrainQ.find? (fun k => k / 32 == st.val) = some k →
    (s.chanOf st (k % 32)).st = .retrainPending →
    ∃ t, exec (.retrainStart st) s = .next t ∧ (t.chanOf st (k % 32)).st = .retraining
      ∧ t.cis.retrainQ = s.cis.retrainQ.filter (· != k) ∧ t.cis.cols = s.cis.cols ∧ SameTiers s t ∧ SameSessions s t ∧ SameEngines s t)
  ∧ ∀ (s : State) (st : Fin 20) (c : Fin 32) (linkOk : Bool), s.booted = true → (s.chanOf st c).st = .retraining →
    exec (.retrainComplete st c true linkOk) s = .next ((s.enterChan st c { s.chanOf st c with
        st := if (s.chanOf st c).mapLatched || (s.chanOf st c).moving then .migrating else .online, mapLatched := false }).releaseHeld st c)
    ∧ exec (.retrainTimeout st c true) s = .next (((s.raise (pgCis st) 3).enterChan st c { s.chanOf st c with st := .migrating, mapLatched := false }).releaseHeld st c)
    ∧ exec (.retrainTimeout st c false) s = .next ((s.raise (pgCis st) 3).loseChan st c)
    ∧ exec (.retrainComplete st c false linkOk) s = exec (.retrainTimeout st c linkOk) s)
  ∧ ((∀ (s : State) (st : Fin 20) (c : Fin 32), s.booted = true → (s.chanOf st c).st = .migrating → (s.chanOf st c).moving = false →
    s.mapOutRefused st c = none → ∃ t k, exec (.mapOutStart st c) s = .next t ∧ s.freeExc (quadOf st) = some k
      ∧ t.chanOf st c = { s.chanOf st c with moving := true }
      ∧ t.excOf (quadOf st) k = { valid := true, lost := false, stack := st % 5, channel := c, survivors := s.survivors st c,
                                  resBase := s.resUsed (quadOf st), movedMark := 0 }
      ∧ t.cis.cols = s.cis.cols ∧ SameTiers s t ∧ SameSessions s t ∧ SameEngines s t)
  ∧ (∀ (s : State) (st : Fin 20) (pc : Fin 64) (bp : Fin 16), s.booted = true →
    ((s.chanOf st (pc.val / 2)).st = .migrating ∨ s.bkt.retired.contains (unitIx st pc bp) = true) →
    exec (.kvRunMove st pc bp) s = .next (s.moveFrom (unitIx st pc bp)))
  ∧ (∀ (s : State) (q : Fin 4) (k : Fin 16), s.booted = true → (s.excOf q k).valid = true → (s.excOf q k).lost = false →
    (s.chanOf (5 * q + (s.excOf q k).stack) (s.excOf q k).channel).st = .migrating →
    (s.chanOf (5 * q + (s.excOf q k).stack) (s.excOf q k).channel).moving = true →
    s.pagesOn (onChannel (5 * q + (s.excOf q k).stack) (s.excOf q k).channel) = false →
    (s.excOf q k).movedMark + 1 < s.movedAll (s.excOf q k).resBase →
    ∃ t, exec (.mapoutGranuleCopy q k) s = .next t ∧ t.excOf q k = { s.excOf q k with movedMark := (s.excOf q k).movedMark + 1 }
      ∧ t.cis.chan = s.cis.chan ∧ SameTiers s t ∧ SameSessions s t ∧ SameEngines s t)
  ∧ ∀ (s : State) (st : Fin 20) (c : Fin 32), s.booted = true → ((s.chanOf st c).st = .online ∨ (s.chanOf st c).st = .retrainPending
    ∨ (s.chanOf st c).st = .migrating) → exec (.channelLost st c) s = .next (s.loseChan st c))

/-- Bring-up, resume, repairs, scrubbing, temperatures and slot weights of a stack (chapters 3 to 5, 15): each event leaves what its rules say
and no other stack changes.
That a repaired row keeps its bytes is the model's reading (log entry 41). -/
def Obligations.StackEventsComplete : Prop :=
  ((∀ (s : State) (st : Fin 20) (failed : W32) (lanes : List (Fin 32)) (rows : List (Fin 64 × Fin 32)),
    s.fld (pgCis st) F.hdr_STATE = 1 → s.boot.running = true →
    exec (.stackBringUp st failed lanes rows) s = .next (((s.broughtUp st lanes rows).bringChannels st failed).setStackState st 2).bootReady
    ∧ ∀ k, k / stackCols = st.val → (s.broughtUp st lanes rows).col k = zeroCol)
  ∧ (∀ (s : State) (st : Fin 20) (failed linkOk : W32), s.cis.selfRefresh.contains st.val = true →
    exec (.stackResume st failed linkOk) s = .next ((s.resumeChannels st failed linkOk).setStackState st 2).bootReady)
  ∧ (∀ (s : State) (st : Fin 20) (c : Fin 32) (lane tgt : Fin 128) (row : W16), s.pageLive (pgCis st) = true →
    SMap.get s.cis.repair none st = none → s.repairOk st = true →
    (0 < s.fld (pgCis st) (spareFld c) → ∃ t, exec (.laneRepair st c lane) s = .next t ∧ t.fld (pgCis st) F.cis_REPAIR_STATUS_BUSY = 1
      ∧ SMap.get t.cis.repair none st = some ⟨false, c, lane, 0⟩ ∧ t.cis.cols = s.cis.cols)
    ∧ (∃ t, exec (.rowRepair st c tgt row) s = .next t ∧ t.cis.cols = s.cis.cols
      ∧ if SMap.get s.cis.rowsUsed 0 (rowBank st c tgt) < Config.spareRows (rowBank st c tgt)
        then t.fld (pgCis st) F.cis_REPAIR_STATUS_BUSY = 1 ∧ SMap.get t.cis.repair none st = some ⟨true, c, tgt, row.toNat⟩
        else t.fld (pgCis st) F.cis_REPAIR_STATUS_RESULT = 1 ∧ t.cis = s.cis)
    ∧ (s.fld (pgCis st) (spareFld c) = 0 → ∃ t, exec (.laneRepair st c lane) s = .next t ∧ t.fld (pgCis st) F.cis_REPAIR_STATUS_RESULT = 1
      ∧ t.cis = s.cis))
  ∧ ∀ (s : State) (st : Fin 20) (r : Repair), s.booted = true → SMap.get s.cis.repair none st = some r → r.rowOp = true →
    ∃ t, exec (.repairComplete st true) s = .next t ∧ SMap.get t.cis.repair none st = none
      ∧ t.fld (pgCis st) F.cis_REPAIR_STATUS_BUSY = 0 ∧ t.fld (pgCis st) F.cis_REPAIR_STATUS_RESULT = 0
      ∧ SMap.get t.cis.rowsUsed 0 (rowBank st r.channel r.target) = SMap.get s.cis.rowsUsed 0 (rowBank st r.channel r.target) + 1
      ∧ t.cis.cols = s.cis.cols)
  ∧ ((∀ (s : State) (st : Fin 20), s.booted = true → s.fld (pgCis st) F.hdr_STATE = 2 → s.fld (pgCis st) F.hdr_SCRUB_EN ≠ 0 →
    (s.chanOf st ((placeOfKey (st * stackCols + SMap.get s.cis.scrubAt 0 st)).pc / 2)).parked = false →
    ∃ t, exec (.scrubRead st) s = .next t ∧ SMap.get t.cis.scrubAt 0 st = (SMap.get s.cis.scrubAt 0 st + 1) % stackCols
      ∧ t.cis.cols = (s.readCol (st * stackCols + SMap.get s.cis.scrubAt 0 st)).2.cis.cols ∧ SameTiers s t ∧ SameSessions s t)
  ∧ (∀ (s : State) (st : Fin 20) (v : Byte), s.booted = true →
    ∃ t, exec (.stackTempRead st v) s = .next t ∧ t.fld (pgCis st) F.cis_THERM_TEMP_C = v.toNat
      ∧ t.fld (pgCis st) F.cis_THERM_MAX_C = max v.toNat (s.fld (pgCis st) F.cis_THERM_MAX_C)
      ∧ t.fld (pgCis st) F.cis_THERM_LEVEL = paceLevel (s.fld (pgCis st) F.cis_THERM_CFG_PACE_TEMP)
        (max 1 (s.fld (pgCis st) F.cis_THERM_CFG_STEP_C)) v.toNat 32 (s.fld (pgCis st) F.cis_THERM_LEVEL) % 16
      ∧ t.cis = s.cis ∧ SameTiers s t ∧ SameSessions s t)
  ∧ ∀ (s : State) (q v : Fin 4) (j : Fin 8) (w : W32), s.pageLive (pgCisQ q) = true →
    ∃ t, exec (.slotWeightWrite q v j w) s = .next t
      ∧ (∀ i, i < 8 → t.slotWeight q v (8 * j.val + i) = min 8 (bitsOf w.toNat (4 * i + 3) (4 * i))) ∧ t.cis = s.cis ∧ SameTiers s t)

/-! ## In-stack attention -/

/-- R126, R127, R129, R131, R137, R146: the keeper publishes run entries; opens a tag, whose record and entries pass the checks of R129 or
are answered MALFORMED; and releases a complete tag, whose combine slot then reads zero. A started unit takes its tag: M is minus infinity, L, ACC and SC are zero, and it runs
at ENTRY; and once every unit of a tag in a pseudo-channel holds it, its query is broadcast there, once.
When run entries are consumed, and when a tag is open, are the model's readings (log entries 50 and 51). -/
def Obligations.TagsCompleteTheirSteps : Prop :=
  ((∀ (s : State) (st : Fin 20) (pc : Fin 64) (bytes : List Byte) (v : W32), s.booted = true → v.toNat % 4 = 0 → v.toNat ≤ 16380 →
    ∃ t, exec (.runRingPublish st pc bytes v) s = .next t ∧ SMap.get t.bkt.tail 0 (pcIx st pc) = v.toNat
      ∧ t.bkt.ring = (s.ringWrite st pc (SMap.get s.bkt.tail 0 (pcIx st pc)) bytes).bkt.ring ∧ t.cis = s.cis ∧ SameTiers s t ∧ SameSessions s t)
  ∧ (∀ (s : State) (st : Fin 20) (tag : Fin 256) (qry rcd : List Byte), s.booted = true → s.flag (pgBkt st) F.hdr_ENABLE = true →
    (s.tagAt st tag).life = .free →
    let s1 := s.writeTagArea st tag qry rcd
    let r := SMap.getList s1.bkt.record 0#8 (tagIx st tag * 64) 64
    let es := s1.entriesOf st tag
    (s1.tagOk st r es = true → ∃ t, exec (.tagOpen st tag qry rcd 1#32) s = .next t ∧ (t.tagAt st tag).life = .opened
      ∧ (t.tagAt st tag).record = r ∧ (t.tagAt st tag).units = es.map (fun e => unitIx st e.pc e.bp) ∧ t.cis = s.cis ∧ SameTiers s t)
    ∧ (s1.tagOk st r es = false → ∃ t, exec (.tagOpen st tag qry rcd 1#32) s = .next t ∧ (t.tagAt st tag).life = .complete
      ∧ t.entriesOf st tag = [] ∧ t.bkt.units = s.bkt.units ∧ t.bkt.bus = s.bkt.bus ∧ t.cis = s.cis ∧ SameTiers s t))
  ∧ ∀ (s : State) (st : Fin 20) (tag : Fin 256), s.booted = true →
    ((s.tagAt st tag).life = .complete → ∃ t, exec (.tagRelease st tag) s = .next t ∧ (t.tagAt st tag).life = .free
      ∧ (∀ w, w < 2064 → t.slotWord st tag w = 0#32) ∧ t.bkt.units = s.bkt.units ∧ t.cis = s.cis ∧ SameTiers s t)
    ∧ ((s.tagAt st tag).life = .opened → exec (.tagRelease st tag) s = .next (s.raise (pgBkt st) 3)))
  ∧ ((∀ (s : State) (st : Fin 20) (pc : Fin 64) (bp : Fin 16), (s.unitAt (unitIx st pc bp)).phase = .started →
    ∃ t, exec (.unitTagStart st pc bp) s = .next t ∧ (t.unitAt (unitIx st pc bp)).phase = .running
      ∧ (t.unitAt (unitIx st pc bp)).pc = (s.unitAt (unitIx st pc bp)).entry ∧ (t.unitAt (unitIx st pc bp)).sc = []
      ∧ (t.unitAt (unitIx st pc bp)).acc = [] ∧ (t.unitAt (unitIx st pc bp)).l = List.replicate 8 0#32
      ∧ (t.unitAt (unitIx st pc bp)).m = List.replicate 8 0xFF800000#32 ∧ (t.unitAt (unitIx st pc bp)).page = 0
      ∧ (∀ k, k ≠ unitIx st pc bp → t.unitAt k = s.unitAt k) ∧ t.cis = s.cis ∧ SameTiers s t ∧ SameSessions s t)
  ∧ ∀ (s : State) (st : Fin 20) (pc : Fin 64) (tag : Fin 256), (s.tagAt st tag).life = .opened →
    (recPcs (s.tagAt st tag).record).contains pc.val = true → (s.tagAt st tag).cast.contains pc.val = false →
    ((s.tagAt st tag).units.filter (fun k => k / 16 % 64 == pc.val)).all (fun k => ((s.unitAt k).tags.take 2).contains tag.val) = true →
    ∃ t, exec (.queryBroadcast st pc tag) s = .next t ∧ (t.tagAt st tag).cast = (s.tagAt st tag).cast ++ [pc.val]
      ∧ t.busOf st pc = s.busOf st pc ++ (List.range (dimOf (recHdim (s.tagAt st tag).record) / 2)).map (fun i =>
        (⟨4, 0, tag, i, SMap.getList s.bkt.query 0#8 (tagIx st tag * 4096 + 32 * i) 32⟩ : Xfer))
      ∧ t.bkt.units = s.bkt.units ∧ t.cis = s.cis)

/-- R137 to R142: a running bucket unit carries out the micro-instruction at its address. NOP, INIT, ZERO, MASK, SMAX, NEXT and BR change the unit
alone; QK and PV sweep the page's columns; MAXX and SENDACC leave the unit waiting for its reduction; END frees it, its DONE goes to the bus, and its next tag is at its head.
Open orders and bits are free values (log entry 53). -/
def Obligations.BucketInstructionsComplete : Prop :=
  (∀ (s : State) (st : Fin 20) (pc : Fin 64) (bp : Fin 16),
    let k := unitIx st pc bp
    let u := s.unitAt k
    u.phase = .running →
    (u.word / 2 ^ 27 = 0x00 → exec (.bktNop st pc bp) s = .next (s.setUnit k { u with pc := (u.pc + 1) % 256 }))
    ∧ (u.word / 2 ^ 27 = 0x01 → exec (.bktInit st pc bp) s = .next (s.setUnit k { u.step with
        m := List.replicate 8 0xFF800000#32, l := List.replicate 8 0#32, acc := [], page := 0,
        nt := if u.pages = 1 then u.last else tppOf (bitsOf u.shape 4 3), done := false, poisoned := false }))
    ∧ (u.word / 2 ^ 27 = 0x02 → exec (.bktZero st pc bp) s = .next (s.setUnit k { u.step with sc := [] }))
    ∧ (u.word / 2 ^ 27 = 0x03 → u.poisoned = false → s.sweepReady st pc u = true → u.queryHere = true →
      exec (.bktQk st pc bp) s = .next ((sweep st pc bp 0 BktUnit.qkCol u.cols u s).2.setUnit k (sweep st pc bp 0 BktUnit.qkCol u.cols u s).1.step))
    ∧ (u.word / 2 ^ 27 = 0x04 → u.poisoned = false →
      exec (.bktMask st pc bp) s = .next (s.setUnit k (u.maskAll (recTailValid (s.tagAt st (u.tags.headD 0)).record))))
    ∧ (u.word / 2 ^ 27 = 0x05 → u.poisoned = false →
      exec (.bktSmax st pc bp) s = .next { s.setUnit k (u.smax s.free) with free := s.free + 8 * (tppOf (bitsOf u.shape 4 3) + 2) })
    ∧ (u.word / 2 ^ 27 = 0x06 → u.poisoned = false → s.sweepReady st pc u = true →
      exec (.bktPv st pc bp) s = .next ((sweep st pc bp 1 BktUnit.pvCol u.cols u s).2.setUnit k (sweep st pc bp 1 BktUnit.pvCol u.cols u s).1.step))
    ∧ (u.word / 2 ^ 27 = 0x07 → ∃ t, exec (.bktNext st pc bp) s = .next t ∧ (t.unitAt k).page = u.page + 1 ∧ (t.unitAt k).pc = (u.pc + 1) % 256
      ∧ (u.page + 1 = u.pages → (t.unitAt k).done = true))
    ∧ (u.word / 2 ^ 27 = 0x08 → (bitsOf u.word 26 24 = 0 ∨ bitsOf u.word 26 24 = 1 ∧ u.done = true ∨ bitsOf u.word 26 24 = 2 ∧ u.done = false) →
      exec (.bktBr st pc bp) s = .next (s.setUnit k { u with pc := bitsOf u.word 7 0 }))
    ∧ (u.word / 2 ^ 27 = 0x08 → (bitsOf u.word 26 24 = 1 ∧ u.done = false ∨ bitsOf u.word 26 24 = 2 ∧ u.done = true) →
      exec (.bktBr st pc bp) s = .next (s.setUnit k u.step)))
  ∧ (∀ (s : State) (st : Fin 20) (pc : Fin 64) (bp : Fin 16),
    let k := unitIx st pc bp
    let u := s.unitAt k
    u.phase = .running →
    (u.word / 2 ^ 27 = 0x09 → ∃ t, exec (.bktMaxx st pc bp) s = .next t ∧ t.unitAt k = { u with phase := .atMax } ∧ t.cis = s.cis ∧ SameTiers s t)
    ∧ (u.word / 2 ^ 27 = 0x0A → ∃ t, exec (.bktSendacc st pc bp) s = .next t ∧ t.unitAt k = { u with phase := .atAcc } ∧ t.cis = s.cis ∧ SameTiers s t)
    ∧ (u.word / 2 ^ 27 = 0x0B → ∃ t, exec (.bktEnd st pc bp) s = .next t ∧ (t.unitAt k).phase = .idle ∧ (t.unitAt k).tags = u.tags.drop 1
      ∧ (t.unitAt k).q0 = u.q1 ∧ t.cis = s.cis ∧ SameTiers s t
      ∧ (⟨8, bp, u.tags.headD 0, 0, leBytes 1 (b2n u.poisoned) ++ leBytes 1 (b2n u.nan) ++ leBytes 2 u.corrected ++ leBytes 4 u.ops⟩ : Xfer)
          ∈ t.busOf st pc))

/-- R133 to R136, R142, R144, R151: the transfer that the base die grants next is carried out: PROG copies micro-instructions into every unit
of the pseudo-channel, START gives a unit its parameters, PAGELIST its further page slots, QUERY a chunk to the units of the tag, DONE the unit's status to the tag; MAX_UP takes
the maximum of the waiting units into the combine slot, MAX_DOWN lets them go on, an ACC_UP chunk is added into the slot in chain order, and POISON is recorded with the tag. -/
def Obligations.WindlassTransfersComplete : Prop :=
  (∀ (s s1 : State) (st : Fin 20) (pc : Fin 64) (x : Xfer),
    (s.takeXfer st pc 1 = some (x, s1) → ∃ t, exec (.windlassProg st pc) s = .next t
      ∧ (∀ j, j < 16 → ∀ i, i < 8 → SMap.get (t.unitAt (unitIx st pc j)).prog 0x58000000#32 (8 * x.index + i) = BitVec.ofNat 32 (leAt x.data (4 * i) 4))
      ∧ t.bkt.tags = s.bkt.tags ∧ t.cis = s.cis)
    ∧ (s.takeXfer st pc 2 = some (x, s1) → ∃ t, exec (.windlassStart st pc) s = .next t
      ∧ (t.unitAt (unitIx st pc x.unit)).phase = .started ∧ (t.unitAt (unitIx st pc x.unit)).scale = BitVec.ofNat 32 (leAt x.data 0 4)
      ∧ (t.unitAt (unitIx st pc x.unit)).entry = leAt x.data 5 1 ∧ (t.unitAt (unitIx st pc x.unit)).pages = leAt x.data 6 1
      ∧ (t.unitAt (unitIx st pc x.unit)).last = leAt x.data 7 1 ∧ t.bkt.tags = s.bkt.tags ∧ t.cis = s.cis)
    ∧ (s.takeXfer st pc 3 = some (x, s1) → ∃ t, exec (.windlassPagelist st pc) s = .next t
      ∧ (t.unitAt (unitIx st pc x.unit)).slots = (s.unitAt (unitIx st pc x.unit)).slots ++ (List.range (x.data.length / 2)).map (fun i => leAt x.data (2 * i) 2)
      ∧ t.bkt.tags = s.bkt.tags ∧ t.cis = s.cis)
    ∧ (s.takeXfer st pc 4 = some (x, s1) → ∃ t, exec (.windlassQuery st pc) s = .next t
      ∧ (∀ j, j < 16 → (s.unitAt (unitIx st pc j)).tags.head? = some x.tag → SMap.get (t.unitAt (unitIx st pc j)).q0 [] x.index = x.data)
      ∧ t.bkt.tags = s.bkt.tags ∧ t.cis = s.cis)
    ∧ (s.takeXfer st pc 8 = some (x, s1) → ∃ t, exec (.windlassDone st pc) s = .next t
      ∧ (t.tagAt st x.tag).dones = (s.tagAt st x.tag).dones ++ [unitIx st pc x.unit]
      ∧ (t.tagAt st x.tag).poison = ((s.tagAt st x.tag).poison || leAt x.data 0 1 == 1) ∧ t.bkt.units = s.bkt.units ∧ t.cis = s.cis))
  ∧ (∀ (s s1 : State) (st : Fin 20) (pc : Fin 64) (x : Xfer),
    let d := dimOf (recHdim (s.tagAt st x.tag).record)
    (s.takeXfer st pc 5 = some (x, s1) →
      let ks := (s1.chainOf st pc x.tag).filter (fun k => (s1.unitAt k).phase == .atMax && !(s1.unitAt k).gaveMax)
      let word := ks.foldl (fun w k => List.zipWith max32 w (s1.unitAt k).m) (List.replicate 8 0xFF800000#32)
      ∃ t, exec (.maxUp st pc) s = .next t ∧ (t.tagAt st x.tag).maxUp = (s.tagAt st x.tag).maxUp ++ [pc.val]
        ∧ (∀ h, h < 8 → t.slotWord st x.tag (8 * d + h) = max32 (s.slotWord st x.tag (8 * d + h)) ((word.drop h).headD 0)) ∧ t.cis = s.cis)
    ∧ (s.takeXfer st pc 6 = some (x, s1) → ∃ t, exec (.maxDown st pc) s = .next t
      ∧ (t.tagAt st x.tag).maxDown = (s.tagAt st x.tag).maxDown ++ [pc.val]
      ∧ (∀ k ∈ (s1.chainOf st pc x.tag).filter (fun k => (s1.unitAt k).phase == .atMax), (t.unitAt k).phase = .running) ∧ t.cis = s.cis)
    ∧ (s.takeXfer st pc 7 = some (x, s1) → x.index < d →
      let ks := (s1.chainOf st pc x.tag).filter (fun k => (s1.unitAt k).phase == .atAcc)
      let word := ks.foldl (fun w k => List.zipWith add32 w ((List.range 8).map (fun j => SMap.get (s1.unitAt k).acc 0#32 (8 * x.index + j))))
        (List.replicate 8 0#32)
      ∃ t, exec (.accUp st pc) s = .next t ∧ SMap.get (t.tagAt st x.tag).accUp 0 pc = x.index + 1
        ∧ (∀ j, j < 8 → t.slotWord st x.tag (8 * x.index + j) = add32 (s.slotWord st x.tag (8 * x.index + j)) ((word.drop j).headD 0))
        ∧ t.bkt.units = s.bkt.units ∧ t.cis = s.cis)
    ∧ (s.takeXfer st pc 9 = some (x, s1) → ∃ t, exec (.windlassPoison st pc) s = .next t
      ∧ (pcIx st pc * 16 + x.unit) ∈ (t.tagAt st x.tag).bad ∧ (t.tagAt st x.tag).life = (s.tagAt st x.tag).life
      ∧ t.bkt.units = s.bkt.units ∧ t.cis = s.cis))

/-- R145, R147, R143, R136, R472: a tag whose reductions and units are done completes; a completed slot is carried into a tile store;
the requests held at a yield point are served in order; a word of a micro-program is stored at ADDR and sent on; and a tag whose units stay silent
completes ABORTED. -/
def Obligations.AttentionServicesComplete : Prop :=
  (∀ (s : State) (st : Fin 20) (tag : Fin 256), s.booted = true → (s.tagAt st tag).life = .opened → (s.tagAt st tag).finished = true →
    (s.tagAt st tag).poison = false → (s.tagAt st tag).tainted = false → s.winActive (bitsOf (leAt (s.tagAt st tag).record 7 1) 1 0) = false →
    ∃ t, exec (.tagComplete st tag) s = .next t ∧ (t.tagAt st tag).life = .complete ∧ t.entriesOf st tag = [] ∧ t.bkt.slots = s.bkt.slots
      ∧ t.bkt.units = s.bkt.units ∧ t.cis = s.cis ∧ SameTiers s t)
  ∧ (∀ (s : State) (st : Fin 20) (tag : Fin 256) (e : Fin 32) (a : W32) (i : Fin 20), s.booted = true → (s.tagAt st tag).life = .complete →
    a.toNat % 256 = 0 → a.toNat < 2 ^ 22 →
    exec (.combineSlotCarry st tag e a i) s = .next (s.storeWrite e ((a.toNat + i.val * 0x2100) % 2 ^ 22)
      (piecesOf 0 ((List.range 2064).flatMap (fun w => leBytes 4 (s.slotWord st tag w).toNat)))))
  ∧ (∀ (s : State) (st : Fin 20) (pc : Fin 64) (bp : Fin 16),
    let mine := fun (h : HeldReq) => h.stack == st.val && h.channel == pc.val * 16 + bp.val
    exec (.yieldService st pc bp) s = .next ((s.cis.yield.filter mine).foldl (fun s h => (s.resolve h.gran).2.serveAt (s.resolve h.gran).1 h.req)
      { s with cis := { s.cis with yield := s.cis.yield.filter (fun h => !(mine h)) } }))
  ∧ (∀ (s : State) (st : Fin 20) (w : W32), s.pageLive (pgBkt st) = true → s.flag (pgBkt st) F.bkt_PROG_ADDR_ALL = false →
    ∃ t, exec (.microprogramWrite st w) s = .next t
      ∧ SMap.get t.bkt.store 0x58000000#32 (pcIx st (s.fld (pgBkt st) F.bkt_PROG_ADDR_PC) * 256 + s.fld (pgBkt st) F.bkt_PROG_ADDR_ADDR) = w
      ∧ t.fld (pgBkt st) F.bkt_PROG_ADDR_ADDR = (s.fld (pgBkt st) F.bkt_PROG_ADDR_ADDR + 1) % 256 ∧ t.cis = s.cis)
  ∧ ∀ (s : State) (st : Fin 20) (tag : Fin 256), s.booted = true → (s.tagAt st tag).life = .opened → (s.lateUnits st tag).isEmpty = false →
    exec (.bucketUnitTimeout st tag) s = .next ((s.lateUnits st tag).foldl (fun s k => s.retirePair k) ((s.dropTag st tag).completeTag st tag 3))

/-! ## Objects and tiers -/

/-- R79, R165, R168, R170, R171: the object commands on an object that allows them. Each answers in OBJ_STATUS; the object takes the pin, the preference
or the state that the command gives it, and every other object and every byte of memory stays. While an earlier command is BUSY each is
dropped. -/
def Obligations.ObjectCommandsComplete : Prop :=
  ∀ (s : State) (fn : Fin 65) (obj : W16), s.pageLive (objPage fn) = true →
    let o := obj.toNat
    let x := s.obj fn o
    (s.objReg fn F.tnt4_OBJ_STATUS_BUSY ≠ 1 →
      (exec (.objCreate fn obj) s
        = .next ((s.createObj fn o).1.objAnswer fn (s.createObj fn o).2.1 (s.createObj fn o).2.2.1 (s.createObj fn o).2.2.2))
      ∧ (x.st = .ready → x.releaseWaits = false → x.pins = 0 →
        ∃ t, exec (.objRelease fn obj) s = .next t ∧ (t.obj fn o).st = .releasing ∧ t.objReg fn F.tnt4_OBJ_STATUS_RESULT = resOk
          ∧ t.objReg fn F.tnt4_OBJ_STATUS_OBJ = o ∧ (∀ k, k ≠ objIx fn o → SMap.get t.mem.objs {} k = SMap.get s.mem.objs {} k)
          ∧ SameMemory s t ∧ SameStacks s t ∧ SamePumps s t ∧ SameEngines s t ∧ SameSessions s t)
      ∧ (x.live = true → x.pinCount < 0xFFFF →
        exec (.objPin fn obj false) s = .next ((s.setObj fn o { x with pins := x.pins + 1 }).objAnswer fn resOk o false)
        ∧ exec (.objPin fn obj true) s = .next (((s.setObj fn o { x with pins := x.pins + 1 }).promoteAll fn o).objAnswer fn resOk o false))
      ∧ (x.live = true → x.pins ≠ 0 →
        exec (.objUnpin fn obj) s = .next ((s.setObj fn o { x with pins := x.pins - 1 }).objAnswer fn resOk o false)
        ∧ exec (.objRelease fn obj) s = .next (if x.releaseWaits then s.objAnswer fn resState o false else s.objAnswer fn resPinned o false))
      ∧ (x.live = true → exec (.objPromote fn obj) s = .next ((s.promoteAll fn o).objAnswer fn resOk o false))
      ∧ (∀ tier : Fin 4, x.live = true → tier.val = 1 ∨ tier.val = 2 → x.layout ≠ 2 →
        exec (.objDemote fn obj tier) s
          = .next (if x.pins = 0 then ((s.demoteAll fn o tier).startMove fn o).objAnswer fn resOk o false else s.objAnswer fn resPinned o false))
      ∧ (∀ tier : Fin 4, x.live = true → tier.val ≠ 3 → prefBad x.layout tier = false →
        exec (.objSetPref fn obj tier) s = .next ((s.setObj fn o { x with pref := tier }).objAnswer fn resOk o false))
      ∧ (o ≠ 0 → ∃ t, exec (.objQuery fn obj) s = .next t ∧ t.objReg fn F.tnt4_OBJ_STATUS_RESULT = resOk ∧ SameTiers s t
        ∧ ∀ k, k < 8 → t.reg (objPage fn) 0 ((objFld fn F.tnt4_OBJ_QUERY_ENTRY).off + 4 * k) = BitVec.ofNat 32 (leAt (s.objEntry fn o) (4 * k) 4))
      ∧ (x.st = .free → ∀ c ∈ [Instr.objRelease fn obj, .objPin fn obj true, .objUnpin fn obj, .objPromote fn obj],
        exec c s = .next (s.objAnswer fn resState o false)))
    ∧ (s.objReg fn F.tnt4_OBJ_STATUS_BUSY = 1 → ∀ tier : Fin 4, ∀ c ∈ [Instr.objCreate fn obj, .objRelease fn obj, .objPin fn obj true,
        .objPin fn obj false, .objUnpin fn obj, .objPromote fn obj, .objDemote fn obj tier, .objSetPref fn obj tier, .objQuery fn obj],
      exec c s = .next (s.setObjReg fn F.tnt4_OBJ_STATUS_DROPPED 1))

/-- R167, R168, R172, R182: an object's load ends; a RELEASING object without transient pins is freed, its entry reads zero and its moves are
gone; a waiting move starts under the object's lock; and a move that ends releases the lock. -/
def Obligations.ObjectLifeCompletes : Prop :=
  ∀ (s : State) (fn : Fin 65) (obj : W16), s.booted = true →
    let o := obj.toNat
    let x := s.obj fn o
    (∀ g, (fn.val ≠ 0 ∨ ((s.objectLoadDone fn obj g).obj 0 o).st ≠ .quarantined) →
      exec (.objectLoadDone fn obj g) s = .next (s.objectLoadDone fn obj g))
    ∧ (x.st = .creating → s.objectLoadDone fn obj none = s.loadFailed fn o ∧ ((s.loadFailed fn o).obj fn o).st = .quarantined)
    ∧ (x.st = .releasing → x.transient = 0 → ∃ t, exec (.objectFreed fn obj) s = .next t ∧ t.obj fn o = {}
      ∧ t.mem.moves = s.mem.moves.filter (fun m => !(m.fn == fn.val && m.obj == o)))
    ∧ (exec (.promotion fn obj) s = .next (s.startMove fn o))
    ∧ ((∃ m ∈ s.mem.moves, m.fn = fn.val ∧ m.obj = o ∧ m.active = false) → x.live = true → x.migLock = false →
      ((s.startMove fn o).obj fn o).st = .migrating ∧ ((s.startMove fn o).obj fn o).migLock = true)
    ∧ ∀ (m : Move), s.mem.moves.find? (fun m => m.active && m.fn == fn.val && m.obj == o) = some m →
      ((s.doMove m).obj fn o).releaseWaits = true →
      ∃ t, exec (.tileMoveComplete fn obj true) s = .next t ∧ (t.obj fn o).st = .releasing ∧ (t.obj fn o).migLock = false
        ∧ t.objReg fn F.tnt4_OBJ_STATUS_BUSY = 0 ∧ m ∉ t.mem.moves ∧ ∀ m' ∈ t.mem.moves, m' ∈ (s.doMove m).mem.moves

/-- R162, R176, R181, R183: a pool below its low watermark evicts towards its high one, the scratchpad never; a slice asked to leave the
cache is written back and becomes scratchpad; a quota floor is taken unless the floors would exceed the tier; and sump chunks are added at once.
Which place is taken among several is the model's choice (log entry 58). -/
def Obligations.TierEventsComplete : Prop :=
  (∀ (s : State) (q : Fin 4) (pool : Fin 5), s.booted = true → s.flag (pgTir q) F.hdr_ENABLE = true →
    s.poolFree q pool < (s.watermarks q pool).1 →
    (pool.val < 4 → pool.val ≠ 1 →
      exec (.eviction q pool) s = .next (s.evictUntil q pool (s.watermarks q pool).2 (s.mem.tiles.length + s.sess.length + 1)))
    ∧ (pool.val = 4 → exec (.eviction q pool) s = .next (s.freeSumpCopies (s.watermarks q pool).2))
    ∧ (pool.val = 1 → exec (.eviction q pool) s = .next s))
  ∧ (∀ (s : State) (q : Fin 4) (hi : W32) (i : Fin 64), s.pageLive (pgWel q) = true →
    (∀ j, j < 64 → bitOf (s.staged (pgWel q) 0 0x040 + 2 ^ 32 * hi.toNat) j = (s.sliceScratch q j || j == i.val)) →
    s.sliceScratch q i = false → s.mem.switching.contains (q.val * 64 + i.val) = false →
    ∃ t, exec (.sliceModeChange q hi) s = .next t ∧ t.mem.switching = s.mem.switching ++ [q.val * 64 + i.val]
      ∧ t.fld (pgWel q) F.wel_SLICE_STATUS_BUSY = 1 ∧ SameMemory s t)
  ∧ (∀ (s : State) (q : Fin 4) (i : Fin 64), s.booted = true → s.mem.switching = [q.val * 64 + i.val] →
    ((s.mem.frames.filter (fun e => e.1 / 64 == q.val * 64 + i.val && e.2.owner != 0)).isEmpty = true) →
    ∃ t, exec (.sliceSwitchComplete q i) s = .next t ∧ t.mem.switching = [] ∧ t.sliceScratch q i = true
      ∧ t.fld (pgWel q) F.wel_SLICE_STATUS_BUSY = 0 ∧ SameMemory s t)
  ∧ (∀ (s : State) (q : Fin 4) (units : W32), s.pageLive (pgTir q) = true →
    let fn := s.fld (pgTir q) F.tir_QUOTA_SEL_FUNC
    let tier := s.fld (pgTir q) F.tir_QUOTA_SEL_TIER
    let others := sumTo 65 (fun f => if f = fn then 0 else s.floorOf f tier q)
    fn ≤ 64 → tier ≤ 1 →
    (others + units.toNat ≤ s.tierTotal tier q →
      exec (.quotaFloorWrite q units) s = .next (s.setFldB (pgTir q) (quotaBank fn tier) F.tir_QUOTA_FLOOR_UNITS units.toNat))
    ∧ (s.tierTotal tier q < others + units.toNat → exec (.quotaFloorWrite q units) s = .next (s.setFld (pgTir q) F.tir_QUOTA_STATUS_REFUSED 1)))
  ∧ ∀ (s : State) (v : W32), s.pageLive (pgTir 0) = true → v.toNat % 2 ^ 21 ≤ 0x100000 →
    exec (.sumpChunksWrite v) s = .next (if s.mem.sumpUse.any (fun e => decide (e.1 ≥ 32 * (v.toNat % 2 ^ 21))) then s
      else s.setFld (pgTir 0) F.tir_SUMP_CHUNKS_COUNT (v.toNat % 2 ^ 21))

/-- R184 to R186: a schedule that reads well is installed for the model in MODEL_SEL, to be taken at its next sealing, and a bad one sets SCHED_BAD;
staging brings the next DENSE or ADAPTER tile of an engine within LEAD layers, or a tile of an expert of the layer that runs. -/
def Obligations.PrimingCompletes : Prop :=
  (∀ (s : State) (q : Fin 4) (hi : W32) (md : ModelMeta), s.pageLive (pgTir q) = true →
    let m := s.fld (pgTir q) F.tir_MODEL_SEL_MODEL
    let lo := SMap.get s.stage (resetWord (pgTir q) 0 0x080) (regKey (pgTir q) 0 0x080)
    let s1 := (s.setReg (pgTir q) m 0x080 lo).setReg (pgTir q) m 0x084 hi
    (∀ c, s1.readSchedule m (lo.toNat + 2 ^ 32 * hi.toNat) = some c → ∃ t, exec (.scheduleInstall q hi md) s = .next t
      ∧ (t.model m).next = some c ∧ (t.model m).sched = (s.model m).sched ∧ (t.model m).md = md
      ∧ (∀ q' : Fin 4, t.fldB (pgTir q') m F.tir_MODEL_PRIME_INSTALLED = 1 ∧ t.fldB (pgTir q') m F.tir_MODEL_PRIME_SCHED_BAD = 0)
      ∧ SameMemory s t ∧ SameStacks s t ∧ SamePumps s t ∧ SameEngines s t)
    ∧ (s1.readSchedule m (lo.toNat + 2 ^ 32 * hi.toNat) = none → ∃ t, exec (.scheduleInstall q hi md) s = .next t
      ∧ t.fldB (pgTir q) m F.tir_MODEL_PRIME_SCHED_BAD = 1 ∧ t.ses = s.ses ∧ SameMemory s t))
  ∧ ∀ (s : State) (e : Fin 32) (m : Byte) (c : Schedule) (f : Nat), s.booted = true → s.flag (pgTir (e.val / 8)) F.hdr_ENABLE = true →
    (s.model m.toNat).sched = some c → s.freePrime e = some f →
    let p := SMap.get (s.model m.toNat).prime (0, 0) e.val
    (∀ (o u : Nat), s.stageAhead m.toNat c.layers e ≤ s.fldB (pgTir (engQuad e)) m.toNat F.tir_MODEL_PRIME_LEAD →
      (c.dense p.1 e (s.stageAdapters m.toNat c.layers e))[p.2]? = some (o, u) →
      ∃ t, exec (.primingStage e m none) s = .next t ∧ SMap.get (t.model m.toNat).prime (0, 0) e.val = (p.1, p.2 + 1)
        ∧ t.engs = (s.stageTile e m.toNat p.1 f o u).engs)
    ∧ ∀ (x : W16) (t : Byte) (y : SchedEntry), s.stageRuns m.toNat = true →
      (c.at' (s.stageLayer m.toNat c.layers) e).find? (fun y => y.kind == 1 && y.sel == x.toNat && decide (t.toNat < y.tiles)) = some y →
      exec (.primingStage e m (some (x, t))) s
        = .next (s.stageTile e m.toNat (s.stageLayer m.toNat c.layers) f (y.src / 2 ^ 32) (y.src / 65536 % 65536 + t.toNat))

/-! ## Pumps and decoding tables -/

/-- R193, R194, R196, R202, R209: a descriptor that its queue or its issuer gives, that waits for nothing and is well formed, is taken and carried
out by its operation; a malformed one ends MALFORMED, one of a failed chain SKIPPED, and a queue whose descriptor cannot be read stops. `host` is what host memory answers.
That a local descriptor runs within one command is the model's choice (log entry 8). -/
def Obligations.PumpOperationsComplete : Prop :=
  ∀ (s : State) (page : Fin 10) (src : DescSrc) (host : Option (List Byte)), s.booted = true →
    (∀ (c : DCtx) (opens : Bool), s.fetchDesc page src = .desc c false opens → s.descWaits c = false →
      let s1 := s.takeDesc c opens
      (descMalformed page c.d = false →
        (c.d.op = 0 → exec (.pumpNop page src) s = .next (s1.endDesc c { status := 0 }))
        ∧ (c.d.op = 1 → c.d.sspace ≠ 3 → c.d.dspace ≠ 3 →
          exec (.pumpCopy page src host) s = .next (((s1.askHost c c.d.len).copyDesc c host).2.endDesc c ((s1.askHost c c.d.len).copyDesc c host).1).remoteFailures)
        ∧ (c.d.op = 1 → (c.d.sspace = 3 ∨ c.d.dspace = 3) → exec (.pumpCopy page src host) s = .next (s1.startPeer c).remoteFailures)
        ∧ (c.d.op = 2 → exec (.pumpFill page src) s = .next ((s1.fillDesc c).2.endDesc c (s1.fillDesc c).1))
        ∧ (c.d.op = 3 → exec (.pumpAdder page src host) s = .next (if c.d.dspace = 3 then s1.startPeer c
          else ((s1.askHost c c.d.len).adderDesc c host).2.endDesc c ((s1.askHost c c.d.len).adderDesc c host).1).remoteFailures)
        ∧ (c.d.op = 4 → exec (.pumpCompress page src host) s = .next (s1.compressRun c host))
        ∧ (c.d.op = 5 → exec (.pumpExpand page src host) s = .next (((s1.askHost c c.d.len).expandDesc c host).2.endDesc c
          ((s1.askHost c c.d.len).expandDesc c host).1))
        ∧ (c.d.op = 6 → exec (.pumpFence page src) s = .next (s1.endDesc c { status := 0 })))
      ∧ (descMalformed page c.d = true → ∀ p ∈ pumpCommands page src host, c.d.op = p.2 →
        exec p.1 s = .next (afterPump p.2 (s1.endDesc c { status := 3 }))))
    ∧ (∀ (c : DCtx) (opens : Bool), s.fetchDesc page src = .desc c true opens → ∀ p ∈ pumpCommands page src host, c.d.op = p.2 →
      exec p.1 s = .next (afterPump p.2 ((s.takeDesc c opens).endDesc c { status := 9 })))
    ∧ ∀ (q : Fin 4) (r : Nat), src = .queue q → s.fetchDesc page src = .stop r → ∀ p ∈ pumpCommands page src host,
      exec p.1 s = .next (afterPump p.2 (s.stopQueue page q r))

/-- R193, R197: a FILL that meets no failure writes its pattern, over and over, to LEN bytes; a NOP and a FENCE without a completion address
change no byte of memory; a COPY of clean bytes writes what it read, and one that reads poison completes POISON. -/
def Obligations.PumpMovesBytes : Prop :=
  (∀ (s t : State) (c : DCtx), s.spaceWrite c c.d.dspace c.d.dst [((List.replicate (c.d.len / 8) (leBytes 8 c.d.pattern)).flatten, false)] = (none, t) →
    (s.fillDesc c).2 = t ∧ (s.fillDesc c).1.status = 0 ∧ (s.fillDesc c).1.out = c.d.len)
  ∧ (∀ (s t u : State) (c : DCtx) (host : Option (List Byte)) (ps : List Piece), s.spaceRead c c.d.sspace c.d.src c.d.len host = (ps, none, t) →
    t.spaceWrite c c.d.dspace c.d.dst ps = (none, u) →
    (s.copyDesc c host).2 = u ∧ (s.copyDesc c host).1.out = (bytesOf ps).length
      ∧ (s.copyDesc c host).1.status = if poisonIn ps then 4 else 0)
  ∧ ∀ (s t : State) (page : Fin 10) (src : DescSrc) (c : DCtx) (opens : Bool), s.booted = true → s.fetchDesc page src = .desc c false opens →
    c.d.cplAddr = 0 → descMalformed page c.d = false →
    (c.d.op = 0 ∧ exec (.pumpNop page src) s = .next t ∨ c.d.op = 6 ∧ exec (.pumpFence page src) s = .next t) →
    SameMemory s t ∧ t.cis = s.cis ∧ SameTiers s t ∧ SameEngines s t ∧ SameSessions s t ∧ SameLink s t ∧ SameTime s t

/-- R206, R207, R209: a doorbell moves SQ_TAIL, a stopped queue resumes, a commit puts the staged contents into the selected slot as its current
generation, and a drained retiring generation is freed, a held write becoming current; a COMPRESS that waited for it runs its second pass. -/
def Obligations.TablesComplete : Prop :=
  (∀ (s : State) (page : Fin 10) (v : W32), s.pageLive (pgPmp page) = true →
    let q := s.fld (pgPmp page) F.pmp_SQ_SEL_QUEUE
    (v.toNat % 4096 < s.ringSize page q → ∃ t, exec (.pumpSqDoorbell page v) s = .next t ∧ t.fldB (pgPmp page) q F.pmp_SQ_TAIL_INDEX = v.toNat % 4096
      ∧ SameMemory s t ∧ t.pmp = s.pmp ∧ t.cis = s.cis)
    ∧ (bitOf v.toNat 0 = true → ∃ t, exec (.pumpQueueResume page v) s = .next t ∧ t.fldB (pgPmp page) q F.pmp_SQ_STATUS_STOPPED = 0
      ∧ t.fldB (pgPmp page) q F.pmp_SQ_HEAD_INDEX = s.fldB (pgPmp page) q F.pmp_SQ_HEAD_INDEX ∧ SameMemory s t ∧ t.pmp = s.pmp ∧ t.cis = s.cis))
  ∧ (∀ (s : State) (v : W32), s.pageLive (pgCmp 0) = true → bitOf v.toNat 0 = true →
    let i := s.fld (pgCmp 0) F.cmp_TBL_SEL_SLOT
    (leAt s.tblStaged 0 1 < 5 → (s.tbl i).ret.num = 0 → ∃ t, exec (.tableCommit v) s = .next t ∧ (t.tbl i).cur.data = s.tblStaged
      ∧ (t.tbl i).cur.num = nextGen (s.tbl i).cur.num ∧ (∀ j, j ≠ i → t.tbl j = s.tbl j) ∧ SameMemory s t)
    ∧ (5 ≤ leAt s.tblStaged 0 1 → exec (.tableCommit v) s = .next (s.raise (pgCmp 0) 3)))
  ∧ (∀ (s : State) (i : Fin 16), s.booted = true → (s.tbl i).ret.num ≠ 0 → (s.tbl i).ret.refs = 0 →
    ∃ t, exec (.tableGenerationDrain i) s = .next t ∧ (∀ j, j ≠ i.val → t.tbl j = s.tbl j) ∧ SameMemory s t
      ∧ ((s.tbl i).held = none → (t.tbl i).ret = {} ∧ (t.tbl i).cur = (s.tbl i).cur)
      ∧ ∀ data, (s.tbl i).held = some data → (t.tbl i).cur.data = data ∧ (t.tbl i).cur.num = nextGen (s.tbl i).cur.num ∧ (t.tbl i).held = none)
  ∧ ∀ (s : State) (id : Nat) (f : Flying), s.booted = true → s.pmp.flying.find? (fun f => f.id == id) = some f →
    (f.stale = true → exec (.compressSecondPass id) s = .next (s.endFlying f { status := 5 }))
    ∧ ∀ slot gen, f.stale = false → f.table = some (slot, gen) → f.waits = none →
      let d := descOf f.desc
      let r := s.packDesc f.ctx (f.data.take d.len) (f.data.drop d.len) (s.tblData slot gen) gen
      exec (.compressSecondPass id) s = .next (r.2.endFlying f r.1)

/-! ## The engines -/

/-- R241, R243, R248: a running program's next instruction, in either context, is carried out by its class and operation code: the command of the
operation runs exactly the word at the context's address. A command whose operation the word there does not name changes nothing, and a reserved
word passes under VX_NOP.
That a command runs only the word that names it is the model's form of the sequencer (log entry 73). -/
def Obligations.ProgramInstructionsComplete : Prop :=
  ∀ (s : State) (e : Fin 32) (y : Bool),
    let w := s.progWord e (s.ctx e y).pc
    ∀ p ∈ programCommands e y,
      (s.canRun e y = true → wClass w = p.2.1 → wOp w = p.2.2 → wReserved w = false → exec p.1 s = .next (wordRun w s e y none w))
      ∧ (s.canRun e y = false → exec p.1 s = .next s)
      ∧ (s.canRun e y = true → wReserved w = false → (wClass w ≠ p.2.1 ∨ wOp w ≠ p.2.2) → exec p.1 s = .next s)
      ∧ (s.canRun e y = true → wReserved w = true → exec (.vxNop e y) s = .next ((s.taint e y).advance e y))

/-- R249, R254, R256: an elementwise instruction on vector registers, whole and in place apart from its sources, gives every position below its
count the operation's value of the elements there before, leaves every other element of the registers, goes on to the next address, and touches no
memory, accumulator or row buffer. -/
def Obligations.ElementwiseValues : Prop :=
  ∀ (s : State) (e : Fin 32) (f : ElFn),
    let w := s.progWord e (s.ctx e false).pc
    let x := vxOf w
    ∀ p ∈ vxCommands e false, elOf p.2 = some f → s.canRun e false = true → wClass w = 2 → wOp w = p.2 → x.rsel = 0 → x.mask = 0 → x.acnt = false →
      oKind x.d = 1 → oKind x.a = 1 → oKind x.b = (if opTwo p.2 then 1 else 0) → vxBad (elForm p.2) x = false → 0 < x.count → x.count ≤ 4096 →
      partOverlap x.d x.a none x.count = false → partOverlap x.d x.b none x.count = false → (s.ctx e false).tainted = false →
      (s.ctx e false).pc + 1 < 16384 →
      let reg := fun (o i : Nat) => (oPay o % 32 + i / 128) % 32 * 128 + i % 128
      let val := fun (o i : Nat) => SMap.get (s.ctx e false).v 0#32 (reg o i)
      ∃ t, exec p.1 s = .next t
        ∧ (∀ i, i < x.count → SMap.get (t.ctx e false).v 0#32 (reg x.d i)
          = (f ((elForm p.2).td.isInt x.int) (drawAt s.free i) (val x.a i) (if opTwo p.2 then val x.b i else s.loadCell e false (cellOf x.b none i)) (val x.d i)).1)
        ∧ (∀ k, (∀ i, i < x.count → k ≠ reg x.d i) → SMap.get (t.ctx e false).v 0#32 k = SMap.get (s.ctx e false).v 0#32 k)
        ∧ (t.ctx e false).pc = (s.ctx e false).pc + 1 ∧ (t.eng e).acc = (s.eng e).acc ∧ (t.eng e).rows = (s.eng e).rows
        ∧ SameMemory s t ∧ SameStacks s t ∧ SameTiers s t ∧ SamePumps s t ∧ SameSessions s t ∧ SameLink s t ∧ SameTime s t

/-- R299 to R302: the synchronisation instructions. WAIT goes on, and takes its value from the counter, only once the counter holds it; SIGNAL adds
to counters, which stop at 65,535; JUMP goes to its target; NOTIFY posts to the mailbox of the quadrant's keeper; END ends the program and leaves
the engine READY; FENCE waits for the feed. -/
def Obligations.SynchronisationCompletes : Prop :=
  ∀ (s : State) (e : Fin 32),
    let c := s.ctx e false
    let w := s.progWord e c.pc
    s.canRun e false = true → wClass w = 0 → wReserved w = false → c.pc + 1 < 16384 →
    (wOp w = 0 → ∃ t, exec (.endCmd e false) s = .next t ∧ (t.ctx e false).started = false ∧ t.engState e = eReady ∧ SameMemory s t
      ∧ SameStacks s t ∧ SameTiers s t ∧ SameSessions s t)
    ∧ (wOp w = 1 → exec (.fence e false) s = .next (if s.drained e false then s.advance e false else s))
    ∧ (wOp w = 2 → syAll w = false → syEngine w ≠ e.val → syEngine w < 32 → s.engState (syEngine w) ≠ eOffline → s.engState (syEngine w) ≠ eInReset →
      s.drained e false = true →
      ∃ t, exec (.signal e false) s = .next t ∧ (t.ctx e false).pc = c.pc + 1
        ∧ SMap.get (t.ctx (syEngine w) false).sc 0 (syCtr w) = min 0xFFFF (SMap.get (s.ctx (syEngine w) false).sc 0 (syCtr w) + syValue w)
        ∧ (∀ k, k ≠ syCtr w → SMap.get (t.ctx (syEngine w) false).sc 0 k = SMap.get (s.ctx (syEngine w) false).sc 0 k))
    ∧ (wOp w = 3 → (SMap.get c.sc 0 (syCtr w) < syValue w → exec (.wait e false) s = .next s)
      ∧ (syValue w ≤ SMap.get c.sc 0 (syCtr w) → ∃ t, exec (.wait e false) s = .next t ∧ (t.ctx e false).pc = c.pc + 1
        ∧ SMap.get (t.ctx e false).sc 0 (syCtr w) = SMap.get c.sc 0 (syCtr w) - syValue w))
    ∧ (wOp w = 4 → ∃ t, exec (.notify e false) s = .next t ∧ (t.ctx e false).pc = c.pc + 1
      ∧ (t.keeper (engQuad e)).mailbox = (s.keeper (engQuad e)).mailbox ++ [progEntry e c.pc false (syWord w) 1] ∧ SameMemory s t)
    ∧ (wOp w = 5 → syTarget w < 16384 → ∃ t, exec (.jump e false) s = .next t ∧ (t.ctx e false).pc = syTarget w ∧ SameMemory s t)

/-- R238, R240, R243, R244, R284: programs start on a READY engine, the keeper's for the round that has the engines and a test's under TEST_OWN;
PROG_DATA3 stores a word; HALT, STEP and RESUME hold, single-step and release a running engine; and a reset leaves the latches, the accumulators, the
row buffers and the feed empty and keeps the program store. -/
def Obligations.EngineControlCompletes : Prop :=
  (∀ (s : State) (e : Fin 32) (n : Fin 64) (r : Round), s.booted = true →
    s.ses.rounds.find? (fun r => r.holds && decide (r.layer < s.layersOf r)) = some r → s.engState e = eReady → s.testOwn e = false →
    s.fld (pgMxe e) F.hdr_ENABLE ≠ 0 → r.engines.contains e.val = false → s.fldB (pgKpr (engQuad e)) n F.kpr_PROG_ENTRY_VALID ≠ 0 →
    s.fldB (pgKpr (engQuad e)) n F.kpr_PROG_ENTRY_CLASS = 0 →
    ∃ t, exec (.programStart e n) s = .next t ∧ (t.ctx e false).started = true ∧ (t.ctx e false).round = r.num
      ∧ (t.ctx e false).pc = s.fldB (pgKpr (engQuad e)) n F.kpr_PROG_ENTRY_ADDR ∧ t.engState e = eRunning ∧ SameMemory s t)
  ∧ (∀ (s : State) (e : Fin 32) (v : W32), s.pageLive (pgMxe e) = true → bitOf v.toNat 16 = true → s.testOwn e = true → s.engState e = eReady →
    let cls := min 2 (bitsOf v.toNat 15 14)
    (s.ctx e (cls != 0)).started = false →
    ∃ t, exec (.testProgramStart e v) s = .next t ∧ (t.ctx e (cls != 0)).started = true ∧ (t.ctx e (cls != 0)).pc = bitsOf v.toNat 13 0
      ∧ (t.ctx e (cls != 0)).test = true ∧ t.engState e = eRunning ∧ SameMemory s t)
  ∧ (∀ (s : State) (e : Fin 32) (v : W32), s.pageLive (pgMxe e) = true → s.engState e ≠ eRunning → s.engState e ≠ eHalted →
    let a := s.fld (pgMxe e) F.mxe_PROG_ADDR_ADDR
    let d := fun (k : Nat) => (s.reg (pgMxe e) 0 (0x044 + 4 * k)).toNat
    ∃ t, exec (.programStoreWrite e v) s = .next t ∧ t.progWord e a = d 0 + 2 ^ 32 * d 1 + 2 ^ 64 * d 2 + 2 ^ 96 * v.toNat
      ∧ t.fld (pgMxe e) F.mxe_PROG_ADDR_ADDR = (a + 1) % 16384 ∧ SameMemory s t)
  ∧ (∀ (s : State) (e : Fin 32), s.pageLive (pgMxe e) = true →
    (s.engState e = eRunning → exec (.engineHalt e) s = .next ((s.setFld (pgMxe e) F.hdr_HALT 1).setEngState e eHalted))
    ∧ (s.engState e = eHalted → exec (.engineResume e) s = .next ((s.setFld (pgMxe e) F.hdr_HALT 0).setEngState e eRunning))
    ∧ (s.engState e = eHalted → (s.ctx e false).started = true → (s.ctx e false).yielded = false → (s.ctx e false).waitBranch = false →
      let w := s.progWord e (s.ctx e false).pc
      let s1 := wordRun w (s.setEngState e eRunning) e false none w
      wReserved w = false →
      exec (.engineStep e) s = .next (if s1.engState e = eRunning then s1.setEngState e eHalted else s1)))
  ∧ ∀ (s : State) (e : Fin 32), s.booted = true → s.engState e ≠ eOffline → (s.engState e ≠ eFault ∨ s.ses.engFaults = []) →
    ∃ t, exec (.engineReset e) s = .next t ∧ (t.eng e).latch = [none, none] ∧ (t.eng e).acc = [] ∧ (t.eng e).rows = [] ∧ (t.eng e).feed = []
      ∧ (t.eng e).staged = [] ∧ (t.eng e).g.started = false ∧ (t.eng e).y.started = false

/-- R211, R213, R223, R224, R239, R291, R293, R301: the engine-feed pump expands a staged unit into the smoothing queue and fills a free latch or
scale buffer with the entry at the head of the feed queue; a Y program yields and resumes; a waiting branch takes its word; and the keeper adds to a
counter.
That a yielded Y program leaves the engine READY is the model's reading (log entry 79). -/
def Obligations.FeedAndBranchesComplete : Prop :=
  (∀ (s : State) (e : Fin 32) (g : Staged) (fn oi u : Nat), (s.eng e).nextPacked = some g → (s.eng e).smooth.length < (s.eng e).smoothRoom →
    g.src = .object fn oi u → g.bad = 0 → s.planeWaits e (s.obj fn oi) = false → exec (.feedExpand e) s = .next (s.expandStaged e g fn oi u))
  ∧ (∀ (s : State) (e : Fin 32) (f : FeedEntry) (fs : List FeedEntry) (b : Nat), (s.eng e).feed = f :: fs → f.prime = false →
    let n := if f.wide then 131072 else 65536
    s.storeUe e f.addr n = false → (s.eng e).latch.length = 2 → (s.eng e).cur < 2 →
    (f.scale = false → (s.eng e).freeLatch = some b → ∃ t, exec (.latchFill e) s = .next t ∧ (t.eng e).feed = fs
      ∧ ((t.eng e).latch.getD b none).map (fun x => x.data) = some (bytesOf (s.storeRead e f.addr n)) ∧ (t.eng e).acc = (s.eng e).acc
      ∧ SameMemory s t)
    ∧ (f.scale = true → (s.eng e).freeScale = some b → ∃ t, exec (.latchFill e) s = .next t ∧ (t.eng e).feed = fs ∧ (t.eng e).bind = b
      ∧ (t.eng e).latch = (s.eng e).latch ∧ SameMemory s t))
  ∧ (∀ (s : State) (e : Fin 32) (y : Bool), (s.ctx e y).started = true → (s.ctx e y).waitBranch = true → s.testOwn e = false →
    let r := s.keeperBranch e (s.ctx e y)
    exec (.branchWord e y) s = .next ((if r.2 then s.raise (pgKpr (engQuad e)) 0 else s).takeBranch e y r.1))
  ∧ (∀ (s : State) (e : Fin 32) (v : W32), s.pageLive (pgVxe e) = true → s.testOwn e = true →
    ((s.ctx e false).started = true → (s.ctx e false).waitBranch = true → exec (.branchCmd e v) s = .next (s.takeBranch e false v))
    ∧ ((s.ctx e false).started = false → (s.ctx e true).started = true → (s.ctx e true).waitBranch = true →
      exec (.branchCmd e v) s = .next (s.takeBranch e true v)))
  ∧ (∀ (s : State) (e : Fin 32) (v : W32), bitOf v.toNat 15 = false →
    (bitOf v.toNat 14 = true → ((s.takeBranch e false v).ctx e false).pc = bitsOf v.toNat 13 0)
    ∧ (bitOf v.toNat 14 = false → (s.ctx e false).pc + 1 < 16384 → ((s.takeBranch e false v).ctx e false).pc = (s.ctx e false).pc + 1))
  ∧ (∀ (s : State) (e : Fin 32), (s.ctx e true).started = true → (s.ctx e true).yielded = false → s.engState e = eRunning →
    (s.ctx e false).started = false →
    ∃ t, exec (.yProgramYield e none) s = .next t ∧ (t.ctx e true).yielded = true ∧ (t.ctx e true).pc = (s.ctx e true).pc ∧ t.engState e = eReady
      ∧ (t.ctx e true).v = (s.ctx e true).v ∧ t.fld (pgVxe e) F.vxe_Y_STATUS_STATE = 2 ∧ SameMemory s t)
  ∧ (∀ (s : State) (e : Fin 32), (s.ctx e true).started = true → (s.ctx e true).yielded = true → s.engState e = eReady →
    ∃ t, exec (.yProgramResume e) s = .next t ∧ (t.ctx e true).yielded = false ∧ (t.ctx e true).pc = (s.ctx e true).pc ∧ t.engState e = eRunning
      ∧ (t.ctx e true).v = (s.ctx e true).v ∧ t.fld (pgVxe e) F.vxe_Y_STATUS_STATE = 1 ∧ SameMemory s t)
  ∧ ∀ (s : State) (e : Fin 32) (k : Fin 16) (v : W16), s.engState e ≠ eOffline → s.engState e ≠ eInReset →
    ∃ t, exec (.keeperCounterAdd e k v) s = .next t
      ∧ SMap.get (t.ctx e false).sc 0 k.val = min 0xFFFF (SMap.get (s.ctx e false).sc 0 k.val + v.toNat)
      ∧ (∀ j, j ≠ k.val → SMap.get (t.ctx e false).sc 0 j = SMap.get (s.ctx e false).sc 0 j) ∧ (t.ctx e true) = (s.ctx e true) ∧ t.regs = s.regs
      ∧ SameMemory s t

/-! ## Sessions and keepers -/

/-- R314 to R316, R399, R400, R405: a submission doorbell inside the ring publishes entries and asks for the next to be read; a token-ring doorbell
frees slots; a doorbell outside its ring is refused. The keeper takes the entry read: a refused one's MALFORMED record waits for the ring, any other
one's ACCEPT record goes to the journal.
The events that a submission is divided into are the model's reading (log entry 89). -/
def Obligations.SubmissionCompletes : Prop :=
  (∀ (s : State) (t : Fin 64) (v : W32), s.pageLive (pgTnt1 t) = true →
    let i := bitsOf v.toNat 19 0
    let s1 := s.event (pgTnt1 t)
    (i < s1.sqSize t → exec (.sqDoorbell t v) s = .next ((s1.setFld (pgTnt1 t) F.tnt1_SQ_DB_INDEX i).startRead t))
    ∧ (s1.sqSize t ≤ i → exec (.sqDoorbell t v) s = .next (s1.badDoorbell t i false))
    ∧ (i < s1.trSize t → (i + s1.trSize t - s1.trDb t % s1.trSize t) % s1.trSize t ≤ (s1.trTail t + s1.trSize t - s1.trDb t % s1.trSize t) % s1.trSize t →
      ∃ u, exec (.trDoorbell t v) s = .next u ∧ u.trDb t = i ∧ u.trTail t = s.trTail t ∧ SameMemory s u ∧ SameSessions s u ∧ SameStacks s u)
    ∧ (s1.trSize t ≤ i → exec (.trDoorbell t v) s = .next (s1.badDoorbell t i true)))
  ∧ (∀ (s : State) (t : Fin 64), s.fnState t = fnReady → (s.ten t).reading = false → (s.ten t).entry = none → (s.ten t).taking = false →
    (s.ten t).refusing = false → s.sqHead t ≠ s.sqDb t →
    ((s.startRead t).ten t).reading = true
      ∧ (s.d3hot = [] → (s.startRead t).egress = s.egress ++ [.hostRead (t + 1) (BitVec.ofNat 64 (s.sqAddr t)) 64]))
  ∧ ∀ (s : State) (t : Fin 64) (host : Option (List Byte)) (e : List Byte), s.booted = true → (s.ten t).entry = some e → s.mayTake t e = true →
    let s1 := s.readEntry t e host
    (s.entryRefused t e host = true → ∃ u, exec (.submissionTake t host) s = .next u ∧ u = s1.refuseEntry t e ∧ (u.ten t).refusing = true
      ∧ (u.ten t).pend.length = (s.ten t).pend.length + 1 ∧ u.ses.journal = s.ses.journal)
    ∧ (s.entryRefused t e host = false → ∃ u, exec (.submissionTake t host) s = .next u ∧ (u.ten t).taking = true
      ∧ ∃ r : JRec, u.ses.journal = s.ses.journal ++ [r] ∧ r.what = .accept t (s.entryReq t e host) ∧ r.ses = leAt e 4 4 ∧ r.done = false)

/-- R310, R319, R325, R326, R336, R347: a request at the head of its session's order is carried out. OPEN makes the session, in PARKED, with what the
entry names; APPEND and GENERATE start; PARK suspends it and RESUME lets it go on; CLOSE ends it; CANCEL completes what it names. -/
def Obligations.RequestsComplete : Prop :=
  ∀ (s : State) (h : W32) (r : Req),
    let k := h.toNat
    let x := s.sesOf k
    s.booted = true → x.closing = false →
    (x.headReq = some r → r.typ = tOpen → x.st = .gone →
      let opt := leAt r.entry 0x11 1
      let y := { x with model := leAt r.entry 0x10 1, lead := bitOf opt 0, share := bitOf opt 1, notify := bitOf opt 2 }
      let z := { y with adapter := adapterField (leAt r.entry 0x12 2), ttl := [leAt r.entry 0x18 8, leAt r.entry 0x20 8, leAt r.entry 0x28 8] }
      exec (.openCmd h) s = .next (((s.setSes k z).enter k .parked).doneEffect k r))
    ∧ (x.headReq = some r → r.typ = tAppend → s.busy k = false → r.started = false → x.st = .active → x.suspended = false →
      exec (.append h) s = .next (((s.setSes k (x.putReq r { r with started := true })).linkPrefix k (r.left.length / 64 + 2)).finishAppend k))
    ∧ (x.headReq = some r → r.typ = tGenerate → s.busy k = false → r.started = false → x.st = .active → x.suspended = false →
      ∃ t, exec (.generate h) s = .next t ∧ t.sesOf k = { x.putReq r { r with started := true } with allLinked := false, ready := s.ses.nextOrder }
        ∧ t.ses.nextOrder = s.ses.nextOrder + 1 ∧ (∀ j, j ≠ k → t.sesOf j = s.sesOf j) ∧ SameMemory s t ∧ t.egress = s.egress)
    ∧ (x.parkReq = some r → s.busy k = false → r.typ = tPark → (x.st = .active ∨ x.st = .parked) →
      ∃ t, exec (.park h) s = .next t ∧ (t.sesOf k).suspended = true ∧ (t.sesOf k).st = .parked ∧ (t.sesOf k).hist = x.hist
        ∧ (t.sesOf k).reqs = x.reqs.erase r ∧ SameTiers s t ∧ SameStacks s t)
    ∧ (x.parkReq = some r → s.busy k = false → r.typ = tResume →
      exec (.resume h) s = .next (s.resume k r) ∧ ((s.resume k r).sesOf k).suspended = false
      ∧ ((x.st = .settled ∨ x.st = .sunk) → ((s.resume k r).sesOf k).st = .waking))
    ∧ (x.headReq = some r → r.typ = tClose → s.busy k = false →
      let s1 := (s.effect k r).plainRecord k 0xFFFFFF rLast stDone r.rtag
      exec (.close h) s = .next ((s1.setSes k ((s1.sesOf k).drop r)).endSession k none))
    ∧ (x.reqs.find? (fun r => r.typ == tCancel) = some r → s.busy k = false → exec (.cancel h) s = .next (s.cancel k r))

/-- R317, R352, R355, R356, R414: an import reads its buffer once and, once its pages can be reserved, writes them and takes the tokens as history; an
export writes its buffer; a bind takes the adapter; and a purge ends the session. -/
def Obligations.ExchangeCompletes : Prop :=
  ∀ (s : State) (h : W32) (r : Req),
    let k := h.toNat
    let x := s.sesOf k
    let m := (s.model x.model).md
    s.booted = true → x.closing = false → s.busy k = false →
    (x.headReq = some r → r.typ = tImport → x.st = .active → s.fnState (sesTenant k) ≠ fnQuiescing →
      let s0 := s.emit (.hostRead (sesTenant k + 1) (BitVec.ofNat 64 (leAt r.entry 0x10 8)) (mdTotal m r.toks.length))
      (exec (.kvImport h none) s = .next (s0.complete k r stMalformed))
      ∧ (∀ bs s1, s0.kvReserve k r.toks.length = .ok s1 → exec (.kvImport h (some bs)) s
        = (let s2 := s1.importPages k r.toks.length bs
           .next ((s2.setSes k { s2.sesOf k with hist := r.toks, allLinked := false, lossy := false }).complete k r stDone)))
      ∧ (∀ bs s1, s0.kvReserve k r.toks.length = .limit s1 → exec (.kvImport h (some bs)) s = .next (s1.complete k r stKvLimit)))
    ∧ (x.headReq = some r → r.typ = tExport → x.st = .active → x.lost.isEmpty = true → s.fnState (sesTenant k) ≠ fnQuiescing →
      mdTotal m x.hist.length ≤ leAt r.entry 0x18 8 → (s.lostPages k (fun p n => p.hit s.poisonKeys n)).isEmpty = true →
      exec (.kvExport h) s = .next ((s.exportPages k (leAt r.entry 0x10 8)).complete k r stDone))
    ∧ (x.reqs.find? (fun r => r.typ == tBind && r.flag) = some r → exec (.adapterBind h) s = .next (s.bind k r))
    ∧ (x.reqs.find? (fun r => r.typ == tBind && r.flag) = none → x.headReq = some r → r.typ = tBind →
      exec (.adapterBind h) s = .next (s.bind k r))
    ∧ ((s.ten (sesTenant k)).purges.any (fun p => p.1 == k) = false → x.reqs.find? (fun r => r.typ == tPurge) = some r →
      exec (.purge h) s = .next (s.purgeOne k))

/-- R325, R329 to R332: the last page of a settling, sinking or waking session reaches its new place and the session enters its state. One that
cannot sink stays SETTLED with SUMP_REFUSED; one that cannot wake completes the request that woke it KV_LIMIT. -/
def Obligations.SessionMovesComplete : Prop :=
  ∀ (s : State) (h : W32),
    let k := h.toNat
    let x := s.sesOf k
    s.booted = true → SMap.find s.sess (k + 2 ^ 32) = none →
    (∀ s1, x.st = .settling → s.settleOne k = some s1 → exec (.settleComplete h) s = .next (((s1.enter k .settled).stateRecord k 0xFFFF01).settleMove k))
    ∧ (∀ s1, x.st = .sinking → s.sinkOne k = some s1 → exec (.sinkComplete h) s = .next (((s1.enter k .sunk).stateRecord k 0xFFFF02).settleMove k))
    ∧ (x.st = .sinking → s.sinkOne k = none → exec (.sinkComplete h) s = .next (((s.raise (pgSes x.owner) 2).enter k .settled).settleMove k))
    ∧ (∀ s1, x.st = .waking → s.wakeOne k x.exact = some s1 →
      exec (.wakeComplete h) s = .next (((s1.enter k .parked).resumeDone k stDone).settleMove k))
    ∧ (x.st = .waking → s.wakeOne k x.exact = none → x.reqs = [] →
      ∃ t, exec (.wakeComplete h) s = .next t ∧ (t.sesOf k).st = (if x.sump.isEmpty then .settled else .sunk) ∧ SameMemory s t)
    ∧ ∀ st, (s.enter k st).sesOf k = { x with st := st, entered := s.stampOf x.owner } ∧ ∀ j, j ≠ k → (s.enter k st).sesOf j = s.sesOf j

/-- R351, R353, R354: an adapter installed gets a version of its own, which becomes current and holds a command pin on its object; a retired adapter has
no current version; and a version that nothing uses leaves. -/
def Obligations.AdaptersComplete : Prop :=
  (∀ s : State, s.pageLive (pgSes 0) = true →
    let a := s.fld (pgSes 0) F.ses_ADP_SEL_ADAPTER
    let o := s.fldB (pgSes 0) a F.ses_ADP_CFG_OBJ
    let m := s.fldB (pgSes 0) a F.ses_ADP_CFG_MODEL
    let x := s.adapter a
    (s.versionsPresent < 8192 → (s.obj 0 o).st = .ready → (s.model m).resident = true →
      ∃ t, exec .adapterInstall s = .next t ∧ (t.adapter a).cur = nextVersion x 65536 x.last ∧ (t.adapter a).retired = false
        ∧ (t.adapter a).vers = x.vers ++ [(nextVersion x 65536 x.last, o, m, s.fldB (pgSes 0) a F.ses_ADP_CFG_RANK_M1 + 1)]
        ∧ (t.obj 0 o).pins = (s.obj 0 o).pins + 1 ∧ t.fldB (pgSes 0) a F.ses_ADP_STATUS_RESULT = 0 ∧ SameMemory s t)
    ∧ (8192 ≤ s.versionsPresent → exec .adapterInstall s = .next ((s.setFldB (pgSes 0) a F.ses_ADP_STATUS_RESULT 1).raise (pgSes 0) 3))
    ∧ (∃ t, exec .adapterRetire s = .next t ∧ (t.adapter a).cur = 0 ∧ (t.adapter a).retired = true ∧ (t.adapter a).vers = x.vers ∧ SameMemory s t))
  ∧ ∀ (s : State) (a v : W16) (o m k : Nat), s.booted = true →
    let x := s.adapter a.toNat
    x.vers.find? (fun e => e.1 == v.toNat) = some (v.toNat, o, m, k) → x.cur ≠ v.toNat → s.versionUsed a.toNat v.toNat o = false →
    ∃ t, exec (.adapterVersionFree a v) s = .next t ∧ (t.adapter a.toNat).vers = x.vers.filter (fun e => e.1 != v.toNat)
      ∧ (t.obj 0 o).pins = (s.obj 0 o).pins - 1 ∧ SameMemory s t

/-- R125, R358, R360, R363, R325: PROMPT and CUSTOM programs start on their partitions, of which no row or frame is another's; the test window opens
once no round is in flight, and its data register steps through it; a completion is popped; and a session's record is shown. -/
def Obligations.KeeperServicesComplete : Prop :=
  (∀ (s s1 : State) (e : Fin 32) (n : Fin 64) (h : W32) (count : Fin 65) (r : Req), s.booted = true → (s.sesOf h.toNat).headReq = some r →
    s.promptMay e n h.toNat r = true → min count.val r.left.length ≠ 0 →
    s.kvReserve h.toNat ((s.sesOf h.toNat).hist.length + min count.val r.left.length) = .ok s1 →
    ∃ t, exec (.promptProgramStart e n h count) s = .next t ∧ (t.ctx e true).started = true ∧ (t.ctx e true).cls = 1 ∧ t.engState e = eRunning
      ∧ (⟨e.val, h.toNat, (s.sesOf h.toNat).hist.length, min count.val r.left.length⟩ : Chunk) ∈ (t.keeper (engQuad e)).chunks)
  ∧ (∀ (s : State) (q : Fin 4) (v : W32) (meets : Bool), s.pageLive (pgKpr q) = true →
    let prog := bitsOf v.toNat 5 0
    let e := bitsOf v.toNat 8 6
    bitOf v.toNat 9 = true → s.yrunTaken q prog e = true →
    ((meets || !(s.partFrames (8 * q.val + e) (s.partOf q prog))) = false → ∃ t, exec (.yrun q v meets) s = .next t
      ∧ (t.keeper q).yrun = some (prog, e) ∧ t.fld (pgKpr q) F.kpr_YRUN_GO = 1 ∧ t.fld (pgKpr q) F.kpr_YRUN_STATUS_STATE = 1 ∧ SameMemory s t)
    ∧ ((meets || !(s.partFrames (8 * q.val + e) (s.partOf q prog))) = true → ∃ t, exec (.yrun q v meets) s = .next t
      ∧ t.fld (pgKpr q) F.kpr_YRUN_STATUS_STATE = 3 ∧ t.fld (pgKpr q) F.kpr_YRUN_STATUS_CAUSE = 4 ∧ t.keepers = s.keepers ∧ SameMemory s t))
  ∧ (∀ (s : State) (q : Fin 4) (prog e : Nat), s.booted = true → (s.keeper q).yrun = some (prog, e) → e < 8 →
    s.fld (pgKpr q) F.kpr_YRUN_STATUS_STATE = 1 → s.yIdle (8 * q.val + e) = true → s.partFree (s.partOf q prog) = true →
    (s.ses.rounds.map (fun r => r.rows.length)).foldl (· + ·) 0 + (s.partOf q prog).rows ≤ 256 →
    ∃ t, exec (.customProgramStart q) s = .next t ∧ (t.ctx (8 * q.val + e) true).started = true ∧ (t.ctx (8 * q.val + e) true).cls = 2
      ∧ t.fld (pgKpr q) F.kpr_YRUN_STATUS_STATE = 2 ∧ t.ses = s.ses ∧ t.sess = s.sess)
  ∧ (∀ (s : State) (q : Fin 4) (v : W32), s.pageLive (pgKpr q) = true →
    (∃ t, exec (.testWin q v) s = .next t ∧ t.fld (pgKpr q) F.kpr_WIN_CTRL_TEST_WIN = v.toNat % 2
      ∧ t.fld (pgKpr q) F.kpr_WIN_CTRL_STACK = bitsOf v.toNat 6 2 ∧ (v.toNat % 2 = 0 → t.fld (pgKpr q) F.kpr_WIN_CTRL_ACTIVE = 0) ∧ SameMemory s t)
    ∧ (let st := s.fld (pgKpr q) F.kpr_WIN_CTRL_STACK
       let off := s.fld (pgKpr q) F.kpr_WIN_ADDR_OFFSET
       (s.winActive q = false → exec (.winData q (some v)) s = .next (s.setFld (pgKpr q) F.kpr_WIN_ADDR_OFFSET ((off + 4) % 2 ^ 24)))
       ∧ (∀ hst : st < 20, s.winActive q = true → exec (.winData q (some v)) s
        = .next ((s.windowWrite ⟨st, hst⟩ (off / 4 * 4) v).setFld (pgKpr q) F.kpr_WIN_ADDR_OFFSET ((off + 4) % 2 ^ 24)))
       ∧ exec (.winData q none) s = .next ((s.winWord q).2.emit (.regData 0 (leBytes 4 (s.winWord q).1.toNat))))
    ∧ (∃ t, exec (.tagCplPop q) s = .next t ∧ (t.keeper q).cpl = (s.keeper q).cpl.drop 1 ∧ (t.keeper q).mailbox = (s.keeper q).mailbox
      ∧ SameMemory s t ∧ t.regs = s.regs))
  ∧ (∀ (s : State) (q : Fin 4), s.booted = true → s.flag (pgKpr q) F.kpr_WIN_CTRL_TEST_WIN = true → s.ses.rounds = [] →
    exec (.testWindowActive q) s = .next (s.setFld (pgKpr q) F.kpr_WIN_CTRL_ACTIVE 1))
  ∧ ∀ (s : State) (q : Fin 4) (h : W32), s.pageLive (pgSes q) = true →
    ((s.sesOf h.toNat).owner = q.val → (s.sesOf h.toNat).st ≠ .gone → ∃ t, exec (.sessionQuery q h) s = .next t
      ∧ bitsOf (t.reg (pgSes q) 0 0x068).toNat 3 0 = (s.sesOf h.toNat).st.code ∧ t.reg (pgSes q) 0 0x06C = BitVec.ofNat 32 (s.sesOf h.toNat).hist.length
      ∧ SameMemory s t ∧ SameSessions s t)
    ∧ (((s.sesOf h.toNat).owner ≠ q.val ∨ (s.sesOf h.toNat).st = .gone) → ∃ t, exec (.sessionQuery q h) s = .next t
      ∧ (∀ o ∈ [0x068, 0x06C, 0x070, 0x074], t.reg (pgSes q) 0 o = 0#32) ∧ SameMemory s t ∧ SameSessions s t)

/-! ## The Quadrille schedulers -/

/-- R365 to R379: a frame joins the tail of a queue that has room; the scheduler sends the frame it picks, class 0 before all others when it is eligible;
a tick adds a shaped queue's rate up to its burst; queue and burst settings act at once; and a gate-list commit waits for its start until it is
withdrawn. -/
def Obligations.SchedulersComplete : Prop :=
  (∀ (s : State) (i : Fin 17) (q : Fin 67) (len : W32) (bytes : List Byte),
    let n := qdrInst i
    s.booted = true → s.flag (pgQdr n) F.hdr_ENABLE = true → s.qRoom n q = true →
    (i.val < 5 → ∃ t, exec (.frameEnqueue i q len bytes) s = .next t ∧ (t.queue n q).frames = (s.queue n q).frames ++ [⟨len.toNat, .raw bytes⟩]
      ∧ (t.queue n q).credit = (s.queue n q).credit ∧ (∀ k, k ≠ n * 128 + q.val → SMap.get t.link.queues {} k = SMap.get s.link.queues {} k)
      ∧ SameMemory s t ∧ t.link.out = s.link.out)
    ∧ ∀ (k : Nat) (o : OutFrame), 5 ≤ i.val → s.link.out.findIdx? (fun o => o.port == n - 16 && o.queue == q.val) = some k → s.link.out[k]? = some o →
      ∃ t, exec (.frameEnqueue i q len bytes) s = .next t ∧ (t.queue n q).frames = (s.queue n q).frames ++ [⟨o.frame.len, .glith o.frame⟩]
        ∧ t.link.out = s.link.out.eraseIdx k ∧ SameMemory s t)
  ∧ (∀ (s s1 : State) (i : Fin 17) (delay : W32),
    let n := qdrInst i
    s.booted = true →
    (s.pickFrame n (State.headFrame n) = (none, s1) → exec (.frameSend i delay) s = .next s1)
    ∧ (∀ q k f bs, s.pickFrame n (State.headFrame n) = (some (q, k, f), s1) → f.load = .raw bs →
      exec (.frameSend i delay) s = .next ((s1.dequeue n q k f delay.toNat).emit (.note (0x100 + n) bs)))
    ∧ (∀ q k f g, s.pickFrame n (State.headFrame n) = (some (q, k, f), s1) → f.load = .glith g →
      exec (.frameSend i delay) s = .next (((s1.dequeue n q k f delay.toNat).transmit (n - 16) g).maybeOff (n - 16)))
    ∧ (∀ k f, s.eligible n qClass0 = true → s.headFrame n qClass0 = some (k, f) → (s.pickFrame n (State.headFrame n)).1 = some (qClass0, k, f))
    ∧ ∀ q k f, (((s.dequeue n q k f delay.toNat).queue n q).frames = (s.queue n q).frames.eraseIdx k)
      ∧ (s.shaped n q = true → ((s.dequeue n q k f delay.toNat).queue n q).credit = (s.queue n q).credit - (f.len : Int) * 65536))
  ∧ (∀ (s : State) (i : Fin 17) (q : Fin 67), s.booted = true → s.shaped (qdrInst i) q = true →
    ∃ t, exec (.shaperTick i q) s = .next t ∧ (t.queue (qdrInst i) q).credit = min ((s.queue (qdrInst i) q).credit
        + (s.fldB (pgQdr (qdrInst i)) q F.qdr_Q_RATE_VALUE : Nat)) ((s.fldB (pgQdr (qdrInst i)) q F.qdr_Q_BURST_VALUE % 2 ^ 24 : Nat) * 65536)
      ∧ (t.queue (qdrInst i) q).frames = (s.queue (qdrInst i) q).frames ∧ SameMemory s t ∧ t.regs = s.regs)
  ∧ ∀ (s : State) (i : Fin 17) (v : W32), s.pageLive (pgQdr (qdrInst i)) = true →
    let n := qdrInst i
    let q := s.fld (pgQdr n) F.qdr_Q_SEL_QUEUE
    (q ≤ 66 → ∃ t, exec (.queueConfigWrite i v) s = .next t
      ∧ t.fldB (pgQdr n) q F.qdr_Q_CFG_QUANTUM = (if q < 64 then max 256 (bitsOf v.toNat 19 0) else s.fldB (pgQdr n) q F.qdr_Q_CFG_QUANTUM)
      ∧ t.shaped n q = (q != qClass0 && bitOf v.toNat 20) ∧ (q < 64 → t.qEnabled n q = bitOf v.toNat 21)
      ∧ (t.queue n q).frames = (s.queue n q).frames
      ∧ (t.shaped n q = true → s.shaped n q = false → (t.queue n q).credit = ((s.fldB (pgQdr n) q F.qdr_Q_BURST_VALUE % 2 ^ 24 * 65536 : Nat) : Int))
      ∧ SameMemory s t)
    ∧ (q ≤ 66 → q ≠ qClass0 → ∃ t, exec (.shaperBurstWrite i v) s = .next t ∧ t.fldB (pgQdr n) q F.qdr_Q_BURST_VALUE = v.toNat % 2 ^ 24
      ∧ (t.queue n q).credit = min (s.queue n q).credit ((v.toNat % 2 ^ 24 * 65536 : Nat) : Int) ∧ SameMemory s t)
    ∧ (s.timeValid = true → ∃ t st, exec (.gateListCommit i v) s = .next t ∧ (t.qdr n).pend = some (s.staged (pgQdr n) 0 0x078 + 2 ^ 32 * v.toNat, some st)
      ∧ st = gateStart (s.staged (pgQdr n) 0 0x078 + 2 ^ 32 * v.toNat) (s.gateRegs n).1 (s.timeAt (16 + n)).toNat
      ∧ (t.qdr n).oper = (s.qdr n).oper ∧ SameMemory s t)
    ∧ (s.timeValid = false → ∃ t, exec (.gateListCommit i v) s = .next t ∧ (t.qdr n).pend = some (s.staged (pgQdr n) 0 0x078 + 2 ^ 32 * v.toNat, none)
      ∧ (t.qdr n).oper = (s.qdr n).oper ∧ SameMemory s t)
    ∧ ∃ t, exec (.gateListCancel i) s = .next t ∧ (t.qdr n).pend = none ∧ (t.qdr n).oper = (s.qdr n).oper ∧ t.regs = s.regs ∧ SameMemory s t

/-! ## The host port and its functions -/

/-- R394, R397, R404, R409 to R416, R479: what a function's states do. A ring read that completes leaves its entry at hand, one that fails leaves the
function in FAULT; enabling, disabling, FLR, removal and shut-down take it through its states; the PF's FLR removes every function and
starts a warm reset.
The states a function rests in are the model's reading of R409 (log entry 101). -/
def Obligations.FunctionEventsComplete : Prop :=
  (∀ (s : State) (t : Fin 64), s.booted = true → (s.ten t).reading = true → s.fnState t = fnReady →
    (∀ d, ∃ u, exec (.hostReadCompletion t (some d)) s = .next u ∧ (u.ten t).entry = some (slice d 0 64) ∧ (u.ten t).reading = false
      ∧ u.fnState t = fnReady ∧ SameMemory s u ∧ u.regs = s.regs)
    ∧ ∃ u, exec (.completionTimeout t) s = .next u ∧ exec (.hostReadCompletion t none) s = .next u ∧ u.fnState t = fnFault ∧ (u.ten t).reading = false
      ∧ (u.ten t).entry = (s.ten t).entry ∧ SameMemory s u)
  ∧ (∀ (s : State) (t : Fin 64), s.booted = true → (s.ten t).present = true →
    exec (.functionEnable t) s = .next (s.enable t) ∧ exec (.functionDisable t) s = .next (s.disable t)
    ∧ (s.fnState t = fnReady ∨ s.fnState t = fnFault → s.disable t = s.quiesce t false)
    ∧ (s.fnState t = fnOff ∨ s.fnState t = fnDetached → s.enable t = s.enableNow t (s.fnState t) ∧ s.disable t = s.setFld (pgTnt t) F.hdr_ENABLE 0)
    ∧ (s.fnState t = fnQuiescing → (s.enable t).flag (pgTnt t) fEnableLatched = true ∧ (s.disable t).flag (pgTnt t) fEnableLatched = false
      ∧ (s.enable t).fnState t = fnQuiescing ∧ (s.disable t).fnState t = fnQuiescing))
  ∧ (∀ (s : State) (t : Fin 64), s.linkServes = true →
    ((s.ten t).present = true → exec (.flr t) s = .next (s.flr t))
    ∧ ((s.ten t).present = true → (s.ten t).d3 = false →
      exec (.d3hotEntry (Fin.ofNat 66 (t + 1))) s = .next ((s.setTen t { s.ten t with d3 := true }).disable t))
    ∧ (exec (.d3hotEntry 0) s = .next (if s.d3hot.contains 0 then s else { s with d3hot := s.d3hot ++ [0] }))
    ∧ (exec (.d3hotEntry 65) s = .next (if s.d3hot.contains 65 then s else { s with d3hot := s.d3hot ++ [65] }))
    ∧ (let s1 := s.setTen t { s.ten t with present := true }
       exec (.functionProvisioned t) s
        = .next (if s1.fnState t = fnNotProvisioned ∧ t.val < tenantCount s1.profile then s1.setFnState t (s1.restState t) else s1)))
  ∧ (∀ (s : State) (port : Fin 2) (num : Fin 65), s.linkServes = true →
    exec (.vfDisable port num) s = .next ((List.range 64).foldl (fun s t =>
      if (s.ten t).present && (s.tenPort t).1 == port.val && decide ((s.tenPort t).2 ≥ num.val) then s.removeFn t else s) s))
  ∧ (∀ (s : State) (flashOk : Bool), s.powered = true →
    let s1 := (List.range 64).foldl (fun s t => if (s.ten t).present then s.removeFn t else s) s
    exec (.pfFlr flashOk) s = .next ({ s1 with d3hot := [] }.warmReset 2 flashOk))
  ∧ (∀ (s : State) (t : Fin 64), s.booted = true → s.shutdownReady t = true → exec (.shutdownComplete t) s = .next (s.endShutdown t))
  ∧ ∀ (s : State) (t : Fin 64), s.pageLive pgPci = true → s.fld pgPci F.pci_FUNC_SEL_FUNC = t.val + 1 →
    (s.fnState t = fnDetached → exec .discard s = .next ((s.discardWork t).setFnState t fnOff))
    ∧ (s.fnState t = fnReady → exec .discard s = .next s)

/-- R389, R390, R417 to R421: a translation fills the cache, which holds at most 1,024, or fails and is counted; an invalidation removes what it covers
before it completes; a violation of the partner's is recorded in both PCI pages and answered; and a port trains to a width and rate within its mode. -/
def Obligations.PortEventsComplete : Prop :=
  (∀ (s : State) (c : Fin 2097152), s.linkServes = true → c.val < s.fld (pgTir 0) F.tir_SUMP_CHUNKS_COUNT → s.boot.atc.length ≤ 1024 →
    (∃ t, exec (.atsTranslation c true) s = .next t ∧ c.val ∈ t.boot.atc ∧ c.val ∉ t.boot.atcBad ∧ t.boot.atc.length ≤ 1024
      ∧ (∀ x ∈ t.boot.atc, x = c.val ∨ x ∈ s.boot.atc) ∧ SameMemory s t ∧ t.regs = s.regs)
    ∧ ∃ t, exec (.atsTranslation c false) s = .next t ∧ c.val ∉ t.boot.atc ∧ c.val ∈ t.boot.atcBad ∧ SameMemory s t)
  ∧ (∀ (s : State) (tag : Fin 32) (cs : List Nat), s.linkServes = true → s.boot.invals.contains tag.val = false →
    ∃ t, exec (.invalidateRequest tag cs) s = .next t ∧ (∀ c ∈ cs, c ∉ t.boot.atc) ∧ tag.val ∈ t.boot.invals ∧ t.egress = s.egress ∧ SameMemory s t)
  ∧ (∀ (s : State) (tag : Fin 32), s.boot.invals.contains tag.val = true →
    ∃ t, exec (.invalidateCompletion tag) s = .next t ∧ tag.val ∉ t.boot.invals ∧ t.boot.atc = s.boot.atc ∧ SameMemory s t)
  ∧ (∀ (s : State) (c : Fin 8) (fn : Fin 66) (port : Fin 2) (write : Bool) (addr : W64), s.linkServes = true → c.val ≠ 0 →
    let low := if c.val = 4 ∨ c.val = 5 ∨ c.val = 7 then 0 else addr.toNat % 2 ^ 32
    exec (.partnerViolation c fn port write addr) s = .next ((s.noteViolation c fn port low).answerViolation c fn write addr.toNat)
    ∧ ∀ p : Fin 2, (s.noteViolation c fn port low).fld ⟨.pci, p⟩ F.pci_VIOL_COUNT_COUNT = min 0xFFFFFFFF (s.fld ⟨.pci, p⟩ F.pci_VIOL_COUNT_COUNT + 1)
      ∧ bitsOf ((s.noteViolation c fn port low).reg ⟨.pci, p⟩ 0 0x054).toNat 7 0 = c.val
      ∧ (s.noteViolation c fn port low).reg ⟨.pci, p⟩ 0 0x058 = BitVec.ofNat 32 low)
  ∧ ∀ (s : State) (port : Fin 2) (width : Fin 17) (rate : Fin 7) (flit : Bool), s.mayTrain port width rate flit = true →
    ∃ t, exec (.pcieLinkTrain port width rate flit) s = .next t ∧ t.fldB pgPci port F.pci_LINK_STATUS_UP = 1
      ∧ t.reg pgPci port 0x048 = BitVec.ofNat 32 (1 + 2 * width.val + 64 * rate.val + 512 * b2n flit) ∧ SameMemory s t

/-- R508 to R510: every SPDM request is answered, counted and signalled on vector 3: a version of 1.4, the capabilities, the algorithms, slot 0's
digest, a portion of its chain, a challenge and the measurements; another slot, an offset past the chain and an absent index are invalid requests,
and any other request is unsupported. Where the port does not serve, nothing changes.
Responses are structured, and requests may come in any order, by the model's choice (log entry 116). -/
def Obligations.SpdmAnswers : Prop :=
  ∀ (s : State),
    let say := fun (m : SpdmResp) (s : State) => ((s.emit (.spdm m)).event pgSec).irq 0 3
    (s.boot.perst = false → s.flag pgSec F.sec_BOOT_STATUS_LOCKED = true →
      exec .getVersion s = .next (say (.version 1 4) s)
      ∧ exec .getCapabilities s = .next (say (.capabilities true true true true 262144 262144) s)
      ∧ exec .negotiateAlgorithms s = .next (say (.algorithms true true true) { s with boot := { s.boot with negotiated := true } })
      ∧ exec .getDigests s = .next (say (.digests [(0, sha3_512 certChain)]) s)
      ∧ (∀ off len : W32,
        let p := (certChain.drop off.toNat).take len.toNat
        exec (.getCertificate 0#8 off len) s = .next (say (if off.toNat < certChain.length
          then .certificate 0 p (certChain.length - off.toNat - p.length) else .error false) s))
      ∧ (∀ (slot : Byte) (off len : W32), slot ≠ 0#8 → exec (.getCertificate slot off len) s = .next (say (.error false) s))
      ∧ (∀ nonce : List Byte, ∃ sig, exec (.challenge 0#8 0#8 nonce) s
        = .next (say (.challengeAuth 0 (sha3_512 certChain) [] sig) { s with free := s.free + 65 }))
      ∧ (∀ (slot sum : Byte) (nonce : List Byte), (slot ≠ 0#8 ∨ sum ≠ 0#8 ∧ sum ≠ 0xFF#8) → exec (.challenge slot sum nonce) s = .next (say (.error false) s))
      ∧ (∀ nonce : List Byte, exec (.getMeasurements 0#8 false nonce) s = .next (say (.measurements s.measBlocks.length [] none) s)
        ∧ (s.measBlocks ≠ [] → exec (.getMeasurements 0xFF#8 false nonce) s = .next (say (.measurements s.measBlocks.length s.measBlocks none) s)))
      ∧ ∀ code : Byte, exec (.spdmUnsupported code) s = .next (say (.error true) s))
    ∧ (s.boot.perst = true ∨ s.flag pgSec F.sec_BOOT_STATUS_LOCKED = false →
      ∀ c ∈ [Instr.getVersion, .getCapabilities, .negotiateAlgorithms, .getDigests, .spdmUnsupported 0#8], exec c s = .next s)

/-! ## The Glith link -/

/-- R427 to R432, R436, R439 to R441, R449: a port's states and its reliable delivery. A port is enabled into INIT, trains at a width its configuration
allows, and is READY once the partner's HELLO agrees; it retrains on request or when a lane loses lock, and goes OFF when disabled or reset; a
LINKCTL acknowledges, returns credits and asks for replays, and a codeword that cannot be corrected asks for one.
Corner cases of the port's states are the model's reading (log entry 107). -/
def Obligations.LinkPortsComplete : Prop :=
  (∀ (s : State) (p : Fin 12), s.booted = true →
    (s.portState p = pOff → ∃ t, exec (.portEnable p) s = .next t ∧ t.portState p = pInit ∧ t.port p = {} ∧ t.egress = s.egress ++ [.link p 1 []]
      ∧ SameMemory s t)
    ∧ (s.portState p = pInit → ∃ t, exec (.portDisable p) s = .next t ∧ t.portState p = pOff ∧ SameMemory s t ∧ t.egress = s.egress)
    ∧ (s.portState p = pReady → exec (.portDisable p) s
      = .next (((s.setFld (pgGll p) F.hdr_ENABLE 0).setPort p { s.port p with disabling := true }).maybeOff p)
      ∧ exec (.portRetrain p) s = .next ((s.setFld (pgGll p) F.gll_PORT_CMD_RETRAIN 1).startRetrain p)
      ∧ (s.startRetrain p).portState p = pRetraining ∧ ((s.startRetrain p).port p).unacked = (s.port p).unacked
      ∧ (∀ lane : Fin 4, bitOf (s.fld (pgGll p) F.gll_PORT_STATUS_LANES_UP) lane = true →
        ∃ t, exec (.laneLockLoss p lane) s = .next t ∧ t.portState p = pRetraining ∧ SameMemory s t)
      ∧ exec (.uncorrectableCodeword p) s = .next ((s.bump (pgGll p) F.gll_FEC_UNCORR_COUNT 1).sendNak p)
      ∧ ((s.port p).ackDue = true → exec (.ackTimer p) s = .next (s.sendLinkctl p false)))
    ∧ (s.portState p ≠ pOffline → ∃ t, exec (.linkPortReset p) s = .next t ∧ t.portState p = pOff ∧ t.port p = {}
      ∧ (∀ v, v < 8 → t.fldB (pgGll p) v F.gll_VL_CREDIT_TX_CREDIT = 0) ∧ SameMemory s t))
  ∧ (∀ (s : State) (p : Fin 12) (lanes : Fin 16) (snr : List Byte), s.booted = true → (s.portState p = pInit ∨ s.portState p = pRetraining) →
    widthOf lanes ≠ 0 → minWidth (s.fld (pgGll p) F.gll_PORT_CFG_MIN_WIDTH) ≤ widthOf lanes →
    ∃ t, exec (.portTrain p lanes snr) s = .next t ∧ (t.port p).trained = true ∧ t.fld (pgGll p) F.gll_PORT_STATUS_WIDTH = widthOf lanes
      ∧ t.portState p = s.portState p ∧ SameMemory s t)
  ∧ (∀ (s : State) (p : Fin 12), s.booted = true →
    (s.portState p = pInit → ∃ t, exec (.trainingTimeout p) s = .next t ∧ t.portState p = pInit ∧ (t.port p).fails = (s.port p).fails + 1 ∧ SameMemory s t)
    ∧ (s.portState p = pRetraining → 3 ≤ (s.port p).fails → ∃ t, exec (.trainingTimeout p) s = .next t ∧ t.portState p = pOffline))
  ∧ (∀ (s : State) (p : Fin 12) (pay : List Byte), s.booted = true →
    (s.portState p = pReady → exec (.hello p pay) s = .next ((s.linkViolation p 6 0).startRetrain p))
    ∧ (s.portState p = pInit → (s.port p).trained = true → leAt pay 0 2 % 4096 = s.devId →
      exec (.hello p pay) s = .next ((s.setPortState p pMismatch).raise (pgGll p) 3))
    ∧ (s.portState p = pInit → (s.port p).trained = true → leAt pay 0 2 % 4096 ≠ s.devId → s.fld (pgGll p) F.gll_PORT_CFG_EXPECT_EN = 0 →
      ∃ t, exec (.hello p pay) s = .next t ∧ t.portState p = pReady ∧ t.fld (pgGll p) F.gll_PORT_STATUS_NBR_DEV = leAt pay 0 2 % 4096
        ∧ t.txNext p = leAt pay 4 2 % 4096 ∧ t.rxExpect p = 0
        ∧ (∀ v, v < 8 → t.fldB (pgGll p) v F.gll_VL_CREDIT_TX_CREDIT = leAt pay (8 + 2 * v) 2 % 4096) ∧ SameMemory s t))
  ∧ (∀ (s : State) (p : Fin 12) (frame : List Byte), s.booted = true → s.portState p = pReady → leAt frame 0 1 = 0x11 →
    (frmCrcOk frame = false → exec (.linkctl p frame) s = .next (s.sendNak p))
    ∧ (frmCrcOk frame = true → exec (.linkctl p frame) s = .next ((if bitOf (frmOf frame).arg 15
      then (s.takeTrailer p frame).takeNak p ((frmOf frame).arg % 4096) else s.takeTrailer p frame).maybeOff p)))
  ∧ ∀ (s : State) (p : Fin 12) (f : Machine.Frm), s.booted = true → s.portState p = pReady → (s.port p).unacked.head? = some f →
    let s1 := s.replayFrom p f.seq
    let s2 := s1.setPort p { s1.port p with replays := (s.port p).replays + 1 }
    exec (.replayTimeout p) s
      = .next (if (s.port p).replays + 1 ≥ max 1 (s.fld (pgGll p) F.gll_REPLAY_CFG_RETRY_LIMIT) then s2.startRetrain p else s2)

/-- R434, R440, R443, R446, R447, R478: a frame whose trailer and sequence are right is taken once. A request for this device is carried out and answered,
a reply completes its request, a message reaches the keeper's mailbox, and a frame for another device waits at its port and goes on with one hop less or
is refused; a request without a reply times out.
Corner cases of requests and replies are the model's reading (log entries 105 and 106). -/
def Obligations.LinkFramesComplete : Prop :=
  (∀ (s s1 : State) (p : Fin 12) (frame : List Byte) (f : Machine.Frm), s.booted = true → s.portState p = pReady → s.takeData p frame = (some f, s1) →
    frmType f.typ = true → frmPlen frame ≤ 16 →
    (f.dst = s.devId →
      (∀ c ∈ [(Instr.write p frame, 1), (.read p frame, 2), (.reduce p frame, 3), (.atomic p frame, 4)], leAt frame 0 1 = c.2 →
        exec c.1 s = .next (((s1.giveBack p f).answer frame f).maybeOff p))
      ∧ (∀ c ∈ [(Instr.rdata p frame, 5), (.ackr p frame, 6)], leAt frame 0 1 = c.2 →
        exec c.1 s = .next (((s1.giveBack p f).replyFrame p f).maybeOff p))
      ∧ (leAt frame 0 1 = 7 → reqMalformed frame f = false → leAt f.payload 0 1 ≠ 1 →
        exec (.msg p frame) s = .next (((s1.giveBack p f).post (s1.giveBack p f).sealer (slice f.payload 0 16)).maybeOff p))
      ∧ (leAt frame 0 1 = 7 → reqMalformed frame f = true → exec (.msg p frame) s
        = .next (((s1.giveBack p f).bump (pgGll 0) F.gll_UNREACH_VALUE 1).maybeOff p)))
    ∧ (f.dst ≠ s.devId →
      ∀ c ∈ [(Instr.write p frame, 1), (.read p frame, 2), (.reduce p frame, 3), (.atomic p frame, 4), (.rdata p frame, 5), (.ackr p frame, 6), (.msg p frame, 7)],
        leAt frame 0 1 = c.2 → exec c.1 s = .next ((s1.setPort p { s1.port p with rxq := (s1.port p).rxq ++ [f] }).maybeOff p)))
  ∧ (∀ (s : State) (p : Fin 12) (frame : List Byte), frmCrcOk frame = false → s.takeData p frame = (none, s.sendNak p))
  ∧ (∀ (s : State) (p : Fin 12) (f : Machine.Frm) (fs : List Machine.Frm), s.booted = true → (s.port p).rxq = f :: fs →
    let s1 := s.setPort p { s.port p with rxq := fs }
    (f.hops ≤ 1 → exec (.frameForward p) s = .next (s1.refuseFrame p f))
    ∧ (1 < f.hops → s1.route f.src f.dst (f.vl % 2) (some (p.val % 6 / 2)) = none → exec (.frameForward p) s = .next (s1.refuseFrame p f))
    ∧ ∀ o d, 1 < f.hops → s1.route f.src f.dst (f.vl % 2) (some (p.val % 6 / 2)) = some (o, d) →
      let g := { f with hops := f.hops - 1, vl := f.vl / 2 * 2 + d }
      exec (.frameForward p) s = .next (if s1.qRoom (16 + o) (portQueue g)
        then (s1.giveBack p f).enqueue (16 + o) (portQueue g) ⟨g.len, .glith g⟩ else s))
  ∧ ∀ (s : State) (tid : W16) (f : Flying) (r : PeerReq), s.booted = true → s.outstanding tid.toNat 0 = some (f, r) →
    exec (.requestTimeout tid) s = .next
      ((({ s with pmp := { s.pmp with late := s.pmp.late ++ [tid.toNat] } }.raise (pgGll 0) 9).takeReply f r 6 []).remoteFailures)

/-! ## Resilience -/

/-- R452, R459 to R469: a journal write that completes does what its record says: an ACCEPT makes the request outstanding and passes the ring head,
records become pending for the token ring in order, and a HISTORY record frees what it replaces. A session's records are compacted, mirrored anew, and
its lost pages rebuilt. -/
def Obligations.JournalCompletes : Prop :=
  (∀ (s : State) (h : W32) (r : JRec), s.booted = true →
    let k := h.toNat
    s.ses.journal.find? (fun r => r.ses == k && !r.done) = some r →
    let s1 := s.setJournal (s.ses.journal.map (fun q => if q.ses = k ∧ q.jseq = r.jseq then { q with done := true } else q))
    (∀ t req, r.what = .accept t req → exec (.journalWriteComplete h) s = .next ((((s1.accept t k req).passHead t).tryGone k).journalCheck))
    ∧ (∀ ps, r.what = .records ps → exec (.journalWriteComplete h) s
        = .next (((s1.setTen (sesTenant k) { s1.ten (sesTenant k) with pend := (s1.ten (sesTenant k)).pend ++ ps }).tryGone k).journalCheck))
    ∧ (r.what = .effect → exec (.journalWriteComplete h) s = .next ((s1.tryGone k).journalCheck))
    ∧ (r.what = .history → exec (.journalWriteComplete h) s = .next
        (((s1.setJournal (s1.ses.journal.filter (fun q => q.ses != k || decide (q.jseq ≥ r.jseq) || !q.done))).tryGone k).journalCheck)))
  ∧ (∀ (s : State) (h : W32), s.booted = true → (s.sesOf h.toNat).inUse = true → s.journalling h.toNat = false →
    s.ses.journal.any (fun r => r.ses == h.toNat) = true →
    ∃ (t : State) (r : JRec), exec (.journalCompact h) s = .next t ∧ t.ses.journal = s.ses.journal ++ [r] ∧ r.ses = h.toNat ∧ r.what = .history
      ∧ r.done = false ∧ SameMemory s t)
  ∧ (∀ (s : State) (h : W32), s.booted = true →
    let qs := s.journalQuads (s.sesOf h.toNat).owner
    let short := fun (r : JRec) => r.ses == h.toNat && !r.copies.isEmpty && r.copies.length < qs.length
    s.ses.journal.any short = true → ∃ t, exec (.journalRemirror h) s = .next t
      ∧ t.ses.journal = s.ses.journal.map (fun r => if short r then { r with copies := qs } else r) ∧ SameMemory s t)
  ∧ ∀ (s s1 : State) (h : W32), s.booted = true → s.mayRebuild h.toNat = true → s.replaceAll h.toNat = some s1 →
    ∃ t, exec (.rebuild h) s = .next t ∧ (t.sesOf h.toNat).rebuilding = true ∧ (t.sesOf h.toNat).rebuilt = 0 ∧ SameMemory s1 t

/-- R110, R471 to R486, R490: failures. A part that fails is retired once; a heartbeat changes nothing and its absence retires the compute die; a stalled
round is abandoned; poisoned tiles are refetched from their golden bytes, a second poisoned read failing the refetch; UNLOAD completes a quarantined
model's requests.
That a heartbeat changes nothing, and that every round in flight is abandoned, are the model's readings (log entries 110 and 99). -/
def Obligations.FailuresComplete : Prop :=
  (∀ (s : State), s.booted = true →
    (∀ (page : Fin 10) (pump : Fin 8), pump.val < pumpCount page → exec (.pumpHangTimeout page pump) s = .next (s.retirePump page pump))
    ∧ (∀ q : Fin 4, exec (.heartbeat q) s = .next s ∧ exec (.heartbeatTimeout q) s = .next (s.retireDie q))
    ∧ (∀ st : Fin 20, exec (.stackRetire st) s = .next (s.retireStack st))
    ∧ (∀ (page : Fin 10) (pump : Fin 8), s.pmp.retired.contains (page.val * 8 + pump.val) = true → s.retirePump page pump = s)
    ∧ (∀ q : Fin 4, s.dieUp q = false → s.retireDie q = s) ∧ (∀ st : Fin 20, s.stackRetired st = true → s.retireStack st = s))
  ∧ (∀ (s : State) (num : W64) (r : Round), s.booted = true → s.roundOf num.toNat = some r →
    let stuck := r.engines.filter (fun e => (s.ctx e false).started)
    stuck.isEmpty = false → stuck.any (fun e => (s.ctx e false).poisonWaited) = false → exec (.roundStall num) s = .next (s.stall r stuck))
  ∧ (∀ (s : State) (num cause : Nat), ∀ x ∈ (s.abandonRound num cause).ses.rounds, x.num ≠ num ∧ x ∈ s.ses.rounds)
  ∧ (∀ (s : State) (fn : Fin 65) (obj tile : W16), s.booted = true →
    let k := tileIx fn obj.toNat tile.toNat
    (s.mayRefetch fn obj.toNat tile.toNat = true → s.noGolden (s.obj fn obj.toNat) = false →
      ∃ t, exec (.refetch fn obj tile) s = .next t ∧ (t.obj fn obj.toNat).migLock = true ∧ SMap.get t.mem.refetch 0 k = 1 ∧ SameMemory s t)
    ∧ (s.mayRefetch fn obj.toNat tile.toNat = true → s.noGolden (s.obj fn obj.toNat) = true →
      exec (.refetch fn obj tile) s = .next ((s.lockTile k true).refetchFail k))
    ∧ (∀ g, s.mem.restoring.contains k = true → exec (.refetchGoldenDone fn obj tile g) s = .next (s.restoreTile k g))
    ∧ (s.mem.restoring.contains k = false → SMap.get s.mem.refetch 0 k ≠ 0 → exec (.refetchGoldenDone fn obj tile none) s = .next (s.refetchFail k))
    ∧ ∀ data, s.mem.restoring.contains k = false → SMap.get s.mem.refetch 0 k ≠ 0 → (s.obj fn obj.toNat).comp = 0 →
      let s1 := s.writeTile fn obj.toNat tile.toNat (piecesOf 0 (s.goldenTile k data))
      (s1.tilePoisoned k = false → exec (.refetchGoldenDone fn obj tile (some data)) s = .next (s1.endRefetch fn obj.toNat k))
      ∧ (s1.tilePoisoned k = true → 2 ≤ SMap.get s.mem.refetch 0 k → exec (.refetchGoldenDone fn obj tile (some data)) s = .next (s1.refetchFail k)))
  ∧ ∀ s : State, s.pageLive pgRas = true →
    let m := s.fld pgRas F.ras_MODEL_SEL_MODEL
    ((s.model m).quarantined = false → exec .unload s = .next s)
    ∧ ((s.model m).quarantined = true → exec .unload s = .next
      (((s.sess.filter (fun (e : Nat × Session) => decide (e.1 < 2 ^ 32) && e.2.model == m && e.2.inUse && !e.2.closing)).map (fun e => e.1)).foldl (fun s h =>
        let s1 := (s.sesOf h).reqs.foldl (fun s r => s.complete h r stQuarantined) s
        s1.setSes h { s1.sesOf h with unloaded := true }) s))

/-- R479, R490: warm resets run by command and by pin, and a quadrant reset by command, which is ignored while one runs or when the die is retired (the
model's choice, log entry 109); a corruption and a poisoning change the one place they name, whose bit or value is free (log entry 112), and an injected part
failure retires the part. -/
def Obligations.ResetsAndInjectionsComplete : Prop :=
  (∀ (s : State) (ok : Bool), s.powered = true →
    (s.pageLive pgRas = true → exec (.warm ok) s = .next (s.warmReset 1 ok)) ∧ exec (.warmRst ok) s = .next (s.warmReset 0 ok))
  ∧ (∀ (s : State) (q : Fin 4), s.pageLive pgRas = true →
    let s1 := s.setFld pgRas F.ras_RESET_CMD_QUADRANT q.val
    exec (.quad q) s = .next (if s.flag pgRas F.ras_RESET_CMD_QUAD = false ∧ s.dieUp q = true then s1.quadReset q 1 else s1))
  ∧ (∀ (s s0 s1 : State) (target : Bool) (k : Nat), s.pageLive pgRas = true → s.fld pgRas F.ras_INJ_CTRL_ENABLE ≠ 0 →
    s0 = (s.setFld pgRas F.ras_INJ_CMD_KIND 4).setFld pgRas F.ras_INJ_CMD_TARGET (b2n target) →
    s0.injAt target (s0.pair64 pgRas F.ras_INJ_ADDR_LO_ADDR F.ras_INJ_ADDR_HI_ADDR) = (some (.column k), s1) →
    ∃ t, exec (.injectPoison target) s = .next t ∧ t.col k = poisonCol (s1.col k) ∧ (∀ k', k' ≠ k → t.col k' = s1.col k')
      ∧ t.fld pgRas F.ras_INJ_STATUS_RESULT = 0)
  ∧ (∀ (s s0 s1 : State) (n : Fin 3) (target : Bool) (w : Nat), s.pageLive pgRas = true → s.fld pgRas F.ras_INJ_CTRL_ENABLE ≠ 0 →
    s0 = (s.setFld pgRas F.ras_INJ_CMD_KIND (n.val + 1)).setFld pgRas F.ras_INJ_CMD_TARGET (b2n target) →
    s0.injAt target (s0.pair64 pgRas F.ras_INJ_ADDR_LO_ADDR F.ras_INJ_ADDR_HI_ADDR) = (some (.word w), s1) →
    ∃ t, exec (.injectCorrupt n target) s = .next t ∧ SMap.get t.mem.wellBad 0 w = n.val + 1 ∧ SameMemory s1 t ∧ t.fld pgRas F.ras_INJ_STATUS_RESULT = 0)
  ∧ ∀ (s : State) (e : Nat), s.pageLive pgRas = true → s.fld pgRas F.ras_INJ_CTRL_ENABLE ≠ 0 → e < 32 → s.engState e ≠ eOffline →
    s.pair64 pgRas F.ras_INJ_ADDR_LO_ADDR F.ras_INJ_ADDR_HI_ADDR = 65536 + e →
    let s0 := (s.setFld pgRas F.ras_INJ_CMD_KIND 5).setFld pgRas F.ras_INJ_CMD_TARGET 0
    exec .injectPartFailure s = .next ((s0.retireEngine e).setFld pgRas F.ras_INJ_STATUS_RESULT 0)

/-! ## Boot, trust and the package -/

/-- R493 to R505: with power good, PERST# high boots through the boot lock point to the image of the slot; a LOAD reads an image, which runs or is written
only when it verifies, and otherwise reports its cause; COMMIT raises the fused counter and never lowers it; a profile is selected only at quiesce. -/
def Obligations.BootCompletes : Prop :=
  (∀ (s : State) (prof : Fin 4) (ok : Bool), s.boot.perst = true → s.boot.vin = true → s.boot.vaux = true → s.boot.tripped = false →
    ∃ u t, exec (.perst prof ok) s = .next t ∧ t = u.bootSlot ok ∧ u.boot.perst = false ∧ u.profile = Profile.ofNum prof.val ∧ u.boot.slot = s.boot.slot
      ∧ u.flag pgSec F.sec_BOOT_STATUS_LOCKED = true ∧ u.fld pgPci F.hdr_STATE = 2 ∧ u.booted = s.booted ∧ SameMemory s u)
  ∧ (∀ (s : State) (reached : Fin 65), s.pageLive pgSec = true →
    (s.booted = false → exec (.commit reached) s = .next (s.setFld pgSec F.sec_SVN_CMD_RESULT 2))
    ∧ (s.booted = true → s.boot.svn ≤ s.boot.fuse → exec (.commit reached) s = .next (s.setFld pgSec F.sec_SVN_CMD_RESULT 1))
    ∧ (s.booted = true → s.boot.fuse < s.boot.svn → ∃ t, exec (.commit reached) s = .next t ∧ s.boot.fuse ≤ t.boot.fuse ∧ t.boot.fuse ≤ s.boot.svn
      ∧ (s.boot.svn ≤ reached.val → t.boot.fuse = s.boot.svn ∧ t.fld pgSec F.sec_SVN_CMD_RESULT = 0)
      ∧ (t.boot.fuse ≠ s.boot.svn → t.fld pgSec F.sec_SVN_CMD_RESULT = 3) ∧ SameMemory s t))
  ∧ (∀ (s : State) (p : Fin 4) (ok : Bool), s.pageLive pgSec = true → s.flag pgSec F.sec_PROFILE_SELECT_GO = false →
    let s1 := s.setFld pgSec F.sec_PROFILE_SELECT_PROFILE p.val
    s1.powered = true →
    (s1.quiesced = false → exec (.profileSelect p ok) s = .next (s1.setFld pgSec F.sec_PROFILE_SELECT_RESULT 1))
    ∧ (s1.quiesced = true → let s2 := (s1.setFld pgSec F.sec_PROFILE_SELECT_RESULT 0).setFld pgSec F.sec_PROFILE_SELECT_GO 1
      exec (.profileSelect p ok) s = .next ({ s2 with boot := { s2.boot with newProfile := some p.val } }.warmReset 1 ok)))
  ∧ (∀ (s : State) (flash : Bool), s.pageLive pgSec = true → s.boot.loading = false → s.boot.writing = none →
    (s.boot.recovery = true ∨ s.booted = true ∧ flash = true) → s.fld pgSec F.sec_RCV_LEN_BYTES ≤ slotSize →
    ∃ t, exec (.load flash) s = .next t ∧ t.boot.loading = true ∧ t.fld pgSec F.sec_RCV_CMD_LOAD = 1 ∧ t.fld pgSec F.sec_RCV_CMD_FLASH = b2n flash
      ∧ (s.d3hot = [] → ∃ a, t.egress = s.egress ++ [.hostRead 0 a (s.fld pgSec F.sec_RCV_LEN_BYTES)] ∧ a.toNat % 4096 = 0) ∧ SameMemory s t)
  ∧ (∀ s : State, s.boot.loading = true →
    exec (.loadComplete none) s = .next (s.endLoad 1 0)
    ∧ ∀ data : List Byte,
      let img := data.take (s.fld pgSec F.sec_RCV_LEN_BYTES)
      let c := imageCause img s.boot.fuse
      ∃ t, exec (.loadComplete (some data)) s = .next t
        ∧ if c ≠ 0 then t = (s.raise pgSec (if c = 4 then 1 else 0)).endLoad 2 c
          else if s.flag pgSec F.sec_RCV_CMD_FLASH = true then t.boot.loading = false ∧ t.boot.writing = some (img, s.boot.recovery)
            ∧ t.boot.slot = s.boot.slot ∧ t.regs = s.regs
          else t = if s.boot.recovery = true then (s.endLoad 0 0).runImage img true else s.endLoad 5 0)
  ∧ ∀ (s : State) (ok readOk run : Bool) (img : List Byte), s.boot.writing = some (img, run) →
    let s1 := { s with boot := { s.boot with writing := none, slot := if ok then img else [] } }
    let s2 := if ok then s1.endLoad 0 0 else (s1.raise pgSec 4).endLoad 4 0
    (s.boot.warmWaits = true → exec (.flashWriteComplete ok readOk) s = .next ({ s2 with boot := { s2.boot with warmWaits := false } }.bootSlot readOk))
    ∧ (s.boot.warmWaits = false → exec (.flashWriteComplete ok readOk) s = .next (if ok && run then s2.runImage img true else s2))

/-- R512 to R514: the JTAG port. Before it is unlocked it offers BYPASS, IDCODE and the unlock; a right response unlocks it, a wrong one counts, and after
eight, or with DEBUG_DISABLE blown, it stays locked; unlocked, it offers the boundary scan instructions and debug access, which shows and changes device state
outside the security block.
The places a debug access names are the model's choice (log entry 23), and pins driven leave as notes (log entry 37). -/
def Obligations.JtagCompletes : Prop :=
  (∀ s : State, s.jtagUp = true →
    (exec .bypass s = .next { s with boot := { s.boot with ir := .bypass } })
    ∧ (∃ t v, exec .idcode s = .next t ∧ t = { s with boot := { s.boot with ir := .idcode }, egress := t.egress } ∧ t.egress = s.egress ++ [.jtag (leBytes 4 v)]
      ∧ v / 2 ^ 12 % 2 ^ 16 = 0x5120 ∧ v / 2 ^ 28 = 1)
    ∧ (s.jtagLocked = true → ∃ t n, exec .unlockChal s = .next t ∧ t.boot.nonce = some n ∧ n.length = 32 ∧ t.egress = s.egress ++ [.jtag (n ++ partSerial)]
      ∧ t.regs = s.regs ∧ SameMemory s t)
    ∧ (∀ key sig : List Byte, s.jtagLocked = true → s.fld pgSec F.sec_DEBUG_STATUS_FAILS < 8 → s.boot.debugDis = false →
      let ok := s.boot.nonce.any (fun n => (shake256 32 key == debugKeyHash) && Config.slhVerify key (n ++ partSerial) sig)
      ∃ t, exec (.unlockResp key sig) s = .next t ∧ SameMemory s t ∧ t.jtagUnlocked = ok
        ∧ t.fld pgSec F.sec_DEBUG_STATUS_FAILS = s.fld pgSec F.sec_DEBUG_STATUS_FAILS + (if ok then 0 else 1))
    ∧ (∀ key sig : List Byte, s.jtagLocked = true → (8 ≤ s.fld pgSec F.sec_DEBUG_STATUS_FAILS ∨ s.boot.debugDis = true) →
      ∃ t, exec (.unlockResp key sig) s = .next t ∧ t.fld pgSec F.sec_DEBUG_STATUS_LOCKED_OUT = 1 ∧ t.jtagUnlocked = s.jtagUnlocked)
    ∧ (s.jtagLocked = false → ∀ data : List Byte,
      (∃ t, exec (.samplePreload data) s = .next t ∧ t.boot.bsr = data ∧ t.boot.ir = .sample ∧ t.regs = s.regs ∧ SameMemory s t)
      ∧ (exec .extest s = .next { s with boot := { s.boot with ir := .extest }, egress := s.egress ++ [.note 2 s.boot.bsr] })
      ∧ (exec .clamp s = .next { s with boot := { s.boot with ir := .clamp }, egress := s.egress ++ [.note 3 s.boot.bsr] })
      ∧ (exec .highz s = .next { s with boot := { s.boot with ir := .highz }, egress := s.egress ++ [.note 4 []] }))
    ∧ (s.jtagLocked = true → ∀ c ∈ [Instr.extest, .clamp, .highz, .samplePreload []], exec c s = .next { s with boot := { s.boot with ir := .bypass } }))
  ∧ (∀ (s : State) (op : DebugOp), s.jtagUp = false ∨ s.jtagUnlocked = false → exec (.debugAccess op) s = .next s)
  ∧ ∀ s : State, s.jtagUp = true → s.jtagUnlocked = true →
    let s0 := { s with boot := { s.boot with ir := .debug } }
    (∀ (g : Gran) (c : Fin 8) (data : List Byte), granExists g = true → s.colsWf = true →
      (exec (.debugAccess (.readCol g c)) s = .next ((s0.resolve g).2.emit (.jtag (((s0.resolve g).2.col ((s0.resolve g).1.key c)).take 32))))
      ∧ ∃ t, exec (.debugAccess (.writeCol g c data)) s = .next t ∧ t.col ((s0.resolve g).1.key c) = encodeCol (slice data 0 32)
        ∧ ∀ k, k ≠ (s0.resolve g).1.key c → t.col k = s.col k)
    ∧ (∀ (pg : Page) (off v : W32), pageAtSlot 0 (off.toNat / 4096) = some pg →
      (pg.kind = .sec → exec (.debugAccess (.readReg off)) s = .next s0 ∧ exec (.debugAccess (.writeReg off v)) s = .next s0)
      ∧ (pg.kind ≠ .sec → exec (.debugAccess (.readReg off)) s = .next (s0.emit (.jtag (leBytes 4 (s0.peek pg (off.toNat % 4096 / 4 * 4)).toNat)))
        ∧ ∃ t, exec (.debugAccess (.writeReg off v)) s = .next t ∧ SameMemory s t
          ∧ t.reg (s.home pg (off.toNat % 4096 / 4 * 4)).1 (s.home pg (off.toNat % 4096 / 4 * 4)).2 (off.toNat % 4096 / 4 * 4) = v))
    ∧ (∀ q b v, (exec (.debugAccess (.readWell q b)) s = .next (s0.emit (.jtag [s.byteOf .well (q.val * 268435456 + b.val)])))
      ∧ ∃ t, exec (.debugAccess (.writeWell q b v)) s = .next t ∧ t.byteOf .well (q.val * 268435456 + b.val) = v)
    ∧ (∀ e b v, (exec (.debugAccess (.readStore e b)) s = .next (s0.emit (.jtag [s.byteOf .tileStore (e.val * 4194304 + b.val)])))
      ∧ ∃ t, exec (.debugAccess (.writeStore e b v)) s = .next t ∧ t.byteOf .tileStore (e.val * 4194304 + b.val) = v)

/-- R394, R520 to R525: supplies and pins. VAUX and VIN come and go; losing VIN, a trip and PERST# low put the part into cold reset, which keeps the flash and
the fuses; a trip is logged with its cause, unit and temperature, and its rails stay off until VIN has been cycled; the management bus answers reads, refuses
writes and takes an address; and a function returned to D0 sends what waited, in order.
What VAUX_GOOD and VIN_LOSS leave of TRIP_LOG is the model's reading (log entry 118). -/
def Obligations.PackageCompletes : Prop :=
  (∀ (s : State) (m : Fin 4) (mv : W16), s.boot.vaux = false → ∃ t, exec (.vauxGood m mv) s = .next t ∧ t.boot.vaux = true ∧ t.boot.dyn = none
    ∧ t.reg pgPkg 0 0x060 = BitVec.ofNat 32 (4 * m.val) ∧ (s.fld pgPkg F.pkg_TRIP_LOG_CAUSE ≠ 6 → t.reg pgPkg 0 0x05C = 0#32) ∧ SameMemory s t)
  ∧ (∀ s : State,
    (s.boot.vin = false → s.boot.vaux = true → exec .vinRamp s = .next { s with boot := { s.boot with vin := true, tripped := false } })
    ∧ (s.boot.vin = false → s.boot.vaux = true → ∃ t, exec .vauxLoss s = .next t ∧ t.boot.vaux = false ∧ t.boot.dyn = none ∧ t.reg pgPkg 0 0x05C = 0#32)
    ∧ (s.boot.perst = false → exec .perstAssertion s = .next s.coldReset)
    ∧ (s.coldReset.boot.perst = true ∧ s.coldReset.boot.fuse = s.boot.fuse ∧ s.coldReset.booted = false ∧ s.coldReset.sess = [] ∧ s.coldReset.cis = {}
      ∧ s.coldReset.mem = {} ∧ (s.boot.writing = none → s.coldReset.boot.slot = s.boot.slot) ∧ s.coldReset.pending = s.pending)
    ∧ (∀ vaux : Bool, s.boot.vin = true → s.boot.tripped = false → ∃ t, exec (.vinLoss vaux) s = .next t ∧ t.boot.vin = false
      ∧ t.boot.vaux = (s.boot.vaux && !vaux) ∧ t.boot.perst = true
      ∧ t.reg pgPkg 0 0x05C = (s.logTrip (if vaux then 6 else 5) 0 0).reg pgPkg 0 0x05C ∧ t.sess = [] ∧ t.mem = {})
    ∧ (∀ mv : W16, s.boot.vin = true → s.boot.tripped = false → s.boot.perst = false → 10800 ≤ mv.toNat → mv.toNat < 11400 →
      exec (.vinLow mv) s = .next (s.setFld pgPkg F.pkg_VIN_MV mv.toNat).refreshAlerts)
    ∧ (∀ (u : Fin 32) (temp : Byte), s.boot.vin = true → s.boot.tripped = false → 115 ≤ temp.toNat → u.val < 4 →
      ∃ t, exec (.thermalTrip 1 u temp) s = .next t ∧ t.boot.tripped = true ∧ t.boot.perst = true ∧ t.mem = {}
        ∧ t.reg pgPkg 0 0x05C = BitVec.ofNat 32 (1 + 2 * 1 + 16 * u.val + 512 * temp.toNat))
    ∧ (∀ (u : Fin 32) (temp : Byte), temp.toNat < 115 → exec (.thermalTrip 1 u temp) s = .next s))
  ∧ (∀ s : State, s.boot.vaux = true →
    (∀ (off : Fin 4096) (len : Fin 257), exec (.mgmtBusRead off len) s
      = .next (s.emit (.mgmt true ((List.range len).map (fun i => s.mgmtByte (off + i))))))
    ∧ (∀ (off : Fin 4096) (data : List Byte), exec (.mgmtBusWrite off data) s = .next (s.emit (.mgmt false [])))
    ∧ (∀ a : Fin 128, ∃ t, exec (.i3cAddressAssign a) s = .next t ∧ t.boot.dyn = some a.val ∧ t.fld pgPkg F.pkg_STRAPS_I3C = 1 ∧ SameMemory s t))
  ∧ (∀ s : State, s.d3hot.contains 0 = true → ∃ t, exec (.returnToD0 0) s = .next t ∧ t.d3hot = s.d3hot.filter (· != 0)
    ∧ t.egress = s.egress ++ s.waiting.filter (fun e => s.holder e == 0) ∧ t.waiting = s.waiting.filter (fun e => s.holder e != 0) ∧ SameMemory s t)
  ∧ ∀ (s : State) (t : Fin 64), ∃ u, exec (.returnToD0 (Fin.ofNat 66 (t + 1))) s = .next u ∧ (u.ten t).d3 = false ∧ u.egress = s.egress ∧ SameMemory s u
end

