-- ==== Sys2Proof/Laws/SMap.lean ====
section
/-! SUPPORT. The laws of sparse maps: a read after a write, and the canonical form kept by every operation. -/
namespace Sys2Proof.Machine

variable {α : Type}

/-! ## What a key reads as -/

@[simp] theorem SMap.get_nil (d : α) (k : Nat) : SMap.get [] d k = d := rfl

theorem SMap.find_put (m : SMap α) (k j : Nat) (v : α) :
    SMap.find (SMap.put m k v) j = if k = j then some v else SMap.find m j := by
  induction m with
  | nil => simp [SMap.put, SMap.find]
  | cons e m ih =>
    obtain ⟨i, w⟩ := e
    simp only [SMap.put]
    split
    · subst i; simp only [SMap.find]; split <;> simp_all
    · split
      · simp only [SMap.find]
      · simp only [SMap.find, ih]; split <;> split <;> simp_all

theorem SMap.find_filter (m : SMap α) (p : Nat → Bool) (j : Nat) :
    SMap.find (m.filter (fun e => p e.1)) j = if p j then SMap.find m j else none := by
  induction m with
  | nil => simp [SMap.find]
  | cons e m ih =>
    obtain ⟨i, w⟩ := e
    by_cases hi : p i = true
    · simp only [List.filter_cons, hi, if_true, SMap.find, ih]; split <;> simp_all
    · have hi' : p i = false := by simpa using hi
      simp only [List.filter_cons, hi', SMap.find, Bool.false_eq_true, if_false, ih]
      by_cases h : i = j
      · subst h; simp [hi']
      · simp [h]

theorem SMap.find_del (m : SMap α) (k j : Nat) :
    SMap.find (SMap.del m k) j = if k = j then none else SMap.find m j := by
  rw [SMap.del, SMap.find_filter m (fun i => i != k)]
  by_cases h : k = j
  · subst h; simp
  · simp [h, Ne.symm h]

/-- A key written reads as written, and every other key reads as before. -/
theorem SMap.get_set [DecidableEq α] (m : SMap α) (d : α) (k j : Nat) (v : α) :
    SMap.get (SMap.set m d k v) d j = if k = j then v else SMap.get m d j := by
  by_cases hv : v = d
  · by_cases h : k = j <;> simp [SMap.get, SMap.set, SMap.find_del, hv, h]
  · by_cases h : k = j <;> simp [SMap.get, SMap.set, SMap.find_put, hv, h]

@[simp] theorem SMap.get_set_self [DecidableEq α] (m : SMap α) (d : α) (k : Nat) (v : α) :
    SMap.get (SMap.set m d k v) d k = v := by simp [SMap.get_set]

theorem SMap.get_set_ne [DecidableEq α] (m : SMap α) (d : α) {k j : Nat} (v : α) (h : k ≠ j) :
    SMap.get (SMap.set m d k v) d j = SMap.get m d j := by simp [SMap.get_set, h]

/-- Another key reads as before whatever it defaults to. -/
theorem SMap.get_set_other [DecidableEq α] (m : SMap α) (d d' : α) {k j : Nat} (v : α) (h : k ≠ j) :
    SMap.get (SMap.set m d k v) d' j = SMap.get m d' j := by
  simp only [SMap.get, SMap.set]
  split
  · rw [SMap.find_del, if_neg h]
  · rw [SMap.find_put, if_neg h]

/-- A key that is kept reads as before, and every other key reads as its default. -/
theorem SMap.get_keep (m : SMap α) (d : α) (p : Nat → Bool) (j : Nat) :
    SMap.get (SMap.keep m p) d j = if p j then SMap.get m d j else d := by
  simp only [SMap.get, SMap.keep, SMap.find_filter]; split <;> simp

theorem SMap.get_setList [DecidableEq α] (vs : List α) (m : SMap α) (d : α) (k j : Nat) :
    SMap.get (SMap.setList m d k vs) d j
      = if k ≤ j ∧ j < k + vs.length then vs.getD (j - k) d else SMap.get m d j := by
  induction vs generalizing m k with
  | nil => rw [SMap.setList, if_neg (by simp only [List.length_nil]; omega)]
  | cons v vs ih =>
    simp only [SMap.setList, ih, SMap.get_set, List.length_cons]
    by_cases h : k = j
    · subst h
      rw [if_neg (by omega), if_pos rfl, if_pos (by omega)]; simp
    · by_cases h1 : k + 1 ≤ j ∧ j < k + 1 + vs.length
      · have h2 : k ≤ j ∧ j < k + (vs.length + 1) := by omega
        have h3 : j - k = (j - (k + 1)) + 1 := by omega
        rw [if_pos h1, if_pos h2, h3, List.getD_cons_succ]
      · have h2 : ¬(k ≤ j ∧ j < k + (vs.length + 1)) := by omega
        rw [if_neg h1, if_neg h2, if_neg h]

@[simp] theorem SMap.getList_length (m : SMap α) (d : α) (k n : Nat) : (SMap.getList m d k n).length = n := by
  induction n generalizing k with
  | zero => rfl
  | succ n ih => simp [SMap.getList, ih]

/-! ## The canonical form -/

/-- The first key rises above `b`. -/
def SMap.above (b : Nat) : SMap α → Prop
  | [] => True
  | (j, _) :: _ => b < j

theorem SMap.sorted_cons (j : Nat) (v : α) (m : SMap α) :
    SMap.sorted ((j, v) :: m) = true ↔ SMap.above j m ∧ SMap.sorted m = true := by
  cases m with
  | nil => simp [SMap.sorted, SMap.above]
  | cons e m => obtain ⟨i, w⟩ := e; simp [SMap.sorted, SMap.above]

theorem SMap.sorted_put (m : SMap α) (k : Nat) (v : α) (h : SMap.sorted m = true) :
    SMap.sorted (SMap.put m k v) = true ∧ ∀ b, b < k → SMap.above b m → SMap.above b (SMap.put m k v) := by
  induction m with
  | nil => simp [SMap.put, SMap.sorted, SMap.above]
  | cons e m ih =>
    obtain ⟨j, w⟩ := e
    obtain ⟨ha, hs⟩ := (SMap.sorted_cons j w m).1 h
    obtain ⟨is, ia⟩ := ih hs
    simp only [SMap.put]
    split
    · subst j; exact ⟨(SMap.sorted_cons k v m).2 ⟨ha, hs⟩, fun b hb _ => hb⟩
    · split
      · next hk => exact ⟨(SMap.sorted_cons k v _).2 ⟨hk, h⟩, fun b hb _ => hb⟩
      · next hne hk =>
        exact ⟨(SMap.sorted_cons j w _).2 ⟨ia j (by omega) ha, is⟩, fun b _ hb => hb⟩

theorem SMap.above_trans {b c : Nat} {m : SMap α} (h : b < c) (hm : SMap.above c m) : SMap.above b m := by
  cases m with
  | nil => trivial
  | cons e m => exact Nat.lt_trans h hm

theorem SMap.sorted_filter (m : SMap α) (p : Nat × α → Bool) (h : SMap.sorted m = true) :
    SMap.sorted (m.filter p) = true ∧ ∀ b, SMap.above b m → SMap.above b (m.filter p) := by
  induction m with
  | nil => simp [SMap.sorted, SMap.above]
  | cons e m ih =>
    obtain ⟨j, w⟩ := e
    obtain ⟨ha, hs⟩ := (SMap.sorted_cons j w m).1 h
    obtain ⟨is, ia⟩ := ih hs
    by_cases hp : p (j, w) = true
    · simp only [List.filter_cons, hp, if_true]
      exact ⟨(SMap.sorted_cons j w _).2 ⟨ia j ha, is⟩, fun b hb => hb⟩
    · simp only [List.filter_cons, hp]
      exact ⟨is, fun b hb => ia b (SMap.above_trans hb ha)⟩

theorem SMap.all_put (m : SMap α) (k : Nat) (v : α) (p : Nat × α → Bool) (hm : m.all p = true) (hv : p (k, v) = true) :
    (SMap.put m k v).all p = true := by
  induction m with
  | nil => simpa [SMap.put] using hv
  | cons e m ih =>
    obtain ⟨j, w⟩ := e
    simp only [List.all_cons, Bool.and_eq_true] at hm
    simp only [SMap.put]
    split
    · simp [hv, hm.2]
    · split
      · simp [hv, hm.1, hm.2]
      · simp [hm.1, ih hm.2]

theorem SMap.all_filter (m : SMap α) (p q : Nat × α → Bool) (hm : m.all p = true) : (m.filter q).all p = true := by
  simp only [List.all_eq_true] at hm ⊢
  exact fun x hx => hm x (List.mem_filter.1 hx).1

/-- An empty map is in canonical form. -/
@[simp] theorem SMap.wf_nil [DecidableEq α] (d : α) : SMap.wf d [] = true := rfl

/-- A write keeps the canonical form. -/
theorem SMap.wf_set [DecidableEq α] (m : SMap α) (d : α) (k : Nat) (v : α) (h : SMap.wf d m = true) :
    SMap.wf d (SMap.set m d k v) = true := by
  simp only [SMap.wf, Bool.and_eq_true] at h ⊢
  unfold SMap.set
  split
  · exact ⟨(SMap.sorted_filter m _ h.1).1, SMap.all_filter m _ _ h.2⟩
  · next hv => exact ⟨(SMap.sorted_put m k v h.1).1, SMap.all_put m k v _ h.2 (by simpa using hv)⟩

/-- Writing consecutive keys keeps the canonical form. -/
theorem SMap.wf_setList [DecidableEq α] (vs : List α) (m : SMap α) (d : α) (k : Nat) (h : SMap.wf d m = true) :
    SMap.wf d (SMap.setList m d k vs) = true := by
  induction vs generalizing m k with
  | nil => exact h
  | cons v vs ih => exact ih _ _ (SMap.wf_set m d k v h)

/-- Keeping some keys keeps the canonical form. -/
theorem SMap.wf_keep [DecidableEq α] (m : SMap α) (d : α) (p : Nat → Bool) (h : SMap.wf d m = true) :
    SMap.wf d (SMap.keep m p) = true := by
  simp only [SMap.wf, Bool.and_eq_true] at h ⊢
  exact ⟨(SMap.sorted_filter m _ h.1).1, SMap.all_filter m _ _ h.2⟩

/-- Updating a key keeps the canonical form. -/
theorem SMap.wf_upd [DecidableEq α] (m : SMap α) (d : α) (k : Nat) (f : α → α) (h : SMap.wf d m = true) :
    SMap.wf d (SMap.upd m d k f) = true := SMap.wf_set m d k _ h

end Sys2Proof.Machine
end

