-- ==== Sys2Proof/Laws/State.lean ====
section
/-! SUPPORT. What each plain update of the state leaves as it is: one lemma per update and field, all true by definition. -/
namespace Sys2Proof.Machine
open Sys2Proof

/-! ### setReg -/
section
variable (s : State) (pg : Page) (b o : Nat) (v : W32)
@[simp] theorem State.setReg_stage : (s.setReg pg b o v).stage = s.stage := rfl
@[simp] theorem State.setReg_latch : (s.setReg pg b o v).latch = s.latch := rfl
@[simp] theorem State.setReg_hostTime : (s.setReg pg b o v).hostTime = s.hostTime := rfl
@[simp] theorem State.setReg_inflight : (s.setReg pg b o v).inflight = s.inflight := rfl
@[simp] theorem State.setReg_copies : (s.setReg pg b o v).copies = s.copies := rfl
@[simp] theorem State.setReg_watches : (s.setReg pg b o v).watches = s.watches := rfl
@[simp] theorem State.setReg_errLog : (s.setReg pg b o v).errLog = s.errLog := rfl
@[simp] theorem State.setReg_flog : (s.setReg pg b o v).flog = s.flog := rfl
@[simp] theorem State.setReg_profile : (s.setReg pg b o v).profile = s.profile := rfl
@[simp] theorem State.setReg_cis : (s.setReg pg b o v).cis = s.cis := rfl
@[simp] theorem State.setReg_bkt : (s.setReg pg b o v).bkt = s.bkt := rfl
@[simp] theorem State.setReg_mem : (s.setReg pg b o v).mem = s.mem := rfl
@[simp] theorem State.setReg_pmp : (s.setReg pg b o v).pmp = s.pmp := rfl
@[simp] theorem State.setReg_engs : (s.setReg pg b o v).engs = s.engs := rfl
@[simp] theorem State.setReg_link : (s.setReg pg b o v).link = s.link := rfl
@[simp] theorem State.setReg_tel : (s.setReg pg b o v).tel = s.tel := rfl
@[simp] theorem State.setReg_sess : (s.setReg pg b o v).sess = s.sess := rfl
@[simp] theorem State.setReg_ses : (s.setReg pg b o v).ses = s.ses := rfl
@[simp] theorem State.setReg_keepers : (s.setReg pg b o v).keepers = s.keepers := rfl
@[simp] theorem State.setReg_boot : (s.setReg pg b o v).boot = s.boot := rfl
@[simp] theorem State.setReg_d3hot : (s.setReg pg b o v).d3hot = s.d3hot := rfl
@[simp] theorem State.setReg_waiting : (s.setReg pg b o v).waiting = s.waiting := rfl
@[simp] theorem State.setReg_egress : (s.setReg pg b o v).egress = s.egress := rfl
@[simp] theorem State.setReg_free : (s.setReg pg b o v).free = s.free := rfl
@[simp] theorem State.setReg_pending : (s.setReg pg b o v).pending = s.pending := rfl
end

/-! ### setFldB -/
section
variable (s : State) (pg : Page) (b : Nat) (f : Fld) (v : Nat)
@[simp] theorem State.setFldB_stage : (s.setFldB pg b f v).stage = s.stage := rfl
@[simp] theorem State.setFldB_latch : (s.setFldB pg b f v).latch = s.latch := rfl
@[simp] theorem State.setFldB_hostTime : (s.setFldB pg b f v).hostTime = s.hostTime := rfl
@[simp] theorem State.setFldB_inflight : (s.setFldB pg b f v).inflight = s.inflight := rfl
@[simp] theorem State.setFldB_copies : (s.setFldB pg b f v).copies = s.copies := rfl
@[simp] theorem State.setFldB_watches : (s.setFldB pg b f v).watches = s.watches := rfl
@[simp] theorem State.setFldB_errLog : (s.setFldB pg b f v).errLog = s.errLog := rfl
@[simp] theorem State.setFldB_flog : (s.setFldB pg b f v).flog = s.flog := rfl
@[simp] theorem State.setFldB_profile : (s.setFldB pg b f v).profile = s.profile := rfl
@[simp] theorem State.setFldB_cis : (s.setFldB pg b f v).cis = s.cis := rfl
@[simp] theorem State.setFldB_bkt : (s.setFldB pg b f v).bkt = s.bkt := rfl
@[simp] theorem State.setFldB_mem : (s.setFldB pg b f v).mem = s.mem := rfl
@[simp] theorem State.setFldB_pmp : (s.setFldB pg b f v).pmp = s.pmp := rfl
@[simp] theorem State.setFldB_engs : (s.setFldB pg b f v).engs = s.engs := rfl
@[simp] theorem State.setFldB_link : (s.setFldB pg b f v).link = s.link := rfl
@[simp] theorem State.setFldB_tel : (s.setFldB pg b f v).tel = s.tel := rfl
@[simp] theorem State.setFldB_sess : (s.setFldB pg b f v).sess = s.sess := rfl
@[simp] theorem State.setFldB_ses : (s.setFldB pg b f v).ses = s.ses := rfl
@[simp] theorem State.setFldB_keepers : (s.setFldB pg b f v).keepers = s.keepers := rfl
@[simp] theorem State.setFldB_boot : (s.setFldB pg b f v).boot = s.boot := rfl
@[simp] theorem State.setFldB_d3hot : (s.setFldB pg b f v).d3hot = s.d3hot := rfl
@[simp] theorem State.setFldB_waiting : (s.setFldB pg b f v).waiting = s.waiting := rfl
@[simp] theorem State.setFldB_egress : (s.setFldB pg b f v).egress = s.egress := rfl
@[simp] theorem State.setFldB_free : (s.setFldB pg b f v).free = s.free := rfl
@[simp] theorem State.setFldB_pending : (s.setFldB pg b f v).pending = s.pending := rfl
end

/-! ### setFld -/
section
variable (s : State) (pg : Page) (f : Fld) (v : Nat)
@[simp] theorem State.setFld_stage : (s.setFld pg f v).stage = s.stage := rfl
@[simp] theorem State.setFld_latch : (s.setFld pg f v).latch = s.latch := rfl
@[simp] theorem State.setFld_hostTime : (s.setFld pg f v).hostTime = s.hostTime := rfl
@[simp] theorem State.setFld_inflight : (s.setFld pg f v).inflight = s.inflight := rfl
@[simp] theorem State.setFld_copies : (s.setFld pg f v).copies = s.copies := rfl
@[simp] theorem State.setFld_watches : (s.setFld pg f v).watches = s.watches := rfl
@[simp] theorem State.setFld_errLog : (s.setFld pg f v).errLog = s.errLog := rfl
@[simp] theorem State.setFld_flog : (s.setFld pg f v).flog = s.flog := rfl
@[simp] theorem State.setFld_profile : (s.setFld pg f v).profile = s.profile := rfl
@[simp] theorem State.setFld_cis : (s.setFld pg f v).cis = s.cis := rfl
@[simp] theorem State.setFld_bkt : (s.setFld pg f v).bkt = s.bkt := rfl
@[simp] theorem State.setFld_mem : (s.setFld pg f v).mem = s.mem := rfl
@[simp] theorem State.setFld_pmp : (s.setFld pg f v).pmp = s.pmp := rfl
@[simp] theorem State.setFld_engs : (s.setFld pg f v).engs = s.engs := rfl
@[simp] theorem State.setFld_link : (s.setFld pg f v).link = s.link := rfl
@[simp] theorem State.setFld_tel : (s.setFld pg f v).tel = s.tel := rfl
@[simp] theorem State.setFld_sess : (s.setFld pg f v).sess = s.sess := rfl
@[simp] theorem State.setFld_ses : (s.setFld pg f v).ses = s.ses := rfl
@[simp] theorem State.setFld_keepers : (s.setFld pg f v).keepers = s.keepers := rfl
@[simp] theorem State.setFld_boot : (s.setFld pg f v).boot = s.boot := rfl
@[simp] theorem State.setFld_d3hot : (s.setFld pg f v).d3hot = s.d3hot := rfl
@[simp] theorem State.setFld_waiting : (s.setFld pg f v).waiting = s.waiting := rfl
@[simp] theorem State.setFld_egress : (s.setFld pg f v).egress = s.egress := rfl
@[simp] theorem State.setFld_free : (s.setFld pg f v).free = s.free := rfl
@[simp] theorem State.setFld_pending : (s.setFld pg f v).pending = s.pending := rfl
end

/-! ### bumpB -/
section
variable (s : State) (pg : Page) (b : Nat) (f : Fld) (n : Nat)
@[simp] theorem State.bumpB_stage : (s.bumpB pg b f n).stage = s.stage := rfl
@[simp] theorem State.bumpB_latch : (s.bumpB pg b f n).latch = s.latch := rfl
@[simp] theorem State.bumpB_hostTime : (s.bumpB pg b f n).hostTime = s.hostTime := rfl
@[simp] theorem State.bumpB_inflight : (s.bumpB pg b f n).inflight = s.inflight := rfl
@[simp] theorem State.bumpB_copies : (s.bumpB pg b f n).copies = s.copies := rfl
@[simp] theorem State.bumpB_watches : (s.bumpB pg b f n).watches = s.watches := rfl
@[simp] theorem State.bumpB_errLog : (s.bumpB pg b f n).errLog = s.errLog := rfl
@[simp] theorem State.bumpB_flog : (s.bumpB pg b f n).flog = s.flog := rfl
@[simp] theorem State.bumpB_profile : (s.bumpB pg b f n).profile = s.profile := rfl
@[simp] theorem State.bumpB_cis : (s.bumpB pg b f n).cis = s.cis := rfl
@[simp] theorem State.bumpB_bkt : (s.bumpB pg b f n).bkt = s.bkt := rfl
@[simp] theorem State.bumpB_mem : (s.bumpB pg b f n).mem = s.mem := rfl
@[simp] theorem State.bumpB_pmp : (s.bumpB pg b f n).pmp = s.pmp := rfl
@[simp] theorem State.bumpB_engs : (s.bumpB pg b f n).engs = s.engs := rfl
@[simp] theorem State.bumpB_link : (s.bumpB pg b f n).link = s.link := rfl
@[simp] theorem State.bumpB_tel : (s.bumpB pg b f n).tel = s.tel := rfl
@[simp] theorem State.bumpB_sess : (s.bumpB pg b f n).sess = s.sess := rfl
@[simp] theorem State.bumpB_ses : (s.bumpB pg b f n).ses = s.ses := rfl
@[simp] theorem State.bumpB_keepers : (s.bumpB pg b f n).keepers = s.keepers := rfl
@[simp] theorem State.bumpB_boot : (s.bumpB pg b f n).boot = s.boot := rfl
@[simp] theorem State.bumpB_d3hot : (s.bumpB pg b f n).d3hot = s.d3hot := rfl
@[simp] theorem State.bumpB_waiting : (s.bumpB pg b f n).waiting = s.waiting := rfl
@[simp] theorem State.bumpB_egress : (s.bumpB pg b f n).egress = s.egress := rfl
@[simp] theorem State.bumpB_free : (s.bumpB pg b f n).free = s.free := rfl
@[simp] theorem State.bumpB_pending : (s.bumpB pg b f n).pending = s.pending := rfl
end

/-! ### bump -/
section
variable (s : State) (pg : Page) (f : Fld) (n : Nat)
@[simp] theorem State.bump_stage : (s.bump pg f n).stage = s.stage := rfl
@[simp] theorem State.bump_latch : (s.bump pg f n).latch = s.latch := rfl
@[simp] theorem State.bump_hostTime : (s.bump pg f n).hostTime = s.hostTime := rfl
@[simp] theorem State.bump_inflight : (s.bump pg f n).inflight = s.inflight := rfl
@[simp] theorem State.bump_copies : (s.bump pg f n).copies = s.copies := rfl
@[simp] theorem State.bump_watches : (s.bump pg f n).watches = s.watches := rfl
@[simp] theorem State.bump_errLog : (s.bump pg f n).errLog = s.errLog := rfl
@[simp] theorem State.bump_flog : (s.bump pg f n).flog = s.flog := rfl
@[simp] theorem State.bump_profile : (s.bump pg f n).profile = s.profile := rfl
@[simp] theorem State.bump_cis : (s.bump pg f n).cis = s.cis := rfl
@[simp] theorem State.bump_bkt : (s.bump pg f n).bkt = s.bkt := rfl
@[simp] theorem State.bump_mem : (s.bump pg f n).mem = s.mem := rfl
@[simp] theorem State.bump_pmp : (s.bump pg f n).pmp = s.pmp := rfl
@[simp] theorem State.bump_engs : (s.bump pg f n).engs = s.engs := rfl
@[simp] theorem State.bump_link : (s.bump pg f n).link = s.link := rfl
@[simp] theorem State.bump_tel : (s.bump pg f n).tel = s.tel := rfl
@[simp] theorem State.bump_sess : (s.bump pg f n).sess = s.sess := rfl
@[simp] theorem State.bump_ses : (s.bump pg f n).ses = s.ses := rfl
@[simp] theorem State.bump_keepers : (s.bump pg f n).keepers = s.keepers := rfl
@[simp] theorem State.bump_boot : (s.bump pg f n).boot = s.boot := rfl
@[simp] theorem State.bump_d3hot : (s.bump pg f n).d3hot = s.d3hot := rfl
@[simp] theorem State.bump_waiting : (s.bump pg f n).waiting = s.waiting := rfl
@[simp] theorem State.bump_egress : (s.bump pg f n).egress = s.egress := rfl
@[simp] theorem State.bump_free : (s.bump pg f n).free = s.free := rfl
@[simp] theorem State.bump_pending : (s.bump pg f n).pending = s.pending := rfl
end

/-! ### event -/
section
variable (s : State) (pg : Page)
@[simp] theorem State.event_stage : (s.event pg).stage = s.stage := rfl
@[simp] theorem State.event_latch : (s.event pg).latch = s.latch := rfl
@[simp] theorem State.event_hostTime : (s.event pg).hostTime = s.hostTime := rfl
@[simp] theorem State.event_inflight : (s.event pg).inflight = s.inflight := rfl
@[simp] theorem State.event_copies : (s.event pg).copies = s.copies := rfl
@[simp] theorem State.event_watches : (s.event pg).watches = s.watches := rfl
@[simp] theorem State.event_errLog : (s.event pg).errLog = s.errLog := rfl
@[simp] theorem State.event_flog : (s.event pg).flog = s.flog := rfl
@[simp] theorem State.event_profile : (s.event pg).profile = s.profile := rfl
@[simp] theorem State.event_cis : (s.event pg).cis = s.cis := rfl
@[simp] theorem State.event_bkt : (s.event pg).bkt = s.bkt := rfl
@[simp] theorem State.event_mem : (s.event pg).mem = s.mem := rfl
@[simp] theorem State.event_pmp : (s.event pg).pmp = s.pmp := rfl
@[simp] theorem State.event_engs : (s.event pg).engs = s.engs := rfl
@[simp] theorem State.event_link : (s.event pg).link = s.link := rfl
@[simp] theorem State.event_tel : (s.event pg).tel = s.tel := rfl
@[simp] theorem State.event_sess : (s.event pg).sess = s.sess := rfl
@[simp] theorem State.event_ses : (s.event pg).ses = s.ses := rfl
@[simp] theorem State.event_keepers : (s.event pg).keepers = s.keepers := rfl
@[simp] theorem State.event_boot : (s.event pg).boot = s.boot := rfl
@[simp] theorem State.event_d3hot : (s.event pg).d3hot = s.d3hot := rfl
@[simp] theorem State.event_waiting : (s.event pg).waiting = s.waiting := rfl
@[simp] theorem State.event_egress : (s.event pg).egress = s.egress := rfl
@[simp] theorem State.event_free : (s.event pg).free = s.free := rfl
@[simp] theorem State.event_pending : (s.event pg).pending = s.pending := rfl
end

/-! ### bump64B -/
section
variable (s : State) (pg : Page) (b : Nat) (lo hi : Fld) (n : Nat)
@[simp] theorem State.bump64B_stage : (s.bump64B pg b lo hi n).stage = s.stage := rfl
@[simp] theorem State.bump64B_latch : (s.bump64B pg b lo hi n).latch = s.latch := rfl
@[simp] theorem State.bump64B_hostTime : (s.bump64B pg b lo hi n).hostTime = s.hostTime := rfl
@[simp] theorem State.bump64B_inflight : (s.bump64B pg b lo hi n).inflight = s.inflight := rfl
@[simp] theorem State.bump64B_copies : (s.bump64B pg b lo hi n).copies = s.copies := rfl
@[simp] theorem State.bump64B_watches : (s.bump64B pg b lo hi n).watches = s.watches := rfl
@[simp] theorem State.bump64B_errLog : (s.bump64B pg b lo hi n).errLog = s.errLog := rfl
@[simp] theorem State.bump64B_flog : (s.bump64B pg b lo hi n).flog = s.flog := rfl
@[simp] theorem State.bump64B_profile : (s.bump64B pg b lo hi n).profile = s.profile := rfl
@[simp] theorem State.bump64B_cis : (s.bump64B pg b lo hi n).cis = s.cis := rfl
@[simp] theorem State.bump64B_bkt : (s.bump64B pg b lo hi n).bkt = s.bkt := rfl
@[simp] theorem State.bump64B_mem : (s.bump64B pg b lo hi n).mem = s.mem := rfl
@[simp] theorem State.bump64B_pmp : (s.bump64B pg b lo hi n).pmp = s.pmp := rfl
@[simp] theorem State.bump64B_engs : (s.bump64B pg b lo hi n).engs = s.engs := rfl
@[simp] theorem State.bump64B_link : (s.bump64B pg b lo hi n).link = s.link := rfl
@[simp] theorem State.bump64B_tel : (s.bump64B pg b lo hi n).tel = s.tel := rfl
@[simp] theorem State.bump64B_sess : (s.bump64B pg b lo hi n).sess = s.sess := rfl
@[simp] theorem State.bump64B_ses : (s.bump64B pg b lo hi n).ses = s.ses := rfl
@[simp] theorem State.bump64B_keepers : (s.bump64B pg b lo hi n).keepers = s.keepers := rfl
@[simp] theorem State.bump64B_boot : (s.bump64B pg b lo hi n).boot = s.boot := rfl
@[simp] theorem State.bump64B_d3hot : (s.bump64B pg b lo hi n).d3hot = s.d3hot := rfl
@[simp] theorem State.bump64B_waiting : (s.bump64B pg b lo hi n).waiting = s.waiting := rfl
@[simp] theorem State.bump64B_egress : (s.bump64B pg b lo hi n).egress = s.egress := rfl
@[simp] theorem State.bump64B_free : (s.bump64B pg b lo hi n).free = s.free := rfl
@[simp] theorem State.bump64B_pending : (s.bump64B pg b lo hi n).pending = s.pending := rfl
end

/-! ### setEngState -/
section
variable (s : State) (e v : Nat)
@[simp] theorem State.setEngState_stage : (s.setEngState e v).stage = s.stage := rfl
@[simp] theorem State.setEngState_latch : (s.setEngState e v).latch = s.latch := rfl
@[simp] theorem State.setEngState_hostTime : (s.setEngState e v).hostTime = s.hostTime := rfl
@[simp] theorem State.setEngState_inflight : (s.setEngState e v).inflight = s.inflight := rfl
@[simp] theorem State.setEngState_copies : (s.setEngState e v).copies = s.copies := rfl
@[simp] theorem State.setEngState_watches : (s.setEngState e v).watches = s.watches := rfl
@[simp] theorem State.setEngState_errLog : (s.setEngState e v).errLog = s.errLog := rfl
@[simp] theorem State.setEngState_flog : (s.setEngState e v).flog = s.flog := rfl
@[simp] theorem State.setEngState_profile : (s.setEngState e v).profile = s.profile := rfl
@[simp] theorem State.setEngState_cis : (s.setEngState e v).cis = s.cis := rfl
@[simp] theorem State.setEngState_bkt : (s.setEngState e v).bkt = s.bkt := rfl
@[simp] theorem State.setEngState_mem : (s.setEngState e v).mem = s.mem := rfl
@[simp] theorem State.setEngState_pmp : (s.setEngState e v).pmp = s.pmp := rfl
@[simp] theorem State.setEngState_engs : (s.setEngState e v).engs = s.engs := rfl
@[simp] theorem State.setEngState_link : (s.setEngState e v).link = s.link := rfl
@[simp] theorem State.setEngState_tel : (s.setEngState e v).tel = s.tel := rfl
@[simp] theorem State.setEngState_sess : (s.setEngState e v).sess = s.sess := rfl
@[simp] theorem State.setEngState_ses : (s.setEngState e v).ses = s.ses := rfl
@[simp] theorem State.setEngState_keepers : (s.setEngState e v).keepers = s.keepers := rfl
@[simp] theorem State.setEngState_boot : (s.setEngState e v).boot = s.boot := rfl
@[simp] theorem State.setEngState_d3hot : (s.setEngState e v).d3hot = s.d3hot := rfl
@[simp] theorem State.setEngState_waiting : (s.setEngState e v).waiting = s.waiting := rfl
@[simp] theorem State.setEngState_egress : (s.setEngState e v).egress = s.egress := rfl
@[simp] theorem State.setEngState_free : (s.setEngState e v).free = s.free := rfl
@[simp] theorem State.setEngState_pending : (s.setEngState e v).pending = s.pending := rfl
end

/-! ### setStackState -/
section
variable (s : State) (st v : Nat)
@[simp] theorem State.setStackState_stage : (s.setStackState st v).stage = s.stage := rfl
@[simp] theorem State.setStackState_latch : (s.setStackState st v).latch = s.latch := rfl
@[simp] theorem State.setStackState_hostTime : (s.setStackState st v).hostTime = s.hostTime := rfl
@[simp] theorem State.setStackState_inflight : (s.setStackState st v).inflight = s.inflight := rfl
@[simp] theorem State.setStackState_copies : (s.setStackState st v).copies = s.copies := rfl
@[simp] theorem State.setStackState_watches : (s.setStackState st v).watches = s.watches := rfl
@[simp] theorem State.setStackState_errLog : (s.setStackState st v).errLog = s.errLog := rfl
@[simp] theorem State.setStackState_flog : (s.setStackState st v).flog = s.flog := rfl
@[simp] theorem State.setStackState_profile : (s.setStackState st v).profile = s.profile := rfl
@[simp] theorem State.setStackState_cis : (s.setStackState st v).cis = s.cis := rfl
@[simp] theorem State.setStackState_bkt : (s.setStackState st v).bkt = s.bkt := rfl
@[simp] theorem State.setStackState_mem : (s.setStackState st v).mem = s.mem := rfl
@[simp] theorem State.setStackState_pmp : (s.setStackState st v).pmp = s.pmp := rfl
@[simp] theorem State.setStackState_engs : (s.setStackState st v).engs = s.engs := rfl
@[simp] theorem State.setStackState_link : (s.setStackState st v).link = s.link := rfl
@[simp] theorem State.setStackState_tel : (s.setStackState st v).tel = s.tel := rfl
@[simp] theorem State.setStackState_sess : (s.setStackState st v).sess = s.sess := rfl
@[simp] theorem State.setStackState_ses : (s.setStackState st v).ses = s.ses := rfl
@[simp] theorem State.setStackState_keepers : (s.setStackState st v).keepers = s.keepers := rfl
@[simp] theorem State.setStackState_boot : (s.setStackState st v).boot = s.boot := rfl
@[simp] theorem State.setStackState_d3hot : (s.setStackState st v).d3hot = s.d3hot := rfl
@[simp] theorem State.setStackState_waiting : (s.setStackState st v).waiting = s.waiting := rfl
@[simp] theorem State.setStackState_egress : (s.setStackState st v).egress = s.egress := rfl
@[simp] theorem State.setStackState_free : (s.setStackState st v).free = s.free := rfl
@[simp] theorem State.setStackState_pending : (s.setStackState st v).pending = s.pending := rfl
end

/-! ### setObjReg -/
section
variable (s : State) (fn : Nat) (f : Fld) (v : Nat)
@[simp] theorem State.setObjReg_stage : (s.setObjReg fn f v).stage = s.stage := rfl
@[simp] theorem State.setObjReg_latch : (s.setObjReg fn f v).latch = s.latch := rfl
@[simp] theorem State.setObjReg_hostTime : (s.setObjReg fn f v).hostTime = s.hostTime := rfl
@[simp] theorem State.setObjReg_inflight : (s.setObjReg fn f v).inflight = s.inflight := rfl
@[simp] theorem State.setObjReg_copies : (s.setObjReg fn f v).copies = s.copies := rfl
@[simp] theorem State.setObjReg_watches : (s.setObjReg fn f v).watches = s.watches := rfl
@[simp] theorem State.setObjReg_errLog : (s.setObjReg fn f v).errLog = s.errLog := rfl
@[simp] theorem State.setObjReg_flog : (s.setObjReg fn f v).flog = s.flog := rfl
@[simp] theorem State.setObjReg_profile : (s.setObjReg fn f v).profile = s.profile := rfl
@[simp] theorem State.setObjReg_cis : (s.setObjReg fn f v).cis = s.cis := rfl
@[simp] theorem State.setObjReg_bkt : (s.setObjReg fn f v).bkt = s.bkt := rfl
@[simp] theorem State.setObjReg_mem : (s.setObjReg fn f v).mem = s.mem := rfl
@[simp] theorem State.setObjReg_pmp : (s.setObjReg fn f v).pmp = s.pmp := rfl
@[simp] theorem State.setObjReg_engs : (s.setObjReg fn f v).engs = s.engs := rfl
@[simp] theorem State.setObjReg_link : (s.setObjReg fn f v).link = s.link := rfl
@[simp] theorem State.setObjReg_tel : (s.setObjReg fn f v).tel = s.tel := rfl
@[simp] theorem State.setObjReg_sess : (s.setObjReg fn f v).sess = s.sess := rfl
@[simp] theorem State.setObjReg_ses : (s.setObjReg fn f v).ses = s.ses := rfl
@[simp] theorem State.setObjReg_keepers : (s.setObjReg fn f v).keepers = s.keepers := rfl
@[simp] theorem State.setObjReg_boot : (s.setObjReg fn f v).boot = s.boot := rfl
@[simp] theorem State.setObjReg_d3hot : (s.setObjReg fn f v).d3hot = s.d3hot := rfl
@[simp] theorem State.setObjReg_waiting : (s.setObjReg fn f v).waiting = s.waiting := rfl
@[simp] theorem State.setObjReg_egress : (s.setObjReg fn f v).egress = s.egress := rfl
@[simp] theorem State.setObjReg_free : (s.setObjReg fn f v).free = s.free := rfl
@[simp] theorem State.setObjReg_pending : (s.setObjReg fn f v).pending = s.pending := rfl
end

/-! ### setPortState -/
section
variable (s : State) (p v : Nat)
@[simp] theorem State.setPortState_stage : (s.setPortState p v).stage = s.stage := rfl
@[simp] theorem State.setPortState_latch : (s.setPortState p v).latch = s.latch := rfl
@[simp] theorem State.setPortState_hostTime : (s.setPortState p v).hostTime = s.hostTime := rfl
@[simp] theorem State.setPortState_inflight : (s.setPortState p v).inflight = s.inflight := rfl
@[simp] theorem State.setPortState_copies : (s.setPortState p v).copies = s.copies := rfl
@[simp] theorem State.setPortState_watches : (s.setPortState p v).watches = s.watches := rfl
@[simp] theorem State.setPortState_errLog : (s.setPortState p v).errLog = s.errLog := rfl
@[simp] theorem State.setPortState_flog : (s.setPortState p v).flog = s.flog := rfl
@[simp] theorem State.setPortState_profile : (s.setPortState p v).profile = s.profile := rfl
@[simp] theorem State.setPortState_cis : (s.setPortState p v).cis = s.cis := rfl
@[simp] theorem State.setPortState_bkt : (s.setPortState p v).bkt = s.bkt := rfl
@[simp] theorem State.setPortState_mem : (s.setPortState p v).mem = s.mem := rfl
@[simp] theorem State.setPortState_pmp : (s.setPortState p v).pmp = s.pmp := rfl
@[simp] theorem State.setPortState_engs : (s.setPortState p v).engs = s.engs := rfl
@[simp] theorem State.setPortState_link : (s.setPortState p v).link = s.link := rfl
@[simp] theorem State.setPortState_tel : (s.setPortState p v).tel = s.tel := rfl
@[simp] theorem State.setPortState_sess : (s.setPortState p v).sess = s.sess := rfl
@[simp] theorem State.setPortState_ses : (s.setPortState p v).ses = s.ses := rfl
@[simp] theorem State.setPortState_keepers : (s.setPortState p v).keepers = s.keepers := rfl
@[simp] theorem State.setPortState_boot : (s.setPortState p v).boot = s.boot := rfl
@[simp] theorem State.setPortState_d3hot : (s.setPortState p v).d3hot = s.d3hot := rfl
@[simp] theorem State.setPortState_waiting : (s.setPortState p v).waiting = s.waiting := rfl
@[simp] theorem State.setPortState_egress : (s.setPortState p v).egress = s.egress := rfl
@[simp] theorem State.setPortState_free : (s.setPortState p v).free = s.free := rfl
@[simp] theorem State.setPortState_pending : (s.setPortState p v).pending = s.pending := rfl
end

/-! ### setCol -/
section
variable (s : State) (k : Nat) (c : Column)
@[simp] theorem State.setCol_regs : (s.setCol k c).regs = s.regs := rfl
@[simp] theorem State.setCol_stage : (s.setCol k c).stage = s.stage := rfl
@[simp] theorem State.setCol_latch : (s.setCol k c).latch = s.latch := rfl
@[simp] theorem State.setCol_hostTime : (s.setCol k c).hostTime = s.hostTime := rfl
@[simp] theorem State.setCol_inflight : (s.setCol k c).inflight = s.inflight := rfl
@[simp] theorem State.setCol_copies : (s.setCol k c).copies = s.copies := rfl
@[simp] theorem State.setCol_watches : (s.setCol k c).watches = s.watches := rfl
@[simp] theorem State.setCol_errLog : (s.setCol k c).errLog = s.errLog := rfl
@[simp] theorem State.setCol_flog : (s.setCol k c).flog = s.flog := rfl
@[simp] theorem State.setCol_profile : (s.setCol k c).profile = s.profile := rfl
@[simp] theorem State.setCol_bkt : (s.setCol k c).bkt = s.bkt := rfl
@[simp] theorem State.setCol_mem : (s.setCol k c).mem = s.mem := rfl
@[simp] theorem State.setCol_pmp : (s.setCol k c).pmp = s.pmp := rfl
@[simp] theorem State.setCol_engs : (s.setCol k c).engs = s.engs := rfl
@[simp] theorem State.setCol_link : (s.setCol k c).link = s.link := rfl
@[simp] theorem State.setCol_tel : (s.setCol k c).tel = s.tel := rfl
@[simp] theorem State.setCol_sess : (s.setCol k c).sess = s.sess := rfl
@[simp] theorem State.setCol_ses : (s.setCol k c).ses = s.ses := rfl
@[simp] theorem State.setCol_keepers : (s.setCol k c).keepers = s.keepers := rfl
@[simp] theorem State.setCol_boot : (s.setCol k c).boot = s.boot := rfl
@[simp] theorem State.setCol_d3hot : (s.setCol k c).d3hot = s.d3hot := rfl
@[simp] theorem State.setCol_waiting : (s.setCol k c).waiting = s.waiting := rfl
@[simp] theorem State.setCol_egress : (s.setCol k c).egress = s.egress := rfl
@[simp] theorem State.setCol_free : (s.setCol k c).free = s.free := rfl
@[simp] theorem State.setCol_pending : (s.setCol k c).pending = s.pending := rfl
@[simp] theorem State.setCol_cis_fills : (s.setCol k c).cis.fills = s.cis.fills := rfl
@[simp] theorem State.setCol_cis_chan : (s.setCol k c).cis.chan = s.cis.chan := rfl
@[simp] theorem State.setCol_cis_exc : (s.setCol k c).cis.exc = s.cis.exc := rfl
@[simp] theorem State.setCol_cis_withdrawn : (s.setCol k c).cis.withdrawn = s.cis.withdrawn := rfl
@[simp] theorem State.setCol_cis_resUsed : (s.setCol k c).cis.resUsed = s.cis.resUsed := rfl
@[simp] theorem State.setCol_cis_retrainQ : (s.setCol k c).cis.retrainQ = s.cis.retrainQ := rfl
@[simp] theorem State.setCol_cis_held : (s.setCol k c).cis.held = s.cis.held := rfl
@[simp] theorem State.setCol_cis_yield : (s.setCol k c).cis.yield = s.cis.yield := rfl
@[simp] theorem State.setCol_cis_ceWin : (s.setCol k c).cis.ceWin = s.cis.ceWin := rfl
@[simp] theorem State.setCol_cis_linkWin : (s.setCol k c).cis.linkWin = s.cis.linkWin := rfl
@[simp] theorem State.setCol_cis_scrubAt : (s.setCol k c).cis.scrubAt = s.cis.scrubAt := rfl
@[simp] theorem State.setCol_cis_selfRefresh : (s.setCol k c).cis.selfRefresh = s.cis.selfRefresh := rfl
@[simp] theorem State.setCol_cis_repair : (s.setCol k c).cis.repair = s.cis.repair := rfl
@[simp] theorem State.setCol_cis_rowsUsed : (s.setCol k c).cis.rowsUsed = s.cis.rowsUsed := rfl
@[simp] theorem State.setCol_cis_measuring : (s.setCol k c).cis.measuring = s.cis.measuring := rfl
@[simp] theorem State.setCol_cis_slowRun : (s.setCol k c).cis.slowRun = s.cis.slowRun := rfl
@[simp] theorem State.setCol_cis_fastRun : (s.setCol k c).cis.fastRun = s.cis.fastRun := rfl
@[simp] theorem State.setCol_cis_dead : (s.setCol k c).cis.dead = s.cis.dead := rfl
@[simp] theorem State.setCol_cis_weightPend : (s.setCol k c).cis.weightPend = s.cis.weightPend := rfl
end

/-! ### setChan -/
section
variable (s : State) (st c : Nat) (x : Chan)
@[simp] theorem State.setChan_regs : (s.setChan st c x).regs = s.regs := rfl
@[simp] theorem State.setChan_stage : (s.setChan st c x).stage = s.stage := rfl
@[simp] theorem State.setChan_latch : (s.setChan st c x).latch = s.latch := rfl
@[simp] theorem State.setChan_hostTime : (s.setChan st c x).hostTime = s.hostTime := rfl
@[simp] theorem State.setChan_inflight : (s.setChan st c x).inflight = s.inflight := rfl
@[simp] theorem State.setChan_copies : (s.setChan st c x).copies = s.copies := rfl
@[simp] theorem State.setChan_watches : (s.setChan st c x).watches = s.watches := rfl
@[simp] theorem State.setChan_errLog : (s.setChan st c x).errLog = s.errLog := rfl
@[simp] theorem State.setChan_flog : (s.setChan st c x).flog = s.flog := rfl
@[simp] theorem State.setChan_profile : (s.setChan st c x).profile = s.profile := rfl
@[simp] theorem State.setChan_bkt : (s.setChan st c x).bkt = s.bkt := rfl
@[simp] theorem State.setChan_mem : (s.setChan st c x).mem = s.mem := rfl
@[simp] theorem State.setChan_pmp : (s.setChan st c x).pmp = s.pmp := rfl
@[simp] theorem State.setChan_engs : (s.setChan st c x).engs = s.engs := rfl
@[simp] theorem State.setChan_link : (s.setChan st c x).link = s.link := rfl
@[simp] theorem State.setChan_tel : (s.setChan st c x).tel = s.tel := rfl
@[simp] theorem State.setChan_sess : (s.setChan st c x).sess = s.sess := rfl
@[simp] theorem State.setChan_ses : (s.setChan st c x).ses = s.ses := rfl
@[simp] theorem State.setChan_keepers : (s.setChan st c x).keepers = s.keepers := rfl
@[simp] theorem State.setChan_boot : (s.setChan st c x).boot = s.boot := rfl
@[simp] theorem State.setChan_d3hot : (s.setChan st c x).d3hot = s.d3hot := rfl
@[simp] theorem State.setChan_waiting : (s.setChan st c x).waiting = s.waiting := rfl
@[simp] theorem State.setChan_egress : (s.setChan st c x).egress = s.egress := rfl
@[simp] theorem State.setChan_free : (s.setChan st c x).free = s.free := rfl
@[simp] theorem State.setChan_pending : (s.setChan st c x).pending = s.pending := rfl
@[simp] theorem State.setChan_cis_cols : (s.setChan st c x).cis.cols = s.cis.cols := rfl
@[simp] theorem State.setChan_cis_fills : (s.setChan st c x).cis.fills = s.cis.fills := rfl
@[simp] theorem State.setChan_cis_exc : (s.setChan st c x).cis.exc = s.cis.exc := rfl
@[simp] theorem State.setChan_cis_withdrawn : (s.setChan st c x).cis.withdrawn = s.cis.withdrawn := rfl
@[simp] theorem State.setChan_cis_resUsed : (s.setChan st c x).cis.resUsed = s.cis.resUsed := rfl
@[simp] theorem State.setChan_cis_retrainQ : (s.setChan st c x).cis.retrainQ = s.cis.retrainQ := rfl
@[simp] theorem State.setChan_cis_held : (s.setChan st c x).cis.held = s.cis.held := rfl
@[simp] theorem State.setChan_cis_yield : (s.setChan st c x).cis.yield = s.cis.yield := rfl
@[simp] theorem State.setChan_cis_ceWin : (s.setChan st c x).cis.ceWin = s.cis.ceWin := rfl
@[simp] theorem State.setChan_cis_linkWin : (s.setChan st c x).cis.linkWin = s.cis.linkWin := rfl
@[simp] theorem State.setChan_cis_scrubAt : (s.setChan st c x).cis.scrubAt = s.cis.scrubAt := rfl
@[simp] theorem State.setChan_cis_selfRefresh : (s.setChan st c x).cis.selfRefresh = s.cis.selfRefresh := rfl
@[simp] theorem State.setChan_cis_repair : (s.setChan st c x).cis.repair = s.cis.repair := rfl
@[simp] theorem State.setChan_cis_rowsUsed : (s.setChan st c x).cis.rowsUsed = s.cis.rowsUsed := rfl
@[simp] theorem State.setChan_cis_measuring : (s.setChan st c x).cis.measuring = s.cis.measuring := rfl
@[simp] theorem State.setChan_cis_slowRun : (s.setChan st c x).cis.slowRun = s.cis.slowRun := rfl
@[simp] theorem State.setChan_cis_fastRun : (s.setChan st c x).cis.fastRun = s.cis.fastRun := rfl
@[simp] theorem State.setChan_cis_dead : (s.setChan st c x).cis.dead = s.cis.dead := rfl
@[simp] theorem State.setChan_cis_weightPend : (s.setChan st c x).cis.weightPend = s.cis.weightPend := rfl
end

/-! ### setTag -/
section
variable (s : State) (st t : Nat) (x : BktTag)
@[simp] theorem State.setTag_regs : (s.setTag st t x).regs = s.regs := rfl
@[simp] theorem State.setTag_stage : (s.setTag st t x).stage = s.stage := rfl
@[simp] theorem State.setTag_latch : (s.setTag st t x).latch = s.latch := rfl
@[simp] theorem State.setTag_hostTime : (s.setTag st t x).hostTime = s.hostTime := rfl
@[simp] theorem State.setTag_inflight : (s.setTag st t x).inflight = s.inflight := rfl
@[simp] theorem State.setTag_copies : (s.setTag st t x).copies = s.copies := rfl
@[simp] theorem State.setTag_watches : (s.setTag st t x).watches = s.watches := rfl
@[simp] theorem State.setTag_errLog : (s.setTag st t x).errLog = s.errLog := rfl
@[simp] theorem State.setTag_flog : (s.setTag st t x).flog = s.flog := rfl
@[simp] theorem State.setTag_profile : (s.setTag st t x).profile = s.profile := rfl
@[simp] theorem State.setTag_cis : (s.setTag st t x).cis = s.cis := rfl
@[simp] theorem State.setTag_mem : (s.setTag st t x).mem = s.mem := rfl
@[simp] theorem State.setTag_pmp : (s.setTag st t x).pmp = s.pmp := rfl
@[simp] theorem State.setTag_engs : (s.setTag st t x).engs = s.engs := rfl
@[simp] theorem State.setTag_link : (s.setTag st t x).link = s.link := rfl
@[simp] theorem State.setTag_tel : (s.setTag st t x).tel = s.tel := rfl
@[simp] theorem State.setTag_sess : (s.setTag st t x).sess = s.sess := rfl
@[simp] theorem State.setTag_ses : (s.setTag st t x).ses = s.ses := rfl
@[simp] theorem State.setTag_keepers : (s.setTag st t x).keepers = s.keepers := rfl
@[simp] theorem State.setTag_boot : (s.setTag st t x).boot = s.boot := rfl
@[simp] theorem State.setTag_d3hot : (s.setTag st t x).d3hot = s.d3hot := rfl
@[simp] theorem State.setTag_waiting : (s.setTag st t x).waiting = s.waiting := rfl
@[simp] theorem State.setTag_egress : (s.setTag st t x).egress = s.egress := rfl
@[simp] theorem State.setTag_free : (s.setTag st t x).free = s.free := rfl
@[simp] theorem State.setTag_pending : (s.setTag st t x).pending = s.pending := rfl
@[simp] theorem State.setTag_bkt_query : (s.setTag st t x).bkt.query = s.bkt.query := rfl
@[simp] theorem State.setTag_bkt_record : (s.setTag st t x).bkt.record = s.bkt.record := rfl
@[simp] theorem State.setTag_bkt_ring : (s.setTag st t x).bkt.ring = s.bkt.ring := rfl
@[simp] theorem State.setTag_bkt_tail : (s.setTag st t x).bkt.tail = s.bkt.tail := rfl
@[simp] theorem State.setTag_bkt_head : (s.setTag st t x).bkt.head = s.bkt.head := rfl
@[simp] theorem State.setTag_bkt_entries : (s.setTag st t x).bkt.entries = s.bkt.entries := rfl
@[simp] theorem State.setTag_bkt_slots : (s.setTag st t x).bkt.slots = s.bkt.slots := rfl
@[simp] theorem State.setTag_bkt_units : (s.setTag st t x).bkt.units = s.bkt.units := rfl
@[simp] theorem State.setTag_bkt_store : (s.setTag st t x).bkt.store = s.bkt.store := rfl
@[simp] theorem State.setTag_bkt_bus : (s.setTag st t x).bkt.bus = s.bkt.bus := rfl
@[simp] theorem State.setTag_bkt_opens : (s.setTag st t x).bkt.opens = s.bkt.opens := rfl
@[simp] theorem State.setTag_bkt_retired : (s.setTag st t x).bkt.retired = s.bkt.retired := rfl
end

/-! ### setUnit -/
section
variable (s : State) (k : Nat) (u : BktUnit)
@[simp] theorem State.setUnit_regs : (s.setUnit k u).regs = s.regs := rfl
@[simp] theorem State.setUnit_stage : (s.setUnit k u).stage = s.stage := rfl
@[simp] theorem State.setUnit_latch : (s.setUnit k u).latch = s.latch := rfl
@[simp] theorem State.setUnit_hostTime : (s.setUnit k u).hostTime = s.hostTime := rfl
@[simp] theorem State.setUnit_inflight : (s.setUnit k u).inflight = s.inflight := rfl
@[simp] theorem State.setUnit_copies : (s.setUnit k u).copies = s.copies := rfl
@[simp] theorem State.setUnit_watches : (s.setUnit k u).watches = s.watches := rfl
@[simp] theorem State.setUnit_errLog : (s.setUnit k u).errLog = s.errLog := rfl
@[simp] theorem State.setUnit_flog : (s.setUnit k u).flog = s.flog := rfl
@[simp] theorem State.setUnit_profile : (s.setUnit k u).profile = s.profile := rfl
@[simp] theorem State.setUnit_cis : (s.setUnit k u).cis = s.cis := rfl
@[simp] theorem State.setUnit_mem : (s.setUnit k u).mem = s.mem := rfl
@[simp] theorem State.setUnit_pmp : (s.setUnit k u).pmp = s.pmp := rfl
@[simp] theorem State.setUnit_engs : (s.setUnit k u).engs = s.engs := rfl
@[simp] theorem State.setUnit_link : (s.setUnit k u).link = s.link := rfl
@[simp] theorem State.setUnit_tel : (s.setUnit k u).tel = s.tel := rfl
@[simp] theorem State.setUnit_sess : (s.setUnit k u).sess = s.sess := rfl
@[simp] theorem State.setUnit_ses : (s.setUnit k u).ses = s.ses := rfl
@[simp] theorem State.setUnit_keepers : (s.setUnit k u).keepers = s.keepers := rfl
@[simp] theorem State.setUnit_boot : (s.setUnit k u).boot = s.boot := rfl
@[simp] theorem State.setUnit_d3hot : (s.setUnit k u).d3hot = s.d3hot := rfl
@[simp] theorem State.setUnit_waiting : (s.setUnit k u).waiting = s.waiting := rfl
@[simp] theorem State.setUnit_egress : (s.setUnit k u).egress = s.egress := rfl
@[simp] theorem State.setUnit_free : (s.setUnit k u).free = s.free := rfl
@[simp] theorem State.setUnit_pending : (s.setUnit k u).pending = s.pending := rfl
@[simp] theorem State.setUnit_bkt_query : (s.setUnit k u).bkt.query = s.bkt.query := rfl
@[simp] theorem State.setUnit_bkt_record : (s.setUnit k u).bkt.record = s.bkt.record := rfl
@[simp] theorem State.setUnit_bkt_ring : (s.setUnit k u).bkt.ring = s.bkt.ring := rfl
@[simp] theorem State.setUnit_bkt_tail : (s.setUnit k u).bkt.tail = s.bkt.tail := rfl
@[simp] theorem State.setUnit_bkt_head : (s.setUnit k u).bkt.head = s.bkt.head := rfl
@[simp] theorem State.setUnit_bkt_entries : (s.setUnit k u).bkt.entries = s.bkt.entries := rfl
@[simp] theorem State.setUnit_bkt_tags : (s.setUnit k u).bkt.tags = s.bkt.tags := rfl
@[simp] theorem State.setUnit_bkt_slots : (s.setUnit k u).bkt.slots = s.bkt.slots := rfl
@[simp] theorem State.setUnit_bkt_store : (s.setUnit k u).bkt.store = s.bkt.store := rfl
@[simp] theorem State.setUnit_bkt_bus : (s.setUnit k u).bkt.bus = s.bkt.bus := rfl
@[simp] theorem State.setUnit_bkt_opens : (s.setUnit k u).bkt.opens = s.bkt.opens := rfl
@[simp] theorem State.setUnit_bkt_retired : (s.setUnit k u).bkt.retired = s.bkt.retired := rfl
end

/-! ### setEntries -/
section
variable (s : State) (st t : Nat) (l : List RunEntry)
@[simp] theorem State.setEntries_regs : (s.setEntries st t l).regs = s.regs := rfl
@[simp] theorem State.setEntries_stage : (s.setEntries st t l).stage = s.stage := rfl
@[simp] theorem State.setEntries_latch : (s.setEntries st t l).latch = s.latch := rfl
@[simp] theorem State.setEntries_hostTime : (s.setEntries st t l).hostTime = s.hostTime := rfl
@[simp] theorem State.setEntries_inflight : (s.setEntries st t l).inflight = s.inflight := rfl
@[simp] theorem State.setEntries_copies : (s.setEntries st t l).copies = s.copies := rfl
@[simp] theorem State.setEntries_watches : (s.setEntries st t l).watches = s.watches := rfl
@[simp] theorem State.setEntries_errLog : (s.setEntries st t l).errLog = s.errLog := rfl
@[simp] theorem State.setEntries_flog : (s.setEntries st t l).flog = s.flog := rfl
@[simp] theorem State.setEntries_profile : (s.setEntries st t l).profile = s.profile := rfl
@[simp] theorem State.setEntries_cis : (s.setEntries st t l).cis = s.cis := rfl
@[simp] theorem State.setEntries_mem : (s.setEntries st t l).mem = s.mem := rfl
@[simp] theorem State.setEntries_pmp : (s.setEntries st t l).pmp = s.pmp := rfl
@[simp] theorem State.setEntries_engs : (s.setEntries st t l).engs = s.engs := rfl
@[simp] theorem State.setEntries_link : (s.setEntries st t l).link = s.link := rfl
@[simp] theorem State.setEntries_tel : (s.setEntries st t l).tel = s.tel := rfl
@[simp] theorem State.setEntries_sess : (s.setEntries st t l).sess = s.sess := rfl
@[simp] theorem State.setEntries_ses : (s.setEntries st t l).ses = s.ses := rfl
@[simp] theorem State.setEntries_keepers : (s.setEntries st t l).keepers = s.keepers := rfl
@[simp] theorem State.setEntries_boot : (s.setEntries st t l).boot = s.boot := rfl
@[simp] theorem State.setEntries_d3hot : (s.setEntries st t l).d3hot = s.d3hot := rfl
@[simp] theorem State.setEntries_waiting : (s.setEntries st t l).waiting = s.waiting := rfl
@[simp] theorem State.setEntries_egress : (s.setEntries st t l).egress = s.egress := rfl
@[simp] theorem State.setEntries_free : (s.setEntries st t l).free = s.free := rfl
@[simp] theorem State.setEntries_pending : (s.setEntries st t l).pending = s.pending := rfl
@[simp] theorem State.setEntries_bkt_query : (s.setEntries st t l).bkt.query = s.bkt.query := rfl
@[simp] theorem State.setEntries_bkt_record : (s.setEntries st t l).bkt.record = s.bkt.record := rfl
@[simp] theorem State.setEntries_bkt_ring : (s.setEntries st t l).bkt.ring = s.bkt.ring := rfl
@[simp] theorem State.setEntries_bkt_tail : (s.setEntries st t l).bkt.tail = s.bkt.tail := rfl
@[simp] theorem State.setEntries_bkt_head : (s.setEntries st t l).bkt.head = s.bkt.head := rfl
@[simp] theorem State.setEntries_bkt_tags : (s.setEntries st t l).bkt.tags = s.bkt.tags := rfl
@[simp] theorem State.setEntries_bkt_slots : (s.setEntries st t l).bkt.slots = s.bkt.slots := rfl
@[simp] theorem State.setEntries_bkt_units : (s.setEntries st t l).bkt.units = s.bkt.units := rfl
@[simp] theorem State.setEntries_bkt_store : (s.setEntries st t l).bkt.store = s.bkt.store := rfl
@[simp] theorem State.setEntries_bkt_bus : (s.setEntries st t l).bkt.bus = s.bkt.bus := rfl
@[simp] theorem State.setEntries_bkt_opens : (s.setEntries st t l).bkt.opens = s.bkt.opens := rfl
@[simp] theorem State.setEntries_bkt_retired : (s.setEntries st t l).bkt.retired = s.bkt.retired := rfl
end

/-! ### setSlotWord -/
section
variable (s : State) (st t w : Nat) (v : W32)
@[simp] theorem State.setSlotWord_regs : (s.setSlotWord st t w v).regs = s.regs := rfl
@[simp] theorem State.setSlotWord_stage : (s.setSlotWord st t w v).stage = s.stage := rfl
@[simp] theorem State.setSlotWord_latch : (s.setSlotWord st t w v).latch = s.latch := rfl
@[simp] theorem State.setSlotWord_hostTime : (s.setSlotWord st t w v).hostTime = s.hostTime := rfl
@[simp] theorem State.setSlotWord_inflight : (s.setSlotWord st t w v).inflight = s.inflight := rfl
@[simp] theorem State.setSlotWord_copies : (s.setSlotWord st t w v).copies = s.copies := rfl
@[simp] theorem State.setSlotWord_watches : (s.setSlotWord st t w v).watches = s.watches := rfl
@[simp] theorem State.setSlotWord_errLog : (s.setSlotWord st t w v).errLog = s.errLog := rfl
@[simp] theorem State.setSlotWord_flog : (s.setSlotWord st t w v).flog = s.flog := rfl
@[simp] theorem State.setSlotWord_profile : (s.setSlotWord st t w v).profile = s.profile := rfl
@[simp] theorem State.setSlotWord_cis : (s.setSlotWord st t w v).cis = s.cis := rfl
@[simp] theorem State.setSlotWord_mem : (s.setSlotWord st t w v).mem = s.mem := rfl
@[simp] theorem State.setSlotWord_pmp : (s.setSlotWord st t w v).pmp = s.pmp := rfl
@[simp] theorem State.setSlotWord_engs : (s.setSlotWord st t w v).engs = s.engs := rfl
@[simp] theorem State.setSlotWord_link : (s.setSlotWord st t w v).link = s.link := rfl
@[simp] theorem State.setSlotWord_tel : (s.setSlotWord st t w v).tel = s.tel := rfl
@[simp] theorem State.setSlotWord_sess : (s.setSlotWord st t w v).sess = s.sess := rfl
@[simp] theorem State.setSlotWord_ses : (s.setSlotWord st t w v).ses = s.ses := rfl
@[simp] theorem State.setSlotWord_keepers : (s.setSlotWord st t w v).keepers = s.keepers := rfl
@[simp] theorem State.setSlotWord_boot : (s.setSlotWord st t w v).boot = s.boot := rfl
@[simp] theorem State.setSlotWord_d3hot : (s.setSlotWord st t w v).d3hot = s.d3hot := rfl
@[simp] theorem State.setSlotWord_waiting : (s.setSlotWord st t w v).waiting = s.waiting := rfl
@[simp] theorem State.setSlotWord_egress : (s.setSlotWord st t w v).egress = s.egress := rfl
@[simp] theorem State.setSlotWord_free : (s.setSlotWord st t w v).free = s.free := rfl
@[simp] theorem State.setSlotWord_pending : (s.setSlotWord st t w v).pending = s.pending := rfl
@[simp] theorem State.setSlotWord_bkt_query : (s.setSlotWord st t w v).bkt.query = s.bkt.query := rfl
@[simp] theorem State.setSlotWord_bkt_record : (s.setSlotWord st t w v).bkt.record = s.bkt.record := rfl
@[simp] theorem State.setSlotWord_bkt_ring : (s.setSlotWord st t w v).bkt.ring = s.bkt.ring := rfl
@[simp] theorem State.setSlotWord_bkt_tail : (s.setSlotWord st t w v).bkt.tail = s.bkt.tail := rfl
@[simp] theorem State.setSlotWord_bkt_head : (s.setSlotWord st t w v).bkt.head = s.bkt.head := rfl
@[simp] theorem State.setSlotWord_bkt_entries : (s.setSlotWord st t w v).bkt.entries = s.bkt.entries := rfl
@[simp] theorem State.setSlotWord_bkt_tags : (s.setSlotWord st t w v).bkt.tags = s.bkt.tags := rfl
@[simp] theorem State.setSlotWord_bkt_units : (s.setSlotWord st t w v).bkt.units = s.bkt.units := rfl
@[simp] theorem State.setSlotWord_bkt_store : (s.setSlotWord st t w v).bkt.store = s.bkt.store := rfl
@[simp] theorem State.setSlotWord_bkt_bus : (s.setSlotWord st t w v).bkt.bus = s.bkt.bus := rfl
@[simp] theorem State.setSlotWord_bkt_opens : (s.setSlotWord st t w v).bkt.opens = s.bkt.opens := rfl
@[simp] theorem State.setSlotWord_bkt_retired : (s.setSlotWord st t w v).bkt.retired = s.bkt.retired := rfl
end

/-! ### setSlotWords -/
section
variable (s : State) (st t w : Nat) (vs : List W32)
@[simp] theorem State.setSlotWords_regs : (s.setSlotWords st t w vs).regs = s.regs := rfl
@[simp] theorem State.setSlotWords_stage : (s.setSlotWords st t w vs).stage = s.stage := rfl
@[simp] theorem State.setSlotWords_latch : (s.setSlotWords st t w vs).latch = s.latch := rfl
@[simp] theorem State.setSlotWords_hostTime : (s.setSlotWords st t w vs).hostTime = s.hostTime := rfl
@[simp] theorem State.setSlotWords_inflight : (s.setSlotWords st t w vs).inflight = s.inflight := rfl
@[simp] theorem State.setSlotWords_copies : (s.setSlotWords st t w vs).copies = s.copies := rfl
@[simp] theorem State.setSlotWords_watches : (s.setSlotWords st t w vs).watches = s.watches := rfl
@[simp] theorem State.setSlotWords_errLog : (s.setSlotWords st t w vs).errLog = s.errLog := rfl
@[simp] theorem State.setSlotWords_flog : (s.setSlotWords st t w vs).flog = s.flog := rfl
@[simp] theorem State.setSlotWords_profile : (s.setSlotWords st t w vs).profile = s.profile := rfl
@[simp] theorem State.setSlotWords_cis : (s.setSlotWords st t w vs).cis = s.cis := rfl
@[simp] theorem State.setSlotWords_mem : (s.setSlotWords st t w vs).mem = s.mem := rfl
@[simp] theorem State.setSlotWords_pmp : (s.setSlotWords st t w vs).pmp = s.pmp := rfl
@[simp] theorem State.setSlotWords_engs : (s.setSlotWords st t w vs).engs = s.engs := rfl
@[simp] theorem State.setSlotWords_link : (s.setSlotWords st t w vs).link = s.link := rfl
@[simp] theorem State.setSlotWords_tel : (s.setSlotWords st t w vs).tel = s.tel := rfl
@[simp] theorem State.setSlotWords_sess : (s.setSlotWords st t w vs).sess = s.sess := rfl
@[simp] theorem State.setSlotWords_ses : (s.setSlotWords st t w vs).ses = s.ses := rfl
@[simp] theorem State.setSlotWords_keepers : (s.setSlotWords st t w vs).keepers = s.keepers := rfl
@[simp] theorem State.setSlotWords_boot : (s.setSlotWords st t w vs).boot = s.boot := rfl
@[simp] theorem State.setSlotWords_d3hot : (s.setSlotWords st t w vs).d3hot = s.d3hot := rfl
@[simp] theorem State.setSlotWords_waiting : (s.setSlotWords st t w vs).waiting = s.waiting := rfl
@[simp] theorem State.setSlotWords_egress : (s.setSlotWords st t w vs).egress = s.egress := rfl
@[simp] theorem State.setSlotWords_free : (s.setSlotWords st t w vs).free = s.free := rfl
@[simp] theorem State.setSlotWords_pending : (s.setSlotWords st t w vs).pending = s.pending := rfl
@[simp] theorem State.setSlotWords_bkt_query : (s.setSlotWords st t w vs).bkt.query = s.bkt.query := rfl
@[simp] theorem State.setSlotWords_bkt_record : (s.setSlotWords st t w vs).bkt.record = s.bkt.record := rfl
@[simp] theorem State.setSlotWords_bkt_ring : (s.setSlotWords st t w vs).bkt.ring = s.bkt.ring := rfl
@[simp] theorem State.setSlotWords_bkt_tail : (s.setSlotWords st t w vs).bkt.tail = s.bkt.tail := rfl
@[simp] theorem State.setSlotWords_bkt_head : (s.setSlotWords st t w vs).bkt.head = s.bkt.head := rfl
@[simp] theorem State.setSlotWords_bkt_entries : (s.setSlotWords st t w vs).bkt.entries = s.bkt.entries := rfl
@[simp] theorem State.setSlotWords_bkt_tags : (s.setSlotWords st t w vs).bkt.tags = s.bkt.tags := rfl
@[simp] theorem State.setSlotWords_bkt_units : (s.setSlotWords st t w vs).bkt.units = s.bkt.units := rfl
@[simp] theorem State.setSlotWords_bkt_store : (s.setSlotWords st t w vs).bkt.store = s.bkt.store := rfl
@[simp] theorem State.setSlotWords_bkt_bus : (s.setSlotWords st t w vs).bkt.bus = s.bkt.bus := rfl
@[simp] theorem State.setSlotWords_bkt_opens : (s.setSlotWords st t w vs).bkt.opens = s.bkt.opens := rfl
@[simp] theorem State.setSlotWords_bkt_retired : (s.setSlotWords st t w vs).bkt.retired = s.bkt.retired := rfl
end

/-! ### setBus -/
section
variable (s : State) (st pc : Nat) (l : List Xfer)
@[simp] theorem State.setBus_regs : (s.setBus st pc l).regs = s.regs := rfl
@[simp] theorem State.setBus_stage : (s.setBus st pc l).stage = s.stage := rfl
@[simp] theorem State.setBus_latch : (s.setBus st pc l).latch = s.latch := rfl
@[simp] theorem State.setBus_hostTime : (s.setBus st pc l).hostTime = s.hostTime := rfl
@[simp] theorem State.setBus_inflight : (s.setBus st pc l).inflight = s.inflight := rfl
@[simp] theorem State.setBus_copies : (s.setBus st pc l).copies = s.copies := rfl
@[simp] theorem State.setBus_watches : (s.setBus st pc l).watches = s.watches := rfl
@[simp] theorem State.setBus_errLog : (s.setBus st pc l).errLog = s.errLog := rfl
@[simp] theorem State.setBus_flog : (s.setBus st pc l).flog = s.flog := rfl
@[simp] theorem State.setBus_profile : (s.setBus st pc l).profile = s.profile := rfl
@[simp] theorem State.setBus_cis : (s.setBus st pc l).cis = s.cis := rfl
@[simp] theorem State.setBus_mem : (s.setBus st pc l).mem = s.mem := rfl
@[simp] theorem State.setBus_pmp : (s.setBus st pc l).pmp = s.pmp := rfl
@[simp] theorem State.setBus_engs : (s.setBus st pc l).engs = s.engs := rfl
@[simp] theorem State.setBus_link : (s.setBus st pc l).link = s.link := rfl
@[simp] theorem State.setBus_tel : (s.setBus st pc l).tel = s.tel := rfl
@[simp] theorem State.setBus_sess : (s.setBus st pc l).sess = s.sess := rfl
@[simp] theorem State.setBus_ses : (s.setBus st pc l).ses = s.ses := rfl
@[simp] theorem State.setBus_keepers : (s.setBus st pc l).keepers = s.keepers := rfl
@[simp] theorem State.setBus_boot : (s.setBus st pc l).boot = s.boot := rfl
@[simp] theorem State.setBus_d3hot : (s.setBus st pc l).d3hot = s.d3hot := rfl
@[simp] theorem State.setBus_waiting : (s.setBus st pc l).waiting = s.waiting := rfl
@[simp] theorem State.setBus_egress : (s.setBus st pc l).egress = s.egress := rfl
@[simp] theorem State.setBus_free : (s.setBus st pc l).free = s.free := rfl
@[simp] theorem State.setBus_pending : (s.setBus st pc l).pending = s.pending := rfl
@[simp] theorem State.setBus_bkt_query : (s.setBus st pc l).bkt.query = s.bkt.query := rfl
@[simp] theorem State.setBus_bkt_record : (s.setBus st pc l).bkt.record = s.bkt.record := rfl
@[simp] theorem State.setBus_bkt_ring : (s.setBus st pc l).bkt.ring = s.bkt.ring := rfl
@[simp] theorem State.setBus_bkt_tail : (s.setBus st pc l).bkt.tail = s.bkt.tail := rfl
@[simp] theorem State.setBus_bkt_head : (s.setBus st pc l).bkt.head = s.bkt.head := rfl
@[simp] theorem State.setBus_bkt_entries : (s.setBus st pc l).bkt.entries = s.bkt.entries := rfl
@[simp] theorem State.setBus_bkt_tags : (s.setBus st pc l).bkt.tags = s.bkt.tags := rfl
@[simp] theorem State.setBus_bkt_slots : (s.setBus st pc l).bkt.slots = s.bkt.slots := rfl
@[simp] theorem State.setBus_bkt_units : (s.setBus st pc l).bkt.units = s.bkt.units := rfl
@[simp] theorem State.setBus_bkt_store : (s.setBus st pc l).bkt.store = s.bkt.store := rfl
@[simp] theorem State.setBus_bkt_opens : (s.setBus st pc l).bkt.opens = s.bkt.opens := rfl
@[simp] theorem State.setBus_bkt_retired : (s.setBus st pc l).bkt.retired = s.bkt.retired := rfl
end

/-! ### issue -/
section
variable (s : State) (st pc : Nat) (x : Xfer)
@[simp] theorem State.issue_regs : (s.issue st pc x).regs = s.regs := rfl
@[simp] theorem State.issue_stage : (s.issue st pc x).stage = s.stage := rfl
@[simp] theorem State.issue_latch : (s.issue st pc x).latch = s.latch := rfl
@[simp] theorem State.issue_hostTime : (s.issue st pc x).hostTime = s.hostTime := rfl
@[simp] theorem State.issue_inflight : (s.issue st pc x).inflight = s.inflight := rfl
@[simp] theorem State.issue_copies : (s.issue st pc x).copies = s.copies := rfl
@[simp] theorem State.issue_watches : (s.issue st pc x).watches = s.watches := rfl
@[simp] theorem State.issue_errLog : (s.issue st pc x).errLog = s.errLog := rfl
@[simp] theorem State.issue_flog : (s.issue st pc x).flog = s.flog := rfl
@[simp] theorem State.issue_profile : (s.issue st pc x).profile = s.profile := rfl
@[simp] theorem State.issue_cis : (s.issue st pc x).cis = s.cis := rfl
@[simp] theorem State.issue_mem : (s.issue st pc x).mem = s.mem := rfl
@[simp] theorem State.issue_pmp : (s.issue st pc x).pmp = s.pmp := rfl
@[simp] theorem State.issue_engs : (s.issue st pc x).engs = s.engs := rfl
@[simp] theorem State.issue_link : (s.issue st pc x).link = s.link := rfl
@[simp] theorem State.issue_tel : (s.issue st pc x).tel = s.tel := rfl
@[simp] theorem State.issue_sess : (s.issue st pc x).sess = s.sess := rfl
@[simp] theorem State.issue_ses : (s.issue st pc x).ses = s.ses := rfl
@[simp] theorem State.issue_keepers : (s.issue st pc x).keepers = s.keepers := rfl
@[simp] theorem State.issue_boot : (s.issue st pc x).boot = s.boot := rfl
@[simp] theorem State.issue_d3hot : (s.issue st pc x).d3hot = s.d3hot := rfl
@[simp] theorem State.issue_waiting : (s.issue st pc x).waiting = s.waiting := rfl
@[simp] theorem State.issue_egress : (s.issue st pc x).egress = s.egress := rfl
@[simp] theorem State.issue_free : (s.issue st pc x).free = s.free := rfl
@[simp] theorem State.issue_pending : (s.issue st pc x).pending = s.pending := rfl
@[simp] theorem State.issue_bkt_query : (s.issue st pc x).bkt.query = s.bkt.query := rfl
@[simp] theorem State.issue_bkt_record : (s.issue st pc x).bkt.record = s.bkt.record := rfl
@[simp] theorem State.issue_bkt_ring : (s.issue st pc x).bkt.ring = s.bkt.ring := rfl
@[simp] theorem State.issue_bkt_tail : (s.issue st pc x).bkt.tail = s.bkt.tail := rfl
@[simp] theorem State.issue_bkt_head : (s.issue st pc x).bkt.head = s.bkt.head := rfl
@[simp] theorem State.issue_bkt_entries : (s.issue st pc x).bkt.entries = s.bkt.entries := rfl
@[simp] theorem State.issue_bkt_tags : (s.issue st pc x).bkt.tags = s.bkt.tags := rfl
@[simp] theorem State.issue_bkt_slots : (s.issue st pc x).bkt.slots = s.bkt.slots := rfl
@[simp] theorem State.issue_bkt_units : (s.issue st pc x).bkt.units = s.bkt.units := rfl
@[simp] theorem State.issue_bkt_store : (s.issue st pc x).bkt.store = s.bkt.store := rfl
@[simp] theorem State.issue_bkt_opens : (s.issue st pc x).bkt.opens = s.bkt.opens := rfl
@[simp] theorem State.issue_bkt_retired : (s.issue st pc x).bkt.retired = s.bkt.retired := rfl
end

/-! ### setObj -/
section
variable (s : State) (fn o : Nat) (x : Obj)
@[simp] theorem State.setObj_regs : (s.setObj fn o x).regs = s.regs := rfl
@[simp] theorem State.setObj_stage : (s.setObj fn o x).stage = s.stage := rfl
@[simp] theorem State.setObj_latch : (s.setObj fn o x).latch = s.latch := rfl
@[simp] theorem State.setObj_hostTime : (s.setObj fn o x).hostTime = s.hostTime := rfl
@[simp] theorem State.setObj_inflight : (s.setObj fn o x).inflight = s.inflight := rfl
@[simp] theorem State.setObj_copies : (s.setObj fn o x).copies = s.copies := rfl
@[simp] theorem State.setObj_watches : (s.setObj fn o x).watches = s.watches := rfl
@[simp] theorem State.setObj_errLog : (s.setObj fn o x).errLog = s.errLog := rfl
@[simp] theorem State.setObj_flog : (s.setObj fn o x).flog = s.flog := rfl
@[simp] theorem State.setObj_profile : (s.setObj fn o x).profile = s.profile := rfl
@[simp] theorem State.setObj_cis : (s.setObj fn o x).cis = s.cis := rfl
@[simp] theorem State.setObj_bkt : (s.setObj fn o x).bkt = s.bkt := rfl
@[simp] theorem State.setObj_pmp : (s.setObj fn o x).pmp = s.pmp := rfl
@[simp] theorem State.setObj_engs : (s.setObj fn o x).engs = s.engs := rfl
@[simp] theorem State.setObj_link : (s.setObj fn o x).link = s.link := rfl
@[simp] theorem State.setObj_tel : (s.setObj fn o x).tel = s.tel := rfl
@[simp] theorem State.setObj_sess : (s.setObj fn o x).sess = s.sess := rfl
@[simp] theorem State.setObj_ses : (s.setObj fn o x).ses = s.ses := rfl
@[simp] theorem State.setObj_keepers : (s.setObj fn o x).keepers = s.keepers := rfl
@[simp] theorem State.setObj_boot : (s.setObj fn o x).boot = s.boot := rfl
@[simp] theorem State.setObj_d3hot : (s.setObj fn o x).d3hot = s.d3hot := rfl
@[simp] theorem State.setObj_waiting : (s.setObj fn o x).waiting = s.waiting := rfl
@[simp] theorem State.setObj_egress : (s.setObj fn o x).egress = s.egress := rfl
@[simp] theorem State.setObj_free : (s.setObj fn o x).free = s.free := rfl
@[simp] theorem State.setObj_pending : (s.setObj fn o x).pending = s.pending := rfl
@[simp] theorem State.setObj_mem_tiles : (s.setObj fn o x).mem.tiles = s.mem.tiles := rfl
@[simp] theorem State.setObj_mem_frames : (s.setObj fn o x).mem.frames = s.mem.frames := rfl
@[simp] theorem State.setObj_mem_well : (s.setObj fn o x).mem.well = s.mem.well := rfl
@[simp] theorem State.setObj_mem_wellBad : (s.setObj fn o x).mem.wellBad = s.mem.wellBad := rfl
@[simp] theorem State.setObj_mem_lines : (s.setObj fn o x).mem.lines = s.mem.lines := rfl
@[simp] theorem State.setObj_mem_slots : (s.setObj fn o x).mem.slots = s.mem.slots := rfl
@[simp] theorem State.setObj_mem_sumpUse : (s.setObj fn o x).mem.sumpUse = s.mem.sumpUse := rfl
@[simp] theorem State.setObj_mem_sump : (s.setObj fn o x).mem.sump = s.mem.sump := rfl
@[simp] theorem State.setObj_mem_sumpBad : (s.setObj fn o x).mem.sumpBad = s.mem.sumpBad := rfl
@[simp] theorem State.setObj_mem_goldBytes : (s.setObj fn o x).mem.goldBytes = s.mem.goldBytes := rfl
@[simp] theorem State.setObj_mem_moves : (s.setObj fn o x).mem.moves = s.mem.moves := rfl
@[simp] theorem State.setObj_mem_wellCe : (s.setObj fn o x).mem.wellCe = s.mem.wellCe := rfl
@[simp] theorem State.setObj_mem_primeNow : (s.setObj fn o x).mem.primeNow = s.mem.primeNow := rfl
@[simp] theorem State.setObj_mem_switching : (s.setObj fn o x).mem.switching = s.mem.switching := rfl
@[simp] theorem State.setObj_mem_restoring : (s.setObj fn o x).mem.restoring = s.mem.restoring := rfl
@[simp] theorem State.setObj_mem_unrest : (s.setObj fn o x).mem.unrest = s.mem.unrest := rfl
@[simp] theorem State.setObj_mem_refetch : (s.setObj fn o x).mem.refetch = s.mem.refetch := rfl
end

/-! ### setTile -/
section
variable (s : State) (k : Nat) (x : TileRec)
@[simp] theorem State.setTile_regs : (s.setTile k x).regs = s.regs := rfl
@[simp] theorem State.setTile_stage : (s.setTile k x).stage = s.stage := rfl
@[simp] theorem State.setTile_latch : (s.setTile k x).latch = s.latch := rfl
@[simp] theorem State.setTile_hostTime : (s.setTile k x).hostTime = s.hostTime := rfl
@[simp] theorem State.setTile_inflight : (s.setTile k x).inflight = s.inflight := rfl
@[simp] theorem State.setTile_copies : (s.setTile k x).copies = s.copies := rfl
@[simp] theorem State.setTile_watches : (s.setTile k x).watches = s.watches := rfl
@[simp] theorem State.setTile_errLog : (s.setTile k x).errLog = s.errLog := rfl
@[simp] theorem State.setTile_flog : (s.setTile k x).flog = s.flog := rfl
@[simp] theorem State.setTile_profile : (s.setTile k x).profile = s.profile := rfl
@[simp] theorem State.setTile_cis : (s.setTile k x).cis = s.cis := rfl
@[simp] theorem State.setTile_bkt : (s.setTile k x).bkt = s.bkt := rfl
@[simp] theorem State.setTile_pmp : (s.setTile k x).pmp = s.pmp := rfl
@[simp] theorem State.setTile_engs : (s.setTile k x).engs = s.engs := rfl
@[simp] theorem State.setTile_link : (s.setTile k x).link = s.link := rfl
@[simp] theorem State.setTile_tel : (s.setTile k x).tel = s.tel := rfl
@[simp] theorem State.setTile_sess : (s.setTile k x).sess = s.sess := rfl
@[simp] theorem State.setTile_ses : (s.setTile k x).ses = s.ses := rfl
@[simp] theorem State.setTile_keepers : (s.setTile k x).keepers = s.keepers := rfl
@[simp] theorem State.setTile_boot : (s.setTile k x).boot = s.boot := rfl
@[simp] theorem State.setTile_d3hot : (s.setTile k x).d3hot = s.d3hot := rfl
@[simp] theorem State.setTile_waiting : (s.setTile k x).waiting = s.waiting := rfl
@[simp] theorem State.setTile_egress : (s.setTile k x).egress = s.egress := rfl
@[simp] theorem State.setTile_free : (s.setTile k x).free = s.free := rfl
@[simp] theorem State.setTile_pending : (s.setTile k x).pending = s.pending := rfl
@[simp] theorem State.setTile_mem_objs : (s.setTile k x).mem.objs = s.mem.objs := rfl
@[simp] theorem State.setTile_mem_frames : (s.setTile k x).mem.frames = s.mem.frames := rfl
@[simp] theorem State.setTile_mem_well : (s.setTile k x).mem.well = s.mem.well := rfl
@[simp] theorem State.setTile_mem_wellBad : (s.setTile k x).mem.wellBad = s.mem.wellBad := rfl
@[simp] theorem State.setTile_mem_lines : (s.setTile k x).mem.lines = s.mem.lines := rfl
@[simp] theorem State.setTile_mem_slots : (s.setTile k x).mem.slots = s.mem.slots := rfl
@[simp] theorem State.setTile_mem_sumpUse : (s.setTile k x).mem.sumpUse = s.mem.sumpUse := rfl
@[simp] theorem State.setTile_mem_sump : (s.setTile k x).mem.sump = s.mem.sump := rfl
@[simp] theorem State.setTile_mem_sumpBad : (s.setTile k x).mem.sumpBad = s.mem.sumpBad := rfl
@[simp] theorem State.setTile_mem_goldBytes : (s.setTile k x).mem.goldBytes = s.mem.goldBytes := rfl
@[simp] theorem State.setTile_mem_moves : (s.setTile k x).mem.moves = s.mem.moves := rfl
@[simp] theorem State.setTile_mem_wellCe : (s.setTile k x).mem.wellCe = s.mem.wellCe := rfl
@[simp] theorem State.setTile_mem_primeNow : (s.setTile k x).mem.primeNow = s.mem.primeNow := rfl
@[simp] theorem State.setTile_mem_switching : (s.setTile k x).mem.switching = s.mem.switching := rfl
@[simp] theorem State.setTile_mem_restoring : (s.setTile k x).mem.restoring = s.mem.restoring := rfl
@[simp] theorem State.setTile_mem_unrest : (s.setTile k x).mem.unrest = s.mem.unrest := rfl
@[simp] theorem State.setTile_mem_refetch : (s.setTile k x).mem.refetch = s.mem.refetch := rfl
end

/-! ### setPq -/
section
variable (s : State) (page q : Nat) (x : PmpQueue)
@[simp] theorem State.setPq_regs : (s.setPq page q x).regs = s.regs := rfl
@[simp] theorem State.setPq_stage : (s.setPq page q x).stage = s.stage := rfl
@[simp] theorem State.setPq_latch : (s.setPq page q x).latch = s.latch := rfl
@[simp] theorem State.setPq_hostTime : (s.setPq page q x).hostTime = s.hostTime := rfl
@[simp] theorem State.setPq_inflight : (s.setPq page q x).inflight = s.inflight := rfl
@[simp] theorem State.setPq_copies : (s.setPq page q x).copies = s.copies := rfl
@[simp] theorem State.setPq_watches : (s.setPq page q x).watches = s.watches := rfl
@[simp] theorem State.setPq_errLog : (s.setPq page q x).errLog = s.errLog := rfl
@[simp] theorem State.setPq_flog : (s.setPq page q x).flog = s.flog := rfl
@[simp] theorem State.setPq_profile : (s.setPq page q x).profile = s.profile := rfl
@[simp] theorem State.setPq_cis : (s.setPq page q x).cis = s.cis := rfl
@[simp] theorem State.setPq_bkt : (s.setPq page q x).bkt = s.bkt := rfl
@[simp] theorem State.setPq_mem : (s.setPq page q x).mem = s.mem := rfl
@[simp] theorem State.setPq_engs : (s.setPq page q x).engs = s.engs := rfl
@[simp] theorem State.setPq_link : (s.setPq page q x).link = s.link := rfl
@[simp] theorem State.setPq_tel : (s.setPq page q x).tel = s.tel := rfl
@[simp] theorem State.setPq_sess : (s.setPq page q x).sess = s.sess := rfl
@[simp] theorem State.setPq_ses : (s.setPq page q x).ses = s.ses := rfl
@[simp] theorem State.setPq_keepers : (s.setPq page q x).keepers = s.keepers := rfl
@[simp] theorem State.setPq_boot : (s.setPq page q x).boot = s.boot := rfl
@[simp] theorem State.setPq_d3hot : (s.setPq page q x).d3hot = s.d3hot := rfl
@[simp] theorem State.setPq_waiting : (s.setPq page q x).waiting = s.waiting := rfl
@[simp] theorem State.setPq_egress : (s.setPq page q x).egress = s.egress := rfl
@[simp] theorem State.setPq_free : (s.setPq page q x).free = s.free := rfl
@[simp] theorem State.setPq_pending : (s.setPq page q x).pending = s.pending := rfl
@[simp] theorem State.setPq_pmp_slots : (s.setPq page q x).pmp.slots = s.pmp.slots := rfl
@[simp] theorem State.setPq_pmp_flying : (s.setPq page q x).pmp.flying = s.pmp.flying := rfl
@[simp] theorem State.setPq_pmp_nextId : (s.setPq page q x).pmp.nextId = s.pmp.nextId := rfl
@[simp] theorem State.setPq_pmp_retired : (s.setPq page q x).pmp.retired = s.pmp.retired := rfl
@[simp] theorem State.setPq_pmp_nextTid : (s.setPq page q x).pmp.nextTid = s.pmp.nextTid := rfl
@[simp] theorem State.setPq_pmp_late : (s.setPq page q x).pmp.late = s.pmp.late := rfl
@[simp] theorem State.setPq_pmp_lostRounds : (s.setPq page q x).pmp.lostRounds = s.pmp.lostRounds := rfl
@[simp] theorem State.setPq_pmp_store : (s.setPq page q x).pmp.store = s.pmp.store := rfl
@[simp] theorem State.setPq_pmp_storeBad : (s.setPq page q x).pmp.storeBad = s.pmp.storeBad := rfl
end

/-! ### setTbl -/
section
variable (s : State) (i : Nat) (x : TblSlot)
@[simp] theorem State.setTbl_regs : (s.setTbl i x).regs = s.regs := rfl
@[simp] theorem State.setTbl_stage : (s.setTbl i x).stage = s.stage := rfl
@[simp] theorem State.setTbl_latch : (s.setTbl i x).latch = s.latch := rfl
@[simp] theorem State.setTbl_hostTime : (s.setTbl i x).hostTime = s.hostTime := rfl
@[simp] theorem State.setTbl_inflight : (s.setTbl i x).inflight = s.inflight := rfl
@[simp] theorem State.setTbl_copies : (s.setTbl i x).copies = s.copies := rfl
@[simp] theorem State.setTbl_watches : (s.setTbl i x).watches = s.watches := rfl
@[simp] theorem State.setTbl_errLog : (s.setTbl i x).errLog = s.errLog := rfl
@[simp] theorem State.setTbl_flog : (s.setTbl i x).flog = s.flog := rfl
@[simp] theorem State.setTbl_profile : (s.setTbl i x).profile = s.profile := rfl
@[simp] theorem State.setTbl_cis : (s.setTbl i x).cis = s.cis := rfl
@[simp] theorem State.setTbl_bkt : (s.setTbl i x).bkt = s.bkt := rfl
@[simp] theorem State.setTbl_mem : (s.setTbl i x).mem = s.mem := rfl
@[simp] theorem State.setTbl_engs : (s.setTbl i x).engs = s.engs := rfl
@[simp] theorem State.setTbl_link : (s.setTbl i x).link = s.link := rfl
@[simp] theorem State.setTbl_tel : (s.setTbl i x).tel = s.tel := rfl
@[simp] theorem State.setTbl_sess : (s.setTbl i x).sess = s.sess := rfl
@[simp] theorem State.setTbl_ses : (s.setTbl i x).ses = s.ses := rfl
@[simp] theorem State.setTbl_keepers : (s.setTbl i x).keepers = s.keepers := rfl
@[simp] theorem State.setTbl_boot : (s.setTbl i x).boot = s.boot := rfl
@[simp] theorem State.setTbl_d3hot : (s.setTbl i x).d3hot = s.d3hot := rfl
@[simp] theorem State.setTbl_waiting : (s.setTbl i x).waiting = s.waiting := rfl
@[simp] theorem State.setTbl_egress : (s.setTbl i x).egress = s.egress := rfl
@[simp] theorem State.setTbl_free : (s.setTbl i x).free = s.free := rfl
@[simp] theorem State.setTbl_pending : (s.setTbl i x).pending = s.pending := rfl
@[simp] theorem State.setTbl_pmp_queues : (s.setTbl i x).pmp.queues = s.pmp.queues := rfl
@[simp] theorem State.setTbl_pmp_flying : (s.setTbl i x).pmp.flying = s.pmp.flying := rfl
@[simp] theorem State.setTbl_pmp_nextId : (s.setTbl i x).pmp.nextId = s.pmp.nextId := rfl
@[simp] theorem State.setTbl_pmp_retired : (s.setTbl i x).pmp.retired = s.pmp.retired := rfl
@[simp] theorem State.setTbl_pmp_nextTid : (s.setTbl i x).pmp.nextTid = s.pmp.nextTid := rfl
@[simp] theorem State.setTbl_pmp_late : (s.setTbl i x).pmp.late = s.pmp.late := rfl
@[simp] theorem State.setTbl_pmp_lostRounds : (s.setTbl i x).pmp.lostRounds = s.pmp.lostRounds := rfl
@[simp] theorem State.setTbl_pmp_store : (s.setTbl i x).pmp.store = s.pmp.store := rfl
@[simp] theorem State.setTbl_pmp_storeBad : (s.setTbl i x).pmp.storeBad = s.pmp.storeBad := rfl
end

/-! ### setEng -/
section
variable (s : State) (e : Nat) (x : Eng)
@[simp] theorem State.setEng_regs : (s.setEng e x).regs = s.regs := rfl
@[simp] theorem State.setEng_stage : (s.setEng e x).stage = s.stage := rfl
@[simp] theorem State.setEng_latch : (s.setEng e x).latch = s.latch := rfl
@[simp] theorem State.setEng_hostTime : (s.setEng e x).hostTime = s.hostTime := rfl
@[simp] theorem State.setEng_inflight : (s.setEng e x).inflight = s.inflight := rfl
@[simp] theorem State.setEng_copies : (s.setEng e x).copies = s.copies := rfl
@[simp] theorem State.setEng_watches : (s.setEng e x).watches = s.watches := rfl
@[simp] theorem State.setEng_errLog : (s.setEng e x).errLog = s.errLog := rfl
@[simp] theorem State.setEng_flog : (s.setEng e x).flog = s.flog := rfl
@[simp] theorem State.setEng_profile : (s.setEng e x).profile = s.profile := rfl
@[simp] theorem State.setEng_cis : (s.setEng e x).cis = s.cis := rfl
@[simp] theorem State.setEng_bkt : (s.setEng e x).bkt = s.bkt := rfl
@[simp] theorem State.setEng_mem : (s.setEng e x).mem = s.mem := rfl
@[simp] theorem State.setEng_pmp : (s.setEng e x).pmp = s.pmp := rfl
@[simp] theorem State.setEng_link : (s.setEng e x).link = s.link := rfl
@[simp] theorem State.setEng_tel : (s.setEng e x).tel = s.tel := rfl
@[simp] theorem State.setEng_sess : (s.setEng e x).sess = s.sess := rfl
@[simp] theorem State.setEng_ses : (s.setEng e x).ses = s.ses := rfl
@[simp] theorem State.setEng_keepers : (s.setEng e x).keepers = s.keepers := rfl
@[simp] theorem State.setEng_boot : (s.setEng e x).boot = s.boot := rfl
@[simp] theorem State.setEng_d3hot : (s.setEng e x).d3hot = s.d3hot := rfl
@[simp] theorem State.setEng_waiting : (s.setEng e x).waiting = s.waiting := rfl
@[simp] theorem State.setEng_egress : (s.setEng e x).egress = s.egress := rfl
@[simp] theorem State.setEng_free : (s.setEng e x).free = s.free := rfl
@[simp] theorem State.setEng_pending : (s.setEng e x).pending = s.pending := rfl
end

/-! ### setCtx -/
section
variable (s : State) (e : Nat) (y : Bool) (c : ProgCtx)
@[simp] theorem State.setCtx_regs : (s.setCtx e y c).regs = s.regs := rfl
@[simp] theorem State.setCtx_stage : (s.setCtx e y c).stage = s.stage := rfl
@[simp] theorem State.setCtx_latch : (s.setCtx e y c).latch = s.latch := rfl
@[simp] theorem State.setCtx_hostTime : (s.setCtx e y c).hostTime = s.hostTime := rfl
@[simp] theorem State.setCtx_inflight : (s.setCtx e y c).inflight = s.inflight := rfl
@[simp] theorem State.setCtx_copies : (s.setCtx e y c).copies = s.copies := rfl
@[simp] theorem State.setCtx_watches : (s.setCtx e y c).watches = s.watches := rfl
@[simp] theorem State.setCtx_errLog : (s.setCtx e y c).errLog = s.errLog := rfl
@[simp] theorem State.setCtx_flog : (s.setCtx e y c).flog = s.flog := rfl
@[simp] theorem State.setCtx_profile : (s.setCtx e y c).profile = s.profile := rfl
@[simp] theorem State.setCtx_cis : (s.setCtx e y c).cis = s.cis := rfl
@[simp] theorem State.setCtx_bkt : (s.setCtx e y c).bkt = s.bkt := rfl
@[simp] theorem State.setCtx_mem : (s.setCtx e y c).mem = s.mem := rfl
@[simp] theorem State.setCtx_pmp : (s.setCtx e y c).pmp = s.pmp := rfl
@[simp] theorem State.setCtx_link : (s.setCtx e y c).link = s.link := rfl
@[simp] theorem State.setCtx_tel : (s.setCtx e y c).tel = s.tel := rfl
@[simp] theorem State.setCtx_sess : (s.setCtx e y c).sess = s.sess := rfl
@[simp] theorem State.setCtx_ses : (s.setCtx e y c).ses = s.ses := rfl
@[simp] theorem State.setCtx_keepers : (s.setCtx e y c).keepers = s.keepers := rfl
@[simp] theorem State.setCtx_boot : (s.setCtx e y c).boot = s.boot := rfl
@[simp] theorem State.setCtx_d3hot : (s.setCtx e y c).d3hot = s.d3hot := rfl
@[simp] theorem State.setCtx_waiting : (s.setCtx e y c).waiting = s.waiting := rfl
@[simp] theorem State.setCtx_egress : (s.setCtx e y c).egress = s.egress := rfl
@[simp] theorem State.setCtx_free : (s.setCtx e y c).free = s.free := rfl
@[simp] theorem State.setCtx_pending : (s.setCtx e y c).pending = s.pending := rfl
end

/-! ### setQdr -/
section
variable (s : State) (i : Nat) (x : Qdr)
@[simp] theorem State.setQdr_regs : (s.setQdr i x).regs = s.regs := rfl
@[simp] theorem State.setQdr_stage : (s.setQdr i x).stage = s.stage := rfl
@[simp] theorem State.setQdr_latch : (s.setQdr i x).latch = s.latch := rfl
@[simp] theorem State.setQdr_hostTime : (s.setQdr i x).hostTime = s.hostTime := rfl
@[simp] theorem State.setQdr_inflight : (s.setQdr i x).inflight = s.inflight := rfl
@[simp] theorem State.setQdr_copies : (s.setQdr i x).copies = s.copies := rfl
@[simp] theorem State.setQdr_watches : (s.setQdr i x).watches = s.watches := rfl
@[simp] theorem State.setQdr_errLog : (s.setQdr i x).errLog = s.errLog := rfl
@[simp] theorem State.setQdr_flog : (s.setQdr i x).flog = s.flog := rfl
@[simp] theorem State.setQdr_profile : (s.setQdr i x).profile = s.profile := rfl
@[simp] theorem State.setQdr_cis : (s.setQdr i x).cis = s.cis := rfl
@[simp] theorem State.setQdr_bkt : (s.setQdr i x).bkt = s.bkt := rfl
@[simp] theorem State.setQdr_mem : (s.setQdr i x).mem = s.mem := rfl
@[simp] theorem State.setQdr_pmp : (s.setQdr i x).pmp = s.pmp := rfl
@[simp] theorem State.setQdr_engs : (s.setQdr i x).engs = s.engs := rfl
@[simp] theorem State.setQdr_tel : (s.setQdr i x).tel = s.tel := rfl
@[simp] theorem State.setQdr_sess : (s.setQdr i x).sess = s.sess := rfl
@[simp] theorem State.setQdr_ses : (s.setQdr i x).ses = s.ses := rfl
@[simp] theorem State.setQdr_keepers : (s.setQdr i x).keepers = s.keepers := rfl
@[simp] theorem State.setQdr_boot : (s.setQdr i x).boot = s.boot := rfl
@[simp] theorem State.setQdr_d3hot : (s.setQdr i x).d3hot = s.d3hot := rfl
@[simp] theorem State.setQdr_waiting : (s.setQdr i x).waiting = s.waiting := rfl
@[simp] theorem State.setQdr_egress : (s.setQdr i x).egress = s.egress := rfl
@[simp] theorem State.setQdr_free : (s.setQdr i x).free = s.free := rfl
@[simp] theorem State.setQdr_pending : (s.setQdr i x).pending = s.pending := rfl
@[simp] theorem State.setQdr_link_queues : (s.setQdr i x).link.queues = s.link.queues := rfl
@[simp] theorem State.setQdr_link_ports : (s.setQdr i x).link.ports = s.link.ports := rfl
@[simp] theorem State.setQdr_link_out : (s.setQdr i x).link.out = s.link.out := rfl
end

/-! ### setQueue -/
section
variable (s : State) (i q : Nat) (x : QQueue)
@[simp] theorem State.setQueue_regs : (s.setQueue i q x).regs = s.regs := rfl
@[simp] theorem State.setQueue_stage : (s.setQueue i q x).stage = s.stage := rfl
@[simp] theorem State.setQueue_latch : (s.setQueue i q x).latch = s.latch := rfl
@[simp] theorem State.setQueue_hostTime : (s.setQueue i q x).hostTime = s.hostTime := rfl
@[simp] theorem State.setQueue_inflight : (s.setQueue i q x).inflight = s.inflight := rfl
@[simp] theorem State.setQueue_copies : (s.setQueue i q x).copies = s.copies := rfl
@[simp] theorem State.setQueue_watches : (s.setQueue i q x).watches = s.watches := rfl
@[simp] theorem State.setQueue_errLog : (s.setQueue i q x).errLog = s.errLog := rfl
@[simp] theorem State.setQueue_flog : (s.setQueue i q x).flog = s.flog := rfl
@[simp] theorem State.setQueue_profile : (s.setQueue i q x).profile = s.profile := rfl
@[simp] theorem State.setQueue_cis : (s.setQueue i q x).cis = s.cis := rfl
@[simp] theorem State.setQueue_bkt : (s.setQueue i q x).bkt = s.bkt := rfl
@[simp] theorem State.setQueue_mem : (s.setQueue i q x).mem = s.mem := rfl
@[simp] theorem State.setQueue_pmp : (s.setQueue i q x).pmp = s.pmp := rfl
@[simp] theorem State.setQueue_engs : (s.setQueue i q x).engs = s.engs := rfl
@[simp] theorem State.setQueue_tel : (s.setQueue i q x).tel = s.tel := rfl
@[simp] theorem State.setQueue_sess : (s.setQueue i q x).sess = s.sess := rfl
@[simp] theorem State.setQueue_ses : (s.setQueue i q x).ses = s.ses := rfl
@[simp] theorem State.setQueue_keepers : (s.setQueue i q x).keepers = s.keepers := rfl
@[simp] theorem State.setQueue_boot : (s.setQueue i q x).boot = s.boot := rfl
@[simp] theorem State.setQueue_d3hot : (s.setQueue i q x).d3hot = s.d3hot := rfl
@[simp] theorem State.setQueue_waiting : (s.setQueue i q x).waiting = s.waiting := rfl
@[simp] theorem State.setQueue_egress : (s.setQueue i q x).egress = s.egress := rfl
@[simp] theorem State.setQueue_free : (s.setQueue i q x).free = s.free := rfl
@[simp] theorem State.setQueue_pending : (s.setQueue i q x).pending = s.pending := rfl
@[simp] theorem State.setQueue_link_qdr : (s.setQueue i q x).link.qdr = s.link.qdr := rfl
@[simp] theorem State.setQueue_link_ports : (s.setQueue i q x).link.ports = s.link.ports := rfl
@[simp] theorem State.setQueue_link_out : (s.setQueue i q x).link.out = s.link.out := rfl
end

/-! ### setPort -/
section
variable (s : State) (p : Nat) (x : GPort)
@[simp] theorem State.setPort_regs : (s.setPort p x).regs = s.regs := rfl
@[simp] theorem State.setPort_stage : (s.setPort p x).stage = s.stage := rfl
@[simp] theorem State.setPort_latch : (s.setPort p x).latch = s.latch := rfl
@[simp] theorem State.setPort_hostTime : (s.setPort p x).hostTime = s.hostTime := rfl
@[simp] theorem State.setPort_inflight : (s.setPort p x).inflight = s.inflight := rfl
@[simp] theorem State.setPort_copies : (s.setPort p x).copies = s.copies := rfl
@[simp] theorem State.setPort_watches : (s.setPort p x).watches = s.watches := rfl
@[simp] theorem State.setPort_errLog : (s.setPort p x).errLog = s.errLog := rfl
@[simp] theorem State.setPort_flog : (s.setPort p x).flog = s.flog := rfl
@[simp] theorem State.setPort_profile : (s.setPort p x).profile = s.profile := rfl
@[simp] theorem State.setPort_cis : (s.setPort p x).cis = s.cis := rfl
@[simp] theorem State.setPort_bkt : (s.setPort p x).bkt = s.bkt := rfl
@[simp] theorem State.setPort_mem : (s.setPort p x).mem = s.mem := rfl
@[simp] theorem State.setPort_pmp : (s.setPort p x).pmp = s.pmp := rfl
@[simp] theorem State.setPort_engs : (s.setPort p x).engs = s.engs := rfl
@[simp] theorem State.setPort_tel : (s.setPort p x).tel = s.tel := rfl
@[simp] theorem State.setPort_sess : (s.setPort p x).sess = s.sess := rfl
@[simp] theorem State.setPort_ses : (s.setPort p x).ses = s.ses := rfl
@[simp] theorem State.setPort_keepers : (s.setPort p x).keepers = s.keepers := rfl
@[simp] theorem State.setPort_boot : (s.setPort p x).boot = s.boot := rfl
@[simp] theorem State.setPort_d3hot : (s.setPort p x).d3hot = s.d3hot := rfl
@[simp] theorem State.setPort_waiting : (s.setPort p x).waiting = s.waiting := rfl
@[simp] theorem State.setPort_egress : (s.setPort p x).egress = s.egress := rfl
@[simp] theorem State.setPort_free : (s.setPort p x).free = s.free := rfl
@[simp] theorem State.setPort_pending : (s.setPort p x).pending = s.pending := rfl
@[simp] theorem State.setPort_link_qdr : (s.setPort p x).link.qdr = s.link.qdr := rfl
@[simp] theorem State.setPort_link_queues : (s.setPort p x).link.queues = s.link.queues := rfl
@[simp] theorem State.setPort_link_out : (s.setPort p x).link.out = s.link.out := rfl
end

/-! ### setSes -/
section
variable (s : State) (h : Nat) (x : Session)
@[simp] theorem State.setSes_regs : (s.setSes h x).regs = s.regs := rfl
@[simp] theorem State.setSes_stage : (s.setSes h x).stage = s.stage := rfl
@[simp] theorem State.setSes_latch : (s.setSes h x).latch = s.latch := rfl
@[simp] theorem State.setSes_hostTime : (s.setSes h x).hostTime = s.hostTime := rfl
@[simp] theorem State.setSes_inflight : (s.setSes h x).inflight = s.inflight := rfl
@[simp] theorem State.setSes_copies : (s.setSes h x).copies = s.copies := rfl
@[simp] theorem State.setSes_watches : (s.setSes h x).watches = s.watches := rfl
@[simp] theorem State.setSes_errLog : (s.setSes h x).errLog = s.errLog := rfl
@[simp] theorem State.setSes_flog : (s.setSes h x).flog = s.flog := rfl
@[simp] theorem State.setSes_profile : (s.setSes h x).profile = s.profile := rfl
@[simp] theorem State.setSes_cis : (s.setSes h x).cis = s.cis := rfl
@[simp] theorem State.setSes_bkt : (s.setSes h x).bkt = s.bkt := rfl
@[simp] theorem State.setSes_mem : (s.setSes h x).mem = s.mem := rfl
@[simp] theorem State.setSes_pmp : (s.setSes h x).pmp = s.pmp := rfl
@[simp] theorem State.setSes_engs : (s.setSes h x).engs = s.engs := rfl
@[simp] theorem State.setSes_link : (s.setSes h x).link = s.link := rfl
@[simp] theorem State.setSes_tel : (s.setSes h x).tel = s.tel := rfl
@[simp] theorem State.setSes_ses : (s.setSes h x).ses = s.ses := rfl
@[simp] theorem State.setSes_keepers : (s.setSes h x).keepers = s.keepers := rfl
@[simp] theorem State.setSes_boot : (s.setSes h x).boot = s.boot := rfl
@[simp] theorem State.setSes_d3hot : (s.setSes h x).d3hot = s.d3hot := rfl
@[simp] theorem State.setSes_waiting : (s.setSes h x).waiting = s.waiting := rfl
@[simp] theorem State.setSes_egress : (s.setSes h x).egress = s.egress := rfl
@[simp] theorem State.setSes_free : (s.setSes h x).free = s.free := rfl
@[simp] theorem State.setSes_pending : (s.setSes h x).pending = s.pending := rfl
end

/-! ### setModel -/
section
variable (s : State) (m : Nat) (x : Model)
@[simp] theorem State.setModel_regs : (s.setModel m x).regs = s.regs := rfl
@[simp] theorem State.setModel_stage : (s.setModel m x).stage = s.stage := rfl
@[simp] theorem State.setModel_latch : (s.setModel m x).latch = s.latch := rfl
@[simp] theorem State.setModel_hostTime : (s.setModel m x).hostTime = s.hostTime := rfl
@[simp] theorem State.setModel_inflight : (s.setModel m x).inflight = s.inflight := rfl
@[simp] theorem State.setModel_copies : (s.setModel m x).copies = s.copies := rfl
@[simp] theorem State.setModel_watches : (s.setModel m x).watches = s.watches := rfl
@[simp] theorem State.setModel_errLog : (s.setModel m x).errLog = s.errLog := rfl
@[simp] theorem State.setModel_flog : (s.setModel m x).flog = s.flog := rfl
@[simp] theorem State.setModel_profile : (s.setModel m x).profile = s.profile := rfl
@[simp] theorem State.setModel_cis : (s.setModel m x).cis = s.cis := rfl
@[simp] theorem State.setModel_bkt : (s.setModel m x).bkt = s.bkt := rfl
@[simp] theorem State.setModel_mem : (s.setModel m x).mem = s.mem := rfl
@[simp] theorem State.setModel_pmp : (s.setModel m x).pmp = s.pmp := rfl
@[simp] theorem State.setModel_engs : (s.setModel m x).engs = s.engs := rfl
@[simp] theorem State.setModel_link : (s.setModel m x).link = s.link := rfl
@[simp] theorem State.setModel_tel : (s.setModel m x).tel = s.tel := rfl
@[simp] theorem State.setModel_sess : (s.setModel m x).sess = s.sess := rfl
@[simp] theorem State.setModel_keepers : (s.setModel m x).keepers = s.keepers := rfl
@[simp] theorem State.setModel_boot : (s.setModel m x).boot = s.boot := rfl
@[simp] theorem State.setModel_d3hot : (s.setModel m x).d3hot = s.d3hot := rfl
@[simp] theorem State.setModel_waiting : (s.setModel m x).waiting = s.waiting := rfl
@[simp] theorem State.setModel_egress : (s.setModel m x).egress = s.egress := rfl
@[simp] theorem State.setModel_free : (s.setModel m x).free = s.free := rfl
@[simp] theorem State.setModel_pending : (s.setModel m x).pending = s.pending := rfl
@[simp] theorem State.setModel_ses_rounds : (s.setModel m x).ses.rounds = s.ses.rounds := rfl
@[simp] theorem State.setModel_ses_lastNum : (s.setModel m x).ses.lastNum = s.ses.lastNum := rfl
@[simp] theorem State.setModel_ses_adapters : (s.setModel m x).ses.adapters = s.ses.adapters := rfl
@[simp] theorem State.setModel_ses_nodes : (s.setModel m x).ses.nodes = s.ses.nodes := rfl
@[simp] theorem State.setModel_ses_journal : (s.setModel m x).ses.journal = s.ses.journal := rfl
@[simp] theorem State.setModel_ses_commit : (s.setModel m x).ses.commit = s.ses.commit := rfl
@[simp] theorem State.setModel_ses_slots : (s.setModel m x).ses.slots = s.ses.slots := rfl
@[simp] theorem State.setModel_ses_tens : (s.setModel m x).ses.tens = s.ses.tens := rfl
@[simp] theorem State.setModel_ses_full : (s.setModel m x).ses.full = s.ses.full := rfl
@[simp] theorem State.setModel_ses_nextOrder : (s.setModel m x).ses.nextOrder = s.ses.nextOrder := rfl
@[simp] theorem State.setModel_ses_pairPoison : (s.setModel m x).ses.pairPoison = s.ses.pairPoison := rfl
@[simp] theorem State.setModel_ses_engFaults : (s.setModel m x).ses.engFaults = s.ses.engFaults := rfl
@[simp] theorem State.setModel_ses_roundEnd : (s.setModel m x).ses.roundEnd = s.ses.roundEnd := rfl
end

/-! ### setTen -/
section
variable (s : State) (t : Nat) (x : Ten)
@[simp] theorem State.setTen_regs : (s.setTen t x).regs = s.regs := rfl
@[simp] theorem State.setTen_stage : (s.setTen t x).stage = s.stage := rfl
@[simp] theorem State.setTen_latch : (s.setTen t x).latch = s.latch := rfl
@[simp] theorem State.setTen_hostTime : (s.setTen t x).hostTime = s.hostTime := rfl
@[simp] theorem State.setTen_inflight : (s.setTen t x).inflight = s.inflight := rfl
@[simp] theorem State.setTen_copies : (s.setTen t x).copies = s.copies := rfl
@[simp] theorem State.setTen_watches : (s.setTen t x).watches = s.watches := rfl
@[simp] theorem State.setTen_errLog : (s.setTen t x).errLog = s.errLog := rfl
@[simp] theorem State.setTen_flog : (s.setTen t x).flog = s.flog := rfl
@[simp] theorem State.setTen_profile : (s.setTen t x).profile = s.profile := rfl
@[simp] theorem State.setTen_cis : (s.setTen t x).cis = s.cis := rfl
@[simp] theorem State.setTen_bkt : (s.setTen t x).bkt = s.bkt := rfl
@[simp] theorem State.setTen_mem : (s.setTen t x).mem = s.mem := rfl
@[simp] theorem State.setTen_pmp : (s.setTen t x).pmp = s.pmp := rfl
@[simp] theorem State.setTen_engs : (s.setTen t x).engs = s.engs := rfl
@[simp] theorem State.setTen_link : (s.setTen t x).link = s.link := rfl
@[simp] theorem State.setTen_tel : (s.setTen t x).tel = s.tel := rfl
@[simp] theorem State.setTen_sess : (s.setTen t x).sess = s.sess := rfl
@[simp] theorem State.setTen_keepers : (s.setTen t x).keepers = s.keepers := rfl
@[simp] theorem State.setTen_boot : (s.setTen t x).boot = s.boot := rfl
@[simp] theorem State.setTen_d3hot : (s.setTen t x).d3hot = s.d3hot := rfl
@[simp] theorem State.setTen_waiting : (s.setTen t x).waiting = s.waiting := rfl
@[simp] theorem State.setTen_egress : (s.setTen t x).egress = s.egress := rfl
@[simp] theorem State.setTen_free : (s.setTen t x).free = s.free := rfl
@[simp] theorem State.setTen_pending : (s.setTen t x).pending = s.pending := rfl
@[simp] theorem State.setTen_ses_rounds : (s.setTen t x).ses.rounds = s.ses.rounds := rfl
@[simp] theorem State.setTen_ses_lastNum : (s.setTen t x).ses.lastNum = s.ses.lastNum := rfl
@[simp] theorem State.setTen_ses_models : (s.setTen t x).ses.models = s.ses.models := rfl
@[simp] theorem State.setTen_ses_adapters : (s.setTen t x).ses.adapters = s.ses.adapters := rfl
@[simp] theorem State.setTen_ses_nodes : (s.setTen t x).ses.nodes = s.ses.nodes := rfl
@[simp] theorem State.setTen_ses_journal : (s.setTen t x).ses.journal = s.ses.journal := rfl
@[simp] theorem State.setTen_ses_commit : (s.setTen t x).ses.commit = s.ses.commit := rfl
@[simp] theorem State.setTen_ses_slots : (s.setTen t x).ses.slots = s.ses.slots := rfl
@[simp] theorem State.setTen_ses_full : (s.setTen t x).ses.full = s.ses.full := rfl
@[simp] theorem State.setTen_ses_nextOrder : (s.setTen t x).ses.nextOrder = s.ses.nextOrder := rfl
@[simp] theorem State.setTen_ses_pairPoison : (s.setTen t x).ses.pairPoison = s.ses.pairPoison := rfl
@[simp] theorem State.setTen_ses_engFaults : (s.setTen t x).ses.engFaults = s.ses.engFaults := rfl
@[simp] theorem State.setTen_ses_roundEnd : (s.setTen t x).ses.roundEnd = s.ses.roundEnd := rfl
end

/-! ### setAdapter -/
section
variable (s : State) (a : Nat) (x : Adapter)
@[simp] theorem State.setAdapter_regs : (s.setAdapter a x).regs = s.regs := rfl
@[simp] theorem State.setAdapter_stage : (s.setAdapter a x).stage = s.stage := rfl
@[simp] theorem State.setAdapter_latch : (s.setAdapter a x).latch = s.latch := rfl
@[simp] theorem State.setAdapter_hostTime : (s.setAdapter a x).hostTime = s.hostTime := rfl
@[simp] theorem State.setAdapter_inflight : (s.setAdapter a x).inflight = s.inflight := rfl
@[simp] theorem State.setAdapter_copies : (s.setAdapter a x).copies = s.copies := rfl
@[simp] theorem State.setAdapter_watches : (s.setAdapter a x).watches = s.watches := rfl
@[simp] theorem State.setAdapter_errLog : (s.setAdapter a x).errLog = s.errLog := rfl
@[simp] theorem State.setAdapter_flog : (s.setAdapter a x).flog = s.flog := rfl
@[simp] theorem State.setAdapter_profile : (s.setAdapter a x).profile = s.profile := rfl
@[simp] theorem State.setAdapter_cis : (s.setAdapter a x).cis = s.cis := rfl
@[simp] theorem State.setAdapter_bkt : (s.setAdapter a x).bkt = s.bkt := rfl
@[simp] theorem State.setAdapter_mem : (s.setAdapter a x).mem = s.mem := rfl
@[simp] theorem State.setAdapter_pmp : (s.setAdapter a x).pmp = s.pmp := rfl
@[simp] theorem State.setAdapter_engs : (s.setAdapter a x).engs = s.engs := rfl
@[simp] theorem State.setAdapter_link : (s.setAdapter a x).link = s.link := rfl
@[simp] theorem State.setAdapter_tel : (s.setAdapter a x).tel = s.tel := rfl
@[simp] theorem State.setAdapter_sess : (s.setAdapter a x).sess = s.sess := rfl
@[simp] theorem State.setAdapter_keepers : (s.setAdapter a x).keepers = s.keepers := rfl
@[simp] theorem State.setAdapter_boot : (s.setAdapter a x).boot = s.boot := rfl
@[simp] theorem State.setAdapter_d3hot : (s.setAdapter a x).d3hot = s.d3hot := rfl
@[simp] theorem State.setAdapter_waiting : (s.setAdapter a x).waiting = s.waiting := rfl
@[simp] theorem State.setAdapter_egress : (s.setAdapter a x).egress = s.egress := rfl
@[simp] theorem State.setAdapter_free : (s.setAdapter a x).free = s.free := rfl
@[simp] theorem State.setAdapter_pending : (s.setAdapter a x).pending = s.pending := rfl
@[simp] theorem State.setAdapter_ses_rounds : (s.setAdapter a x).ses.rounds = s.ses.rounds := rfl
@[simp] theorem State.setAdapter_ses_lastNum : (s.setAdapter a x).ses.lastNum = s.ses.lastNum := rfl
@[simp] theorem State.setAdapter_ses_models : (s.setAdapter a x).ses.models = s.ses.models := rfl
@[simp] theorem State.setAdapter_ses_nodes : (s.setAdapter a x).ses.nodes = s.ses.nodes := rfl
@[simp] theorem State.setAdapter_ses_journal : (s.setAdapter a x).ses.journal = s.ses.journal := rfl
@[simp] theorem State.setAdapter_ses_commit : (s.setAdapter a x).ses.commit = s.ses.commit := rfl
@[simp] theorem State.setAdapter_ses_slots : (s.setAdapter a x).ses.slots = s.ses.slots := rfl
@[simp] theorem State.setAdapter_ses_tens : (s.setAdapter a x).ses.tens = s.ses.tens := rfl
@[simp] theorem State.setAdapter_ses_full : (s.setAdapter a x).ses.full = s.ses.full := rfl
@[simp] theorem State.setAdapter_ses_nextOrder : (s.setAdapter a x).ses.nextOrder = s.ses.nextOrder := rfl
@[simp] theorem State.setAdapter_ses_pairPoison : (s.setAdapter a x).ses.pairPoison = s.ses.pairPoison := rfl
@[simp] theorem State.setAdapter_ses_engFaults : (s.setAdapter a x).ses.engFaults = s.ses.engFaults := rfl
@[simp] theorem State.setAdapter_ses_roundEnd : (s.setAdapter a x).ses.roundEnd = s.ses.roundEnd := rfl
end

/-! ### setJournal -/
section
variable (s : State) (j : List JRec)
@[simp] theorem State.setJournal_regs : (s.setJournal j).regs = s.regs := rfl
@[simp] theorem State.setJournal_stage : (s.setJournal j).stage = s.stage := rfl
@[simp] theorem State.setJournal_latch : (s.setJournal j).latch = s.latch := rfl
@[simp] theorem State.setJournal_hostTime : (s.setJournal j).hostTime = s.hostTime := rfl
@[simp] theorem State.setJournal_inflight : (s.setJournal j).inflight = s.inflight := rfl
@[simp] theorem State.setJournal_copies : (s.setJournal j).copies = s.copies := rfl
@[simp] theorem State.setJournal_watches : (s.setJournal j).watches = s.watches := rfl
@[simp] theorem State.setJournal_errLog : (s.setJournal j).errLog = s.errLog := rfl
@[simp] theorem State.setJournal_flog : (s.setJournal j).flog = s.flog := rfl
@[simp] theorem State.setJournal_profile : (s.setJournal j).profile = s.profile := rfl
@[simp] theorem State.setJournal_cis : (s.setJournal j).cis = s.cis := rfl
@[simp] theorem State.setJournal_bkt : (s.setJournal j).bkt = s.bkt := rfl
@[simp] theorem State.setJournal_mem : (s.setJournal j).mem = s.mem := rfl
@[simp] theorem State.setJournal_pmp : (s.setJournal j).pmp = s.pmp := rfl
@[simp] theorem State.setJournal_engs : (s.setJournal j).engs = s.engs := rfl
@[simp] theorem State.setJournal_link : (s.setJournal j).link = s.link := rfl
@[simp] theorem State.setJournal_tel : (s.setJournal j).tel = s.tel := rfl
@[simp] theorem State.setJournal_sess : (s.setJournal j).sess = s.sess := rfl
@[simp] theorem State.setJournal_keepers : (s.setJournal j).keepers = s.keepers := rfl
@[simp] theorem State.setJournal_boot : (s.setJournal j).boot = s.boot := rfl
@[simp] theorem State.setJournal_d3hot : (s.setJournal j).d3hot = s.d3hot := rfl
@[simp] theorem State.setJournal_waiting : (s.setJournal j).waiting = s.waiting := rfl
@[simp] theorem State.setJournal_egress : (s.setJournal j).egress = s.egress := rfl
@[simp] theorem State.setJournal_free : (s.setJournal j).free = s.free := rfl
@[simp] theorem State.setJournal_pending : (s.setJournal j).pending = s.pending := rfl
@[simp] theorem State.setJournal_ses_rounds : (s.setJournal j).ses.rounds = s.ses.rounds := rfl
@[simp] theorem State.setJournal_ses_lastNum : (s.setJournal j).ses.lastNum = s.ses.lastNum := rfl
@[simp] theorem State.setJournal_ses_models : (s.setJournal j).ses.models = s.ses.models := rfl
@[simp] theorem State.setJournal_ses_adapters : (s.setJournal j).ses.adapters = s.ses.adapters := rfl
@[simp] theorem State.setJournal_ses_nodes : (s.setJournal j).ses.nodes = s.ses.nodes := rfl
@[simp] theorem State.setJournal_ses_commit : (s.setJournal j).ses.commit = s.ses.commit := rfl
@[simp] theorem State.setJournal_ses_slots : (s.setJournal j).ses.slots = s.ses.slots := rfl
@[simp] theorem State.setJournal_ses_tens : (s.setJournal j).ses.tens = s.ses.tens := rfl
@[simp] theorem State.setJournal_ses_full : (s.setJournal j).ses.full = s.ses.full := rfl
@[simp] theorem State.setJournal_ses_nextOrder : (s.setJournal j).ses.nextOrder = s.ses.nextOrder := rfl
@[simp] theorem State.setJournal_ses_pairPoison : (s.setJournal j).ses.pairPoison = s.ses.pairPoison := rfl
@[simp] theorem State.setJournal_ses_engFaults : (s.setJournal j).ses.engFaults = s.ses.engFaults := rfl
@[simp] theorem State.setJournal_ses_roundEnd : (s.setJournal j).ses.roundEnd = s.ses.roundEnd := rfl
end

/-! ### setRounds -/
section
variable (s : State) (r : List Round)
@[simp] theorem State.setRounds_regs : (s.setRounds r).regs = s.regs := rfl
@[simp] theorem State.setRounds_stage : (s.setRounds r).stage = s.stage := rfl
@[simp] theorem State.setRounds_latch : (s.setRounds r).latch = s.latch := rfl
@[simp] theorem State.setRounds_hostTime : (s.setRounds r).hostTime = s.hostTime := rfl
@[simp] theorem State.setRounds_inflight : (s.setRounds r).inflight = s.inflight := rfl
@[simp] theorem State.setRounds_copies : (s.setRounds r).copies = s.copies := rfl
@[simp] theorem State.setRounds_watches : (s.setRounds r).watches = s.watches := rfl
@[simp] theorem State.setRounds_errLog : (s.setRounds r).errLog = s.errLog := rfl
@[simp] theorem State.setRounds_flog : (s.setRounds r).flog = s.flog := rfl
@[simp] theorem State.setRounds_profile : (s.setRounds r).profile = s.profile := rfl
@[simp] theorem State.setRounds_cis : (s.setRounds r).cis = s.cis := rfl
@[simp] theorem State.setRounds_bkt : (s.setRounds r).bkt = s.bkt := rfl
@[simp] theorem State.setRounds_mem : (s.setRounds r).mem = s.mem := rfl
@[simp] theorem State.setRounds_pmp : (s.setRounds r).pmp = s.pmp := rfl
@[simp] theorem State.setRounds_engs : (s.setRounds r).engs = s.engs := rfl
@[simp] theorem State.setRounds_link : (s.setRounds r).link = s.link := rfl
@[simp] theorem State.setRounds_tel : (s.setRounds r).tel = s.tel := rfl
@[simp] theorem State.setRounds_sess : (s.setRounds r).sess = s.sess := rfl
@[simp] theorem State.setRounds_keepers : (s.setRounds r).keepers = s.keepers := rfl
@[simp] theorem State.setRounds_boot : (s.setRounds r).boot = s.boot := rfl
@[simp] theorem State.setRounds_d3hot : (s.setRounds r).d3hot = s.d3hot := rfl
@[simp] theorem State.setRounds_waiting : (s.setRounds r).waiting = s.waiting := rfl
@[simp] theorem State.setRounds_egress : (s.setRounds r).egress = s.egress := rfl
@[simp] theorem State.setRounds_free : (s.setRounds r).free = s.free := rfl
@[simp] theorem State.setRounds_pending : (s.setRounds r).pending = s.pending := rfl
@[simp] theorem State.setRounds_ses_lastNum : (s.setRounds r).ses.lastNum = s.ses.lastNum := rfl
@[simp] theorem State.setRounds_ses_models : (s.setRounds r).ses.models = s.ses.models := rfl
@[simp] theorem State.setRounds_ses_adapters : (s.setRounds r).ses.adapters = s.ses.adapters := rfl
@[simp] theorem State.setRounds_ses_nodes : (s.setRounds r).ses.nodes = s.ses.nodes := rfl
@[simp] theorem State.setRounds_ses_journal : (s.setRounds r).ses.journal = s.ses.journal := rfl
@[simp] theorem State.setRounds_ses_commit : (s.setRounds r).ses.commit = s.ses.commit := rfl
@[simp] theorem State.setRounds_ses_slots : (s.setRounds r).ses.slots = s.ses.slots := rfl
@[simp] theorem State.setRounds_ses_tens : (s.setRounds r).ses.tens = s.ses.tens := rfl
@[simp] theorem State.setRounds_ses_full : (s.setRounds r).ses.full = s.ses.full := rfl
@[simp] theorem State.setRounds_ses_nextOrder : (s.setRounds r).ses.nextOrder = s.ses.nextOrder := rfl
@[simp] theorem State.setRounds_ses_pairPoison : (s.setRounds r).ses.pairPoison = s.ses.pairPoison := rfl
@[simp] theorem State.setRounds_ses_engFaults : (s.setRounds r).ses.engFaults = s.ses.engFaults := rfl
@[simp] theorem State.setRounds_ses_roundEnd : (s.setRounds r).ses.roundEnd = s.ses.roundEnd := rfl
end

/-! ### setKeeper -/
section
variable (s : State) (q : Nat) (k : Keeper)
@[simp] theorem State.setKeeper_regs : (s.setKeeper q k).regs = s.regs := rfl
@[simp] theorem State.setKeeper_stage : (s.setKeeper q k).stage = s.stage := rfl
@[simp] theorem State.setKeeper_latch : (s.setKeeper q k).latch = s.latch := rfl
@[simp] theorem State.setKeeper_hostTime : (s.setKeeper q k).hostTime = s.hostTime := rfl
@[simp] theorem State.setKeeper_inflight : (s.setKeeper q k).inflight = s.inflight := rfl
@[simp] theorem State.setKeeper_copies : (s.setKeeper q k).copies = s.copies := rfl
@[simp] theorem State.setKeeper_watches : (s.setKeeper q k).watches = s.watches := rfl
@[simp] theorem State.setKeeper_errLog : (s.setKeeper q k).errLog = s.errLog := rfl
@[simp] theorem State.setKeeper_flog : (s.setKeeper q k).flog = s.flog := rfl
@[simp] theorem State.setKeeper_profile : (s.setKeeper q k).profile = s.profile := rfl
@[simp] theorem State.setKeeper_cis : (s.setKeeper q k).cis = s.cis := rfl
@[simp] theorem State.setKeeper_bkt : (s.setKeeper q k).bkt = s.bkt := rfl
@[simp] theorem State.setKeeper_mem : (s.setKeeper q k).mem = s.mem := rfl
@[simp] theorem State.setKeeper_pmp : (s.setKeeper q k).pmp = s.pmp := rfl
@[simp] theorem State.setKeeper_engs : (s.setKeeper q k).engs = s.engs := rfl
@[simp] theorem State.setKeeper_link : (s.setKeeper q k).link = s.link := rfl
@[simp] theorem State.setKeeper_tel : (s.setKeeper q k).tel = s.tel := rfl
@[simp] theorem State.setKeeper_sess : (s.setKeeper q k).sess = s.sess := rfl
@[simp] theorem State.setKeeper_ses : (s.setKeeper q k).ses = s.ses := rfl
@[simp] theorem State.setKeeper_boot : (s.setKeeper q k).boot = s.boot := rfl
@[simp] theorem State.setKeeper_d3hot : (s.setKeeper q k).d3hot = s.d3hot := rfl
@[simp] theorem State.setKeeper_waiting : (s.setKeeper q k).waiting = s.waiting := rfl
@[simp] theorem State.setKeeper_egress : (s.setKeeper q k).egress = s.egress := rfl
@[simp] theorem State.setKeeper_free : (s.setKeeper q k).free = s.free := rfl
@[simp] theorem State.setKeeper_pending : (s.setKeeper q k).pending = s.pending := rfl
end

end Sys2Proof.Machine
end

