-- ==== Sys2Proof/Laws/Report.lean ====
section
/-! SUPPORT. The operations that report: registers, interrupts, error causes, logs and fault records. Each changes nothing but the registers, the two
logs and what leaves the device. -/
namespace Sys2Proof.Machine
open Sys2Proof

/-- `t` is `s` but for its registers, its logs and what has left or waits to leave the device. -/
def Quiet (s t : State) : Prop :=
  ∃ r e f g w, t = { s with regs := r, errLog := e, flog := f, egress := g, waiting := w }

theorem Quiet.refl (s : State) : Quiet s s := ⟨s.regs, s.errLog, s.flog, s.egress, s.waiting, rfl⟩

theorem Quiet.trans {s t u : State} (h : Quiet s t) (k : Quiet t u) : Quiet s u := by
  obtain ⟨r, e, f, g, w, rfl⟩ := h
  obtain ⟨r', e', f', g', w', rfl⟩ := k
  exact ⟨r', e', f', g', w', rfl⟩

section
variable {s t : State} (h : Quiet s t)
include h
theorem Quiet.stage : t.stage = s.stage := by obtain ⟨_, _, _, _, _, rfl⟩ := h; rfl
theorem Quiet.latch : t.latch = s.latch := by obtain ⟨_, _, _, _, _, rfl⟩ := h; rfl
theorem Quiet.hostTime : t.hostTime = s.hostTime := by obtain ⟨_, _, _, _, _, rfl⟩ := h; rfl
theorem Quiet.inflight : t.inflight = s.inflight := by obtain ⟨_, _, _, _, _, rfl⟩ := h; rfl
theorem Quiet.copies : t.copies = s.copies := by obtain ⟨_, _, _, _, _, rfl⟩ := h; rfl
theorem Quiet.watches : t.watches = s.watches := by obtain ⟨_, _, _, _, _, rfl⟩ := h; rfl
theorem Quiet.profile : t.profile = s.profile := by obtain ⟨_, _, _, _, _, rfl⟩ := h; rfl
theorem Quiet.cis : t.cis = s.cis := by obtain ⟨_, _, _, _, _, rfl⟩ := h; rfl
theorem Quiet.bkt : t.bkt = s.bkt := by obtain ⟨_, _, _, _, _, rfl⟩ := h; rfl
theorem Quiet.mem : t.mem = s.mem := by obtain ⟨_, _, _, _, _, rfl⟩ := h; rfl
theorem Quiet.pmp : t.pmp = s.pmp := by obtain ⟨_, _, _, _, _, rfl⟩ := h; rfl
theorem Quiet.engs : t.engs = s.engs := by obtain ⟨_, _, _, _, _, rfl⟩ := h; rfl
theorem Quiet.link : t.link = s.link := by obtain ⟨_, _, _, _, _, rfl⟩ := h; rfl
theorem Quiet.tel : t.tel = s.tel := by obtain ⟨_, _, _, _, _, rfl⟩ := h; rfl
theorem Quiet.sess : t.sess = s.sess := by obtain ⟨_, _, _, _, _, rfl⟩ := h; rfl
theorem Quiet.ses : t.ses = s.ses := by obtain ⟨_, _, _, _, _, rfl⟩ := h; rfl
theorem Quiet.keepers : t.keepers = s.keepers := by obtain ⟨_, _, _, _, _, rfl⟩ := h; rfl
theorem Quiet.boot : t.boot = s.boot := by obtain ⟨_, _, _, _, _, rfl⟩ := h; rfl
theorem Quiet.d3hot : t.d3hot = s.d3hot := by obtain ⟨_, _, _, _, _, rfl⟩ := h; rfl
theorem Quiet.free : t.free = s.free := by obtain ⟨_, _, _, _, _, rfl⟩ := h; rfl
theorem Quiet.pending : t.pending = s.pending := by obtain ⟨_, _, _, _, _, rfl⟩ := h; rfl
end

/-! ## Registers -/

theorem State.setReg_quiet (s : State) (pg : Page) (b o : Nat) (v : W32) : Quiet s (s.setReg pg b o v) :=
  ⟨_, s.errLog, s.flog, s.egress, s.waiting, rfl⟩
theorem State.setFldB_quiet (s : State) (pg : Page) (b : Nat) (f : Fld) (v : Nat) : Quiet s (s.setFldB pg b f v) := s.setReg_quiet _ _ _ _
theorem State.setFld_quiet (s : State) (pg : Page) (f : Fld) (v : Nat) : Quiet s (s.setFld pg f v) := s.setReg_quiet _ _ _ _
theorem State.bumpB_quiet (s : State) (pg : Page) (b : Nat) (f : Fld) (n : Nat) : Quiet s (s.bumpB pg b f n) := s.setReg_quiet _ _ _ _
theorem State.bump_quiet (s : State) (pg : Page) (f : Fld) (n : Nat) : Quiet s (s.bump pg f n) := s.setReg_quiet _ _ _ _
theorem State.event_quiet (s : State) (pg : Page) : Quiet s (s.event pg) := s.setReg_quiet _ _ _ _
theorem State.bump64B_quiet (s : State) (pg : Page) (b : Nat) (lo hi : Fld) (n : Nat) : Quiet s (s.bump64B pg b lo hi n) :=
  (s.setFldB_quiet _ _ _ _).trans (State.setFldB_quiet _ _ _ _ _)

/-! ## What leaves the device -/

theorem State.emit_quiet (s : State) (e : Egress) : Quiet s (s.emit e) := by
  unfold State.emit
  split
  · generalize (if s.portOf _ = 1 then 65 else 0) = n
    split
    · exact ⟨s.regs, s.errLog, s.flog, s.egress, _, rfl⟩
    · exact ⟨s.regs, s.errLog, s.flog, _, s.waiting, rfl⟩
  · exact ⟨s.regs, s.errLog, s.flog, _, s.waiting, rfl⟩

theorem State.irq_quiet (s : State) (fn vec : Nat) : Quiet s (s.irq fn vec) := by
  simp only [State.irq]
  split
  · exact s.setReg_quiet _ _ _ _
  · exact s.emit_quiet _

/-- An item that no function issues, and one whose port is not held, leaves at once. -/
theorem State.emit_egress (s : State) (e : Egress) (h : s.d3hot = [] ∨ e.requester = none) :
    s.emit e = { s with egress := s.egress ++ [e] } := by
  unfold State.emit
  cases hr : e.requester with
  | none => rfl
  | some fn => cases h with
    | inl h => simp [h]
    | inr h => simp [hr] at h

/-! ## Error causes -/

theorem State.errEdge_quiet (s : State) (pg : Page) (was : Bool) : Quiet s (s.errEdge pg was) := by
  unfold State.errEdge
  split
  · exact s.irq_quiet _ _
  · exact Quiet.refl s

theorem State.raise_quiet (s : State) (pg : Page) (c : Nat) : Quiet s (s.raise pg c) :=
  (s.setReg_quiet _ _ _ _).trans (State.errEdge_quiet _ _ _)

/-! ## Logs -/

theorem State.logErr_quiet (s : State) (kind : Nat) (src : Page) (detail addr arg : Nat) : Quiet s (s.logErr kind src detail addr arg) := by
  simp only [State.logErr]
  split
  · exact (s.bump_quiet _ _ _).trans (State.raise_quiet _ _ _)
  · refine Quiet.trans ?_ (State.event_quiet _ _)
    refine Quiet.trans ?_ (State.setFld_quiet _ _ _ _)
    exact ⟨s.regs, _, s.flog, s.egress, s.waiting, rfl⟩

theorem State.shadow_quiet (s : State) (t off v : Nat) : Quiet s (s.shadow t off v) := by
  simp only [State.shadow]
  split
  · exact Quiet.refl s
  · exact s.emit_quiet _

theorem State.shadowLive_quiet (s : State) (t off v : Nat) : Quiet s (s.shadowLive t off v) := by
  simp only [State.shadowLive]
  split
  · exact Quiet.refl s
  · exact s.shadow_quiet _ _ _

/-- An interrupt that is raised on a condition. -/
theorem State.irq_if_quiet (s : State) (c : Bool) (fn vec : Nat) : Quiet s (if c then s.irq fn vec else s) := by
  split
  · exact s.irq_quiet _ _
  · exact Quiet.refl s

theorem State.setFnState_quiet (s : State) (t st : Nat) : Quiet s (s.setFnState t st) := by
  simp only [State.setFnState]
  split
  · exact Quiet.refl s
  · refine Quiet.trans ?_ (State.irq_if_quiet _ _ _ _)
    generalize (if t < 32 then _ else _ : Fld) = f
    have h := (s.setFld_quiet (pgTnt t) F.hdr_STATE st).trans (State.shadow_quiet _ t 0x0C st)
    split
    · exact h
    · exact h.trans ((State.setFld_quiet _ _ _ _).trans (State.irq_quiet _ _ _))

theorem State.fault_quiet (s : State) (fn kind status : Nat) (src : Page) (detail addr cookie : Nat) :
    Quiet s (s.fault fn kind status src detail addr cookie) := by
  simp only [State.fault]
  split
  · exact s.logErr_quiet _ _ _ _ _
  · split
    · exact (s.bump_quiet _ _ _).trans (State.raise_quiet _ _ _)
    · refine Quiet.trans ?_ (State.irq_if_quiet _ _ _ _)
      refine Quiet.trans ?_ (State.shadowLive_quiet _ _ _ _)
      refine Quiet.trans ?_ (State.setFld_quiet _ _ _ _)
      exact ⟨s.regs, s.errLog, _, s.egress, s.waiting, rfl⟩

end Sys2Proof.Machine
end

