-- ==== Sys2Proof/Laws/Access.lean ====
section
/-! SUPPORT. What is written into a table of the state is read from it, and the gates that a command passes. -/
namespace Sys2Proof.Machine
open Sys2Proof

/-! ## Tables -/

theorem State.obj_setObj (s : State) (fn o fn' o' : Nat) (x : Obj) :
    (s.setObj fn o x).obj fn' o' = if objIx fn o = objIx fn' o' then x else s.obj fn' o' := SMap.get_set _ _ _ _ _
@[simp] theorem State.obj_setObj_self (s : State) (fn o : Nat) (x : Obj) : (s.setObj fn o x).obj fn o = x :=
  SMap.get_set_self _ _ _ _
theorem State.tileAt_setTile (s : State) (k k' : Nat) (x : TileRec) :
    (s.setTile k x).tileAt k' = if k = k' then x else s.tileAt k' := SMap.get_set _ _ _ _ _
@[simp] theorem State.tileAt_setTile_self (s : State) (k : Nat) (x : TileRec) : (s.setTile k x).tileAt k = x :=
  SMap.get_set_self _ _ _ _
theorem State.tagAt_setTag (s : State) (st t st' t' : Nat) (x : BktTag) :
    (s.setTag st t x).tagAt st' t' = if tagIx st t = tagIx st' t' then x else s.tagAt st' t' := SMap.get_set _ _ _ _ _
@[simp] theorem State.tagAt_setTag_self (s : State) (st t : Nat) (x : BktTag) : (s.setTag st t x).tagAt st t = x :=
  SMap.get_set_self _ _ _ _
theorem State.unitAt_setUnit (s : State) (k k' : Nat) (x : BktUnit) :
    (s.setUnit k x).unitAt k' = if k = k' then x else s.unitAt k' := SMap.get_set _ _ _ _ _
@[simp] theorem State.unitAt_setUnit_self (s : State) (k : Nat) (x : BktUnit) : (s.setUnit k x).unitAt k = x :=
  SMap.get_set_self _ _ _ _
theorem State.entriesOf_setEntries (s : State) (st t st' t' : Nat) (x : List RunEntry) :
    (s.setEntries st t x).entriesOf st' t' = if tagIx st t = tagIx st' t' then x else s.entriesOf st' t' := SMap.get_set _ _ _ _ _
@[simp] theorem State.entriesOf_setEntries_self (s : State) (st t : Nat) (x : List RunEntry) : (s.setEntries st t x).entriesOf st t = x :=
  SMap.get_set_self _ _ _ _
theorem State.busOf_setBus (s : State) (st pc st' pc' : Nat) (x : List Xfer) :
    (s.setBus st pc x).busOf st' pc' = if pcIx st pc = pcIx st' pc' then x else s.busOf st' pc' := SMap.get_set _ _ _ _ _
@[simp] theorem State.busOf_setBus_self (s : State) (st pc : Nat) (x : List Xfer) : (s.setBus st pc x).busOf st pc = x :=
  SMap.get_set_self _ _ _ _
theorem State.keeper_setKeeper (s : State) (q q' : Nat) (x : Keeper) :
    (s.setKeeper q x).keeper q' = if q = q' then x else s.keeper q' := SMap.get_set _ _ _ _ _
@[simp] theorem State.keeper_setKeeper_self (s : State) (q : Nat) (x : Keeper) : (s.setKeeper q x).keeper q = x :=
  SMap.get_set_self _ _ _ _
theorem State.eng_setEng (s : State) (e e' : Nat) (x : Eng) :
    (s.setEng e x).eng e' = if e = e' then x else s.eng e' := SMap.get_set _ _ _ _ _
@[simp] theorem State.eng_setEng_self (s : State) (e : Nat) (x : Eng) : (s.setEng e x).eng e = x :=
  SMap.get_set_self _ _ _ _
theorem State.tbl_setTbl (s : State) (i i' : Nat) (x : TblSlot) :
    (s.setTbl i x).tbl i' = if i = i' then x else s.tbl i' := SMap.get_set _ _ _ _ _
@[simp] theorem State.tbl_setTbl_self (s : State) (i : Nat) (x : TblSlot) : (s.setTbl i x).tbl i = x :=
  SMap.get_set_self _ _ _ _
theorem State.qdr_setQdr (s : State) (i i' : Nat) (x : Qdr) :
    (s.setQdr i x).qdr i' = if i = i' then x else s.qdr i' := SMap.get_set _ _ _ _ _
@[simp] theorem State.qdr_setQdr_self (s : State) (i : Nat) (x : Qdr) : (s.setQdr i x).qdr i = x :=
  SMap.get_set_self _ _ _ _
theorem State.port_setPort (s : State) (p p' : Nat) (x : GPort) :
    (s.setPort p x).port p' = if p = p' then x else s.port p' := SMap.get_set _ _ _ _ _
@[simp] theorem State.port_setPort_self (s : State) (p : Nat) (x : GPort) : (s.setPort p x).port p = x :=
  SMap.get_set_self _ _ _ _
theorem State.sesOf_setSes (s : State) (h h' : Nat) (x : Session) :
    (s.setSes h x).sesOf h' = if h = h' then x else s.sesOf h' := SMap.get_set _ _ _ _ _
@[simp] theorem State.sesOf_setSes_self (s : State) (h : Nat) (x : Session) : (s.setSes h x).sesOf h = x :=
  SMap.get_set_self _ _ _ _
theorem State.model_setModel (s : State) (m m' : Nat) (x : Model) :
    (s.setModel m x).model m' = if m = m' then x else s.model m' := SMap.get_set _ _ _ _ _
@[simp] theorem State.model_setModel_self (s : State) (m : Nat) (x : Model) : (s.setModel m x).model m = x :=
  SMap.get_set_self _ _ _ _
theorem State.ten_setTen (s : State) (t t' : Nat) (x : Ten) :
    (s.setTen t x).ten t' = if t = t' then x else s.ten t' := SMap.get_set _ _ _ _ _
@[simp] theorem State.ten_setTen_self (s : State) (t : Nat) (x : Ten) : (s.setTen t x).ten t = x :=
  SMap.get_set_self _ _ _ _
theorem State.adapter_setAdapter (s : State) (a a' : Nat) (x : Adapter) :
    (s.setAdapter a x).adapter a' = if a = a' then x else s.adapter a' := SMap.get_set _ _ _ _ _
@[simp] theorem State.adapter_setAdapter_self (s : State) (a : Nat) (x : Adapter) : (s.setAdapter a x).adapter a = x :=
  SMap.get_set_self _ _ _ _
theorem State.chanOf_setChan (s : State) (st c st' c' : Nat) (x : Chan) :
    (s.setChan st c x).chanOf st' c' = if st * 32 + c = st' * 32 + c' then x else s.chanOf st' c' := SMap.get_set _ _ _ _ _
@[simp] theorem State.chanOf_setChan_self (s : State) (st c : Nat) (x : Chan) : (s.setChan st c x).chanOf st c = x :=
  SMap.get_set_self _ _ _ _
theorem State.queue_setQueue (s : State) (i q i' q' : Nat) (x : QQueue) :
    (s.setQueue i q x).queue i' q' = if i * 128 + q = i' * 128 + q' then x else s.queue i' q' := SMap.get_set _ _ _ _ _
@[simp] theorem State.queue_setQueue_self (s : State) (i q : Nat) (x : QQueue) : (s.setQueue i q x).queue i q = x :=
  SMap.get_set_self _ _ _ _
theorem State.pq_setPq (s : State) (page q page' q' : Nat) (x : PmpQueue) :
    (s.setPq page q x).pq page' q' = if page * 4 + q = page' * 4 + q' then x else s.pq page' q' := SMap.get_set _ _ _ _ _
@[simp] theorem State.pq_setPq_self (s : State) (page q : Nat) (x : PmpQueue) : (s.setPq page q x).pq page q = x :=
  SMap.get_set_self _ _ _ _

/-! ## Registers -/

@[simp] theorem State.reg_setReg_self (s : State) (pg : Page) (b o : Nat) (v : W32) : (s.setReg pg b o v).reg pg b o = v :=
  SMap.get_set_self _ _ _ _

theorem State.reg_congr {s t : State} (h : t.regs = s.regs) : t.reg = s.reg := by
  funext pg b o; simp only [State.reg, h]

theorem State.fld_congr {s t : State} (h : t.regs = s.regs) : t.fld = s.fld := by
  funext pg f; simp only [State.fld, State.fldB, State.reg_congr h]

/-- Another register of the same key space keeps its value. -/
theorem State.reg_setReg_of_key_ne (s : State) (pg pg' : Page) (b b' o o' : Nat) (v : W32) (h : regKey pg b o ≠ regKey pg' b' o') :
    (s.setReg pg b o v).reg pg' b' o' = s.reg pg' b' o' := SMap.get_set_other _ _ _ _ h

/-! ## Gates -/

/-- A gated command acts on a booted device. -/
theorem State.gate_booted (s : State) (k : State → Out) (h : s.booted = true) : s.gate k = k s := by simp [State.gate, h]

/-- A gated command changes nothing before the device has booted. -/
theorem State.gate_not_booted (s : State) (k : State → Out) (h : s.booted = false) : s.gate k = .next s := by simp [State.gate, h]

/-- Everything that a gated command can do. -/
theorem State.gate_cases {s t : State} {k : State → Out} (h : s.gate k = .next t) :
    (s.booted = true ∧ k s = .next t) ∨ (s.booted = false ∧ t = s) := by
  unfold State.gate at h
  split at h
  · next hb => exact Or.inl ⟨hb, h⟩
  · next hb => cases h; exact Or.inr ⟨by simpa using hb, rfl⟩

theorem State.gateOn_on (s : State) (pg : Page) (k : State → Out) (h : s.booted = true) (he : s.flag pg F.hdr_ENABLE = true) :
    s.gateOn pg k = k s := by simp [State.gateOn, h, he]

/-- Everything that a command which is new work for a block can do. -/
theorem State.gateOn_cases {s t : State} {pg : Page} {k : State → Out} (h : s.gateOn pg k = .next t) :
    (s.booted = true ∧ s.flag pg F.hdr_ENABLE = true ∧ k s = .next t) ∨ ((s.booted && s.flag pg F.hdr_ENABLE) = false ∧ t = s) := by
  unfold State.gateOn at h
  split at h
  · next hb => simp only [Bool.and_eq_true] at hb; exact Or.inl ⟨hb.1, hb.2, h⟩
  · next hb => cases h; exact Or.inr ⟨by simpa using hb, rfl⟩

theorem State.badAccess_quiet (s : State) (pg : Page) (off : Nat) (w : Bool) : Quiet s (s.badAccess pg off w) := by
  simp only [State.badAccess]
  generalize hu : (if ownerOf pg = 0 then _ else _ : State) = u
  have h : Quiet s u := by
    subst hu
    split
    · exact (s.bump_quiet _ _ _).trans (State.setReg_quiet _ _ _ _ _)
    · split
      · exact Quiet.refl s
      · exact (s.bump_quiet _ _ _).trans (State.fault_quiet _ _ _ _ _ _ _ _)
  split
  · exact h
  · exact h.trans (u.raise_quiet _ _)

/-- Everything that a register write can do: what its register does, or a bad access. -/
theorem State.regWrite_cases (s : State) (pg : Page) (off : Nat) (k : State → State) :
    (s.pageLive pg = true ∧ s.regWrite pg off k = k s) ∨ (s.pageLive pg = false ∧ s.regWrite pg off k = s.badAccess pg off true) := by
  unfold State.regWrite
  split
  · next h => exact Or.inl ⟨h, rfl⟩
  · next h => exact Or.inr ⟨by simpa using h, rfl⟩

/-! ## Free values -/

@[simp] theorem State.draw_free (s : State) : s.draw.2 = { s with free := s.free + 1 } := rfl
@[simp] theorem State.drawBytes_free (s : State) (n : Nat) : (s.drawBytes n).2 = { s with free := s.free + n } := rfl
@[simp] theorem State.drawBytes_length (s : State) (n : Nat) : (s.drawBytes n).1.length = n := by simp [State.drawBytes]

end Sys2Proof.Machine
end

