-- ==== Sys2Proof/Laws/Memory.lean ====
section
/-! SUPPORT. The byte memories: what a write leaves to be read, and that every operation that writes a memory keeps the canonical form. -/
namespace Sys2Proof.Machine
open Sys2Proof

/-! ## Reset, and updates that touch no memory -/

/-- Reset memory has the canonical form. -/
theorem State.memoryWf_reset : State.reset.memoryWf = true := rfl

/-- The canonical form speaks of the byte memories and the filled stripes alone. -/
theorem State.memoryWf_congr {s t : State} (hc : t.cis.cols = s.cis.cols) (hf : t.cis.fills = s.cis.fills)
    (hw : t.mem.well = s.mem.well) (hs : t.mem.sump = s.mem.sump) (hg : t.mem.goldBytes = s.mem.goldBytes)
    (hq : t.bkt.query = s.bkt.query) (hr : t.bkt.record = s.bkt.record) (hn : t.bkt.ring = s.bkt.ring)
    (hp : t.pmp.store = s.pmp.store) : t.memoryWf = s.memoryWf := by
  have hcols : t.colsWf = s.colsWf := by
    have : t.colDefault = s.colDefault := by funext k; simp only [State.colDefault, hf]
    simp only [State.colsWf, hc, this]
  simp only [State.memoryWf, hcols, hw, hs, hg, hq, hr, hn, hp]

/-- A report keeps every memory as it is. -/
theorem Quiet.memoryWf {s t : State} (h : Quiet s t) : t.memoryWf = s.memoryWf :=
  State.memoryWf_congr (by rw [h.cis]) (by rw [h.cis]) (by rw [h.mem]) (by rw [h.mem]) (by rw [h.mem]) (by rw [h.bkt])
    (by rw [h.bkt]) (by rw [h.bkt]) (by rw [h.pmp])

theorem Quiet.byteOf {s t : State} (h : Quiet s t) (sp : Space) (a : Nat) : t.byteOf sp a = s.byteOf sp a := by
  cases sp <;> simp only [State.byteOf, State.col, State.colDefault, h.cis, h.mem, h.bkt, h.pmp]

/-- A report leaves every byte of every memory as it is. -/
theorem Quiet.sameMemory {s t : State} (h : Quiet s t) : SameMemory s t := h.byteOf

theorem SameMemory.refl (s : State) : SameMemory s s := fun _ _ => rfl

theorem SameMemory.trans {s t u : State} (h : SameMemory s t) (k : SameMemory t u) : SameMemory s u :=
  fun sp a => (k sp a).trans (h sp a)

/-- The parts of the canonical form. -/
theorem State.memoryWf_iff (s : State) : s.memoryWf = true ↔ s.colsWf = true ∧ SMap.wf 0#8 s.mem.well = true
    ∧ SMap.wf 0#8 s.mem.sump = true ∧ SMap.wf 0#8 s.mem.goldBytes = true ∧ SMap.wf 0#8 s.bkt.query = true
    ∧ SMap.wf 0#8 s.bkt.record = true ∧ SMap.wf 0#8 s.bkt.ring = true ∧ SMap.wf 0#8 s.pmp.store = true := by
  simp only [State.memoryWf, Bool.and_eq_true, and_assoc]

/-! ## Columns -/

@[simp] theorem State.colDefault_setCol (s : State) (k : Nat) (c : Column) (j : Nat) : (s.setCol k c).colDefault j = s.colDefault j := rfl

/-- A column written reads as written, and every other column reads as before. -/
theorem State.col_setCol (s : State) (k j : Nat) (c : Column) : (s.setCol k c).col j = if k = j then c else s.col j := by
  by_cases h : k = j
  · subst h; simp [State.col, State.setCol, State.colDefault]
  · rw [if_neg h]; exact SMap.get_set_other _ _ _ _ h

theorem State.colsWf_setCol (s : State) (k : Nat) (c : Column) (h : s.colsWf = true) : (s.setCol k c).colsWf = true := by
  simp only [State.colsWf, Bool.and_eq_true] at h ⊢
  refine ⟨?_, ?_⟩
  · simp only [State.setCol, SMap.set]
    split
    · exact (SMap.sorted_filter _ _ h.1).1
    · exact (SMap.sorted_put _ _ _ h.1).1
  · simp only [State.colDefault_setCol]
    simp only [State.setCol, SMap.set]
    split
    · exact SMap.all_filter _ _ _ h.2
    · next hv => exact SMap.all_put _ _ _ _ h.2 (decide_eq_true hv)

theorem State.memoryWf_setCol (s : State) (k : Nat) (c : Column) (h : s.memoryWf = true) : (s.setCol k c).memoryWf = true := by
  rw [State.memoryWf_iff] at h ⊢
  exact ⟨s.colsWf_setCol k c h.1, h.2⟩

theorem State.countCe_memoryWf (s : State) (st pc : Nat) : (s.countCe st pc).memoryWf = s.memoryWf := by
  simp only [State.countCe]
  generalize hn : SMap.get s.cis.ceWin 0 (st * 64 + pc) + 1 = n
  have h : ∀ u : State, Quiet { s with cis := { s.cis with ceWin := SMap.set s.cis.ceWin 0 (st * 64 + pc) n } } u →
      u.memoryWf = s.memoryWf := fun u q => q.memoryWf.trans (State.memoryWf_congr rfl rfl rfl rfl rfl rfl rfl rfl rfl)
  have q := (State.bump_quiet { s with cis := { s.cis with ceWin := SMap.set s.cis.ceWin 0 (st * 64 + pc) n } } (pgCis st)
    F.cis_CE_COUNT_COUNT 1).trans (State.event_quiet _ (pgCis st))
  split
  · exact h _ (q.trans (State.raise_quiet _ _ _))
  · exact h _ q

theorem State.recordBad_quiet (s : State) (k : Nat) (p b : Bool) (tag : Nat) : Quiet s (s.recordBad k p b tag) := by
  simp only [State.recordBad]
  exact (((s.bump_quiet _ _ _).trans (State.setReg_quiet _ _ _ _ _)).trans (State.setReg_quiet _ _ _ _ _)).trans (State.logErr_quiet _ _ _ _ _ _)

/-- Reading a column, with the correction or the poison that it writes back, keeps the canonical form. -/
theorem State.memoryWf_readCol (s : State) (k : Nat) (h : s.memoryWf = true) : (s.readCol k).2.memoryWf = true := by
  simp only [State.readCol]
  split
  · exact h
  · rw [State.countCe_memoryWf]; exact s.memoryWf_setCol _ _ h
  · rw [(s.recordBad_quiet _ _ _ _).memoryWf]; exact h
  · rw [((State.recordBad_quiet _ _ _ _ _).trans (State.raise_quiet _ _ _)).memoryWf]; exact s.memoryWf_setCol _ _ h

theorem State.memoryWf_writeCol (s : State) (k off : Nat) (data : List Byte) (h : s.memoryWf = true) :
    (s.writeCol k off data).2.memoryWf = true := by
  simp only [State.writeCol]
  split
  · exact s.memoryWf_setCol _ _ h
  · split
    · exact s.memoryWf_readCol _ h
    · exact State.memoryWf_setCol _ _ _ (s.memoryWf_readCol _ h)

theorem State.memoryWf_adderCol (s : State) (op k off : Nat) (data new : List Byte) (h : s.memoryWf = true) :
    (s.adderCol op k off data new).2.2.memoryWf = true := by
  simp only [State.adderCol]
  split
  · exact s.memoryWf_readCol _ h
  · exact State.memoryWf_setCol _ _ _ (s.memoryWf_readCol _ h)

/-- A property that every step of a fold keeps holds of what the fold ends with. -/
theorem foldl_keeps {α β : Type} (p : β → Prop) (f : β → α → β) (hf : ∀ b a, p b → p (f b a)) (l : List α) (b : β) (hb : p b) :
    p (l.foldl f b) := by
  induction l generalizing b with
  | nil => exact hb
  | cons a l ih => exact ih _ (hf b a hb)

theorem State.memoryWf_writeGran (s : State) (p : Place) (off : Nat) (data : List Byte) (h : s.memoryWf = true) :
    (s.writeGran p off data).2.memoryWf = true := by
  unfold State.writeGran
  refine foldl_keeps (fun (x : Bool × State) => x.2.memoryWf = true) _ ?_ _ _ h
  intro b a hb
  exact b.2.memoryWf_writeCol _ _ _ hb

theorem State.memoryWf_adder (s : State) (p : Place) (op off : Nat) (data : List Byte) (h : s.memoryWf = true) :
    (s.adder p op off data).2.2.memoryWf = true := by
  simp only [State.adder]
  split
  · rw [(State.bump_quiet _ _ _ _).memoryWf]
    refine foldl_keeps (fun (x : List Byte × Bool × State) => x.2.2.memoryWf = true) _ ?_ _ _ h
    intro b a hb
    exact b.2.2.memoryWf_adderCol _ _ _ _ _ hb
  · exact h

/-- Filling a stripe with poison (R109) keeps the canonical form: the columns it covers are no longer listed. -/
theorem State.colsWf_fill (s : State) (f : Fill) (h : s.colsWf = true) :
    ({ s with cis := { s.cis with fills := s.cis.fills ++ [f], cols := SMap.keep s.cis.cols (fun c => !(f.covers c)) } } : State).colsWf = true := by
  simp only [State.colsWf, Bool.and_eq_true] at h ⊢
  refine ⟨(SMap.sorted_filter _ _ h.1).1, ?_⟩
  have h2 := List.all_eq_true.1 h.2
  refine List.all_eq_true.2 (fun x hx => ?_)
  have hx' := List.mem_filter.1 hx
  have hc : f.covers x.1 = false := by simpa using hx'.2
  have := h2 x hx'.1
  simpa [State.colDefault, hc] using this

/-! ## The base dies' memories and the tile stores -/

theorem State.memoryWf_ringWrite (s : State) (st pc off : Nat) (bytes : List Byte) (h : s.memoryWf = true) :
    (s.ringWrite st pc off bytes).memoryWf = true := by
  rw [State.memoryWf_iff] at h ⊢
  refine ⟨h.1, h.2.1, h.2.2.1, h.2.2.2.1, h.2.2.2.2.1, h.2.2.2.2.2.1, ?_, h.2.2.2.2.2.2.2⟩
  exact foldl_keeps (fun (x : SMap Byte × Nat) => SMap.wf 0#8 x.1 = true) _ (fun b _ hb => SMap.wf_set _ _ _ _ hb) _ _ h.2.2.2.2.2.2.1

theorem State.memoryWf_writeTagArea (s : State) (st t : Nat) (query record : List Byte) (h : s.memoryWf = true) :
    (s.writeTagArea st t query record).memoryWf = true := by
  have h1 := h
  rw [State.memoryWf_iff] at h1
  have h2 : ({ s with bkt := { s.bkt with
      query := SMap.setList s.bkt.query 0#8 (tagIx st t * 4096) (query.take 4096)
      record := SMap.setList s.bkt.record 0#8 (tagIx st t * 64) (record.take 60) } } : State).memoryWf = true := by
    rw [State.memoryWf_iff]
    exact ⟨h1.1, h1.2.1, h1.2.2.1, h1.2.2.2.1, SMap.wf_setList _ _ _ _ h1.2.2.2.2.1, SMap.wf_setList _ _ _ _ h1.2.2.2.2.2.1,
      h1.2.2.2.2.2.2.1, h1.2.2.2.2.2.2.2⟩
  simp only [State.writeTagArea]
  split
  · exact h2
  · exact h2

theorem State.memoryWf_storeWrite (ps : List Piece) (s : State) (e a : Nat) (h : s.memoryWf = true) :
    (s.storeWrite e a ps).memoryWf = true := by
  induction ps generalizing s a with
  | nil => exact h
  | cons p ps ih =>
    obtain ⟨bs, x⟩ := p
    unfold State.storeWrite
    apply ih
    apply foldl_keeps (fun (s : State) => s.memoryWf = true)
    · intro u i hu
      rw [← hu]
      exact State.memoryWf_congr rfl rfl rfl rfl rfl rfl rfl rfl rfl
    · apply foldl_keeps (fun (y : Nat × State) => y.2.memoryWf = true)
      · intro y v hy
        rw [State.memoryWf_iff] at hy ⊢
        exact ⟨hy.1, hy.2.1, hy.2.2.1, hy.2.2.2.1, hy.2.2.2.2.1, hy.2.2.2.2.2.1, hy.2.2.2.2.2.2.1,
          SMap.wf_set _ _ _ _ hy.2.2.2.2.2.2.2⟩
      · exact h

/-! ## Tiles -/

theorem State.resolve_quiet (s : State) (g : Gran) : Quiet s (s.resolve g).2 := by
  unfold State.resolve
  split
  · exact Quiet.refl s
  · generalize s.redirect _ _ _ = r
    dsimp only
    split
    · exact Quiet.refl s
    · exact s.bump_quiet _ _ _

theorem State.tileCol_quiet (s : State) (ver : Nat → Nat) (loc : StackLoc) (off : Nat) : Quiet s (s.tileCol ver loc off).2 := by
  simp only [State.tileCol]
  split
  · exact Quiet.refl s
  · exact s.resolve_quiet _

/-- A write into a placed tile keeps the canonical form, whichever tier holds the tile. -/
theorem State.memoryWf_writePiece (s : State) (fn o t off : Nat) (p : Piece) (h : s.memoryWf = true) :
    (s.writePiece fn o t off p).memoryWf = true := by
  have h1 := (State.memoryWf_iff s).1 h
  simp only [State.writePiece]
  split
  · rw [State.memoryWf_iff]
    exact ⟨h1.1, SMap.wf_setList _ _ _ _ h1.2.1, h1.2.2⟩
  · split
    · generalize hs0 : s.setTile (tileIx fn o t) _ = s0
      have h0 : s0.memoryWf = true := by subst hs0; exact h
      have hq := s0.tileCol_quiet (s.obj fn o).ver ‹StackLoc› off
      split
      · next e => rw [e] at hq; rw [hq.memoryWf]; exact h0
      · next e =>
        rw [e] at hq
        have h2 := hq.memoryWf.trans h0
        split
        · exact State.memoryWf_setCol _ _ _ h2
        · exact State.memoryWf_writeCol _ _ _ _ h2
    · split
      · rw [State.memoryWf_iff]
        exact ⟨h1.1, h1.2.1, SMap.wf_setList _ _ _ _ h1.2.2.1, h1.2.2.2⟩
      · exact h

end Sys2Proof.Machine
end

