-- ==== Sys2Proof/Tests/Slice0.lean ====
section
/-! SUPPORT. The model's own tests: ill-formed commands that WellFormed refuses, single steps whose results the spec's words give, and for every
statement with hypotheses a state and operands that meet them. -/
namespace Sys2Proof.Tests
open Sys2Proof Sys2Proof.Machine
set_option Elab.async false

/-! ## States -/

/-- The device past its boot: PERST# high, the boot lock point passed, its TOP page READY, and all else as reset leaves it. -/
def up : State := (({ State.reset with boot := { perst := false } } : State).setFld pgSec F.sec_BOOT_STATUS_LOCKED 1).setFld pgTop F.hdr_STATE 2

/-- The same with the injection unit enabled. -/
def upInj : State := up.setFld pgRas F.ras_INJ_CTRL_ENABLE 1

/-- The token of a session's one request. -/
def req (typ : Byte) : Req := { entry := [typ, 0#8, 7#8], started := true }

/-- A model of one layer with one key/value head of dimension 64, its schedule installed. -/
def oneLayer : Model := { md := { vocab := 8, layers := 1, kvHeads := 1, hdim := 0 }, sched := some ⟨0, [0, 0], []⟩ }

/-- Tenant 0 READY with work: session 0 ACTIVE on model 0 with two tokens of history, a page for them, and one request. -/
def withSes (r : Req) : State :=
  (((up.setFld (pgTnt 0) F.hdr_STATE 2).setTen 0 { present := true }).setModel 0 oneLayer).setSes 0
    { st := .active, hist := [1, 2], reqs := [r], runs := [(0, [{ pair := 0, slot := 0 }])] }

/-- A round of model 0 with one row of session 0. -/
def round0 : Round := { num := 1, model := 0, rows := [⟨0, 1, 1, 2, .gen, 0⟩], holds := true, engines := [0], used := [0] }

/-- A device with that round in flight. -/
def withRound : State := ((withSes (req 3#8)).setRounds [round0])

/-- A device with channel 0 of stack 0 ONLINE. -/
def online : State := up.setChan 0 0 { st := .online }

/-! ## Hypotheses of the statements about the queue, reset and the memories -/

/-- The smallest of states with a command waiting, and one with none. -/
theorem wit_StepRunsTheFrontCommand :
    ({ up with pending := [.hostTimeStale, .layerBoundary] } : State).pending = .hostTimeStale :: [.layerBoundary] ∧ up.pending = [] := by
  decide +kernel

/-- A state with a column listed whose step answers a next state that lists one more. -/
theorem wit_StepsKeepMemoryCanonical :
    let s := { up.setCol 7 (encodeCol (List.replicate 32 1#8)) with pending := [.columnWrite (.at 0 0 0 0 0) 0 (List.replicate 32 2#8)] }
    s.memoryWf = true ∧ Out.isNext (step s) = true ∧ s.cis.cols.length = 1 := by decide +kernel

/-- The first row that no bank has, and the first local granule that no pseudo-channel has. -/
theorem wit_OnlyAbsentGranulesStop :
    (granOf (.columnRead (.at 0 0 0 49152 0) 0) = some (.at 0 0 0 49152 0) ∧ granExists (.at 0 0 0 49152 0) = false)
    ∧ granExists (.spread 0 0 (128 * 49152)) = false ∧ granExists (.at 0 0 0 49151 0) = true := by decide +kernel

/-- Memories in canonical form, one of them with an entry. -/
theorem wit_MemoryReadAfterWrite : (up.setCol 7 (encodeCol (List.replicate 32 1#8))).colsWf = true ∧ SMap.wf 0#8 [(3, 5#8)] = true := by decide +kernel

/-- The last offset, bank and instance that the statement speaks of. -/
theorem wit_RegisterReadAfterWrite : (4095 < 4096) ∧ (65535 < 65536) ∧ (⟨.msix, 255⟩ : Page).inst < 256 := by decide

/-! ## Hypotheses of the statements about rounds and sessions -/

/-- A model resident, its session generation-ready: a round may be sealed and its build has a row; and a state with two rounds in flight. -/
theorem wit_SealRoundCompletes :
    let s := withSes (req 3#8)
    (s.booted = true ∧ s.maySeal 0 = true ∧ ((s.boundaries.takeSchedule 0).model 0).quarantined = false
      ∧ ((s.boundaries.takeSchedule 0).buildRound 0 []).rows.isEmpty = false)
    ∧ (up.setRounds [round0, { round0 with num := 2, model := 1 }]).ses.rounds.length = 2 := by decide +kernel

/-- The round holds the engines in its one layer, its row's session generates, and the output head comes next. -/
theorem wit_RoundStepsComplete_running :
    let s := withRound
    (s.booted = true ∧ s.roundOf 1 = some round0 ∧ round0.holds = true ∧ round0.engines.isEmpty = false ∧ round0.layer = 0
      ∧ round0.rows.any (fun w => w.ses == rowKey 0#32 false) = true)
    ∧ s.boundaryDue = true
    ∧ ((round0.sampleRows (rowKey 0#32 false)).isEmpty = false ∧ s.layersOf round0 ≤ round0.layer + 1 ∧ SMap.find round0.emits 0 = none
      ∧ (s.sesOf 0).headReq = some (req 3#8)) := by decide +kernel

/-- The round is over and its row has been sampled; two rounds with layers left. -/
theorem wit_RoundStepsComplete_ended :
    let r := { round0 with layer := 1, emits := [(0, some ([], true))] }
    let s := withRound.setRounds [r]
    let q := { round0 with num := 2, model := 1 }
    (s.roundOf 1 = some r ∧ s.layersOf r ≤ r.layer ∧ r.sampled = true)
    ∧ ((withRound.setRounds [round0, q]).ses.rounds = [round0, q] ∧ round0.layer < (withRound.setRounds [round0, q]).layersOf round0
      ∧ q.layer < (withRound.setRounds [round0, q]).layersOf q) := by decide +kernel

/-- A session that is idle; a parked one whose time is over; a ring with a record unsignalled and one to deliver. -/
theorem wit_ExpiriesAndDeliveriesComplete :
    let s := ((withSes (req 3#8)).setFld pgTop F.top_HOST_TIME_STATUS_VALID 1).setSes 0 { st := .parked, ttl := [1, 1, 1] }
    let p := { s with copies := SMap.set s.copies 0#64 0 60000000001#64 }
    let t := ((s.setTen 0 { present := true, unsignalled := 1, pend := [⟨0, 0, List.replicate 16 0#8, false⟩] }).setFld (pgTnt 0)
      F.tnt0_TR_IRQ_DELAY_VALUE 1)
    (s.booted = true ∧ (s.sesOf 0).closing = false ∧ s.busy 0 = false)
    ∧ (p.timeValid = true ∧ p.ttlOf (p.sesOf 0) 0 ≠ ttlNever ∧ (p.sesOf 0).st = .parked
      ∧ (p.sesOf 0).entered.toNat + p.ttlOf (p.sesOf 0) 0 ≤ p.nowOf (p.sesOf 0))
    ∧ (t.booted = true ∧ (t.ten 0).unsignalled ≠ 0 ∧ t.fld (pgTnt 0) F.tnt0_TR_IRQ_DELAY_VALUE ≠ 0 ∧ t.fnState 0 = fnReady
      ∧ t.deliverable 0 1 ≠ 0) := by decide +kernel

/-! ## Hypotheses of the statements about host time -/

/-- A page that takes the write, and a value on each side of the one held. -/
theorem wit_HostTimePublishCompletes :
    let s := { up with hostTime := 5#64, stage := [(regKey pgTop 0 0x040, 5#32)] }
    s.pageLive pgTop = true ∧ s.hostTime.toNat ≤ s.staged pgTop 0 0x040 + 2 ^ 32 * (0#32).toNat
    ∧ up.staged pgTop 0 0x040 + 2 ^ 32 * (0#32).toNat < s.hostTime.toNat := by decide +kernel

/-- A copy behind two publications on their way, the last of which is held. -/
def onTheWay : State := { up with hostTime := 9#64, copies := [(3, 4#64)], inflight := [(3, [6#64, 9#64])] }

/-- Copies, publications on their way and the held value in order, and a publication and an update that are taken. -/
theorem wit_CopiesNeverDecrease : onTheWay.timeOrdered ∧ Out.isNext (exec (.hostTimePublish 1) onTheWay) = true
    ∧ Out.isNext (exec (.hostTimeCopyUpdate 3 0) onTheWay) = true := by
  refine ⟨fun b => ?_, by decide +kernel, by decide +kernel⟩
  by_cases h : 3 = b
  · subst h; exact ⟨⟨by decide, by decide, trivial⟩, by decide⟩
  · have h1 : onTheWay.timeAt b = 0#64 := by simp [onTheWay, State.timeAt, SMap.get, SMap.find, h]
    have h2 : SMap.get onTheWay.inflight [] b = [] := by simp [onTheWay, SMap.get, SMap.find, h]
    rw [h1, h2]; exact ⟨trivial, by decide⟩

/-- A publication on its way to a block; time held too long; a window at its end; an object placed under an old version. -/
theorem wit_TimeEventsComplete :
    let s := { up with hostTime := 9#64, copies := [(3, 4#64)], inflight := [(3, [6#64, 9#64])] }
    let v := (up.setFld pgTop F.top_HOST_TIME_STATUS_VALID 1).setFld pgTop F.top_HOST_TIME_CFG_STALE_LIMIT_US 1
    let w := { v with tel := { v.tel with wins := [(3, (1000, 0))] }, copies := [(3, 1000#64)] }
    let m := (up.setObj 0 1 { st := .ready }).setFld (pgCisQ 0) F.cisq_HASH_CFG_CUR_VER 1
    (SMap.get s.inflight [] 3 = 6#64 :: [9#64] ∧ (SMap.get s.watches {} 3).count ≤ (0#64).toNat)
    ∧ (v.fld pgTop F.top_HOST_TIME_CFG_STALE_LIMIT_US ≠ 0 ∧ v.timeValid = true ∧ v.flag pgTop F.top_HOST_TIME_STATUS_STALE = false)
    ∧ (w.booted = true ∧ SMap.find w.tel.wins 3 = some (1000, 0) ∧ (0 + 1) * 1000 ≤ (w.timeAt 3).toNat ∧ w.timeValid = true
      ∧ w.pageLive (blockPage 3) = true)
    ∧ (m.booted = true ∧ m.migrates 0 1 = true ∧ (m.placeAgain 0 1).isSome = true) := by decide +kernel

/-! ## Hypotheses of the statements about registers -/

/-- A register of each access code. -/
theorem wit_AccessCodesAreObeyed :
    (∃ r ∈ blockRegs .top, ∃ f ∈ r.flds, f.acc = .RW) ∧ (∃ r ∈ blockRegs .top, ∃ f ∈ r.flds, f.acc = .W1C)
    ∧ (∃ r ∈ blockRegs .dir, ∃ f ∈ r.flds, f.acc = .RC ∨ f.acc = .RO) ∧ (∃ r ∈ blockRegs .sec, ∃ f ∈ r.flds, f.acc = .W1S)
    ∧ ∃ r ∈ blockRegs .top, ¬(∃ f ∈ r.flds, f.lsb ≤ 31 ∧ 31 ≤ f.msb) := by decide +kernel

/-- The PF reaches its pages; whole words; a register that begins a pair. -/
theorem wit_RegisterAccessCompletes :
    (up.reaches 0 0x1040 = true ∧ ([1#8, 2#8, 3#8, 4#8].isEmpty = false) ∧ wordsOk 0x1040 4 = true)
    ∧ ((4 : Fin 4097).val ≠ 0 ∧ readOk 0x1040 4 = true) ∧ pageAtSlot 0 (0x1040 / 4096) = some pgTop := by decide +kernel

/-- The pair of TOP.HOST_TIME's neighbours that no command stands for: a journal base of a tenant's ring. -/
theorem wit_PairsCommitOnHigh :
    let s := up.setFld (pgTnt 0) F.hdr_STATE 0
    let o := F.tnt0_TR_BASE_LO_ADDR.off
    (pgTnt 0).isLow o = true ∧ s.pageLive (pgTnt 0) = true ∧ ((pgTnt 0).regAt o).isSome = true ∧ 0x040 ≤ o ∧ PageKind.tnt0 ≠ .msix ∧ PageKind.tnt0 ≠ .dir
    ∧ (s.rowWrite (pgTnt 0) o 4096).isNone = true ∧ s.unselected (pgTnt 0) o = false ∧ s.writeIgnored (pgTnt 0) o 4096 = false
    ∧ ((pgTnt 0).regAt (o + 4)).isSome = true ∧ (s.rowWrite (pgTnt 0) (o + 4) 1).isNone = true ∧ s.unselected (pgTnt 0) (o + 4) = false
    ∧ s.writeIgnored (pgTnt 0) (o + 4) 1 = false := by decide +kernel

/-- Injection enabled, and not. -/
theorem wit_ErrorInjectCompletes :
    pageAtSlot 0 3 = some pgSec ∧ upInj.reaches 0 (4096 * 3) = true ∧ PageKind.sec ≠ .msix ∧ pgSec.injectCap = true
    ∧ upInj.fld pgRas F.ras_INJ_CTRL_ENABLE ≠ 0 ∧ up.fld pgRas F.ras_INJ_CTRL_ENABLE = 0 ∧ up.reaches 0 (4096 * 3) = true ∧ up.pageLive pgRas = true := by decide +kernel

/-- The last cause, and a page whose error is pending. -/
theorem wit_CausesSetErrStatus : (31 < 32) ∧ pgSec.kind ≠ .msix ∧ pgSec.inst < 256
    ∧ (up.setReg pgSec 0 0x010 1#32).errPending pgSec = true := by decide +kernel

/-! ## Hypotheses of the statements about columns -/

/-- The first and the last byte of a column in error. -/
theorem wit_ColumnCodeCorrects : (List.replicate 32 7#8).length = 32 ∧ 0 < 35 ∧ 35 < 36 ∧ (1#8) ≠ 0#8 := by decide

/-- A granule whose channel is ONLINE: its column clean, and with one byte wrong. -/
theorem wit_ColumnAccessesComplete :
    let g : Gran := .at 0 0 0 49151 3
    let s := online.setCol (((online.resolve g).1).key 7) (xorAt zeroCol 35 1)
    (online.servesGran g = true ∧ decodeCol ((online.resolve g).2.col ((online.resolve g).1.key 0)) = .clean ∧ online.colsWf = true)
    ∧ (s.servesGran g = true ∧ s.colsWf = true ∧ decodeCol ((s.resolve g).2.col ((s.resolve g).1.key 7)) = .fixed zeroCol)
    ∧ ((224#8).toNat = 32 * (7 : Fin 8).val ∧ (List.replicate 32 9#8).length = 32) := by decide +kernel

/-- A poisoned column, written in part and by an adder operation whose operand it holds in part. -/
theorem wit_ColumnAccessesComplete_poisoned :
    let g : Gran := .at 0 0 0 0 0
    let s := online.setCol ((online.resolve g).1.key 1) (poisonCol zeroCol)
    s.servesGran g = true ∧ s.colsWf = true ∧ decodeCol (s.col ((s.resolve g).1.key 1)) = .poisoned
    ∧ (max 63 32 < min (63 + 9) (32 + 32) ∧ min (63 + 9) (32 + 32) < max 63 32 + 32) ∧ adderOk 0x03 56 (List.replicate 16 1#8) = true := by
  decide +kernel

/-- An error that becomes pending by a cause, and by a write of ERR_MASK, with the interrupt enabled. -/
theorem wit_CausesSetErrStatus_edge :
    let s := up.setFld pgSec F.hdr_ERR_IRQ_EN 1
    let m := (s.setReg pgSec 0 0x010 1#32).setReg pgSec 0 0x014 1#32
    (s.errPending pgSec = false ∧ (s.raise pgSec 0).errPending pgSec = true ∧ s.flag pgSec F.hdr_ERR_IRQ_EN = true)
    ∧ m.errPending pgSec = false ∧ (m.setReg pgSec 0 0x014 0#32).errPending pgSec = true := by decide +kernel

/-- A well-formed adder operation at the last element of a granule, and a malformed one. -/
theorem wit_AddersComplete :
    online.servesGran (.at 0 0 0 0 0) = true ∧ (.addInt32 (.at 0 0 0 0 0) 252#8 [1#8, 0#8, 0#8, 0#8], 0x02) ∈ adderCommands (.at 0 0 0 0 0) 252#8 [1#8, 0#8, 0#8, 0#8]
    ∧ adderOk 0x02 252 [1#8, 0#8, 0#8, 0#8] = true ∧ adderOk 0x02 253 [1#8, 0#8, 0#8, 0#8] = false := by decide +kernel

/-- Operands at the ends of their ranges, one below the other as signed numbers; a poisoned column. -/
theorem wit_AdderElementValues :
    (5 < 2 ^ 32 ∧ 0xFFFFFFFF < 2 ^ 32 ∧ toSigned 32 0xFFFFFFFF < toSigned 32 5) ∧ (toSigned 64 0xFFFFFFFFFFFFFFFF < toSigned 64 5)
    ∧ (online.setCol 9 (poisonCol zeroCol)).colsWf = true ∧ decodeCol ((online.setCol 9 (poisonCol zeroCol)).col 9) = .poisoned := by decide +kernel

/-- A write that is carried out. -/
theorem wit_ColumnCommandFrame : online.colsWf = true ∧ Out.isNext (exec (.columnWrite (.at 0 0 0 0 0) 0 [1#8]) online) = true
    ∧ Out.isNext (exec (.columnRead (.at 0 0 0 0 0) 7) online) = true ∧ Out.isNext (exec (.swap32 (.at 0 0 0 0 0) 0 [1#8, 0#8, 0#8, 0#8]) online) = true := by
  decide +kernel

/-! ## Hypotheses of the statements about channels and stacks -/

/-- Channel 0 of stack 0 in a state. -/
def chan (c : Chan) : State := up.setChan 0 0 c

/-- The channel in each state that a clause names; an idle stack; a measurement that may start, and one under way. -/
theorem wit_ChannelRequestsComplete :
    let idle := online.setFld (pgCis 0) F.hdr_ENABLE 0
    let m := { chan { st := .margin } with cis := { (chan { st := .margin }).cis with measuring := [0] } }
    (online.booted = true ∧ online.pageLive (pgCis 0) = true ∧ (online.chanOf 0 0).st = .online
      ∧ SMap.get online.cis.linkWin 0 0 + (0#16).toNat ≤ online.fld (pgCis 0) F.cis_LINK_THRESH_RETRIES ∧ online.mapOutRefused 0 0 = none)
    ∧ ((chan { st := .retrainPending }).chanOf 0 0).st = .retrainPending ∧ ((chan { st := .lost }).chanOf 0 0).st = .lost
    ∧ (idle.pageLive (pgCis 0) = true ∧ (idle.chanOf 0 0).st = .online ∧ idle.stackIdle 0 = true)
    ∧ ((chan { st := .margin }).pageLive (pgCis 0) = true ∧ bitOf (0x1000#32).toNat 12 = true
      ∧ ((chan { st := .margin }).chanOf 0 ((0x1000#32).toNat % 32)).st = .margin ∧ (chan { st := .margin }).cis.measuring.contains 0 = false)
    ∧ (m.booted = true ∧ m.cis.measuring.contains 0 = true) := by decide +kernel

/-- A channel that waits for its retrain, one that retrains, one whose map-out begins, and one whose granules are copied. -/
theorem wit_RetrainsAndMapOutsComplete :
    let w := { chan { st := .retrainPending } with cis := { (chan { st := .retrainPending }).cis with retrainQ := [0] } }
    let m := chan { st := .migrating }
    let c := { chan { st := .migrating, moving := true } with cis := { (chan { st := .migrating, moving := true }).cis with
      exc := [(0, { valid := true, survivors := 318 })] } }
    (w.booted = true ∧ w.ses.rounds = [] ∧ (∀ c : Fin 32, (w.chanOf 0 c).st ≠ .retraining) ∧ w.cis.retrainQ.find? (fun k => k / 32 == 0) = some 0
      ∧ (w.chanOf 0 (0 % 32)).st = .retrainPending)
    ∧ ((chan { st := .retraining }).booted = true ∧ ((chan { st := .retraining }).chanOf 0 0).st = .retraining)
    ∧ (m.booted = true ∧ (m.chanOf 0 0).st = .migrating ∧ (m.chanOf 0 0).moving = false ∧ m.mapOutRefused 0 0 = none)
    ∧ (c.booted = true ∧ (c.excOf 0 0).valid = true ∧ (c.excOf 0 0).lost = false ∧ (c.chanOf 0 0).st = .migrating ∧ (c.chanOf 0 0).moving = true
      ∧ c.pagesOn (onChannel 0 0) = false ∧ (c.excOf 0 0).movedMark + 1 < c.movedAll (c.excOf 0 0).resBase) := by decide +kernel

/-- A stack that comes up, one in self-refresh, repairs that may begin and one under way, and a stack that is scrubbed. -/
theorem wit_StackEventsComplete :
    let b := { State.reset with boot := { perst := false, running := true } }
    let f := { up with cis := { up.cis with selfRefresh := [0] } }
    let none' := (up.setFld (pgCis 0) (spareFld 0) 0)
    let r := { up with cis := { up.cis with repair := [(0, some ⟨true, 0, 0, 0⟩)] } }
    let c := online.setFld (pgCis 0) F.hdr_STATE 2
    (b.fld (pgCis 0) F.hdr_STATE = 1 ∧ b.boot.running = true) ∧ f.cis.selfRefresh.contains 0 = true
    ∧ (up.pageLive (pgCis 0) = true ∧ SMap.get up.cis.repair none 0 = none ∧ up.repairOk 0 = true ∧ 0 < up.fld (pgCis 0) (spareFld 0)
      ∧ none'.fld (pgCis 0) (spareFld 0) = 0 ∧ none'.repairOk 0 = true)
    ∧ (r.booted = true ∧ SMap.get r.cis.repair none 0 = some ⟨true, 0, 0, 0⟩)
    ∧ (c.booted = true ∧ c.fld (pgCis 0) F.hdr_STATE = 2 ∧ c.fld (pgCis 0) F.hdr_SCRUB_EN ≠ 0
      ∧ (c.chanOf 0 ((placeOfKey (0 * stackCols + SMap.get c.cis.scrubAt 0 0)).pc / 2)).parked = false)
    ∧ up.pageLive (pgCisQ 0) = true := by decide +kernel

/-! ## Hypotheses of the statements about in-stack attention -/

/-- A tag record of 64 bytes: scale 1, head dimension 64, NOTIFY 0, pseudo-channel 0 alone. -/
def record0 : List Byte := [0#8, 0#8, 0x80#8, 0x3F#8] ++ List.replicate 12 0#8 ++ [1#8] ++ List.replicate 47 0#8

/-- A run entry of one page at bank pair 0. -/
def entry0 : RunEntry := { pc := 0, bp := 0, pages := 1, slots := [0], last := 1, tail := false }

/-- Tag 0 of stack 0 with a life, run by unit 0 of pseudo-channel 0. -/
def tag0 (life : TagLife) : BktTag := { life := life, record := record0, units := [0] }

/-- A device with tag 0 as given and unit 0 as given, and transfers on its bus. -/
def withTag (g : BktTag) (u : BktUnit) (bus : List Xfer) : State := ((online.setTag 0 0 g).setUnit 0 u).setBus 0 0 bus

/-- A unit at address 0 of a micro-program that holds one word. -/
def atWord (w : Nat) : BktUnit :=
  { phase := .running, tags := [0], pages := 1, last := 1, nt := 1, slots := [0], prog := [(0, BitVec.ofNat 32 w)],
    q0 := (List.range 32).map (fun i => (i, [0x38#8])) }

/-- A ring write that takes; a tag that is free, with its run entry, and one without; tags complete and open. -/
theorem wit_TagsCompleteTheirSteps_keeper :
    let s := online.setEntries 0 0 [entry0]
    let s1 := s.writeTagArea 0 0 [1#8] record0
    let r := SMap.getList s1.bkt.record 0#8 (tagIx 0 0 * 64) 64
    (s.booted = true ∧ (16380#32).toNat % 4 = 0 ∧ (16380#32).toNat ≤ 16380)
    ∧ (s.flag (pgBkt 0) F.hdr_ENABLE = true ∧ (s.tagAt 0 0).life = .free ∧ s1.tagOk 0 r (s1.entriesOf 0 0) = true)
    ∧ (online.writeTagArea 0 0 [1#8] record0).tagOk 0 r [] = false
    ∧ ((withTag (tag0 .complete) {} []).tagAt 0 0).life = .complete ∧ ((withTag (tag0 .opened) {} []).tagAt 0 0).life = .opened := by
  decide +kernel

/-- A unit whose START has come, and a tag that is open with its unit waiting for the query. -/
theorem wit_TagsCompleteTheirSteps_unit :
    let s := withTag (tag0 .opened) { tags := [0], phase := .started } []
    (s.unitAt (unitIx 0 0 0)).phase = .started
    ∧ ((s.tagAt 0 0).life = .opened ∧ (recPcs (s.tagAt 0 0).record).contains 0 = true ∧ (s.tagAt 0 0).cast.contains 0 = false
      ∧ ((s.tagAt 0 0).units.filter (fun k => k / 16 % 64 == 0)).all (fun k => ((s.unitAt k).tags.take 2).contains 0) = true) := by
  decide +kernel

/-- Every opcode at a running unit, its columns and chunks there; the branch taken, and not. -/
theorem wit_BucketInstructionsComplete :
    (∀ op ∈ [0, 1, 2, 3, 4, 5, 6, 7, 8, 9, 10, 11],
      let s := withTag (tag0 .opened) (atWord (op * 2 ^ 27)) []
      let u := s.unitAt (unitIx 0 0 0)
      u.phase = .running ∧ u.word / 2 ^ 27 = op ∧ u.poisoned = false ∧ s.sweepReady 0 0 u = true ∧ u.queryHere = true)
    ∧ bitsOf (atWord (8 * 2 ^ 27)).word 26 24 = 0
    ∧ (bitsOf (atWord (8 * 2 ^ 27 + 2 ^ 24)).word 26 24 = 1 ∧ (atWord (8 * 2 ^ 27 + 2 ^ 24)).done = false)
    ∧ (bitsOf (atWord (8 * 2 ^ 27 + 2 ^ 25)).word 26 24 = 2 ∧ (atWord (8 * 2 ^ 27 + 2 ^ 25)).done = false) := by decide +kernel

/-- A bus with one transfer of each type. -/
theorem wit_WindlassTransfersComplete :
    ∀ typ ∈ [1, 2, 3, 4, 5, 6, 7, 8, 9],
      (((withTag (tag0 .opened) { atWord 0 with phase := .atMax } [⟨typ, 0, 0, 0, List.replicate 32 0#8⟩]).takeXfer 0 0 typ).isSome = true)
      ∧ 0 < dimOf (recHdim (tag0 .opened).record) := by decide +kernel

/-- A finished tag, a complete one, requests held at a yield point, a store that takes a word, and a tag whose unit is silent. -/
theorem wit_AttentionServicesComplete :
    let f := withTag { tag0 .opened with accUp := [(0, 65)], dones := [0] } {} []
    let l := withTag (tag0 .opened) { tags := [0], sent := true } []
    (f.booted = true ∧ (f.tagAt 0 0).life = .opened ∧ (f.tagAt 0 0).finished = true ∧ (f.tagAt 0 0).poison = false
      ∧ (f.tagAt 0 0).tainted = false ∧ f.winActive (bitsOf (leAt (f.tagAt 0 0).record 7 1) 1 0) = false)
    ∧ ((0x3FFF00#32).toNat % 256 = 0 ∧ (0x3FFF00#32).toNat < 2 ^ 22 ∧ ((withTag (tag0 .complete) {} []).tagAt 0 0).life = .complete)
    ∧ (online.pageLive (pgBkt 0) = true ∧ online.flag (pgBkt 0) F.bkt_PROG_ADDR_ALL = false)
    ∧ ((l.tagAt 0 0).life = .opened ∧ (l.lateUnits 0 0).isEmpty = false) := by decide +kernel

/-! ## Hypotheses of the statements about objects, tiers and pumps -/

/-- PF object 1 in a state. -/
def obj1 (x : Obj) : State := up.setObj 0 1 x

/-- The object in each state that a clause names; object command BUSY. -/
theorem wit_ObjectCommandsComplete :
    let r := obj1 { st := .ready }
    let p := obj1 { st := .ready, pins := 1 }
    (∀ s ∈ [r, p, up], s.pageLive (objPage 0) = true ∧ s.objReg 0 F.tnt4_OBJ_STATUS_BUSY ≠ 1)
    ∧ ((r.obj 0 1).st = .ready ∧ (r.obj 0 1).releaseWaits = false ∧ (r.obj 0 1).pins = 0 ∧ (r.obj 0 1).live = true ∧ (r.obj 0 1).pinCount < 0xFFFF
      ∧ (r.obj 0 1).layout ≠ 2 ∧ prefBad (r.obj 0 1).layout 2 = false)
    ∧ ((p.obj 0 1).live = true ∧ (p.obj 0 1).pins ≠ 0) ∧ (up.obj 0 1).st = .free
    ∧ (up.setObjReg 0 F.tnt4_OBJ_STATUS_BUSY 1).objReg 0 F.tnt4_OBJ_STATUS_BUSY = 1 := by decide +kernel

/-- A tenant's commands run on its own page. -/
theorem wit_ObjectCommandsComplete_tenant :
    let t := (up.setFld (pgTnt 1) F.hdr_STATE 2).setTen 1 { present := true }
    let s := t.setFld (objPage 2) F.hdr_STATE 2
    s.pageLive (objPage 2) = true ∧ s.objReg 2 F.tnt4_OBJ_STATUS_BUSY ≠ 1 ∧ (s.obj 2 0xFFFF).st = .free := by decide +kernel

/-- A move of the object's tile 0 down to the sump tier, waiting or under way. -/
def mv (a : Bool) : Move := ⟨0, 1, 0, 2, 0, a⟩
/-- The object with that move, its tile in its golden source alone. -/
def withMove (x : Obj) (a : Bool) : State :=
  let s := (obj1 x).setTile (tileIx 0 1 0) { gold := true }
  { s with mem := { s.mem with moves := [mv a] } }

/-- Objects that load, that are being released, that have a move waiting, and whose move ends with a RELEASE behind it. -/
theorem wit_ObjectLifeCompletes :
    let c := obj1 { st := .creating }
    let f := obj1 { st := .releasing }
    let w := withMove { st := .ready } false
    let m := withMove { st := .migrating, migLock := true, releaseWaits := true } true
    (c.booted = true ∧ (c.obj 0 1).st = .creating)
    ∧ ((up.objectLoadDone 0 1 none).obj 0 1).st ≠ .quarantined
    ∧ (f.booted = true ∧ (f.obj 0 1).st = .releasing ∧ (f.obj 0 1).transient = 0)
    ∧ (w.booted = true ∧ (∃ x ∈ w.mem.moves, x.fn = 0 ∧ x.obj = 1 ∧ x.active = false) ∧ (w.obj 0 1).live = true ∧ (w.obj 0 1).migLock = false)
    ∧ (m.booted = true ∧ m.mem.moves.find? (fun x => x.active && x.fn == 0 && x.obj == 1) = some (mv true)
      ∧ ((m.doMove (mv true)).obj 0 1).releaseWaits = true) := by decide +kernel

/-- Pools of quadrant 0 below their low watermarks: 18 Well frames used, of the cache or of a scratchpad slice; two of the sump's 32 units used. -/
def lowPool (p : Nat) : State :=
  let s := up.setFldB (pgTir 0) p F.tir_POOL_WM_LOW 255
  let fr := { s with mem := { s.mem with frames := (List.range 18).map (fun f => (f, ⟨f + 1, []⟩)) } }
  if p = 4 then { s.setFld (pgTir 0) F.tir_SUMP_CHUNKS_COUNT 1 with mem := { s.mem with sumpUse := [(0, 1), (6, 1)] } }
  else if p = 1 then fr.setReg (pgWel 0) 0 0x040 1#32
  else fr

/-- Each pool that a clause names; a slice that may leave the cache, and one that leaves it; floors and chunks at their bounds. -/
theorem wit_TierEventsComplete :
    let sw := { up with mem := { up.mem with switching := [5] } }
    (∀ p ∈ [0, 1, 4], (lowPool p).booted = true ∧ (lowPool p).flag (pgTir 0) F.hdr_ENABLE = true
      ∧ (lowPool p).poolFree 0 p < ((lowPool p).watermarks 0 p).1)
    ∧ (up.pageLive (pgWel 0) = true ∧ up.sliceScratch 0 63 = false ∧ up.mem.switching.contains 63 = false
      ∧ (List.range 64).all (fun j => bitOf (up.staged (pgWel 0) 0 0x040 + 2 ^ 32 * (0x80000000#32).toNat) j == (up.sliceScratch 0 j || j == 63)) = true)
    ∧ (sw.mem.switching = [0 * 64 + 5] ∧ (sw.mem.frames.filter (fun e => e.1 / 64 == 0 * 64 + 5 && e.2.owner != 0)).isEmpty = true)
    ∧ (up.pageLive (pgTir 0) = true ∧ up.fld (pgTir 0) F.tir_QUOTA_SEL_FUNC ≤ 64 ∧ up.fld (pgTir 0) F.tir_QUOTA_SEL_TIER ≤ 1)
    ∧ (0x100000#32).toNat % 2 ^ 21 ≤ 0x100000 := by decide +kernel

/-- Floors at the tier's capacity, and one beyond it. -/
theorem wit_TierEventsComplete_floor :
    let others := sumTo 65 (fun f => if f = 0 then 0 else up.floorOf f 0 0)
    others + (4096#32).toNat ≤ up.tierTotal 0 0 ∧ up.tierTotal 0 0 < others + (4097#32).toNat := by decide +kernel

/-- A schedule of model 0 with one layer and one DENSE entry, tile 0 of object 1 for engine 0, installed; object 1 READY. -/
def scheduled (e : SchedEntry) : State :=
  (obj1 { st := .ready }).setModel 0 { oneLayer with sched := some ⟨0, [0, 1], [e]⟩ }

/-- The same with the layer's round under way on engine 0. -/
def scheduledRun : State := (scheduled ⟨2 ^ 32, 2, 0, 1, 7⟩).setRounds [round0]

/-- The bytes of a schedule without entries for a model, in tile 0 of object 1, held by sump unit 0. -/
def schedBytes (m : Byte) : State :=
  let s := (obj1 { st := .ready }).setTile (tileIx 0 1 0) { sump := some 0 }
  { s with mem := { s.mem with sumpUse := [(0, 1)], sump := [(0, 1#8)] ++ (if m = 0#8 then [] else [(4, m)]) ++ [(6, 1#8)] } }

/-- A schedule that reads well, and one of another model. -/
theorem wit_PrimingCompletes :
    let s := schedBytes 0
    let t := schedBytes 1
    (s.pageLive (pgTir 0) = true ∧ SMap.get s.stage (resetWord (pgTir 0) 0 0x080) (regKey (pgTir 0) 0 0x080) = 0#32
      ∧ (((s.setReg (pgTir 0) 0 0x080 0#32).setReg (pgTir 0) 0 0x084 1#32).readSchedule 0 (2 ^ 32)).isSome = true)
    ∧ (t.pageLive (pgTir 0) = true ∧ SMap.get t.stage (resetWord (pgTir 0) 0 0x080) (regKey (pgTir 0) 0 0x080) = 0#32
      ∧ ((t.setReg (pgTir 0) 0 0x080 0#32).setReg (pgTir 0) 0 0x084 1#32).readSchedule 0 (2 ^ 32) = none) := by decide +kernel

/-- A DENSE tile within LEAD layers, and an EXPERT tile of the layer that runs. -/
theorem wit_PrimingCompletes_stage :
    let s := scheduled ⟨2 ^ 32, 1, 0, 0, 0⟩
    let r := scheduledRun
    let c : Schedule := ⟨0, [0, 1], [⟨2 ^ 32, 1, 0, 0, 0⟩]⟩
    let d : Schedule := ⟨0, [0, 1], [⟨2 ^ 32, 2, 0, 1, 7⟩]⟩
    (s.booted = true ∧ s.flag (pgTir 0) F.hdr_ENABLE = true ∧ (s.model 0).sched = some c ∧ (s.freePrime 0).isSome = true
      ∧ s.stageAhead 0 c.layers 0 ≤ s.fldB (pgTir 0) 0 F.tir_MODEL_PRIME_LEAD ∧ (c.dense 0 0 (s.stageAdapters 0 c.layers 0))[0]? = some (1, 0))
    ∧ (r.booted = true ∧ r.flag (pgTir 0) F.hdr_ENABLE = true ∧ (r.model 0).sched = some d ∧ (r.freePrime 0).isSome = true ∧ r.stageRuns 0 = true
      ∧ ((d.at' (r.stageLayer 0 d.layers) 0).find? (fun y => y.kind == 1 && y.sel == 7 && decide (1 < y.tiles))).isSome = true) := by decide +kernel

/-- A descriptor of 64 bytes: its control word, LEN, SRC and DST, the bytes of COMP and ARG, and PATTERN. -/
def desc (ctl len src dst comp arg pat : Nat) : List Byte :=
  leBytes 4 ctl ++ leBytes 4 len ++ leBytes 8 src ++ leBytes 8 dst ++ leBytes 4 comp ++ leBytes 4 arg ++ leBytes 8 pat ++ List.replicate 24 0#8

/-- A well-formed descriptor of every operation on the tier pumps of quadrant 0: a COPY, a FILL, an ADDER, a COMPRESS and an EXPAND within device
memory, and one with a wrong pattern. -/
def descsTier : List (List Byte) :=
  [desc 0 0 0 0 0 0 0, desc 1 64 (2 ^ 32) (2 ^ 32) 0 0 0, desc 2 64 0 (2 ^ 32) 0 0 5, desc 3 32 (2 ^ 32) (2 ^ 32 + 256) 0 0 0,
    desc 4 4096 (2 ^ 32) (2 ^ 32) 0x10000 0 0, desc 5 4096 (2 ^ 32) (2 ^ 32) 0x10000 0 0, desc 6 0 0 0 0 0 0]

/-- What the tier pump 0 of quadrant 0 fetches of a descriptor. -/
def fetched (s : State) (bs : List Byte) : Option (DCtx × Bool × Bool) :=
  match s.fetchDesc 1 (.direct 0 bs) with
  | .desc c skip opens => some (c, skip, opens)
  | _ => none

/-- Every operation well formed on a tier pump, and waiting for nothing; one malformed; one to a peer's memory on a link pump; a queue that stops. -/
theorem wit_PumpOperationsComplete :
    up.booted = true
    ∧ ((List.range 7).zip descsTier).all (fun p => match fetched up p.2 with
        | some (c, skip, _) => !skip && !(up.descWaits c) && !(descMalformed 1 c.d) && c.d.op == p.1 && c.d.sspace != 3 && c.d.dspace != 3
        | none => false) = true
    ∧ (match fetched up (desc 1 64 0 0 0 0 9) with | some (c, skip, _) => !skip && descMalformed 1 c.d | none => false) = true
    ∧ (match up.fetchDesc 9 (.direct 0 (desc (1 + 3 * 1024) 64 (2 ^ 32) 0 0 0 0)) with
        | .desc c skip _ => !skip && !(descMalformed 9 c.d) && c.d.dspace == 3 | _ => false) = true := by decide +kernel

/-- Queue 0 of the tier pumps, ENABLED with one entry, at address 0 of the PF's space, where nothing is. -/
def queue1 : State := ((up.setFldB (pgPmp 1) 0 F.pmp_SQ_CFG_ENABLE 1).setFldB (pgPmp 1) 0 F.pmp_SQ_TAIL_INDEX 1)

/-- A queue that stops; and one whose entry's chain has failed. -/
theorem wit_PumpOperationsComplete_queue :
    let f := (((obj1 { st := .ready }).setTile (tileIx 0 1 0) { sump := some 0 }).setFldB (pgPmp 1) 0 F.pmp_SQ_CFG_ENABLE 1).setFldB (pgPmp 1) 0 F.pmp_SQ_TAIL_INDEX 1
    let g := { f.setPq 1 0 { chain := true, failed := true } with mem := { f.mem with sumpUse := [(0, 1)] } }
    let h := g.setFldB (pgPmp 1) 0 F.pmp_SQ_BASE_HI_DVA 1
    queue1.booted = true ∧ queue1.fetchDesc 1 (.queue 0) = .stop 1
    ∧ h.booted = true ∧ (match h.fetchDesc 1 (.queue 0) with | .desc c skip _ => skip && c.d.op == 0 | _ => false) = true := by decide +kernel

/-- A FILL and a COPY that meet no failure; a NOP and a FENCE that write no completion. -/
theorem wit_PumpMovesBytes :
    let s := (obj1 { st := .ready }).setTile (tileIx 0 1 0) { sump := some 0 }
    let c := fun bs => ({ page := 1, pump := 0, queue := none, bytes := bs, d := descOf bs } : DCtx)
    let fl := c (desc (2 + 1024 * 2) 64 0 0 0 0 5)
    let cp := c (desc (1 + 128 * 2 + 1024 * 2) 64 0 128 0 0 0)
    (s.spaceWrite fl fl.d.dspace fl.d.dst [((List.replicate (fl.d.len / 8) (leBytes 8 fl.d.pattern)).flatten, false)]).1 = none
    ∧ (let r := s.spaceRead cp cp.d.sspace cp.d.src cp.d.len none
       r.2.1 = none ∧ (r.2.2.spaceWrite cp cp.d.dspace cp.d.dst r.1).1 = none)
    ∧ ([0, 6].all (fun op => match fetched up (desc op 0 0 0 0 0 0) with
        | some (x, skip, _) => !skip && x.d.cplAddr == 0 && !(descMalformed 1 x.d) && x.d.op == op
        | none => false)) = true := by decide +kernel

/-- A retiring generation without references, and a COMPRESS that waits for its table, held or replaced. -/
theorem wit_TablesComplete :
    let d : State := { up with pmp := { up.pmp with slots := [(3, { cur := ⟨2, [], 0⟩, ret := ⟨1, [], 0⟩ })] } }
    let h : State := { up with pmp := { up.pmp with slots := [(3, { cur := ⟨2, [], 0⟩, ret := ⟨1, [], 0⟩, held := some [1#8] })] } }
    let w := fun (b : Bool) => ({ up with pmp := { up.pmp with flying :=
      [{ id := 4, page := 1, pump := 0, queue := none, desc := desc 4 4096 (2 ^ 32) (2 ^ 32) 0x10000 0 0, table := some (0, 0), stale := b }] } } : State)
    (up.pageLive (pgPmp 1) = true ∧ (15#32).toNat % 4096 < up.ringSize 1 (up.fld (pgPmp 1) F.pmp_SQ_SEL_QUEUE))
    ∧ (up.pageLive (pgCmp 0) = true ∧ leAt up.tblStaged 0 1 < 5 ∧ (up.tbl (up.fld (pgCmp 0) F.cmp_TBL_SEL_SLOT)).ret.num = 0)
    ∧ 5 ≤ leAt (up.setReg (pgCmp 0) 0 0x044 5#32).tblStaged 0 1
    ∧ ((d.tbl 3).ret.num ≠ 0 ∧ (d.tbl 3).ret.refs = 0 ∧ (d.tbl 3).held = none ∧ (h.tbl 3).held = some [1#8])
    ∧ (∀ b, ∃ f, (w b).pmp.flying.find? (fun f => f.id == 4) = some f ∧ f.stale = b ∧ f.table = some (0, 0) ∧ f.waits = none) := by
  refine ⟨by decide +kernel, by decide +kernel, by decide +kernel, by decide +kernel, fun b => ⟨_, rfl, ?_⟩⟩
  cases b <;> decide +kernel
/-! ## Hypotheses of the statements about engines -/

/-- Engine 0 READY or in another state, its G context at address 0 of a program of one word. -/
def prog (w : Nat) (started : Bool := true) (st : Nat := eRunning) : State :=
  let s := up.setEngState 0 st
  s.setEng 0 { prog := [(0, BitVec.ofNat 128 w)], g := { started := started } }

/-- The same with a Y program. -/
def progY (w : Nat) (yielded : Bool := false) (st : Nat := eRunning) : State :=
  let s := up.setEngState 0 st
  s.setEng 0 { prog := [(0, BitVec.ofNat 128 w)], y := { started := true, cls := 2, yielded := yielded } }

/-- Every operation of every class at a running context's address, in both contexts; a context that cannot run; a reserved word. -/
theorem wit_ProgramInstructionsComplete :
    ((programCommands 0 false).all (fun p =>
      let s := prog (p.2.1 + 8 * p.2.2)
      let w := s.progWord 0 (s.ctx 0 false).pc
      s.canRun 0 false && wClass w == p.2.1 && wOp w == p.2.2 && !(wReserved w))
    && (programCommands 0 true).all (fun p =>
      let s := progY (p.2.1 + 8 * p.2.2)
      let w := s.progWord 0 (s.ctx 0 true).pc
      s.canRun 0 true && wClass w == p.2.1 && wOp w == p.2.2 && !(wReserved w))
    && !(up.canRun 0 false) && (prog 7).canRun 0 false && wReserved ((prog 7).progWord 0 0)) = true := by decide +kernel

/-- A VX word: operation, count, INT, and the D, A and B fields. -/
def vxWord (op n : Nat) (int : Bool) (d a b : Nat) : Nat := 2 + 8 * op + 2 ^ 10 * n + 2 ^ 25 * b2n int + 2 ^ 34 * d + 2 ^ 61 * a + 2 ^ 88 * b

/-- Every elementwise operation on registers, of 1 and of 200 elements, in its type; a source that is also the destination. -/
theorem wit_ElementwiseValues :
    ((vxCommands 0 false).all (fun p => (elOf p.2).isNone || [1, 200].all (fun n => [1 + 32 * 2, 1 + 32 * 31].all (fun a =>
      let s := prog (vxWord p.2 n false (1 + 32 * (if n = 1 then 2 else a / 32)) a (if opTwo p.2 then a else 0))
      let w := s.progWord 0 (s.ctx 0 false).pc
      let x := vxOf w
      s.canRun 0 false && wClass w == 2 && wOp w == p.2 && x.rsel == 0 && x.mask == 0 && !x.acnt && oKind x.d == 1 && oKind x.a == 1
        && oKind x.b == (if opTwo p.2 then 1 else 0) && !(vxBad (elForm p.2) x) && decide (0 < x.count ∧ x.count ≤ 4096))))) = true := by decide +kernel

/-- The sweeps of a whole in-place operation, and of two registers apart, do not overlap partly. -/
theorem wit_ElementwiseValues_overlap :
    partOverlap (1 + 32 * 2) (1 + 32 * 2) none 200 = false ∧ partOverlap (1 + 32 * 2) (1 + 32 * 4) none 256 = false := by decide +kernel

/-- Every synchronisation instruction, a counter that holds the value and one that does not, and engine 1 to be signalled. -/
theorem wit_SynchronisationCompletes :
    (∀ op ∈ [0, 1, 2, 3, 4, 5],
      let s := (prog (8 * op + 2 ^ 10 + 2 ^ 16 * 15 + 2 ^ 20 * 0xFFFF + 2 ^ 36 * 16383)).setEngState 1 eReady
      let w := s.progWord 0 (s.ctx 0 false).pc
      s.canRun 0 false = true ∧ wClass w = 0 ∧ wReserved w = false ∧ wOp w = op ∧ syAll w = false ∧ syEngine w = 1 ∧ syTarget w < 16384
        ∧ s.engState 1 ≠ eOffline ∧ s.engState 1 ≠ eInReset ∧ s.drained 0 false = true
        ∧ SMap.get (s.ctx 0 false).sc 0 (syCtr w) < syValue w)
    ∧ (let s := prog (8 * 3); syValue (s.progWord 0 0) ≤ SMap.get (s.ctx 0 false).sc 0 0) := by decide +kernel

/-- A round that has the engines and a registered program; TEST_OWN; and a halted engine. -/
theorem wit_EngineControlCompletes :
    let k := (withRound.setEngState 0 eReady).setFldB (pgKpr 0) 63 F.kpr_PROG_ENTRY_VALID 1
    let r : Round := { round0 with engines := [] }
    let p := k.setRounds [r]
    let t := (prog 0 false eReady).setFld (pgMxe 0) F.hdr_TEST_OWN 1
    (p.booted = true ∧ p.ses.rounds.find? (fun r => r.holds && decide (r.layer < p.layersOf r)) = some r ∧ p.engState 0 = eReady
      ∧ p.testOwn 0 = false ∧ p.fld (pgMxe 0) F.hdr_ENABLE ≠ 0 ∧ r.engines.contains 0 = false
      ∧ p.fldB (pgKpr 0) 63 F.kpr_PROG_ENTRY_VALID ≠ 0 ∧ p.fldB (pgKpr 0) 63 F.kpr_PROG_ENTRY_CLASS = 0)
    ∧ (t.pageLive (pgMxe 0) = true ∧ t.testOwn 0 = true ∧ t.engState 0 = eReady
      ∧ [0x10000, 0x13FFF, 0x14000, 0x18000].all (fun v => bitOf v 16 && !(t.ctx 0 (min 2 (bitsOf v 15 14) != 0)).started) = true)
    ∧ (t.engState 0 ≠ eRunning ∧ t.engState 0 ≠ eHalted ∧ (prog 8).engState 0 = eRunning) := by decide +kernel

/-- Halted engines before each instruction of class SY, and an engine that may be reset, FAULTed or not. -/
theorem wit_EngineControlCompletes_halted :
    (∀ w ∈ [0, 8, 40], let s := prog w true eHalted
      s.engState 0 = eHalted ∧ (s.ctx 0 false).started = true ∧ (s.ctx 0 false).yielded = false ∧ (s.ctx 0 false).waitBranch = false
        ∧ wReserved (s.progWord 0 (s.ctx 0 false).pc) = false)
    ∧ (up.booted = true ∧ up.engState 0 ≠ eOffline ∧ (prog 0 true eFault).engState 0 = eFault ∧ (prog 0 true eFault).ses.engFaults = []) := by
  decide +kernel

/-- Engine 0 with one staged compressed unit of object 1, and with entries at the head of its feed. -/
def feeding (f : List FeedEntry) (g : List Staged) : State :=
  (obj1 { st := .ready, comp := 1 }).setEng 0 { feed := f, staged := g }

/-- A staged unit with room for it; a FEED and a SCALE entry, narrow and wide; contexts that wait for a branch word, under TEST_OWN and not; a Y
program that runs and one that has yielded. -/
theorem wit_FeedAndBranchesComplete :
    let g : Staged := { frame := 0, src := .object 0 1 0, comp := true }
    let f := fun (sc wd : Bool) => ({ scale := sc, prime := false, wide := wd, addr := 0x3F0000, y := false } : FeedEntry)
    let b := (prog 0).setCtx 0 false { started := true, waitBranch := true, pc := 16383 }
    let by' := ((progY 0).setCtx 0 true { started := true, cls := 2, waitBranch := true }).setFld (pgMxe 0) F.hdr_TEST_OWN 1
    (((feeding [] [g]).eng 0).nextPacked = some g ∧ ((feeding [] [g]).eng 0).smooth.length < ((feeding [] [g]).eng 0).smoothRoom
      ∧ (feeding [] [g]).planeWaits 0 ((feeding [] [g]).obj 0 1) = false)
    ∧ (∀ sc wd, let s := feeding [f sc wd] []
      (s.eng 0).feed = f sc wd :: [] ∧ (s.eng 0).latch.length = 2 ∧ (s.eng 0).cur < 2 ∧ (s.eng 0).freeLatch.isSome = true ∧ (s.eng 0).freeScale.isSome = true)
    ∧ ((b.ctx 0 false).started = true ∧ (b.ctx 0 false).waitBranch = true ∧ b.testOwn 0 = false)
    ∧ (by'.pageLive (pgVxe 0) = true ∧ by'.testOwn 0 = true ∧ (by'.ctx 0 false).started = false ∧ (by'.ctx 0 true).started = true
      ∧ (by'.ctx 0 true).waitBranch = true)
    ∧ (((progY 0).ctx 0 true).started = true ∧ ((progY 0).ctx 0 true).yielded = false ∧ (progY 0).engState 0 = eRunning
      ∧ ((progY 0).ctx 0 false).started = false)
    ∧ (((progY 0 true eReady).ctx 0 true).yielded = true ∧ (progY 0 true eReady).engState 0 = eReady)
    ∧ (up.engState 31 ≠ eOffline ∧ up.engState 31 ≠ eInReset) := by decide +kernel

/-- A tile store whose words read without error. -/
theorem wit_FeedAndBranchesComplete_store : up.storeUe 0 0x3F0000 64 = false := by decide +kernel
/-! ## Hypotheses of the statements about sessions and keepers -/

/-- A submission entry of 64 bytes: TYPE, FLAGS, RTAG, HANDLE and the bytes from 0x10. -/
def ent (typ flags tag h : Nat) (body : List Byte) : List Byte :=
  leBytes 1 typ ++ leBytes 1 flags ++ leBytes 1 tag ++ [0#8] ++ leBytes 4 h ++ List.replicate 8 0#8 ++ padTo 48 body

/-- Tenant 0 with session 0 and an entry read from its ring. -/
def withEntry (e : List Byte) : State := (withSes (req 3#8)).setTen 0 { present := true, entry := some e }

/-- A ring index at its last place and one past it; a published entry; one that is taken, and one that is refused. -/
theorem wit_SubmissionCompletes :
    let s := withSes (req 3#8)
    let p := s.setFld (pgTnt1 0) F.tnt1_SQ_DB_INDEX 1
    let ok := withEntry (ent 4 0 9 0 [])
    let bad := withEntry (ent 12 0 9 0 [])
    let full := s.setFld (pgTnt 0) F.tnt0_TR_TAIL_INDEX 4095
    let s1 := full.event (pgTnt1 0)
    s.pageLive (pgTnt1 0) = true ∧ bitsOf (255#32).toNat 19 0 < (s.event (pgTnt1 0)).sqSize 0 ∧ (s.event (pgTnt1 0)).sqSize 0 ≤ bitsOf (256#32).toNat 19 0
    ∧ (4095 < s1.trSize 0 ∧ (4095 + s1.trSize 0 - s1.trDb 0 % s1.trSize 0) % s1.trSize 0 ≤ (s1.trTail 0 + s1.trSize 0 - s1.trDb 0 % s1.trSize 0) % s1.trSize 0
      ∧ s1.trSize 0 ≤ 4096)
    ∧ (p.fnState 0 = fnReady ∧ (p.ten 0).reading = false ∧ (p.ten 0).entry = none ∧ (p.ten 0).taking = false ∧ (p.ten 0).refusing = false
      ∧ p.sqHead 0 ≠ p.sqDb 0 ∧ p.d3hot = [])
    ∧ (ok.booted = true ∧ (ok.ten 0).entry = some (ent 4 0 9 0 []) ∧ ok.mayTake 0 (ent 4 0 9 0 []) = true
      ∧ ok.entryRefused 0 (ent 4 0 9 0 []) none = false)
    ∧ (bad.booted = true ∧ (bad.ten 0).entry = some (ent 12 0 9 0 []) ∧ bad.mayTake 0 (ent 12 0 9 0 []) = true
      ∧ bad.entryRefused 0 (ent 12 0 9 0 []) none = true) := by decide +kernel

/-- Session 0 in a state with one request of a type. -/
def sesReq (st : SesState) (r : Req) : State := let s := withSes r; s.setSes 0 { s.sesOf 0 with st := st }

/-- A request of each type at the head of a session that it may take effect on. -/
theorem wit_RequestsComplete :
    let r := fun (t : Byte) => ({ entry := [t, 0#8, 7#8] } : Req)
    ((sesReq .gone (r 1#8)).booted = true ∧ ((sesReq .gone (r 1#8)).sesOf 0).closing = false ∧ ((sesReq .gone (r 1#8)).sesOf 0).headReq = some (r 1#8)
      ∧ (r 1#8).typ = tOpen ∧ ((sesReq .gone (r 1#8)).sesOf 0).st = .gone)
    ∧ (∀ t ∈ [2#8, 3#8, 6#8], let s := sesReq .active (r t)
      s.booted = true ∧ (s.sesOf 0).closing = false ∧ (s.sesOf 0).headReq = some (r t) ∧ (r t).typ = t.toNat ∧ s.busy 0 = false ∧ (r t).started = false
        ∧ (s.sesOf 0).st = .active ∧ (s.sesOf 0).suspended = false)
    ∧ ((2#8).toNat = tAppend ∧ (3#8).toNat = tGenerate ∧ (6#8).toNat = tClose)
    ∧ (∀ st ∈ [SesState.active, .parked], let s := sesReq st (r 4#8)
      (s.sesOf 0).parkReq = some (r 4#8) ∧ s.busy 0 = false ∧ (r 4#8).typ = tPark ∧ (s.sesOf 0).closing = false)
    ∧ (∀ st ∈ [SesState.active, .settled, .sunk], let s := sesReq st (r 5#8)
      (s.sesOf 0).parkReq = some (r 5#8) ∧ s.busy 0 = false ∧ (r 5#8).typ = tResume)
    ∧ ((sesReq .active (r 7#8)).sesOf 0).reqs.find? (fun r => r.typ == tCancel) = some (r 7#8) := by decide +kernel

/-- Is an answer one of pages reserved; one of a limit? -/
def isOk : Reserve → Bool | .ok _ => true | _ => false
def isLimit : Reserve → Bool | .limit _ => true | _ => false

/-- An import whose pages can be reserved, and one over its tenant's cap; an export that fits; binds; and a purge. -/
theorem wit_ExchangeCompletes :
    let i : Req := { entry := ent 8 0 9 0 [], toks := [1, 2] }
    let x : Req := { entry := ent 9 0 9 0 (leBytes 8 0 ++ leBytes 8 (2 ^ 32)) }
    let b : Req := { entry := ent 10 0 9 0 [] }
    let n : Req := { entry := ent 10 1 9 0 [] }
    let p : Req := { entry := ent 11 0 9 0 [] }
    let s := withSes i
    let c := s.setFldB (pgTir 0) (quotaBank 1 1) F.tir_QUOTA_CAP_UNITS 0
    let a := fun (s : State) => s.emit (.hostRead 1 (BitVec.ofNat 64 (leAt i.entry 0x10 8)) (mdTotal oneLayer.md 2))
    let w := withSes x
    (s.booted = true ∧ (s.sesOf 0).closing = false ∧ s.busy 0 = false ∧ (s.sesOf 0).headReq = some i ∧ i.typ = tImport ∧ (s.sesOf 0).st = .active
      ∧ s.fnState (sesTenant 0) ≠ fnQuiescing ∧ isOk ((a s).kvReserve 0 2) = true ∧ isLimit ((a c).kvReserve 0 2) = true)
    ∧ ((w.sesOf 0).headReq = some x ∧ x.typ = tExport ∧ (w.sesOf 0).st = .active ∧ (w.sesOf 0).lost.isEmpty = true
      ∧ mdTotal (w.model (w.sesOf 0).model).md (w.sesOf 0).hist.length ≤ leAt x.entry 0x18 8
      ∧ (w.lostPages 0 (fun p n => p.hit w.poisonKeys n)).isEmpty = true)
    ∧ (((withSes n).sesOf 0).reqs.find? (fun r => r.typ == tBind && r.flag) = some n ∧ ((withSes b).sesOf 0).reqs.find? (fun r => r.typ == tBind && r.flag) = none
      ∧ ((withSes b).sesOf 0).headReq = some b ∧ b.typ = tBind)
    ∧ (((withSes p).ten 0).purges.any (fun p => p.1 == 0) = false ∧ ((withSes p).sesOf 0).reqs.find? (fun r => r.typ == tPurge) = some p) := by
  decide +kernel

/-- Session 0 in a state, without a history, pages or requests. -/
def moving (st : SesState) (x : Session := {}) : State := (withSes (req 3#8)).setSes 0 { x with st := st }

/-- Moves that find their places; one that the sump refuses; one that no place can take. -/
theorem wit_SessionMovesComplete :
    (∀ st, (moving st).booted = true ∧ SMap.find (moving st).sess (0 + 2 ^ 32) = none)
    ∧ (((moving .settling).sesOf 0).st = .settling ∧ ((moving .settling).settleOne 0).isSome = true)
    ∧ (((moving .sinking).sesOf 0).st = .sinking ∧ ((moving .sinking).sinkOne 0).isSome = true
      ∧ (moving .sinking { spread := [.spread 0 0 0] }).sinkOne 0 = none)
    ∧ (((moving .waking).sesOf 0).st = .waking ∧ ((moving .waking).wakeOne 0 false).isSome = true ∧ ((moving .waking).sesOf 0).reqs = []) := by
  refine ⟨fun st => by cases st <;> decide +kernel, by decide +kernel, by decide +kernel, by decide +kernel⟩

/-- An object READY and a model resident for an adapter; 8,192 versions present; a version that nothing uses. -/
theorem wit_AdaptersComplete :
    let s := (scheduled ⟨2 ^ 32, 1, 0, 0, 0⟩).setFldB (pgSes 0) 0 F.ses_ADP_CFG_OBJ 1
    let f := s.setAdapter 4095 { last := 65535, vers := List.replicate 8192 (1, 1, 0, 1) }
    let v := s.setAdapter 0 { cur := 2, last := 2, vers := [(1, 1, 0, 1), (2, 1, 0, 1)] }
    (s.pageLive (pgSes 0) = true ∧ s.versionsPresent < 8192 ∧ (s.obj 0 (s.fldB (pgSes 0) (s.fld (pgSes 0) F.ses_ADP_SEL_ADAPTER) F.ses_ADP_CFG_OBJ)).st = .ready
      ∧ (s.model (s.fldB (pgSes 0) (s.fld (pgSes 0) F.ses_ADP_SEL_ADAPTER) F.ses_ADP_CFG_MODEL)).resident = true)
    ∧ (f.pageLive (pgSes 0) = true ∧ 8192 ≤ f.versionsPresent)
    ∧ (v.booted = true ∧ (v.adapter 0).vers.find? (fun e => e.1 == 1) = some (1, 1, 0, 1) ∧ (v.adapter 0).cur ≠ 1 ∧ v.versionUsed 0 1 1 = false) := by
  decide +kernel

/-- A quadrant whose registry entry 63 is of a class, engine 0 READY. -/
def registry (cls : Nat) (s : State) : State :=
  ((s.setEngState 0 eReady).setFldB (pgKpr 0) 63 F.kpr_PROG_ENTRY_VALID 1).setFldB (pgKpr 0) 63 F.kpr_PROG_ENTRY_CLASS cls

/-- A chunk of a started APPEND; a CUSTOM program asked for, queued, and one whose frames are priming frames. -/
theorem wit_KeeperServicesComplete_programs :
    let a : Req := { entry := [2#8], started := true, left := [3, 4] }
    let p := registry 1 (withSes a)
    let y := registry 2 up
    let m := y.setFldB (pgKpr 0) 63 F.kpr_PROG_PART_FRAMES 1
    let q := (y.setKeeper 0 { yrun := some (63, 0) }).setFld (pgKpr 0) F.kpr_YRUN_STATUS_STATE 1
    (p.booted = true ∧ (p.sesOf 0).headReq = some a ∧ p.promptMay 0 63 0 a = true ∧ min 64 a.left.length ≠ 0
      ∧ isOk (p.kvReserve 0 ((p.sesOf 0).hist.length + min 64 a.left.length)) = true)
    ∧ (y.pageLive (pgKpr 0) = true ∧ bitsOf 0x23F 5 0 = 63 ∧ bitsOf 0x23F 8 6 = 0 ∧ bitOf (0x23F#32).toNat 9 = true ∧ y.yrunTaken 0 63 0 = true
      ∧ (false || !(y.partFrames 0 (y.partOf 0 63))) = false)
    ∧ (m.pageLive (pgKpr 0) = true ∧ m.yrunTaken 0 63 0 = true ∧ (false || !(m.partFrames 0 (m.partOf 0 63))) = true)
    ∧ (q.booted = true ∧ (q.keeper 0).yrun = some (63, 0) ∧ q.fld (pgKpr 0) F.kpr_YRUN_STATUS_STATE = 1 ∧ q.yIdle 0 = true
      ∧ q.partFree (q.partOf 0 63) = true ∧ (q.ses.rounds.map (fun r => r.rows.length)).foldl (· + ·) 0 + (q.partOf 0 63).rows ≤ 256) := by
  decide +kernel

/-- The window closed and open, a stack that exists; TEST_WIN set with no round; a session here, and one elsewhere. -/
theorem wit_KeeperServicesComplete_window :
    let w := up.setFld (pgKpr 0) F.kpr_WIN_CTRL_ACTIVE 1
    let t := up.setFld (pgKpr 0) F.kpr_WIN_CTRL_TEST_WIN 1
    let s := withSes (req 3#8)
    (up.pageLive (pgKpr 0) = true ∧ up.winActive 0 = false ∧ w.winActive 0 = true ∧ w.fld (pgKpr 0) F.kpr_WIN_CTRL_STACK < 20)
    ∧ (t.booted = true ∧ t.flag (pgKpr 0) F.kpr_WIN_CTRL_TEST_WIN = true ∧ t.ses.rounds = [])
    ∧ (s.pageLive (pgSes 0) = true ∧ (s.sesOf 0).owner = 0 ∧ (s.sesOf 0).st ≠ .gone ∧ (s.sesOf 1).st = .gone) := by decide +kernel
/-! ## Hypotheses of the statements about the schedulers and the host port -/

/-- Frames at schedulers: of another egress, and of the link at port 0. -/
def rawFrame : QFrame := ⟨64, .raw [1#8]⟩
def linkFrame : Machine.Frm := { typ := 1, vl := 0, dst := 5 }

/-- A scheduler with a frame in a queue; the device's port 0 READY with credits. -/
def queued (i q : Nat) (f : QFrame) (x : QQueue := {}) : State :=
  let s := (up.setPortState 0 pReady).setFldB (pgGll 0) 0 F.gll_VL_CREDIT_TX_CREDIT 100
  s.setQueue i q { x with frames := [f] }

/-- Room in the first and the last queue of the first and the last scheduler, with a frame of this device waiting for it. -/
theorem wit_SchedulersComplete_enqueue :
    let s := { up with link := { up.link with out := [⟨11, 66, linkFrame⟩] } }
    (∀ i ∈ [0, 27], ∀ q ∈ [0, 66], up.booted = true ∧ up.flag (pgQdr i) F.hdr_ENABLE = true ∧ up.qRoom i q = true)
    ∧ (s.qRoom 27 66 = true ∧ s.link.out.findIdx? (fun o => o.port == 27 - 16 && o.queue == 66) = some 0
      ∧ s.link.out[0]? = some ⟨11, 66, linkFrame⟩) := by decide +kernel

/-- Nothing to send; a frame of each kind to send; class 0 eligible. -/
theorem wit_SchedulersComplete_send :
    (up.pickFrame 0 (State.headFrame 0)).1 = none
    ∧ ((queued 0 65 rawFrame).pickFrame 0 (State.headFrame 0)).1 = some (65, 0, rawFrame) ∧ rawFrame.load = .raw [1#8]
    ∧ ((queued 16 66 ⟨40, .glith linkFrame⟩).pickFrame 16 (State.headFrame 16)).1 = some (66, 0, ⟨40, .glith linkFrame⟩)
    ∧ ((queued 0 qClass0 rawFrame).eligible 0 qClass0 = true ∧ (queued 0 qClass0 rawFrame).headFrame 0 qClass0 = some (0, rawFrame)) := by
  decide +kernel

/-- A shaped queue; a live scheduler page with its first and its last queue selected; host time valid, and not. -/
theorem wit_SchedulersComplete_settings :
    let s := up.setFldB (pgQdr 0) 65 F.qdr_Q_CFG_SHAPE_EN 1
    let t := up.setFld pgTop F.top_HOST_TIME_STATUS_VALID 1
    let l := up.setFld (pgQdr 0) F.qdr_Q_SEL_QUEUE 66
    (s.booted = true ∧ s.shaped 0 65 = true) ∧ (up.pageLive (pgQdr 0) = true ∧ up.fld (pgQdr 0) F.qdr_Q_SEL_QUEUE = 0)
    ∧ (l.pageLive (pgQdr 0) = true ∧ l.fld (pgQdr 0) F.qdr_Q_SEL_QUEUE = 66 ∧ 66 ≠ qClass0)
    ∧ (t.pageLive (pgQdr 0) = true ∧ t.timeValid = true ∧ up.timeValid = false) := by decide +kernel

/-- Tenant 0 in a state, present. -/
def tenant (st : Nat) (x : Ten := {}) : State := (withSes (req 3#8)).setTen 0 { x with present := true } |>.setFnState 0 st

/-- A read outstanding; a present function in each state; a port that serves; power good; and work kept. -/
theorem wit_FunctionEventsComplete :
    let r := tenant fnReady { reading := true }
    let q := tenant fnQuiescing
    let d := (tenant fnDetached).setFld pgPci F.pci_FUNC_SEL_FUNC 1
    let e := (tenant fnReady).setFld pgPci F.pci_FUNC_SEL_FUNC 1
    (r.booted = true ∧ (r.ten 0).reading = true ∧ r.fnState 0 = fnReady)
    ∧ (∀ st ∈ [fnReady, fnFault, fnOff, fnDetached, fnQuiescing], (tenant st).booted = true ∧ ((tenant st).ten 0).present = true ∧ (tenant st).fnState 0 = st)
    ∧ ((tenant fnReady).linkServes = true ∧ ((tenant fnReady).ten 0).d3 = false ∧ (tenant fnReady).powered = true)
    ∧ (q.booted = true ∧ q.shutdownReady 0 = true)
    ∧ (d.pageLive pgPci = true ∧ d.fld pgPci F.pci_FUNC_SEL_FUNC = 0 + 1 ∧ d.fnState 0 = fnDetached ∧ e.fnState 0 = fnReady) := by decide +kernel

/-- A chunk within the sump and a cache that is full; an Invalidate Request that is new and one under way; every violation; a width to train to. -/
theorem wit_PortEventsComplete :
    let s := { up.setFld (pgTir 0) F.tir_SUMP_CHUNKS_COUNT 2000 with boot := { up.boot with atc := List.range 1024 } }
    let i := { up with boot := { up.boot with invals := [31] } }
    (s.linkServes = true ∧ 1999 < s.fld (pgTir 0) F.tir_SUMP_CHUNKS_COUNT ∧ s.boot.atc.length ≤ 1024)
    ∧ (up.linkServes = true ∧ up.boot.invals.contains 31 = false ∧ i.boot.invals.contains 31 = true)
    ∧ (up.mayTrain 0 16 6 true = true ∧ up.mayTrain 0 1 0 false = true) := by decide +kernel

/-- A port that serves, with measurements, and one that does not. -/
theorem wit_SpdmAnswers :
    (up.boot.perst = false ∧ up.flag pgSec F.sec_BOOT_STATUS_LOCKED = true)
    ∧ ({ up with boot := { up.boot with meas := [(2, [1#8])] } } : State).measBlocks ≠ [] ∧ State.reset.boot.perst = true := by decide +kernel
/-! ## Hypotheses of the statements about the link -/

/-- Port 0 in a state. -/
def portAt (st : Nat) (x : GPort := {}) : State := (up.setPort 0 x).setPortState 0 st

/-- A port in each state that a clause names, with a lane up and an acknowledgement due; one that trains, and one that cannot any more. -/
theorem wit_LinkPortsComplete :
    let r := (portAt pReady { ackDue := true }).setFld (pgGll 0) F.gll_PORT_STATUS_LANES_UP 15
    (∀ st ∈ [pOff, pInit, pReady, pRetraining], (portAt st).booted = true ∧ (portAt st).portState 0 = st ∧ (portAt st).portState 0 ≠ pOffline)
    ∧ (r.portState 0 = pReady ∧ bitOf (r.fld (pgGll 0) F.gll_PORT_STATUS_LANES_UP) 3 = true ∧ (r.port 0).ackDue = true)
    ∧ (widthOf 15 = 4 ∧ widthOf 1 = 1 ∧ minWidth (up.fld (pgGll 0) F.gll_PORT_CFG_MIN_WIDTH) ≤ widthOf 1)
    ∧ 3 ≤ ((portAt pRetraining { fails := 3 }).port 0).fails := by decide +kernel

/-- HELLOs of this device and of another; a LINKCTL sound and unsound; a frame not acknowledged. -/
theorem wit_LinkPortsComplete_frames :
    let t := portAt pInit { trained := true }
    let h := fun (d : Nat) => leBytes 2 d ++ List.replicate 30 0#8
    let l := frmBytes { typ := 0x11, arg := 0x8000 } 0 0
    let u := portAt pReady { unacked := [linkFrame] }
    (t.portState 0 = pInit ∧ (t.port 0).trained = true ∧ leAt (h t.devId) 0 2 % 4096 = t.devId ∧ leAt (h (t.devId + 1)) 0 2 % 4096 ≠ t.devId
      ∧ t.fld (pgGll 0) F.gll_PORT_CFG_EXPECT_EN = 0)
    ∧ (leAt l 0 1 = 0x11 ∧ frmCrcOk l = true ∧ leAt [0x11#8] 0 1 = 0x11 ∧ frmCrcOk [0x11#8] = false)
    ∧ (u.booted = true ∧ u.portState 0 = pReady ∧ (u.port 0).unacked.head? = some linkFrame) := by decide +kernel

/-- A frame of a type, for a device, from sequence number 0. -/
def wireFrame (typ dst : Nat) (n : Nat := 32) : List Byte := frmBytes { typ := typ, dst := dst, payload := List.replicate n 0#8 } 0 0

/-- A READY port takes a frame of every type, for this device and for another; an unsound one; a message sound and malformed. -/
theorem wit_LinkFramesComplete :
    let s := portAt pReady
    ([1, 2, 3, 4, 5, 6, 7].all (fun typ => [s.devId, s.devId + 1].all (fun dst =>
      let b := wireFrame typ dst
      (s.takeData 0 b).1.map (fun f => f.dst) == some dst && frmType typ && decide (frmPlen b ≤ 16) && leAt b 0 1 == typ))
    && s.booted && s.portState 0 == pReady && !(frmCrcOk [])
    && !(reqMalformed (wireFrame 7 s.devId) (frmOf (wireFrame 7 s.devId))) && leAt (frmOf (wireFrame 7 s.devId)).payload 0 1 != 1
    && reqMalformed (wireFrame 7 s.devId 64) (frmOf (wireFrame 7 s.devId 64))) = true := by decide +kernel

/-- Frames to go on with one hop left, without a route, and with one; a request outstanding. -/
theorem wit_LinkFramesComplete_forward :
    let s := fun (h : Nat) => portAt pReady { rxq := [{ linkFrame with hops := h }] }
    let s1 := (s 2).setPort 0 { (s 2).port 0 with rxq := [] }
    let o := (s 2).setReg ⟨.glr, 0⟩ 0 (0x800 + 4 * 2) 0x00010000#32
    let o1 := o.setPort 0 { o.port 0 with rxq := [] }
    let q : PeerReq := ⟨7, 5, 1, 0, 64, 0⟩
    let f : Flying := { id := 1, page := 9, pump := 0, queue := none, desc := desc (1 + 3 * 1024) 64 (2 ^ 32) 0 0 0 0, reqs := [q] }
    let w := { up with pmp := { up.pmp with flying := [f] } }
    ((s 1).booted = true ∧ ((s 1).port 0).rxq = { linkFrame with hops := 1 } :: [])
    ∧ (((s 2).port 0).rxq = { linkFrame with hops := 2 } :: [] ∧ s1.route 0 5 (linkFrame.vl % 2) (some (0 % 6 / 2)) = none)
    ∧ o1.route 0 5 (linkFrame.vl % 2) (some (0 % 6 / 2)) = some (0, 0)
    ∧ (w.booted = true ∧ w.outstanding 7 0 = some (f, q)) := by decide +kernel
/-! ## Hypotheses of the statements about resilience -/

/-- Session 0 with one journal record. -/
def journal (w : JWhat) (d : Bool := false) : State :=
  (withSes (req 3#8)).setJournal [{ ses := 0, jseq := 0, bytes := List.replicate 64 0#8, copies := [0], what := w, done := d }]

/-- A record of each kind under way; records all written, with a copy missing; a session to rebuild. -/
theorem wit_JournalCompletes :
    let r := fun w => ({ ses := 0, jseq := 0, bytes := List.replicate 64 0#8, copies := [0], what := w } : JRec)
    let f := fun (s : State) => s.ses.journal.find? (fun r => r.ses == 0 && !r.done)
    let d := journal .effect true
    let x := ((withSes (req 3#8)).setSes 0 { (withSes (req 3#8)).sesOf 0 with lost := [⟨0, 0, 0, 2⟩] }).setChan 0 0 { st := .online }
    ((journal .effect).booted = true ∧ f (journal (.accept 0 (req 3#8))) = some (r (.accept 0 (req 3#8))) ∧ f (journal (.records [])) = some (r (.records []))
      ∧ f (journal .effect) = some (r .effect) ∧ f (journal .history) = some (r .history))
    ∧ (d.booted = true ∧ (d.sesOf 0).inUse = true ∧ d.journalling 0 = false ∧ d.ses.journal.any (fun r => r.ses == 0) = true)
    ∧ d.ses.journal.any (fun r => r.ses == 0 && !r.copies.isEmpty && decide (r.copies.length < (d.journalQuads (d.sesOf 0).owner).length)) = true
    ∧ (x.booted = true ∧ x.mayRebuild 0 = true ∧ (x.replaceAll 0).isSome = true) := by decide +kernel

/-- Every last pump; a round whose programs are stuck; parts retired already. -/
theorem wit_FailuresComplete :
    let s := withRound.setEng 0 { g := { started := true } }
    let p := { up with pmp := { up.pmp with retired := [75] } }
    let q := (up.setFld pgRas F.ras_GUARD_QUADS 7).setFld pgRas F.ras_RETIRED0_MASK 0x80000
    (up.booted = true ∧ 3 < pumpCount 9 ∧ 7 < pumpCount 0 ∧ p.pmp.retired.contains (9 * 8 + 3) = true ∧ q.dieUp 3 = false ∧ q.stackRetired 19 = true)
    ∧ (s.booted = true ∧ s.roundOf 1 = some round0 ∧ (round0.engines.filter (fun e => (s.ctx e false).started)).isEmpty = false
      ∧ (round0.engines.filter (fun e => (s.ctx e false).started)).any (fun e => (s.ctx e false).poisonWaited) = false)
    ∧ (up.pageLive pgRas = true ∧ (up.model 0).quarantined = false
      ∧ ((withRound.setModel 0 { oneLayer with quarantined := true }).model 0).quarantined = true) := by decide +kernel

/-- A READY object whose tile 0 reads poisoned, and what is known of its refetch. -/
def poisoned (gold : Nat) (n : Nat := 0) : State :=
  let s := (obj1 { st := .ready, gold := gold }).setTile (tileIx 0 1 0) { sump := some 0 }
  { s with mem := { s.mem with sumpUse := [(0, 1)], sumpBad := [(0, true)], refetch := if n = 0 then [] else [(tileIx 0 1 0, n)] } }

/-- A tile whose pieces are read without a change of state reads what its pieces read. -/
theorem readTile_pieces (s : State) (fn o t : Nat) (h : ∀ c, (s.readPieces fn o t c 32).2 = s) (cs : List Nat) (acc : List Piece) :
    (cs.foldl (fun (a : List Piece × State) c => (a.1 ++ (a.2.readPieces fn o t (32 * c) 32).1, (a.2.readPieces fn o t (32 * c) 32).2)) (acc, s)).1
      = acc ++ cs.flatMap (fun c => (s.readPieces fn o t (32 * c) 32).1) := by
  induction cs generalizing acc with
  | nil => simp
  | cons c cs ih => simp [h, ih]

/-- That object's tile reads poisoned. -/
theorem poisoned_reads (gold n : Nat) : (poisoned gold n).tilePoisoned (tileIx 0 1 0) = true := by
  have h : ∀ c, ((poisoned gold n).readPieces 0 1 0 c 32)
      = ([(SMap.getList [] 0#8 (0 * 65536 + c) 32, SMap.get [(0, true)] false ((0 * 65536 + c) / 32))], poisoned gold n) := fun _ => rfl
  have e := readTile_pieces (poisoned gold n) 0 1 0 (fun c => by rw [h]) (List.range 2048) []
  simp only [State.tilePoisoned]
  show ((poisoned gold n).readTile 0 1 0).1.any _ = true
  unfold State.readTile
  rw [e, List.any_eq_true]
  refine ⟨(SMap.getList [] 0#8 0 32, true), ?_, rfl⟩
  rw [List.nil_append, List.mem_flatMap]
  exact ⟨0, by simp, by rw [h]; simp [SMap.get, SMap.find]⟩

/-- A poisoned tile may be refetched, with golden bytes and without. -/
theorem wit_FailuresComplete_refetch :
    ((poisoned 1).booted = true ∧ (poisoned 1).mayRefetch 0 1 0 = true ∧ (poisoned 1).noGolden ((poisoned 1).obj 0 1) = false)
    ∧ (poisoned 0).mayRefetch 0 1 0 = true ∧ (poisoned 0).noGolden ((poisoned 0).obj 0 1) = true := by
  refine ⟨⟨by decide +kernel, ?_, by decide +kernel⟩, ?_, by decide +kernel⟩ <;> rw [State.mayRefetch, poisoned_reads] <;> decide +kernel

/-- A tile under refetch, and a destroyed one. -/
theorem wit_FailuresComplete_golden :
    let k := tileIx 0 1 0
    let r := { poisoned 1 2 with mem := { (poisoned 1 2).mem with restoring := [k] } }
    r.mem.restoring.contains k = true
    ∧ ((poisoned 1 2).mem.restoring.contains k = false ∧ SMap.get (poisoned 1 2).mem.refetch 0 k = 2 ∧ ((poisoned 1 2).obj 0 1).comp = 0) := by
  decide +kernel

/-- Power good; a quadrant in service; injection enabled and not; a column and a Well word to inject at; an engine to fail. -/
theorem wit_ResetsAndInjectionsComplete :
    let g := { up with boot := { up.boot with vin := true, vaux := true } }
    let w := (upInj.setObj 0 1 { st := .ready }).setTile (tileIx 0 1 0) { well := some 3 }
    let e := (upInj.setFld pgRas F.ras_INJ_ADDR_LO_ADDR (65536 + 31))
    let s := upInj.setSes 0 { st := .active, runs := [(0, [{ pair := 0, slot := 0 }])] }
    (g.powered = true ∧ g.pageLive pgRas = true ∧ up.fld pgRas F.ras_INJ_CTRL_ENABLE = 0 ∧ up.dieUp 3 = true ∧ up.flag pgRas F.ras_RESET_CMD_QUAD = false)
    ∧ (upInj.pageLive pgRas = true ∧ upInj.fld pgRas F.ras_INJ_CTRL_ENABLE ≠ 0)
    ∧ (match ((s.setFld pgRas F.ras_INJ_CMD_KIND 4).setFld pgRas F.ras_INJ_CMD_TARGET 1).injAt true 0 with | (some (.column _), _) => true | _ => false) = true
    ∧ (match ((w.setFld pgRas F.ras_INJ_CMD_KIND 3).setFld pgRas F.ras_INJ_CMD_TARGET 0).injAt false (2 ^ 32 + 8) with | (some (.word k), _) => k == 24577 | _ => false) = true
    ∧ (e.engState 31 ≠ eOffline ∧ e.pair64 pgRas F.ras_INJ_ADDR_LO_ADDR F.ras_INJ_ADDR_HI_ADDR = 65536 + 31) := by decide +kernel
/-! ## Hypotheses of the statements about boot and the package -/

/-- The part held in cold reset with power good; an SVN above the fuses and one not; quiesce and not; a LOAD that may start. -/
theorem wit_BootCompletes :
    let h := { up with boot := { up.boot with svn := 64, fuse := 63 } }
    let b := { State.reset with boot := { State.reset.boot with perst := false } }
    let s := withSes (req 3#8)
    let r := { up with boot := { up.boot with recovery := true } }
    (State.reset.boot.perst = true ∧ State.reset.boot.vin = true ∧ State.reset.boot.vaux = true ∧ State.reset.boot.tripped = false)
    ∧ (up.pageLive pgSec = true ∧ up.booted = true ∧ up.boot.svn ≤ up.boot.fuse ∧ h.booted = true ∧ h.boot.fuse < h.boot.svn)
    ∧ (b.pageLive pgSec = true ∧ b.booted = false)
    ∧ (up.flag pgSec F.sec_PROFILE_SELECT_GO = false ∧ (up.setFld pgSec F.sec_PROFILE_SELECT_PROFILE 3).powered = true
      ∧ (up.setFld pgSec F.sec_PROFILE_SELECT_PROFILE 3).quiesced = true ∧ (s.setFld pgSec F.sec_PROFILE_SELECT_PROFILE 3).powered = true
      ∧ (s.setFld pgSec F.sec_PROFILE_SELECT_PROFILE 3).quiesced = false)
    ∧ (r.pageLive pgSec = true ∧ r.boot.loading = false ∧ r.boot.writing = none ∧ r.boot.recovery = true ∧ r.fld pgSec F.sec_RCV_LEN_BYTES ≤ slotSize) := by
  decide +kernel

/-- A LOAD under way; an image written to the slot, with a warm reset that waits for it and without. -/
theorem wit_BootCompletes_load :
    let l := { up with boot := { up.boot with loading := true } }
    let f := fun w => ({ up with boot := { up.boot with writing := some ([1#8], true), warmWaits := w } } : State)
    l.boot.loading = true ∧ (∀ w, (f w).boot.writing = some ([1#8], true) ∧ (f w).boot.warmWaits = w) := by
  refine ⟨by decide +kernel, fun w => ⟨rfl, rfl⟩⟩

/-- The port up and locked, with seven failures and with eight; before the boot lock point; unlocked. -/
theorem wit_JtagCompletes :
    let u := up.setFld pgSec F.sec_DEBUG_STATUS_UNLOCKED 1
    (up.jtagUp = true ∧ up.jtagLocked = true ∧ (up.setFld pgSec F.sec_DEBUG_STATUS_FAILS 7).fld pgSec F.sec_DEBUG_STATUS_FAILS < 8 ∧ up.boot.debugDis = false)
    ∧ ((up.setFld pgSec F.sec_DEBUG_STATUS_FAILS 8).jtagLocked = true ∧ 8 ≤ (up.setFld pgSec F.sec_DEBUG_STATUS_FAILS 8).fld pgSec F.sec_DEBUG_STATUS_FAILS)
    ∧ (State.reset.jtagUp = true ∧ State.reset.jtagLocked = false ∧ State.reset.jtagUnlocked = false)
    ∧ (u.jtagUp = true ∧ u.jtagUnlocked = true ∧ u.jtagLocked = false ∧ u.colsWf = true ∧ granExists (.at 19 63 31 49151 3) = true) := by decide +kernel

/-- Debug access to a page of the security block and to one of another block. -/
theorem wit_JtagCompletes_pages :
    (match pageAtSlot 0 (pageOffset pgSec / 4096), pageAtSlot 0 (pageOffset (pgGll 11) / 4096) with
      | some p, some q => p.kind == .sec && q.kind != .sec
      | _, _ => false) = true := by decide +kernel

/-- Rails off and on; VIN and a temperature at the edges of their ranges; a part tripped and not; D3hot with writes that wait. -/
theorem wit_PackageCompletes :
    let off := { up with boot := { up.boot with vin := false, vaux := false } }
    let ramp := { up with boot := { up.boot with vin := false } }
    (off.boot.vaux = false ∧ ramp.boot.vin = false ∧ ramp.boot.vaux = true ∧ up.boot.perst = false ∧ up.boot.vin = true ∧ up.boot.tripped = false
      ∧ up.boot.vaux = true ∧ up.boot.writing = none)
    ∧ (10800 ≤ (10800#16).toNat ∧ (11399#16).toNat < 11400 ∧ 115 ≤ (115#8).toNat ∧ (114#8).toNat < 115)
    ∧ ({ up with d3hot := [0], waiting := [.hostRead 0 0#64 64] } : State).d3hot.contains 0 = true := by decide +kernel
/-! ## Ill-formed commands, one for each check of WellFormed -/

/-- One byte string of n bytes. -/
def bs (n : Nat) : List Byte := List.replicate n 0#8

/-- Granules that no Cistern has; a descriptor and lengths that no event has. -/
theorem test_wf_columns :
    ([.columnRead (.at 0 0 0 49152 0) 0, .columnRead (.spread 0 0 6291456) 0, .columnWrite (.at 0 0 0 49152 0) 0 (bs 1),
      .columnWrite (.at 0 0 0 0 0) 0 [], .columnWrite (.at 0 0 0 0 0) 255 (bs 2)].all (fun i => !WellFormed i)
    && (adderCommands (.at 0 0 0 0 0) 0 (bs 513) ++ adderCommands (.at 0 0 0 49152 0) 0 (bs 4)).all (fun p => !WellFormed p.1)) = true := by
  decide +kernel

/-- The same for the other rows that carry bytes or samples. -/
theorem test_wf_lengths :
    [Instr.kvTailWrite 0 0 false 0 0 (bs 1), .tokenDelivery 0 0, .telemetryWindowClose 0 (List.replicate 513 0), .registerWrite 0 0 (bs 4097),
      .runRingPublish 0 0 (bs 16385) 0, .tagOpen 0 0 (bs 65537) [] 0, .tagOpen 0 0 [] (bs 63) 0, .scheduleInstall 0 0 { vocab := 1, layers := 0, kvHeads := 1 },
      .scheduleInstall 0 0 { vocab := 1, layers := 1, kvHeads := 1, hdim := 4 }, .pumpNop 0 (.direct 0 (bs 63)), .pumpCopy 0 (.direct 0 (bs 63)) none,
      .pumpFill 0 (.direct 0 (bs 65)), .pumpAdder 0 (.direct 0 []) none, .pumpCompress 0 (.direct 0 []) none, .pumpExpand 0 (.direct 0 []) none,
      .pumpFence 0 (.direct 0 []), .compressSecondPass (2 ^ 64), .frameEnqueue 0 0 1 (bs 2), .invalidateRequest 0 [2 ^ 31], .challenge 0 0 (bs 31),
      .getMeasurements 0 true (bs 31), .getMeasurements 0 false (bs 32), .portTrain 0 0 (bs 3), .hello 0 (bs 31), .unlockResp (bs 63) [],
      .samplePreload (bs 4097), .mgmtBusWrite 0 (bs 257), .debugAccess (.readCol (.at 0 0 0 49152 0) 0), .debugAccess (.writeCol (.at 0 0 0 49152 0) 0 []),
      .debugAccess (.writeCol (.at 0 0 0 0 0) 0 (bs 33))].all (fun i => !WellFormed i) = true := by decide +kernel

/-- The rows of the Glith frame types. -/
theorem test_wf_frames :
    [Instr.write 0 (bs 4225), .read 0 (bs 4225), .reduce 0 (bs 4225), .atomic 0 (bs 4225), .rdata 0 (bs 4225), .ackr 0 (bs 4225), .msg 0 (bs 4225),
      .linkctl 0 (bs 4225)].all (fun i => !WellFormed i) = true := by decide +kernel

/-- Host data longer than the image slot, in every row that brings some. -/
theorem test_wf_hostData (d : List Byte) (h : d.length = 50331649) :
    ∀ i ∈ [Instr.pumpCopy 0 (.queue 0) (some d), .pumpAdder 0 (.queue 0) (some d), .pumpCompress 0 (.queue 0) (some d), .pumpExpand 0 (.queue 0) (some d),
      .submissionTake 0 (some d), .kvImport 0 (some d), .hostReadCompletion 0 (some d), .loadComplete (some d)], WellFormed i = false := by
  intro i hi
  simp only [List.mem_cons, List.not_mem_nil, or_false] at hi
  rcases hi with rfl | rfl | rfl | rfl | rfl | rfl | rfl | rfl <;> simp [WellFormed, bytesWf, srcWf, h]

/-! ## Single steps, their results from the spec's words -/

/-- The state a command leaves, put in front of the queue of a state; the state itself where the step stops. -/
def ran (c : Instr) (s : State) : State :=
  match step { s with pending := [c] } with
  | .next t => t
  | _ => s

/-- A granule's first element read by SWAP_32 after an operation: what the adders leave, by R98's table. -/
def after32 (old : List Byte) (c : Gran → Instr) : List Byte :=
  let g : Gran := .at 0 0 0 7 2
  let t := ran (c g) (ran (.columnWrite g 0 old) online)
  ((t.col ((online.resolve g).1.key 0)).take 4)

/-- ADD_INT32 wraps; MIN_INT32 compares signed numbers; ADD_FP32 adds 1 and 2. -/
theorem test_adders :
    (after32 [0xFF#8, 0xFF#8, 0xFF#8, 0xFF#8] (fun g => .addInt32 g 0 [2#8, 0#8, 0#8, 0#8]) == [1#8, 0#8, 0#8, 0#8]
    && after32 [0xFF#8, 0xFF#8, 0xFF#8, 0xFF#8] (fun g => .minInt32 g 0 [2#8, 0#8, 0#8, 0#8]) == [0xFF#8, 0xFF#8, 0xFF#8, 0xFF#8]
    && after32 [0#8, 0#8, 0x80#8, 0x3F#8] (fun g => .addFp32 g 0 [0#8, 0#8, 0#8, 0x40#8]) == [0#8, 0#8, 0x40#8, 0x40#8]) = true := by decide +kernel

/-- The poison syndrome is that of an all-zero column whose check bytes are E3 1B 5C A6 (R92). -/
theorem test_poison : decodeCol (List.replicate 32 0#8 ++ [0xE3#8, 0x1B#8, 0x5C#8, 0xA6#8]) = .poisoned := by decide +kernel

/-- The directory example of the chapter on register pages: where engine 21's page stands, and its PAGE_ID. -/
theorem test_pageOfEngine21 : pageOffset (pgMxe 21) = 0x0181A000 ∧ pageId (pgMxe 21) = 0x01021515 := by decide +kernel

/-- Reading that PAGE_ID through BAR0 answers its four bytes. -/
theorem test_readPageId : (ran (.registerReadClear 0 0x0181A000 4) up).egress = [.regData 0 [0x15#8, 0x15#8, 0x02#8, 0x01#8]] := by decide +kernel

/-- A publication below the held value is ignored (R36). -/
theorem test_hostTimeLower : (ran (.hostTimePublish 0) { up with hostTime := 5 }).hostTime = 5 := by decide +kernel

/-- The example of the chapter on the vector engine: 0.478006 is nearer to 0x2F, 1.875 × 2^−2, than to 0.5. -/
theorem test_e4m3 : fenc e4m3 (fdec fp32 0x3EF4BCD3) = 0x2F ∧ fdec e4m3 0x2F = .fin false 15 (-5) := by decide +kernel

/-- A row beyond the last does not exist: the one fault (R75). -/
theorem test_absentGranule : (match step { online with pending := [.columnRead (.at 0 0 0 49152 0) 0] } with
    | .fault f => f == .noGranule
    | _ => false) = true := by decide +kernel

/-- An empty queue: the block idles (log entry 2). -/
theorem test_idle : (match step State.reset with | .next t => t == State.reset | _ => false) = true := by decide +kernel

/-- SHA3-512 of no bytes, by FIPS 202. -/
theorem test_sha3 : (sha3_512 []).take 4 = [0xA6#8, 0x9F#8, 0x73#8, 0xCC#8] := by decide +kernel

end Sys2Proof.Tests
end

/-! # The queue, the state after reset, and the registers -/

namespace Sys2Proof.Machine
open Sys2Proof

/-! ## The queue -/

theorem step_of_pending_cons {s : State} {c : Instr} {rest : List Instr} (h : s.pending = c :: rest) :
    step s = exec c { s with pending := rest } := by
  simp only [step, h]

theorem step_of_pending_nil {s : State} (h : s.pending = []) : step s = .next s := by
  simp only [step, h]

/-- Settles O1, by the two forms of the queue. -/
theorem stepRunsTheFrontCommand : Obligations.StepRunsTheFrontCommand :=
  ⟨fun _ _ _ h => step_of_pending_cons h, fun _ h => step_of_pending_nil h⟩

/-! ## The state after reset -/

@[simp] theorem State.reset_reg (pg : Page) (b o : Nat) : State.reset.reg pg b o = resetWord pg b o := rfl

/-- CTRL stands in the header of every page but the MSI-X tables, which have none. -/
theorem resetWord_ctrl (pg : Page) (b : Nat) (h : pg.kind ≠ .msix) : resetWord pg b 0x008 = BitVec.ofNat 32 (ctrlReset pg.kind) := by
  simp [resetWord, h]

/-- ENABLE is bit 0 of CTRL's reset value (R58). -/
theorem State.reset_enable (pg : Page) (h : pg.kind ≠ .msix) :
    State.reset.flag pg F.hdr_ENABLE = (bitsOf (BitVec.ofNat 32 (ctrlReset pg.kind)).toNat 0 0 == 1) := by
  simp only [State.flag, State.fld, State.fldB, F.hdr_ENABLE, State.reset_reg, resetWord_ctrl pg 0 h]

theorem ctrlReset_enable {k : PageKind} (ht : k ≠ .tnt0) (hg : k ≠ .gll) :
    bitsOf (BitVec.ofNat 32 (ctrlReset k)).toNat 0 0 = 1 := by
  unfold ctrlReset
  split
  · exact absurd rfl ht
  · exact absurd rfl hg
  · rfl
  · rfl

@[simp] theorem State.reset_col (k : Nat) : State.reset.col k = zeroCol := rfl

/-- Settles O2: the registers by their reset words, the rest by the empty tables of the reset state. -/
theorem resetLeaves : Obligations.ResetLeaves := by
  refine ⟨⟨fun pg ht hg hm => ?_, fun p => ?_, fun t => ?_, rfl, rfl, rfl, rfl, rfl, rfl, rfl, rfl, State.reset_col⟩,
    State.memoryWf_reset⟩
  · rw [State.reset_enable pg hm, ctrlReset_enable ht hg]; rfl
  · rw [State.reset_enable (pgGll p) (by simp [pgGll])]; simp [pgGll, ctrlReset, bitsOf]
  · rw [State.reset_enable (pgTnt t) (by simp [pgTnt])]; simp [pgTnt, ctrlReset, bitsOf]

/-! ## Registers by key -/

theorem PageKind.ofNat_num (k : PageKind) : PageKind.ofNat k.num = k := by cases k <;> rfl

theorem PageKind.num_injective : Function.Injective PageKind.num := Function.LeftInverse.injective PageKind.ofNat_num

/-- Within the bounds of offsets, banks and page numbers, a key names one register. -/
theorem regKey_inj {pg pg' : Page} {b b' o o' : Nat} (ho : o < 4096) (ho' : o' < 4096) (hb : b < 65536) (hb' : b' < 65536)
    (hi : pg.inst < 256) (hi' : pg'.inst < 256) : regKey pg b o = regKey pg' b' o' ↔ pg' = pg ∧ b' = b ∧ o' = o := by
  constructor
  · intro h
    obtain ⟨k, i⟩ := pg
    obtain ⟨k', i'⟩ := pg'
    simp only [regKey] at h hi hi'
    obtain rfl : k = k' := PageKind.num_injective (by omega)
    obtain ⟨rfl, rfl, rfl⟩ : i' = i ∧ b' = b ∧ o' = o := by omega
    exact ⟨rfl, rfl, rfl⟩
  · rintro ⟨rfl, rfl, rfl⟩; rfl

/-- Settles O6: the register's own key reads as written, and no other register shares it. -/
theorem registerReadAfterWrite : Obligations.RegisterReadAfterWrite := by
  intro s pg pg' b b' o o' v ho ho' hb hb' hi hi'
  have hkey := regKey_inj ho ho' hb hb' hi hi'
  split
  · next h => obtain ⟨rfl, rfl, rfl⟩ := h; exact s.reg_setReg_self ..
  · next h => exact s.reg_setReg_of_key_ne pg pg' b b' o o' v (mt hkey.1 h)

/-! ## Bit fields of a number -/

theorem testBit_bitsOf (x m l i : Nat) : (bitsOf x m l).testBit i = (decide (i < m + 1 - l) && x.testBit (i + l)) := by
  rw [bitsOf, Nat.testBit_mod_two_pow, Nat.testBit_div_two_pow]

theorem bitsOf_lt (x m l : Nat) : bitsOf x m l < 2 ^ (m + 1 - l) := Nat.mod_lt _ (Nat.two_pow_pos _)

theorem bitOf_eq_testBit (x i : Nat) : bitOf x i = x.testBit i := by
  rw [Nat.testBit_eq_decide_div_mod_eq]; rfl

/-- A field replaced, as the bits above it, its new bits, and the bits below it. -/
theorem setBitsNat_eq (x m l v : Nat) :
    setBitsNat x m l v = 2 ^ l * (2 ^ (m + 1 - l) * (x / 2 ^ l / 2 ^ (m + 1 - l)) + v % 2 ^ (m + 1 - l)) + x % 2 ^ l := by
  have hx : x = 2 ^ l * (2 ^ (m + 1 - l) * (x / 2 ^ l / 2 ^ (m + 1 - l))) + bitsOf x m l * 2 ^ l + x % 2 ^ l := by
    rw [bitsOf, Nat.mul_comm (_ % _), ← Nat.mul_add, Nat.div_add_mod, Nat.div_add_mod]
  rw [setBitsNat, Nat.mul_add, Nat.mul_comm (v % _)]
  omega

theorem testBit_setBitsNat (x m l v i : Nat) :
    (setBitsNat x m l v).testBit i = if l ≤ i ∧ i ≤ m then v.testBit (i - l) else x.testBit i := by
  rw [setBitsNat_eq, Nat.testBit_two_pow_mul_add _ (Nat.mod_lt _ (Nat.two_pow_pos _)),
    Nat.testBit_two_pow_mul_add _ (Nat.mod_lt _ (Nat.two_pow_pos _))]
  simp only [Nat.testBit_mod_two_pow, Nat.testBit_div_two_pow]
  by_cases hl : i < l
  · rw [if_pos hl, if_neg (by omega)]; simp [hl]
  · by_cases hm : i - l < m + 1 - l
    · rw [if_neg hl, if_pos hm, if_pos (by omega)]; simp [hm]
    · rw [if_neg hl, if_neg hm, if_neg (by omega)]
      congr 1; omega

/-! ## Fields -/

/-- The bits that a word holds in a field. -/
def Fld.get (f : Fld) (w : Nat) : Nat := bitsOf w f.msb f.lsb

/-- The word with a field's bits replaced. -/
def Fld.put (f : Fld) (w v : Nat) : Nat := setBitsNat w f.msb f.lsb v

/-- Two fields share no bit. -/
@[reducible] def Fld.Apart (f g : Fld) : Prop := f.msb < g.lsb ∨ g.msb < f.lsb

theorem Fld.get_lt (f : Fld) (w : Nat) : f.get w < 2 ^ (f.msb + 1 - f.lsb) := bitsOf_lt ..

/-- A field reads as written. -/
theorem Fld.get_put_self (f : Fld) (w : Nat) {v : Nat} (h : v < 2 ^ (f.msb + 1 - f.lsb)) : f.get (f.put w v) = v := by
  rw [← Nat.mod_eq_of_lt h]
  refine Nat.eq_of_testBit_eq fun i => ?_
  rw [Fld.get, Fld.put, testBit_bitsOf, testBit_setBitsNat, Nat.testBit_mod_two_pow]
  by_cases hi : i < f.msb + 1 - f.lsb
  · rw [if_pos (by omega), Nat.add_sub_cancel, Nat.testBit_mod_two_pow]; simp [hi]
  · simp [hi]

/-- A field written leaves the bits of every field apart from it. -/
theorem Fld.Apart.get_put {f g : Fld} (h : f.Apart g) (w v : Nat) : g.get (f.put w v) = g.get w := by
  refine Nat.eq_of_testBit_eq fun i => ?_
  rw [Fld.get, Fld.put, Fld.get, testBit_bitsOf, testBit_setBitsNat, testBit_bitsOf]
  by_cases hi : i < g.msb + 1 - g.lsb
  · rw [if_neg (by omega)]
  · simp [hi]

/-- Putting back what a field holds changes nothing. -/
theorem Fld.put_get (f : Fld) (w : Nat) : f.put w (f.get w) = w := by
  refine Nat.eq_of_testBit_eq fun i => ?_
  rw [Fld.put, Fld.get, testBit_setBitsNat]
  split
  · next h => rw [testBit_bitsOf, Nat.sub_add_cancel h.1, decide_eq_true (by omega), Bool.true_and]
  · rfl

/-- New bits put in each field in turn: each field then holds what its old bits make. -/
theorem Fld.get_foldl_put (new : Fld → Nat → Nat) {fs : List Fld} (hfs : fs.Pairwise Fld.Apart) (w : Nat)
    (hnew : ∀ f ∈ fs, new f (f.get w) < 2 ^ (f.msb + 1 - f.lsb)) :
    ∀ f ∈ fs, f.get (fs.foldl (fun a f => f.put a (new f (f.get a))) w) = new f (f.get w) := by
  have hkeep : ∀ (gs : List Fld) (f : Fld) (a : Nat), (∀ g ∈ gs, g.Apart f) →
      f.get (gs.foldl (fun a f => f.put a (new f (f.get a))) a) = f.get a := by
    intro gs f a hg
    induction gs generalizing a with
    | nil => rfl
    | cons g gs ih =>
      obtain ⟨hgf, hg⟩ := List.forall_mem_cons.1 hg
      rw [List.foldl_cons, ih _ hg, hgf.get_put]
  induction fs generalizing w with
  | nil => exact fun f hf => absurd hf List.not_mem_nil
  | cons g fs ih =>
    obtain ⟨hg, hfs⟩ := List.pairwise_cons.1 hfs
    obtain ⟨hnewg, hnew⟩ := List.forall_mem_cons.1 hnew
    have hsame : ∀ f ∈ fs, f.get (g.put w (new g (g.get w))) = f.get w := fun f hf => (hg f hf).get_put ..
    rw [List.forall_mem_cons, List.foldl_cons]
    constructor
    · rw [hkeep fs g _ (fun f hf => (hg f hf).symm), g.get_put_self w hnewg]
    · intro f hf
      rw [ih hfs _ (fun f hf => (hsame f hf).symm ▸ hnew f hf) f hf, hsame f hf]

/-! ## The register map -/

/-- The fields of a register share no bit, and the reset values of those that reads clear fit their bits. -/
@[reducible] def Reg.Tidy (r : Reg) : Prop :=
  r.flds.Pairwise Fld.Apart ∧ ∀ f ∈ r.flds, f.acc = .RC → f.reset < 2 ^ (f.msb + 1 - f.lsb)

/-- Every register of the chapters' tables is tidy: a check of each page's table. -/
theorem blockRegs_tidy (k : PageKind) : ∀ r ∈ blockRegs k, r.Tidy := by
  cases k <;> decide +kernel

/-! ## Access codes -/

/-- What a write of `new` over `old` leaves in a field of an access code (R9). -/
def Acc.after (locked : Bool) (old new : Nat) : Acc → Nat
  | .RW => new
  | .RWL => if locked then old else new
  | .W1C => old - (old &&& new)
  | .W1S => old ||| new
  | .RO | .RC | .WO => old

/-- A field's bits after a write fit the field. -/
theorem Acc.after_lt {n old new : Nat} (locked : Bool) (ho : old < 2 ^ n) (hn : new < 2 ^ n) (c : Acc) :
    c.after locked old new < 2 ^ n := by
  cases c with
  | RO | RC | WO => exact ho
  | RW => exact hn
  | RWL => cases locked; exacts [hn, ho]
  | W1C => exact Nat.lt_of_le_of_lt (Nat.sub_le _ _) ho
  | W1S => exact Nat.or_lt_two_pow ho hn

/-- What a read leaves in a field (R9). -/
def Fld.afterRead (f : Fld) (old : Nat) : Nat := if f.acc = .RC then f.reset else old

theorem Reg.written_eq (r : Reg) (locked : Bool) (w v : Nat) :
    r.written locked w v = r.flds.foldl (fun a f => f.put a (f.acc.after locked (f.get a) (f.get v))) w := by
  unfold Reg.written
  congr 1
  funext a f
  cases hc : f.acc with
  | RO | RC | WO => exact (f.put_get a).symm
  | RWL => cases locked; exacts [rfl, (f.put_get a).symm]
  | RW | W1C | W1S => rfl

theorem Reg.afterRead_eq (r : Reg) (w : Nat) : r.afterRead w = r.flds.foldl (fun a f => f.put a (f.afterRead (f.get a))) w := by
  unfold Reg.afterRead
  congr 1
  funext a f
  unfold Fld.afterRead
  split
  · rfl
  · exact (f.put_get a).symm

theorem Reg.Tidy.get_written {r : Reg} (h : r.Tidy) {f : Fld} (hf : f ∈ r.flds) (locked : Bool) (w v : Nat) :
    f.get (r.written locked w v) = f.acc.after locked (f.get w) (f.get v) := by
  obtain ⟨hapart, -⟩ := h
  rw [Reg.written_eq]
  exact Fld.get_foldl_put (fun f old => f.acc.after locked old (f.get v)) hapart w
    (fun f _ => f.acc.after_lt locked (f.get_lt w) (f.get_lt v)) f hf

theorem Reg.Tidy.get_afterRead {r : Reg} (h : r.Tidy) {f : Fld} (hf : f ∈ r.flds) (w : Nat) :
    f.get (r.afterRead w) = f.afterRead (f.get w) := by
  obtain ⟨hapart, hreset⟩ := h
  rw [Reg.afterRead_eq]
  refine Fld.get_foldl_put Fld.afterRead hapart w (fun g hg => ?_) f hf
  unfold Fld.afterRead
  split
  · next hc => exact hreset g hg hc
  · exact g.get_lt w

/-! ## The bits that reads return -/

/-- Ones added to a field that holds none fill the field. -/
theorem Fld.add_ones_eq_put (f : Fld) {a : Nat} (h : f.get a = 0) :
    a + (2 ^ (f.msb + 1 - f.lsb) - 1) * 2 ^ f.lsb = f.put a (2 ^ (f.msb + 1 - f.lsb) - 1) := by
  have hlt : 2 ^ (f.msb + 1 - f.lsb) - 1 < 2 ^ (f.msb + 1 - f.lsb) := Nat.sub_lt (Nat.two_pow_pos _) Nat.one_pos
  rw [Fld.get] at h
  rw [Fld.put, setBitsNat, h, Nat.mod_eq_of_lt hlt, Nat.zero_mul, Nat.sub_zero]

/-- The mask with one field more. -/
def Fld.mask (a : Nat) (f : Fld) : Nat := a + if f.acc = .WO then 0 else (2 ^ (f.msb + 1 - f.lsb) - 1) * 2 ^ f.lsb

/-- A mask without a field's bits gets at most that field's bits. -/
theorem Fld.testBit_mask {f : Fld} {a i : Nat} (h : f.get a = 0) (hi : ¬(f.lsb ≤ i ∧ i ≤ f.msb)) :
    (f.mask a).testBit i = a.testBit i := by
  unfold Fld.mask
  split
  · rfl
  · rw [f.add_ones_eq_put h, Fld.put, testBit_setBitsNat, if_neg hi]

theorem Reg.readMask_eq (r : Reg) : r.readMask = r.flds.foldl Fld.mask 0 := rfl

theorem Fld.Apart.get_mask {f g : Fld} (h : f.Apart g) {a : Nat} (hf : f.get a = 0) : g.get (f.mask a) = g.get a := by
  unfold Fld.mask
  split
  · rfl
  · rw [f.add_ones_eq_put hf, h.get_put]

theorem Fld.testBit_foldl_mask {fs : List Fld} {i : Nat} (hfs : fs.Pairwise Fld.Apart) (hi : ∀ f ∈ fs, ¬(f.lsb ≤ i ∧ i ≤ f.msb))
    (a : Nat) (ha : ∀ f ∈ fs, f.get a = 0) : (fs.foldl Fld.mask a).testBit i = a.testBit i := by
  induction fs generalizing a with
  | nil => rfl
  | cons f fs ih =>
    obtain ⟨hf, hfs⟩ := List.pairwise_cons.1 hfs
    obtain ⟨hif, hi⟩ := List.forall_mem_cons.1 hi
    obtain ⟨haf, ha⟩ := List.forall_mem_cons.1 ha
    rw [List.foldl_cons, ih hfs hi _ (fun g hg => ((hf g hg).get_mask haf).trans (ha g hg)), Fld.testBit_mask haf hif]

/-- A bit of no field is not in the mask. -/
theorem Reg.Tidy.testBit_readMask {r : Reg} (h : r.Tidy) {i : Nat} (hi : ∀ f ∈ r.flds, ¬(f.lsb ≤ i ∧ i ≤ f.msb)) :
    r.readMask.testBit i = false := by
  obtain ⟨hapart, -⟩ := h
  rw [Reg.readMask_eq, Fld.testBit_foldl_mask hapart hi 0 (fun f _ => by simp [Fld.get, bitsOf]), Nat.zero_testBit]

/-- Settles O14: the registers of every page are tidy, so a write or a read acts on each field alone. -/
theorem accessCodesAreObeyed : Obligations.AccessCodesAreObeyed := by
  refine ⟨fun k r f locked w v hr hf => ?_, fun k r f w hr hf => ?_, fun k r w i hr hi => ?_⟩
  · exact (blockRegs_tidy k r hr).get_written hf locked w v
  · exact (blockRegs_tidy k r hr).get_afterRead hf w
  · rw [bitOf_eq_testBit, Nat.testBit_and, (blockRegs_tidy k r hr).testBit_readMask hi, Bool.and_false]

end Sys2Proof.Machine

/-! # The generation round -/

namespace Sys2Proof.Machine
open Sys2Proof

/-! ## Sealing a round -/

theorem exec_sealRound {s : State} {m : Byte} {drafts : List (W32 × List Byte)} {b : Build} (hb : s.booted = true)
    (hseal : s.maySeal m.toNat = true) (hq : ((s.boundaries.takeSchedule m.toNat).model m.toNat).quarantined = false)
    (hbuild : (s.boundaries.takeSchedule m.toNat).buildRound m.toNat drafts = b) (hrows : b.rows.isEmpty = false) :
    exec (.sealRound m drafts) s = .next ((b.sealed m.toNat).event (pgKpr b.s.sealer)) := by
  change execSealRound m drafts s = _
  rw [execSealRound, s.gate_booted _ hb]
  simp [hseal, hq, hbuild, hrows]

theorem exec_sealRound_of_not_maySeal {s : State} {m : Byte} (drafts : List (W32 × List Byte)) (hb : s.booted = true)
    (hseal : s.maySeal m.toNat = false) : exec (.sealRound m drafts) s = .next s := by
  change execSealRound m drafts s = _
  rw [execSealRound, s.gate_booted _ hb]
  simp [hseal]

/-- No round is sealed beside two in flight, or beside one of its own model (R28). -/
theorem State.maySeal_eq_false {s : State} {m : Nat} (h : 2 ≤ s.ses.rounds.length ∨ ∃ r ∈ s.ses.rounds, r.model = m) :
    s.maySeal m = false := by
  rw [Bool.eq_false_iff]
  intro hseal
  simp only [State.maySeal, Bool.and_eq_true, decide_eq_true_eq, Bool.not_eq_true', List.any_eq_false, beq_iff_eq] at hseal
  obtain ⟨⟨⟨⟨_, hlen⟩, hmodel⟩, _⟩, _⟩ := hseal
  rcases h with h | ⟨r, hr, hrm⟩
  · omega
  · exact hmodel r hr hrm

/-- A sealing changes sessions and rounds alone, whatever is then counted and reported. -/
theorem Build.same_of_sealed {b : Build} {m : Nat} {t : State} (h : Quiet (b.sealed m) t) :
    SameTiers b.s t ∧ SamePumps b.s t ∧ SameEngines b.s t ∧ SameStacks b.s t ∧ SameTime b.s t ∧ SameQueue b.s t :=
  ⟨h.mem, h.pmp, h.engs, ⟨h.cis, h.bkt⟩, ⟨h.hostTime, h.inflight, h.copies, h.watches, congrArg TelState.wins h.tel⟩,
    h.pending, h.profile⟩

/-- Settles O7: a sealing ends in `Build.sealed` and an event that counts it; `maySeal` is false beside the rounds that exclude it. -/
theorem sealRoundCompletes : Obligations.SealRoundCompletes := by
  refine ⟨?_, fun s m drafts hb h => exec_sealRound_of_not_maySeal drafts hb (State.maySeal_eq_false h)⟩
  intro s m drafts hb hseal s1 b hq hrows
  exact ⟨_, b.round m.toNat, exec_sealRound hb hseal hq rfl hrows, rfl, rfl, rfl, rfl, rfl, rfl, rfl,
    Build.same_of_sealed ((b.sealed m.toNat).event_quiet _)⟩

/-! ## The rows of a build -/

/-- The rows that a build has chosen and those that it may still choose. -/
def Build.room (b : Build) : Nat := b.rows.length + b.free.length

/-- Rows added are taken from those that were free. -/
theorem Build.room_add (b : Build) (h n : Nat) (tree : Tree) (rows : List Row) : (b.add h n tree rows).room = b.room := by
  unfold Build.add
  split
  · rfl
  · next hfit =>
    split
    · simp only [Build.room, List.length_append, List.length_map, List.length_zip, List.length_drop]
      omega
    · rfl
    · rfl

theorem Build.room_gen (b : Build) (drafts : List (W32 × List Byte)) (h : Nat) : (b.gen drafts h).room = b.room := by
  unfold Build.gen
  split
  · rfl
  · split
    · rfl
    · dsimp only
      rw [apply_ite Build.room, Build.room_add]
      exact ite_self _

theorem Build.room_draft (b : Build) (m h : Nat) : (b.draft m h).room = b.room := by
  unfold Build.draft
  split
  · rfl
  · split
    · rfl
    · dsimp only
      split
      · rfl
      · exact Build.room_add ..

theorem Build.room_rebuild (bal cap : Nat) (b : Build) (h : Nat) : (b.rebuild bal cap h).room = b.room := by
  unfold Build.rebuild
  dsimp only
  split
  · rfl
  · exact Build.room_add ..

theorem Build.room_prompt (bal cap : Nat) (b : Build) (h : Nat) : (b.prompt bal cap h).room = b.room := by
  unfold Build.prompt
  dsimp only
  split
  · rfl
  · split
    · rfl
    · exact Build.room_add ..

theorem Build.room_prefill (bal cap m : Nat) (b : Build) (h : Nat) : (b.prefill bal cap m h).room = b.room := by
  unfold Build.prefill
  dsimp only
  split
  · rfl
  · exact Build.room_add ..

/-- Sessions added in turn keep the room that each of them keeps. -/
theorem Build.room_foldl {f : Build → Nat → Build} (hf : ∀ b h, (f b h).room = b.room) (l : List Nat) (b : Build) :
    (l.foldl f b).room = b.room :=
  foldl_keeps (fun c => c.room = b.room) f (fun c h hc => (hf c h).trans hc) l b rfl

/-- A build has the room that the row cap and the rounds in flight leave it (R15). -/
theorem State.buildRound_room (s : State) (m : Nat) (drafts : List (W32 × List Byte)) :
    (s.buildRound m drafts).room = (s.freeRows.take
      (min (rowCapOf s.profile) (256 - (s.ses.rounds.map (fun r => r.rows.length)).foldl (· + ·) 0))).length := by
  unfold State.buildRound
  dsimp only
  rw [Build.room_foldl (fun b h => b.room_prefill _ _ m h), Build.room_foldl (fun b h => b.room_prompt _ _ h),
    Build.room_foldl (fun b h => b.room_rebuild _ _ h), Build.room_foldl (fun b h => b.room_draft m h),
    Build.room_foldl (fun b h => b.room_gen drafts h)]
  exact Nat.zero_add _

/-- Settles O8: a build's rows stay within its room, and its room is what the rounds in flight leave of 256. -/
theorem rowsNeverExceed256 : Obligations.RowsNeverExceed256 := by
  intro s m drafts hin
  have hroom := s.buildRound_room m drafts
  rw [Build.room, List.length_take] at hroom
  omega

/-! ## The engines of a round -/

/-- A priming miss counted at one die after another leaves all but the registers. -/
theorem State.foldl_bumpB_quiet (f : Fld) (pg : Nat → Page) (b n : Nat) (l : List Nat) (s : State) :
    Quiet s (l.foldl (fun s q => s.bumpB (pg q) b f n) s) :=
  foldl_keeps (Quiet s) _ (fun t q h => h.trans (t.bumpB_quiet (pg q) b f n)) l s (Quiet.refl s)

/-- What is done to each engine of a list in turn, once, is done to every engine of it and to no other. -/
theorem State.eng_foldl_setEng (f : Eng → Eng) {l : List Nat} (hl : l.Nodup) (s : State) (e : Nat) :
    (l.foldl (fun s e => s.setEng e (f (s.eng e))) s).eng e = if e ∈ l then f (s.eng e) else s.eng e := by
  induction l generalizing s with
  | nil => rfl
  | cons d l ih =>
    obtain ⟨hd, hl⟩ := List.nodup_cons.1 hl
    rw [List.foldl_cons, ih hl, State.eng_setEng]
    by_cases hde : d = e
    · subst hde; simp [hd]
    · simp [hde, Ne.symm hde]

/-- A map of ones by a test holds the test. -/
theorem SMap.get_filterMap_true (p : Nat → Bool) (l : List Nat) (k : Nat) :
    SMap.get (l.filterMap (fun i => if p i then some (i, true) else none)) false k = (decide (k ∈ l) && p k) := by
  induction l with
  | nil => rfl
  | cons i l ih =>
    by_cases hk : i = k
    · subst hk
      cases hp : p i
      · simp [hp, ih]
      · simp [hp, SMap.get, SMap.find]
    · cases hp : p i
      · simp [hp, ih, Ne.symm hk]
      · simp only [SMap.get] at ih
        simp [hp, SMap.get, SMap.find, hk, ih, Ne.symm hk]

/-- Row set RS0 of a round's rows, RS1 to RS7 being clear. -/
def Round.rowSet (r : Round) : SMap Bool :=
  (List.range 256).filterMap (fun i => if r.rows.any (fun w => w.row == i) then some (i, true) else none)

theorem Round.get_rowSet (r : Round) (k : Nat) : SMap.get r.rowSet false k = (decide (k < 256) && r.rows.any (fun w => w.row == k)) := by
  rw [Round.rowSet, SMap.get_filterMap_true (fun i => r.rows.any (fun w => w.row == i))]
  simp only [List.mem_range]

/-- An engine that starts a round's layer. -/
def Eng.forRound (x : Eng) (r : Round) : Eng := { x with rs := r.rowSet, g := { x.g with sc := [] } }

theorem State.engs_giveEngines (s : State) (r : Round) :
    (s.giveEngines r).engs = ((List.range 32).foldl (fun s e => s.setEng e ((s.eng e).forRound r)) s).engs := by
  simp only [State.giveEngines, State.setRounds, State.setModel]
  rw [(State.foldl_bumpB_quiet F.tir_MODEL_MISS_COUNT pgTir r.model 1 _ _).engs]
  simp only [Eng.forRound, Round.rowSet]

theorem State.eng_giveEngines (s : State) (r : Round) (e : Fin 32) : (s.giveEngines r).eng e = (s.eng e).forRound r := by
  rw [State.eng, State.engs_giveEngines, ← State.eng, State.eng_foldl_setEng (fun x => x.forRound r) List.nodup_range,
    if_pos (List.mem_range.2 e.isLt)]

/-- The round that gets the engines holds them, and no other does. -/
theorem State.holds_giveEngines (s : State) (r x : Round) (hx : x ∈ (s.giveEngines r).ses.rounds) : x.holds = true ↔ x.num = r.num := by
  simp only [State.giveEngines, State.setRounds, List.mem_map] at hx
  obtain ⟨q, -, rfl⟩ := hx
  by_cases hq : q.num = r.num <;> simp [hq]

/-- With layers left in both rounds in flight, the older waits on its own tiles only while the younger's are not latched (R29). -/
theorem State.nextHolder_of_two {s : State} {r q : Round} (h : s.ses.rounds = [r, q]) (hr : r.layer < s.layersOf r)
    (hq : q.layer < s.layersOf q) : s.nextHolder = some (if s.waitsFor r ≠ [] ∧ s.waitsFor q = [] then q else r) := by
  have hboth : s.ses.rounds.filter (fun x => decide (x.layer < s.layersOf x)) = [r, q] := by simp [h, hr, hq]
  rw [State.nextHolder, hboth]
  by_cases hwr : s.waitsFor r = [] <;> by_cases hwq : s.waitsFor q = [] <;> simp [hwr, hwq]

/-! ## The steps of a round -/

theorem exec_kvTailWrite {s : State} {num : W64} {h : W32} {draft : Bool} {l hd : W16} {r : Round} (data : List Byte)
    (hb : s.booted = true) (hr : s.roundOf num.toNat = some r) (hholds : r.holds = true) (heng : r.engines.isEmpty = false)
    (hl : r.layer = l.toNat) (hrow : r.rows.any (fun w => w.ses == rowKey h draft) = true) :
    exec (.kvTailWrite num h draft l hd data) s = .next ((s.tailWrites r (rowKey h draft) l.toNat hd.toNat data).putRound
      { r with written := r.written ++ [rowKey h draft * 2 ^ 32 + runIx l.toNat hd.toNat] }) := by
  change execKvTailWrite num h draft l hd data s = _
  rw [execKvTailWrite, s.gate_booted _ hb]
  simp [hr, hholds, heng, hl, hrow]

theorem exec_layerBoundary {s : State} (hb : s.booted = true) (hdue : s.boundaryDue = true) :
    exec .layerBoundary s = .next (match s.endLayer.nextHolder with
      | some r => s.endLayer.giveEngines r
      | none => s.endLayer) := by
  change execLayerBoundary s = _
  rw [execLayerBoundary, s.gate_booted _ hb]
  exact if_neg (by simp [hdue])

theorem exec_sampling {s : State} {num : W64} {h : W32} {draft : Bool} {r : Round} {q : Req} (logits : List (List W32))
    (hb : s.booted = true) (hr : s.roundOf num.toNat = some r) (hrows : (r.sampleRows (rowKey h draft)).isEmpty = false)
    (hl : s.layersOf r ≤ r.layer + 1) (hem : SMap.find r.emits (rowKey h draft) = none) (hq : (s.sesOf h.toNat).headReq = some q) :
    exec (.sampling num h draft logits) s
      = .next ({ s with free := s.free + ((r.sampleRows (rowKey h draft)).length + 1) * drawsPer (s.model r.model).md.vocab }.putRound
        { r with emits := SMap.put r.emits (rowKey h draft) (some (s.emitsOf r h draft q (s.logitsOf r (rowKey h draft) logits))) }) := by
  change execSampling num h draft logits s = _
  rw [execSampling, s.gate_booted _ hb]
  simp [hr, hrows, Nat.not_lt.2 hl, hem, hq]

theorem exec_roundBoundary {s : State} {num : W64} {r : Round} (hb : s.booted = true) (hr : s.roundOf num.toNat = some r)
    (hl : s.layersOf r ≤ r.layer) (hsampled : r.sampled = true) :
    exec (.roundBoundary num) s = .next ((s.endRound r).sessionBoundaries r) := by
  change execRoundBoundary num s = _
  rw [execRoundBoundary, s.gate_booted _ hb]
  simp [hr, Nat.not_lt.2 hl, hsampled]

/-- Settles O9: each step by its own equation, the engines by what `giveEngines` leaves in one engine and in one round. -/
theorem roundStepsComplete : Obligations.RoundStepsComplete := by
  refine ⟨⟨fun s num h draft l hd data r hb hr hholds heng hl hrow => ?_, fun s hb hdue => ?_,
    fun s num h draft logits r q hb hr hrows hl hem hq => ?_, fun s num r hb hr hl hsampled => ?_⟩,
    fun s r q h hr hq => ?_, fun s r e _ => ⟨fun k => ?_, fun c => ?_, fun x hx => ?_⟩⟩
  · exact exec_kvTailWrite data hb hr hholds heng hl hrow
  · exact exec_layerBoundary hb hdue
  · exact exec_sampling logits hb hr hrows hl hem hq
  · exact exec_roundBoundary hb hr hl hsampled
  · exact State.nextHolder_of_two h hr hq
  · rw [State.eng_giveEngines]; exact r.get_rowSet k
  · rw [State.eng_giveEngines]; rfl
  · exact s.holds_giveEngines r x hx

end Sys2Proof.Machine

/-! # Self-timed operation -/

namespace Sys2Proof.Machine
open Sys2Proof

/-! ## Fields of registers -/

theorem State.fld_eq_get (s : State) (pg : Page) (f : Fld) : s.fld pg f = f.get (s.reg pg 0 f.off).toNat := rfl

theorem State.setFld_eq (s : State) (pg : Page) (f : Fld) (v : Nat) :
    s.setFld pg f v = s.setReg pg 0 f.off (BitVec.ofNat 32 (f.put (s.reg pg 0 f.off).toNat v)) := rfl

/-- A field of a word of 32 bits is not among the bits that the word cuts off. -/
theorem Fld.get_toNat_ofNat {f : Fld} (hf : f.msb < 32) (x : Nat) : f.get (BitVec.ofNat 32 x).toNat = f.get x := by
  refine Nat.eq_of_testBit_eq fun i => ?_
  rw [Fld.get, Fld.get, BitVec.toNat_ofNat, testBit_bitsOf, testBit_bitsOf, Nat.testBit_mod_two_pow]
  by_cases hi : i < f.msb + 1 - f.lsb
  · rw [decide_eq_true (show i + f.lsb < 32 by omega), Bool.true_and]
  · simp [hi]

/-- A field set reads as set. -/
theorem State.fld_setFld_self (s : State) (pg : Page) {f : Fld} {v : Nat} (hf : f.msb < 32) (hv : v < 2 ^ (f.msb + 1 - f.lsb)) :
    (s.setFld pg f v).fld pg f = v := by
  rw [State.fld_eq_get, State.setFld_eq, State.reg_setReg_self, Fld.get_toNat_ofNat hf, f.get_put_self _ hv]

/-- A field set leaves the fields of other registers of its page, and the fields of its own register that are apart from it. -/
theorem State.fld_setFld_other (s : State) (pg : Page) {f g : Fld} (v : Nat) (hg : g.msb < 32) (h : f.off = g.off → f.Apart g) :
    (s.setFld pg f v).fld pg g = s.fld pg g := by
  rw [State.fld_eq_get, State.fld_eq_get, State.setFld_eq]
  by_cases hoff : f.off = g.off
  · rw [← hoff, State.reg_setReg_self, Fld.get_toNat_ofNat hg, (h hoff).get_put]
  · rw [s.reg_setReg_of_key_ne]
    exact mt Nat.add_left_cancel hoff

theorem State.bump_eq_setFld (s : State) (pg : Page) (f : Fld) (n : Nat) :
    s.bump pg f n = s.setFld pg f (min (2 ^ (f.msb + 1 - f.lsb) - 1) (s.fld pg f + n)) := rfl

/-- A count goes up by what is added, up to the ones of its field. -/
theorem State.fld_bump_self (s : State) (pg : Page) {f : Fld} (n : Nat) (hf : f.msb < 32) :
    (s.bump pg f n).fld pg f = min (2 ^ (f.msb + 1 - f.lsb) - 1) (s.fld pg f + n) := by
  have := Nat.two_pow_pos (f.msb + 1 - f.lsb)
  rw [State.bump_eq_setFld, State.fld_setFld_self _ _ hf (by omega)]

/-! ## Registers that a report leaves -/

theorem State.emit_regs (s : State) (e : Egress) : (s.emit e).regs = s.regs := by
  unfold State.emit
  split
  · generalize (if s.portOf _ = 1 then 65 else 0) = n
    split <;> rfl
  · rfl

/-- A page, a bank and an offset that are within the bounds of keys. -/
@[reducible] def RegBounds (pg : Page) (b o : Nat) : Prop := pg.inst < 256 ∧ b < 65536 ∧ o < 4096

section
variable {pg : Page} {b o : Nat} (h : RegBounds pg b o)
include h

/-- A register keeps its value when one of another page is set. -/
theorem State.reg_setReg_of_page_ne (s : State) {pg' : Page} {b' o' : Nat} (v : W32) (h' : RegBounds pg' b' o') (hne : pg' ≠ pg) :
    (s.setReg pg' b' o' v).reg pg b o = s.reg pg b o := by
  obtain ⟨hi, hb, ho⟩ := h
  obtain ⟨hi', hb', ho'⟩ := h'
  refine s.reg_setReg_of_key_ne _ _ _ _ _ _ _ fun hkey => hne ?_
  exact ((regKey_inj ho' ho hb' hb hi' hi).1 hkey).1.symm

theorem State.reg_irq (s : State) {fn : Nat} (vec : Nat) (hfn : fn < 256) (hm : pg.kind ≠ .msix) :
    (s.irq fn vec).reg pg b o = s.reg pg b o := by
  simp only [State.irq]
  split
  · exact State.reg_setReg_of_page_ne h s _ ⟨hfn, by decide, by decide⟩ (fun e => hm (e ▸ rfl))
  · rw [State.reg_congr (State.emit_regs _ _)]

theorem State.reg_raise (s : State) {pg' : Page} (c : Nat) (hi : pg'.inst < 256) (hv : (errVector pg').1 < 256) (hne : pg' ≠ pg)
    (hm : pg.kind ≠ .msix) : (s.raise pg' c).reg pg b o = s.reg pg b o := by
  simp only [State.raise, State.errEdge]
  split
  · rw [State.reg_irq h _ _ hv hm, State.reg_setReg_of_page_ne h s _ ⟨hi, by decide, by decide⟩ hne]
  · exact State.reg_setReg_of_page_ne h s _ ⟨hi, by decide, by decide⟩ hne

/-- The error log is held on the RAS page. -/
theorem State.reg_logErr (s : State) (kind : Nat) (src : Page) (detail addr arg : Nat) (hne : pgRas ≠ pg) (hm : pg.kind ≠ .msix) :
    (s.logErr kind src detail addr arg).reg pg b o = s.reg pg b o := by
  have hset (u : State) (f : Fld) (v : Nat) (hf : f.off < 4096) : (u.setFld pgRas f v).reg pg b o = u.reg pg b o :=
    State.reg_setReg_of_page_ne h u _ ⟨by decide, by decide, hf⟩ hne
  simp only [State.logErr, State.event, State.bump_eq_setFld]
  split
  · rw [State.reg_raise h _ _ (by decide) (by decide) hne hm, hset _ _ _ (by decide)]
  · rw [hset _ _ _ (by decide), hset _ _ _ (by decide)]
    rfl

end

/-! ## Lists of published values -/

@[simp] theorem lastOf_cons (a v : W64) (l : List W64) : lastOf a (v :: l) = lastOf v l := List.getLastD_cons ..

@[simp] theorem lastOf_concat (a w : W64) (l : List W64) : lastOf a (l ++ [w]) = w := List.getLastD_concat ..

theorem risingFrom_concat (a w : W64) (l : List W64) :
    risingFrom a (l ++ [w]) ↔ risingFrom a l ∧ (lastOf a l).toNat ≤ w.toNat := by
  induction l generalizing a with
  | nil => simp [risingFrom, lastOf]
  | cons v l ih => simp [risingFrom, ih, and_assoc]

/-! ## Host time and its copies, under what leaves them -/

theorem SameTime.trans {s t u : State} (h : SameTime s t) (k : SameTime t u) : SameTime s u := by
  obtain ⟨hh, hi, hc, hw, ht⟩ := h
  obtain ⟨kh, ki, kc, kw, kt⟩ := k
  exact ⟨kh.trans hh, ki.trans hi, kc.trans hc, kw.trans hw, kt.trans ht⟩

theorem Quiet.sameTime {s t : State} (h : Quiet s t) : SameTime s t :=
  ⟨h.hostTime, h.inflight, h.copies, h.watches, congrArg TelState.wins h.tel⟩

theorem SameTime.timeOrdered {s t : State} (h : SameTime s t) (hs : s.timeOrdered) : t.timeOrdered := by
  obtain ⟨hh, hi, hc, -⟩ := h
  simpa only [State.timeOrdered, State.timeAt, hh, hi, hc] using hs

/-! ## Publications -/

/-- The value that a write of HOST_TIME_HI publishes (R35). -/
def State.published (s : State) (hi : W32) : Nat := s.staged pgTop 0 0x040 + 2 ^ 32 * hi.toNat

theorem State.published_lt (s : State) (hi : W32) : s.published hi < 2 ^ 64 := by
  unfold State.published State.staged
  omega

/-- A publication below the held value is ignored and reported (R36). -/
def State.ignorePublication (s : State) (v : Nat) : State :=
  ((s.setFld pgTop F.top_HOST_TIME_STATUS_REGRESSED 1).bump pgTop F.top_HOST_TIME_STATUS_REGRESS_COUNT 1).logErr 1 pgTop 0 0 v

theorem execHostTimePublish_eq (hi : W32) (s : State) : execHostTimePublish hi s = .next (s.regWrite pgTop 0x044 fun s =>
    if s.published hi < s.hostTime.toNat then s.ignorePublication (s.published hi) else s.takePublication (s.published hi)) := rfl

theorem exec_hostTimePublish_taken {s : State} {hi : W32} (hl : s.pageLive pgTop = true) (h : s.hostTime.toNat ≤ s.published hi) :
    exec (.hostTimePublish hi) s = .next (s.takePublication (s.published hi)) := by
  change execHostTimePublish hi s = _
  rw [execHostTimePublish_eq, State.regWrite, if_pos hl, if_neg (Nat.not_lt.2 h)]

theorem exec_hostTimePublish_ignored {s : State} {hi : W32} (hl : s.pageLive pgTop = true) (h : s.published hi < s.hostTime.toNat) :
    exec (.hostTimePublish hi) s = .next (s.ignorePublication (s.published hi)) := by
  change execHostTimePublish hi s = _
  rw [execHostTimePublish_eq, State.regWrite, if_pos hl, if_pos h]

theorem State.ignorePublication_quiet (s : State) (v : Nat) : Quiet s (s.ignorePublication v) :=
  ((s.setFld_quiet _ _ _).trans (State.bump_quiet _ _ _ _)).trans (State.logErr_quiet _ _ _ _ _ _)

/-- Everything that a publication can do: it is taken, or nothing but a report is made. -/
theorem exec_hostTimePublish_cases {s t : State} {hi : W32} (h : exec (.hostTimePublish hi) s = .next t) :
    (s.hostTime.toNat ≤ s.published hi ∧ t = s.takePublication (s.published hi)) ∨ Quiet s t := by
  change execHostTimePublish hi s = _ at h
  rw [execHostTimePublish_eq] at h
  cases h
  rcases s.regWrite_cases pgTop 0x044 _ with ⟨-, heq⟩ | ⟨-, heq⟩
  · rw [heq]
    split
    · exact Or.inr (s.ignorePublication_quiet _)
    · next hlt => exact Or.inl ⟨Nat.not_lt.1 hlt, rfl⟩
  · rw [heq]; exact Or.inr (s.badAccess_quiet _ _ _)

/-! ## A publication taken -/

/-- Changing in turn the value of each key of a list, once, changes those of the list and no other. -/
theorem SMap.get_foldl_set {α : Type} [DecidableEq α] (d : α) (f : α → α) {l : List Nat} (hl : l.Nodup) (m : SMap α) (k : Nat) :
    SMap.get (l.foldl (fun m i => SMap.set m d i (f (SMap.get m d i))) m) d k
      = if k ∈ l then f (SMap.get m d k) else SMap.get m d k := by
  induction l generalizing m with
  | nil => rfl
  | cons i l ih =>
    obtain ⟨hi, hl⟩ := List.nodup_cons.1 hl
    rw [List.foldl_cons, ih hl, SMap.get_set]
    by_cases hik : i = k
    · subst hik; simp [hi]
    · simp [hik, Ne.symm hik]

theorem copyBlocks_nodup : copyBlocks.Nodup := by decide

theorem State.inflight_takePublication (s : State) (v b : Nat) : SMap.get (s.takePublication v).inflight [] b
    = if b ∈ copyBlocks then SMap.get s.inflight [] b ++ [BitVec.ofNat 64 v] else SMap.get s.inflight [] b := by
  simp only [State.takePublication, State.setFld_inflight]
  rw [SMap.get_foldl_set [] (fun l => l ++ [BitVec.ofNat 64 v]) copyBlocks_nodup]

theorem State.hostTime_takePublication (s : State) {v : Nat} (hv : v < 2 ^ 64) : (s.takePublication v).hostTime.toNat = v := by
  rw [show (s.takePublication v).hostTime = BitVec.ofNat 64 v from rfl, BitVec.toNat_ofNat, Nat.mod_eq_of_lt hv]

theorem State.fld_takePublication (s : State) (v : Nat) (f : Fld) : (s.takePublication v).fld pgTop f
    = ((s.setFld pgTop F.top_HOST_TIME_STATUS_VALID 1).setFld pgTop F.top_HOST_TIME_STATUS_STALE 0).fld pgTop f := rfl

theorem State.timeValid_takePublication (s : State) (v : Nat) : (s.takePublication v).timeValid = true := by
  rw [State.timeValid, State.flag, State.fld_takePublication, State.fld_setFld_other _ _ _ (by decide) (by decide),
    State.fld_setFld_self _ _ (by decide) (by decide)]
  rfl

theorem State.stale_takePublication (s : State) (v : Nat) :
    (s.takePublication v).flag pgTop F.top_HOST_TIME_STATUS_STALE = false := by
  rw [State.flag, State.fld_takePublication, State.fld_setFld_self _ _ (by decide) (by decide)]
  rfl

theorem State.timeOrdered_takePublication {s : State} {v : Nat} (hv : v < 2 ^ 64) (h : s.hostTime.toNat ≤ v) (hs : s.timeOrdered) :
    (s.takePublication v).timeOrdered := by
  intro b
  obtain ⟨hrise, hlast⟩ := hs b
  have hw : (BitVec.ofNat 64 v).toNat = v := by rw [BitVec.toNat_ofNat, Nat.mod_eq_of_lt hv]
  rw [s.hostTime_takePublication hv, s.inflight_takePublication, show (s.takePublication v).timeAt b = s.timeAt b from rfl]
  split
  · rw [risingFrom_concat, lastOf_concat, hw]
    exact ⟨⟨hrise, hlast.trans h⟩, Nat.le_refl v⟩
  · exact ⟨hrise, hlast.trans h⟩

/-! ## A publication ignored -/

theorem State.fld_ignorePublication (s : State) (v : Nat) {f : Fld} (hf : f.off < 4096) : (s.ignorePublication v).fld pgTop f
    = ((s.setFld pgTop F.top_HOST_TIME_STATUS_REGRESSED 1).bump pgTop F.top_HOST_TIME_STATUS_REGRESS_COUNT 1).fld pgTop f := by
  rw [State.fld_eq_get, State.fld_eq_get, State.ignorePublication,
    State.reg_logErr ⟨by decide, by decide, hf⟩ _ _ _ _ _ _ (by decide) (by decide)]

theorem State.regressed_ignorePublication (s : State) (v : Nat) :
    (s.ignorePublication v).flag pgTop F.top_HOST_TIME_STATUS_REGRESSED = true := by
  rw [State.flag, s.fld_ignorePublication v (by decide), State.bump_eq_setFld, State.fld_setFld_other _ _ _ (by decide) (by decide),
    State.fld_setFld_self _ _ (by decide) (by decide)]
  rfl

theorem State.regressCount_ignorePublication (s : State) (v : Nat) :
    (s.ignorePublication v).fld pgTop F.top_HOST_TIME_STATUS_REGRESS_COUNT
      = min 0xFFFF (s.fld pgTop F.top_HOST_TIME_STATUS_REGRESS_COUNT + 1) := by
  rw [s.fld_ignorePublication v (by decide), State.fld_bump_self _ _ _ (by decide), State.fld_setFld_other _ _ _ (by decide) (by decide)]
  rfl

/-- A write of HOST_TIME_LO stages its value and does nothing else (R35, R66). -/
theorem State.writeWord_hostTimeLo (s : State) (w : W32) (hl : s.pageLive pgTop = true) : s.writeWord pgTop 0x040 w
    = { s with stage := SMap.set s.stage (resetWord pgTop 0 0x040) (regKey pgTop 0 0x040) w } := by
  have hreg : (pgTop.regAt 0x040).isNone = false := by decide
  have hlow : pgTop.isLow 0x040 = true := by decide
  have hrow : s.rowWrite pgTop 0x040 w.toNat = none := rfl
  have hun : s.unselected pgTop 0x040 = false := rfl
  have hign : s.writeIgnored pgTop 0x040 w.toNat = false := rfl
  simp [State.writeWord, hl, hreg, hlow, hrow, hun, hign, show pgTop.kind = .top from rfl]

/-- Settles O11: a write of the low half is staged alone; a publication is one that is taken or one that is ignored. -/
theorem hostTimePublishCompletes : Obligations.HostTimePublishCompletes := by
  refine ⟨fun s w hl => ?_, fun s hi hl => ⟨fun h => ?_, fun h => ?_⟩⟩
  · rw [s.writeWord_hostTimeLo w hl]
    exact ⟨congrArg BitVec.toNat (SMap.get_set_self _ _ _ _), rfl, rfl, rfl, rfl⟩
  · refine ⟨_, exec_hostTimePublish_taken hl h, s.hostTime_takePublication (s.published_lt hi), s.timeValid_takePublication _,
      s.stale_takePublication _, fun b hb => ?_, rfl, ⟨rfl, rfl⟩, rfl, rfl, rfl, ⟨rfl, rfl, rfl⟩, rfl, rfl⟩
    rw [s.inflight_takePublication, if_pos hb]; rfl
  · have hq := s.ignorePublication_quiet (s.published hi)
    exact ⟨_, exec_hostTimePublish_ignored hl h, hq.hostTime, s.regressed_ignorePublication _, hq.inflight, hq.copies,
      s.regressCount_ignorePublication _, ⟨hq.cis, hq.bkt⟩, hq.mem, hq.pmp, hq.engs, ⟨hq.sess, hq.ses, hq.keepers⟩,
      hq.pending, hq.profile⟩

/-! ## Copies of host time -/

theorem State.setGateStart_quiet (s : State) (i st : Nat) : Quiet s (s.setGateStart i st) :=
  (s.setFld_quiet _ _ _).trans (State.setFld_quiet _ _ _ _)

/-- Gate lists follow host time and leave it as it is. -/
theorem State.gateUpdate_sameTime (s : State) (i n : Nat) : SameTime s (s.gateUpdate i n) := by
  unfold State.gateUpdate
  extract_lets +lift x r pend u go oper
  have hu : Quiet s u := by
    unfold u
    split
    · exact s.setGateStart_quiet _ _
    · exact Quiet.refl s
  have hset (y : Qdr) : SameTime s (u.setQdr i y) := hu.sameTime.trans ⟨rfl, rfl, rfl, rfl, rfl⟩
  clear_value u oper go
  cases oper with
  | none => exact hset _
  | some l =>
    dsimp -zeta only
    extract_lets skip cur w
    have hw : SameTime s w := (hset _).trans (State.bump_quiet _ _ _ _).sameTime
    show SameTime s (if skip > 0 then w.raise (pgQdr i) 1 else w)
    split
    · exact hw.trans (w.raise_quiet _ _).sameTime
    · exact hw

/-- `t` is `s` after block `b` has taken `v` before those in `vs`, its stopwatch standing at `n`. -/
structure State.CopyTaken (s t : State) (b n : Nat) (v : W64) (vs : List W64) : Prop where
  hostTime : t.hostTime = s.hostTime
  inflight : t.inflight = SMap.set s.inflight [] b vs
  copies : t.copies = SMap.set s.copies 0#64 b v
  refHost : (SMap.get t.watches {} b).refHost = v.toNat
  refCount : (SMap.get t.watches {} b).refCount = n

theorem State.CopyTaken.timeAt {s t : State} {b n : Nat} {v : W64} {vs : List W64} (h : s.CopyTaken t b n v vs) (b' : Nat) :
    t.timeAt b' = if b = b' then v else s.timeAt b' := by
  rw [State.timeAt, h.copies, SMap.get_set, State.timeAt]

theorem State.CopyTaken.onTheWay {s t : State} {b n : Nat} {v : W64} {vs : List W64} (h : s.CopyTaken t b n v vs) (b' : Nat) :
    SMap.get t.inflight [] b' = if b = b' then vs else SMap.get s.inflight [] b' := by
  rw [h.inflight, SMap.get_set]

/-- A block that takes the oldest publication on its way keeps what remains in order, and its copy does not fall. -/
theorem State.CopyTaken.timeOrdered {s t : State} {b n : Nat} {v : W64} {vs : List W64} (h : s.CopyTaken t b n v vs)
    (hq : SMap.get s.inflight [] b = v :: vs) (hs : s.timeOrdered) :
    t.timeOrdered ∧ ∀ b', (s.timeAt b').toNat ≤ (t.timeAt b').toNat := by
  have hb := hs b
  rw [hq, risingFrom, lastOf_cons] at hb
  obtain ⟨⟨hle, hrise⟩, hlast⟩ := hb
  refine ⟨fun b' => ?_, fun b' => ?_⟩
  · rw [h.timeAt, h.onTheWay, h.hostTime]
    split
    · exact ⟨hrise, hlast⟩
    · exact hs b'
  · rw [h.timeAt]
    split
    · next heq => exact heq ▸ hle
    · exact Nat.le_refl _

/-- A block's first publication opens its telemetry window (R381). -/
def State.openWindow (s : State) (b v : Nat) : State :=
  match SMap.find s.tel.wins b with
  | some _ => s
  | none => { s with tel := { s.tel with wins := SMap.put s.tel.wins b (s.windowNs, v / s.windowNs) } }

/-- A scheduler's gate lists follow its copy of host time (R375). -/
def State.followCopy (s : State) (b v : Nat) : State := if b ≥ 16 then s.gateUpdate (b - 16) v else s

theorem State.openWindow_eq (s : State) (b v : Nat) : ∃ ws, s.openWindow b v = { s with tel := { s.tel with wins := ws } } := by
  unfold State.openWindow
  split
  · exact ⟨s.tel.wins, rfl⟩
  · exact ⟨_, rfl⟩

theorem State.followCopy_sameTime (s : State) (b v : Nat) : SameTime s (s.followCopy b v) := by
  unfold State.followCopy
  split
  · exact s.gateUpdate_sameTime _ _
  · exact Quiet.sameTime (Quiet.refl s)

/-- A stopwatch that takes a publication refers to it (R44). -/
theorem State.watch_calibrate (s : State) (b host count : Nat) :
    (SMap.get (s.calibrate b host count).watches {} b).refHost = host
      ∧ (SMap.get (s.calibrate b host count).watches {} b).refCount = count := by
  simp only [State.calibrate, SMap.get_set_self, and_self]

theorem execHostTimeCopyUpdate_eq {s : State} {b : Fin 44} {n v : W64} {vs : List W64} (hq : SMap.get s.inflight [] b = v :: vs)
    (hn : (SMap.get s.watches {} b).count ≤ n.toNat) : execHostTimeCopyUpdate b n s
    = .next (((({ s with inflight := SMap.set s.inflight [] b vs, copies := SMap.set s.copies 0#64 b v } : State).calibrate
      b v.toNat n.toNat).openWindow b v.toNat).followCopy b v.toNat) := by
  rw [execHostTimeCopyUpdate, hq]
  exact if_neg (Nat.not_lt.2 hn)

theorem exec_hostTimeCopyUpdate_taken {s : State} {b : Fin 44} {n v : W64} {vs : List W64}
    (hq : SMap.get s.inflight [] b = v :: vs) (hn : (SMap.get s.watches {} b).count ≤ n.toNat) :
    ∃ t, exec (.hostTimeCopyUpdate b n) s = .next t ∧ s.CopyTaken t b n.toNat v vs := by
  refine ⟨_, execHostTimeCopyUpdate_eq hq hn, ?_⟩
  generalize hu : ({ s with inflight := _, copies := _ } : State) = u
  obtain ⟨ws, hws⟩ := (u.calibrate b v.toNat n.toNat).openWindow_eq b v.toNat
  obtain ⟨hh, hi, hc, hw, -⟩ := ((u.calibrate b v.toNat n.toNat).openWindow b v.toNat).followCopy_sameTime b v.toNat
  rw [hws] at hh hi hc hw ⊢
  obtain ⟨hrefHost, hrefCount⟩ := u.watch_calibrate b v.toNat n.toNat
  subst hu
  exact ⟨hh, hi, hc, by rw [hw]; exact hrefHost, by rw [hw]; exact hrefCount⟩

theorem exec_hostTimeCopyUpdate_cases {s t : State} {b : Fin 44} {n : W64} (h : exec (.hostTimeCopyUpdate b n) s = .next t) :
    t = s ∨ ∃ v vs, SMap.get s.inflight [] b = v :: vs ∧ s.CopyTaken t b n.toNat v vs := by
  cases hq : SMap.get s.inflight [] b.val with
  | nil =>
    change execHostTimeCopyUpdate b n s = _ at h
    simp only [execHostTimeCopyUpdate, hq] at h
    cases h; exact Or.inl rfl
  | cons v vs =>
    by_cases hn : (SMap.get s.watches {} b).count ≤ n.toNat
    · obtain ⟨u, hu, hc⟩ := exec_hostTimeCopyUpdate_taken hq hn
      cases hu.symm.trans h
      exact Or.inr ⟨v, vs, rfl, hc⟩
    · change execHostTimeCopyUpdate b n s = _ at h
      simp only [execHostTimeCopyUpdate, hq, if_pos (Nat.not_le.1 hn)] at h
      cases h; exact Or.inl rfl

/-- Settles O12: a publication taken comes after those on their way and is not below the held value; a block takes the oldest. -/
theorem copiesNeverDecrease : Obligations.CopiesNeverDecrease := by
  refine ⟨fun s t hi hs h => ?_, fun s t b n hs h => ?_⟩
  · rcases exec_hostTimePublish_cases h with ⟨hle, rfl⟩ | hq
    · exact State.timeOrdered_takePublication (s.published_lt hi) hle hs
    · exact hq.sameTime.timeOrdered hs
  · rcases exec_hostTimeCopyUpdate_cases h with rfl | ⟨v, vs, hq, hc⟩
    · exact ⟨hs, fun _ => Nat.le_refl _⟩
    · exact hc.timeOrdered hq hs

/-! ## Stale time, windows and spread objects -/

theorem exec_hostTimeStale {s : State} (hlim : s.fld pgTop F.top_HOST_TIME_CFG_STALE_LIMIT_US ≠ 0) (hv : s.timeValid = true)
    (hst : s.flag pgTop F.top_HOST_TIME_STATUS_STALE = false) : exec .hostTimeStale s
    = .next (if s.flag pgTop F.top_HOST_TIME_CFG_STALE_IRQ then (s.setFld pgTop F.top_HOST_TIME_STATUS_STALE 1).irq 0 0
      else s.setFld pgTop F.top_HOST_TIME_STATUS_STALE 1) := by
  have hirq : (s.setFld pgTop F.top_HOST_TIME_STATUS_STALE 1).flag pgTop F.top_HOST_TIME_CFG_STALE_IRQ
      = s.flag pgTop F.top_HOST_TIME_CFG_STALE_IRQ := by
    rw [State.flag, State.fld_setFld_other _ _ _ (by decide) (by decide), State.flag]
  change execHostTimeStale s = _
  simp [execHostTimeStale, hlim, hv, hst, hirq]

theorem State.fld_irq_top (s : State) {fn : Nat} (vec : Nat) (hfn : fn < 256) {f : Fld} (hf : f.off < 4096) :
    (s.irq fn vec).fld pgTop f = s.fld pgTop f := by
  rw [State.fld_eq_get, State.fld_eq_get, State.reg_irq ⟨by decide, by decide, hf⟩ s vec hfn (by decide)]

theorem exec_telemetryWindowClose {s : State} {b : Fin 44} {x : List W16} {w i : Nat} (hb : s.booted = true)
    (hw : SMap.find s.tel.wins b = some (w, i)) (hend : (i + 1) * w ≤ (s.timeAt b).toNat) (hv : s.timeValid = true)
    (hl : s.pageLive (blockPage b) = true) :
    exec (.telemetryWindowClose b x) s = .next (s.closeWindow b w i (fun k => (x.getD k 0#16).toNat)) := by
  change execTelemetryWindowClose b x s = _
  rw [execTelemetryWindowClose, s.gate_booted _ hb]
  simp [hw, Nat.not_lt.2 hend, hv, hl]

theorem exec_slotVersionMigrate {s t : State} {fn : Fin 65} {o : W16} (hb : s.booted = true) (hm : s.migrates fn o.toNat = true)
    (hp : s.placeAgain fn o.toNat = some t) : exec (.slotVersionMigrate fn o) s = .next t := by
  change execSlotVersionMigrate fn o s = _
  rw [execSlotVersionMigrate, s.gate_booted _ hb, if_pos hm, hp, Option.getD_some]

/-- Settles O13, each event by its own equation. -/
theorem timeEventsComplete : Obligations.TimeEventsComplete := by
  refine ⟨fun s b n v vs hq hn => ?_, fun s hlim hv hst => ?_, fun s b x w i hb hw hend hv hl => ?_, fun s t fn o hb hm hp => ?_⟩
  · obtain ⟨t, ht, hc⟩ := exec_hostTimeCopyUpdate_taken hq hn
    exact ⟨t, ht, by rw [hc.timeAt, if_pos rfl], by rw [hc.onTheWay, if_pos rfl], hc.hostTime, hc.refHost, hc.refCount⟩
  · refine ⟨_, exec_hostTimeStale hlim hv hst, ?_, ?_, rfl⟩
    · have hset : (s.setFld pgTop F.top_HOST_TIME_STATUS_STALE 1).fld pgTop F.top_HOST_TIME_STATUS_STALE = 1 :=
        s.fld_setFld_self pgTop (by decide) (by decide)
      split
      · rw [State.flag, State.fld_irq_top _ _ (by decide) (by decide), hset]; rfl
      · rw [State.flag, hset]; rfl
    · exact ((s.setFld_quiet _ _ _).trans (State.irq_if_quiet _ _ 0 0)).hostTime
  · exact exec_telemetryWindowClose hb hw hend hv hl
  · exact exec_slotVersionMigrate hb hm hp

end Sys2Proof.Machine

/-! # Memories, error causes, register accesses and object commands -/

namespace Sys2Proof.Machine
open Sys2Proof

/-! ## Reads after writes -/

/-- Settles O5, from the laws of the columns and of sparse maps. -/
theorem memoryReadAfterWrite : Obligations.MemoryReadAfterWrite := by
  refine ⟨fun s k c h => ⟨s.colsWf_setCol k c h, fun k' => ?_⟩, fun m d v k h => ⟨SMap.wf_set m d k v h, fun k' => ?_⟩⟩
  · rw [s.col_setCol]; simp only [eq_comm]
  · rw [SMap.get_set]; simp only [eq_comm]

/-! ## Error causes -/

/-- Sending a message changes no register. -/
theorem State.reg_emit (s : State) (e : Egress) : (s.emit e).reg = s.reg := State.reg_congr (s.emit_regs e)

/-- An interrupt sets at most the pending bits of an MSI-X page, at 0x800. -/
theorem State.reg_irq_off (s : State) (fn vec : Nat) (pg : Page) (b : Nat) {o : Nat} (ho : o < 4096) (hne : o ≠ 0x800) :
    (s.irq fn vec).reg pg b o = s.reg pg b o := by
  simp only [State.irq]
  split
  · refine s.reg_setReg_of_key_ne _ _ _ _ _ _ _ fun hkey => hne ?_
    simp only [regKey] at hkey
    omega
  · rw [State.reg_emit]

theorem State.reg_errEdge (s : State) (pg pg' : Page) (was : Bool) (b : Nat) {o : Nat} (ho : o < 4096) (hne : o ≠ 0x800) :
    (s.errEdge pg' was).reg pg b o = s.reg pg b o := by
  unfold State.errEdge
  split
  · exact s.reg_irq_off _ _ _ _ ho hne
  · rfl

theorem State.errPending_iff (s : State) (pg : Page) :
    s.errPending pg = true ↔ s.reg pg 0 0x010 &&& ~~~(s.reg pg 0 0x014) ≠ 0#32 := by
  rw [State.errPending, bne_iff_ne]

theorem State.errPending_congr {s t : State} {pg : Page} (h : ∀ o, o < 0x800 → t.reg pg 0 o = s.reg pg 0 o) :
    t.errPending pg = s.errPending pg := by
  rw [State.errPending, State.errPending, h _ (by decide), h _ (by decide)]

theorem State.errPending_errEdge (s : State) (pg : Page) (was : Bool) : (s.errEdge pg was).errPending pg = s.errPending pg :=
  State.errPending_congr fun _ ho => s.reg_errEdge _ _ _ _ (Nat.lt_trans ho (by decide)) (Nat.ne_of_lt ho)

/-- The interrupt enable stands in CTRL, and a write of another register leaves it. -/
theorem State.errIrqEn_setReg (s : State) (pg : Page) {o : Nat} (v : W32) (ho : o ≠ 0x008) :
    (s.setReg pg 0 o v).flag pg F.hdr_ERR_IRQ_EN = s.flag pg F.hdr_ERR_IRQ_EN := by
  rw [State.flag, State.flag, State.fld_eq_get, State.fld_eq_get, s.reg_setReg_of_key_ne]
  exact fun hkey => ho (Nat.add_left_cancel hkey)

/-- No interrupt where the error is pending already, or is not pending. -/
theorem State.errEdge_none {s : State} {pg : Page} {was : Bool} (h : was = true ∨ s.errPending pg = false) : s.errEdge pg was = s := by
  rcases h with h | h <;> simp [State.errEdge, h]

/-- The interrupt where the error becomes pending. -/
theorem State.errEdge_irq {s : State} {pg : Page} {was : Bool} (hw : was = false) (hp : s.errPending pg = true)
    (he : s.flag pg F.hdr_ERR_IRQ_EN = true) : s.errEdge pg was = s.irq (errVector pg).1 (errVector pg).2 := by
  simp [State.errEdge, hw, hp, he]

/-- A write of ERR_STATUS, whose causes a 1 clears, or of ERR_MASK. -/
theorem State.writeWord_err (s : State) {pg : Page} {o : Nat} (w : W32) (hm : pg.kind ≠ .msix) (ho : o = 0x010 ∨ o = 0x014) :
    s.writeWord pg o w = (s.setReg pg 0 o (if o = 0x010 then s.reg pg 0 0x010 &&& ~~~w else w)).errEdge pg (s.errPending pg) := by
  rcases ho with rfl | rfl <;> simp [State.writeWord, State.writeHeader, hm]

/-- Settles O18: an error edge raises the interrupt, and nothing else does. -/
theorem causesSetErrStatus : Obligations.CausesSetErrStatus := by
  intro s pg c _ hm _
  have hq := s.raise_quiet pg c
  refine ⟨s.errPending_iff pg, ?_, fun hp => ?_, fun hw hp he => ?_, fun o w ho => ⟨fun h => ?_, fun hw hp he => ?_⟩,
    ⟨hq.cis, hq.bkt⟩, hq.mem, hq.pmp, hq.engs, hq.link, ⟨hq.sess, hq.ses, hq.keepers⟩, ⟨hq.boot, hq.d3hot⟩, hq.sameTime,
    hq.pending, hq.profile⟩
  · rw [State.raise, State.reg_errEdge _ _ _ _ _ (by decide) (by decide), State.reg_setReg_self]
  · rw [State.raise, State.errEdge_none (Or.inl hp)]; rfl
  · rw [State.raise, State.errPending_errEdge] at hp
    rw [State.raise, State.errEdge_irq hw hp]
    rw [s.errIrqEn_setReg pg _ (by decide), he]
  · rw [s.writeWord_err w hm ho, State.errEdge_none h]
  · rw [s.writeWord_err w hm ho, State.errEdge_irq hw hp]
    rw [s.errIrqEn_setReg pg _ (by omega), he]

/-! ## Register accesses -/

theorem exec_registerWrite {s : State} {fn : Fin 66} {off : W32} {data : List Byte} (hr : s.reaches fn off.toNat = true)
    (hd : data.isEmpty = false) (hw : wordsOk off.toNat data.length = true) :
    exec (.registerWrite fn off data) s = .next ((List.range (data.length / 4)).foldl (fun s k =>
      s.busWrite fn (off.toNat + 4 * k) (BitVec.ofNat 32 (leAt data (4 * k) 4))) s) := by
  change execRegisterWrite fn off data s = _
  simp only [execRegisterWrite, hr, hd, hw, Bool.not_true, Bool.or_self, Bool.false_eq_true, if_false]

theorem State.regRead_readOk (s : State) (fn : Fin 66) {o len : Nat} (h : readOk o len = true) :
    s.regRead fn o len = (s.readWords fn (o / 4 * 4) ((o % 4 + len + 3) / 4)).2.emit
      (.regData fn (slice (s.readWords fn (o / 4 * 4) ((o % 4 + len + 3) / 4)).1 (o % 4) len)) := by
  simp only [State.regRead, h, if_true]

theorem exec_registerReadClear {s : State} {fn : Fin 66} {off : W32} {len : Fin 4097} (hr : s.reaches fn off.toNat = true)
    (hl : len.val ≠ 0) : exec (.registerReadClear fn off len) s = .next (s.regRead fn off.toNat len) := by
  change execRegisterReadClear fn off len s = _
  simp [execRegisterReadClear, hr, hl]

theorem exec_pairLoRead {s : State} {fn : Fin 66} {off : W32} {pg : Page} (hp : pageAtSlot fn (off.toNat / 4096) = some pg)
    (hr : s.reaches fn off.toNat = true) (ha : off.toNat % 4 = 0) (hl : pg.isLow (off.toNat % 4096) = true) :
    exec (.pairLoRead fn off) s = .next (s.regRead fn off.toNat 4) := by
  change execPairLoRead fn off s = _
  simp [execPairLoRead, hp, hr, ha, hl]

/-- No register is the low one of a pair and the high one of another, and none of a pair is the keeper's data window. -/
theorem pairLows_apart (k : PageKind) : ∀ o ∈ pairLows k, o + 4 ∉ pairLows k ∧ o - 4 ∉ pairLows k ∧ (k = .kpr → o ≠ 0x088) := by
  cases k <;> decide

theorem Page.mem_pairLows {pg : Page} {o : Nat} (h : pg.isLow o = true) : o ∈ pairLows pg.kind := by
  simp only [Page.isLow, Bool.and_eq_true, List.contains_iff_mem] at h
  exact h.1

theorem Page.isHigh_eq_false {pg : Page} {o : Nat} (h : pg.isLow o = true) : pg.isHigh o = false := by
  obtain ⟨-, hne, -⟩ := pairLows_apart pg.kind o (Page.mem_pairLows h)
  simp [Page.isHigh, Page.isLow, hne]

theorem Page.isLow_add_eq_false {pg : Page} {o : Nat} (h : pg.isLow o = true) : pg.isLow (o + 4) = false := by
  obtain ⟨hne, -⟩ := pairLows_apart pg.kind o (Page.mem_pairLows h)
  simp [Page.isLow, hne]

theorem Page.isHigh_add {pg : Page} {o : Nat} (h : pg.isLow o = true) : pg.isHigh (o + 4) = true := by
  simp [Page.isHigh, h]

/-- A read of a low register loads the pair's latch (R66). -/
theorem State.latch_readWord {s : State} {pg : Page} {o : Nat} (hl : pg.isLow o = true) (hp : s.pageLive pg = true) :
    SMap.get (s.readWord pg o).2.latch (resetWord pg 0 (o + 4)) (regKey pg 0 o) = s.peek pg (o + 4) := by
  obtain ⟨-, -, hk⟩ := pairLows_apart pg.kind o (Page.mem_pairLows hl)
  have hwin : ¬(pg.kind = .kpr ∧ o = 0x088) := fun ⟨h, ho⟩ => hk h ho
  have hget := SMap.get_set_self s.latch (resetWord pg 0 (o + 4)) (regKey pg 0 o) (s.peek pg (o + 4))
  simp only [State.readWord, Page.isHigh_eq_false hl, hl, hp, and_true, if_neg hwin, Bool.false_and, Bool.false_eq_true, if_false,
    Bool.and_self, if_true]
  repeat' split
  all_goals exact hget

/-- Settles O15: each access by its own equation, and the latch by the read of the low register. -/
theorem registerAccessCompletes : Obligations.RegisterAccessCompletes := by
  refine ⟨fun s fn off data hr hd hw => exec_registerWrite hr hd hw, fun s fn off len hr hl hok => ?_,
    fun s fn off pg hp hr ha hl hlive => ?_⟩
  · rw [exec_registerReadClear hr hl, s.regRead_readOk fn hok]
  · refine ⟨_, exec_pairLoRead hp hr ha hl, ?_⟩
    have hok : readOk off.toNat 4 = true := by simp [readOk, wordsOk, ha]
    rw [s.regRead_readOk fn hok, (State.emit_quiet _ _).latch]
    have h4 : off.toNat / 4 * 4 = off.toNat := by omega
    simp only [ha, h4, State.readWords, State.busRead, hp]
    exact State.latch_readWord hl hlive

/-! ## Pairs -/

/-- A write that reaches the block registers of a page, and is neither a command of its own nor ignored. -/
structure State.PlainWrite (s : State) (pg : Page) (off : Nat) (w : W32) : Prop where
  live : s.pageLive pg = true
  isReg : (pg.regAt off).isSome = true
  block : 0x040 ≤ off
  noMsix : pg.kind ≠ .msix
  noDir : pg.kind ≠ .dir
  noRow : s.rowWrite pg off w.toNat = none
  selected : s.unselected pg off = false
  taken : s.writeIgnored pg off w.toNat = false

theorem State.PlainWrite.writeWord_low {s : State} {pg : Page} {off : Nat} {w : W32} (h : s.PlainWrite pg off w) (hl : pg.isLow off = true) :
    s.writeWord pg off w = { s with stage := SMap.set s.stage (resetWord pg 0 off) (regKey pg 0 off) w } := by
  obtain ⟨hlive, hreg, hblock, hm, hd, hrow, hsel, htak⟩ := h
  simp [State.writeWord, hm, hd, hlive, hrow, hsel, htak, hl, Nat.not_lt.2 hblock, Option.isNone_eq_false_iff.2 hreg]

theorem State.PlainWrite.writeWord_high {s : State} {pg : Page} {off : Nat} {w : W32} (h : s.PlainWrite pg off w)
    (hl : pg.isLow off = false) (hh : pg.isHigh off = true) :
    s.writeWord pg off w = (s.commitPair pg off w.toNat).afterWrite pg off := by
  obtain ⟨hlive, hreg, hblock, hm, hd, hrow, hsel, htak⟩ := h
  simp [State.writeWord, hm, hd, hlive, hrow, hsel, htak, hl, hh, Nat.not_lt.2 hblock, Option.isNone_eq_false_iff.2 hreg]

/-- Settles O16: the low half is staged alone, and the high half is a high register of the same pair. -/
theorem pairsCommitOnHigh : Obligations.PairsCommitOnHigh := by
  intro s pg off w hl hlive hreg hblock hm hd hrow hsel htak
  rw [State.PlainWrite.writeWord_low ⟨hlive, hreg, hblock, hm, hd, hrow, hsel, htak⟩ hl]
  refine ⟨congrArg BitVec.toNat (SMap.get_set_self _ _ _ _), rfl, fun v hreg' hrow' hsel' htak' => ?_⟩
  have hw : s.PlainWrite pg (off + 4) v := ⟨hlive, hreg', by omega, hm, hd, hrow', hsel', htak'⟩
  rw [hw.writeWord_high (Page.isLow_add_eq_false hl) (Page.isHigh_add hl)]
  rfl

/-! ## Object registers -/

theorem State.setObjReg_quiet (s : State) (fn : Nat) (f : Fld) (v : Nat) : Quiet s (s.setObjReg fn f v) := s.setFld_quiet _ _ _

theorem State.objAnswer_quiet (s : State) (fn res o : Nat) (busy : Bool) : Quiet s (s.objAnswer fn res o busy) :=
  ((s.setObjReg_quiet _ _ _).trans (State.setObjReg_quiet _ _ _ _)).trans (State.setObjReg_quiet _ _ _ _)

theorem objFld_msb (fn : Nat) (f : Fld) : (objFld fn f).msb = f.msb := by unfold objFld; split <;> rfl

theorem objFld_lsb (fn : Nat) (f : Fld) : (objFld fn f).lsb = f.lsb := by unfold objFld; split <;> rfl

theorem objFld_off (fn : Nat) (f : Fld) : (objFld fn f).off = f.off + if fn = 0 then 0xC0 else 0 := by unfold objFld; split <;> rfl

/-- An object register's field set reads as set. -/
theorem State.objReg_setObjReg_self (s : State) (fn : Nat) {f : Fld} {v : Nat} (hf : f.msb < 32) (hv : v < 2 ^ (f.msb + 1 - f.lsb)) :
    (s.setObjReg fn f v).objReg fn f = v :=
  s.fld_setFld_self _ (by rwa [objFld_msb]) (by rwa [objFld_msb, objFld_lsb])

/-- It leaves the fields apart from it. -/
theorem State.objReg_setObjReg_apart (s : State) (fn : Nat) {f g : Fld} (v : Nat) (hg : g.msb < 32) (h : f.Apart g) :
    (s.setObjReg fn f v).objReg fn g = s.objReg fn g :=
  s.fld_setFld_other _ v (by rwa [objFld_msb]) fun _ => by simpa only [Fld.Apart, objFld_msb, objFld_lsb] using h

/-- An answer reports its result. -/
theorem State.objAnswer_result (s : State) (fn o : Nat) (busy : Bool) {res : Nat} (hr : res < 16) :
    (s.objAnswer fn res o busy).objReg fn F.tnt4_OBJ_STATUS_RESULT = res := by
  rw [State.objAnswer, State.objReg_setObjReg_apart _ _ _ (by decide) (by decide), State.objReg_setObjReg_apart _ _ _ (by decide) (by decide),
    State.objReg_setObjReg_self _ _ (by decide) hr]

/-- An answer names its object. -/
theorem State.objAnswer_obj (s : State) (fn res : Nat) (busy : Bool) {o : Nat} (ho : o < 65536) :
    (s.objAnswer fn res o busy).objReg fn F.tnt4_OBJ_STATUS_OBJ = o := by
  rw [State.objAnswer, State.objReg_setObjReg_apart _ _ _ (by decide) (by decide), State.objReg_setObjReg_self _ _ (by decide) ho]

/-- An answer sets no register but OBJ_STATUS. -/
theorem State.reg_objAnswer (s : State) (fn res obj : Nat) (busy : Bool) {o : Nat} (ho : o ≠ (objFld fn F.tnt4_OBJ_STATUS_BUSY).off) :
    (s.objAnswer fn res obj busy).reg (objPage fn) 0 o = s.reg (objPage fn) 0 o := by
  have hset (u : State) (f : Fld) (v : Nat) (hf : f.off = F.tnt4_OBJ_STATUS_BUSY.off) :
      (u.setObjReg fn f v).reg (objPage fn) 0 o = u.reg (objPage fn) 0 o := by
    refine u.reg_setReg_of_key_ne _ _ _ _ _ _ _ fun hkey => ho ?_
    rw [objFld_off, ← hf, ← objFld_off]
    exact (Nat.add_left_cancel hkey).symm
  rw [State.objAnswer, hset _ F.tnt4_OBJ_STATUS_BUSY _ rfl, hset _ F.tnt4_OBJ_STATUS_OBJ _ rfl, hset _ F.tnt4_OBJ_STATUS_RESULT _ rfl]

/-! ## Object commands -/

/-- A command that is not held off by an earlier one answers (R171). -/
theorem State.objCommand_answers {s : State} {fn : Nat} (body : State → State × Nat × Nat × Bool) (hl : s.pageLive (objPage fn) = true)
    (hb : s.objReg fn F.tnt4_OBJ_STATUS_BUSY ≠ 1) :
    s.objCommand fn body = (body s).1.objAnswer fn (body s).2.1 (body s).2.2.1 (body s).2.2.2 := by
  rw [State.objCommand, State.regWrite, if_pos hl, if_neg hb]

/-- While an earlier command is BUSY a command is dropped (R171). -/
theorem State.objCommand_dropped {s : State} {fn : Nat} (body : State → State × Nat × Nat × Bool) (hl : s.pageLive (objPage fn) = true)
    (hb : s.objReg fn F.tnt4_OBJ_STATUS_BUSY = 1) : s.objCommand fn body = s.setObjReg fn F.tnt4_OBJ_STATUS_DROPPED 1 := by
  rw [State.objCommand, State.regWrite, if_pos hl, if_pos hb]

theorem Obj.live_cases {x : Obj} (h : x.live = true) : x.st = .ready ∨ (x.st = .migrating ∧ x.releaseWaits = false) := by
  simpa [Obj.live] using h

theorem Obj.live_of_free {x : Obj} (h : x.st = .free) : x.live = false := by simp [Obj.live, h]

/-- A released object waits to be freed, and its moves that have not begun are dropped (R168). -/
def State.releaseObj (s : State) (fn o : Nat) : State :=
  ({ s with mem := { s.mem with moves := s.mem.moves.filter (fun m => !(m.fn == fn && m.obj == o && !m.active)) } } : State).setObj fn o
    { s.obj fn o with st := .releasing }

theorem State.sameMemory_releaseObj (s : State) (fn o : Nat) : SameMemory s (s.releaseObj fn o) := by
  intro sp a; cases sp <;> rfl

/-- The registers that show an object table entry (R79). -/
def State.showEntry (s : State) (fn : Nat) (e : List Byte) : State :=
  (List.range 8).foldl (fun s k =>
    s.setReg (objPage fn) 0 ((objFld fn F.tnt4_OBJ_QUERY_ENTRY).off + 4 * k) (BitVec.ofNat 32 (leAt e (4 * k) 4))) s

theorem State.foldl_setReg_quiet (pg : Page) (o : Nat → Nat) (v : Nat → W32) (l : List Nat) (s : State) :
    Quiet s (l.foldl (fun s k => s.setReg pg 0 (o k) (v k)) s) := by
  induction l generalizing s with
  | nil => exact Quiet.refl s
  | cons k l ih => exact (s.setReg_quiet _ _ _ _).trans (ih _)

/-- Registers at different offsets, set in turn, read as set. -/
theorem State.reg_foldl_setReg (pg : Page) {o : Nat → Nat} (ho : Function.Injective o) (v : Nat → W32) {l : List Nat} (hl : l.Nodup)
    (s : State) (k : Nat) : (l.foldl (fun s k => s.setReg pg 0 (o k) (v k)) s).reg pg 0 (o k) = if k ∈ l then v k else s.reg pg 0 (o k) := by
  induction l generalizing s with
  | nil => rfl
  | cons i l ih =>
    obtain ⟨hi, hl⟩ := List.nodup_cons.1 hl
    rw [List.foldl_cons, ih hl]
    by_cases hik : k = i
    · subst hik; rw [if_neg hi, if_pos List.mem_cons_self, State.reg_setReg_self]
    · rw [s.reg_setReg_of_key_ne _ _ _ _ _ _ _ fun hkey => hik (ho (Nat.add_left_cancel hkey)).symm]
      simp [hik]

theorem State.reg_showEntry (s : State) (fn : Nat) (e : List Byte) {k : Nat} (hk : k < 8) :
    (s.showEntry fn e).reg (objPage fn) 0 ((objFld fn F.tnt4_OBJ_QUERY_ENTRY).off + 4 * k) = BitVec.ofNat 32 (leAt e (4 * k) 4) := by
  have hinj : Function.Injective fun k => (objFld fn F.tnt4_OBJ_QUERY_ENTRY).off + 4 * k := fun a b h => by simpa using h
  rw [State.showEntry, State.reg_foldl_setReg _ hinj _ List.nodup_range, if_pos (List.mem_range.2 hk)]

section
variable {s : State} {fn : Fin 65} {obj : W16} (hl : s.pageLive (objPage fn) = true)
include hl

/-- While an earlier command is BUSY, every object command is dropped. -/
theorem exec_object_of_busy (hb : s.objReg fn F.tnt4_OBJ_STATUS_BUSY = 1) (tier : Fin 4) :
    ∀ c ∈ [Instr.objCreate fn obj, .objRelease fn obj, .objPin fn obj true, .objPin fn obj false, .objUnpin fn obj, .objPromote fn obj,
      .objDemote fn obj tier, .objSetPref fn obj tier, .objQuery fn obj],
    exec c s = .next (s.setObjReg fn F.tnt4_OBJ_STATUS_DROPPED 1) := by
  simp only [List.forall_mem_cons, List.not_mem_nil, false_imp_iff, implies_true, and_true]
  have h (body : State → State × Nat × Nat × Bool) :
      (.next (s.objCommand fn body) : Out) = .next (s.setObjReg fn F.tnt4_OBJ_STATUS_DROPPED 1) :=
    congrArg _ (State.objCommand_dropped body hl hb)
  exact ⟨h _, h _, h _, h _, h _, h _, h _, h _, h _⟩

variable (hb : s.objReg fn F.tnt4_OBJ_STATUS_BUSY ≠ 1)
include hb

theorem exec_objCreate : exec (.objCreate fn obj) s = .next ((s.createObj fn obj.toNat).1.objAnswer fn (s.createObj fn obj.toNat).2.1
    (s.createObj fn obj.toNat).2.2.1 (s.createObj fn obj.toNat).2.2.2) :=
  congrArg _ (State.objCommand_answers _ hl hb)

theorem exec_objRelease (hr : (s.obj fn obj.toNat).st = .ready) (hw : (s.obj fn obj.toNat).releaseWaits = false)
    (hp : (s.obj fn obj.toNat).pins = 0) :
    exec (.objRelease fn obj) s = .next ((s.releaseObj fn obj.toNat).objAnswer fn resOk obj.toNat false) := by
  change execObjRelease fn obj s = _
  rw [execObjRelease, State.objCommand_answers _ hl hb]
  simp only [hr, hw, hp, reduceCtorEq, Bool.false_eq_true, or_self, if_false, gt_iff_lt, Nat.lt_irrefl, State.releaseObj]

theorem exec_objRelease_of_pinned (hx : (s.obj fn obj.toNat).live = true) (hp : (s.obj fn obj.toNat).pins ≠ 0) :
    exec (.objRelease fn obj) s = .next (if (s.obj fn obj.toNat).releaseWaits then s.objAnswer fn resState obj.toNat false
      else s.objAnswer fn resPinned obj.toNat false) := by
  change execObjRelease fn obj s = _
  rw [execObjRelease, State.objCommand_answers _ hl hb]
  rcases Obj.live_cases hx with hr | ⟨hm, hw⟩
  · by_cases hw : (s.obj fn obj.toNat).releaseWaits = true
    · simp [hr, hw]
    · simp [hr, hw, Nat.pos_of_ne_zero hp]
  · simp [hm, hw, Nat.pos_of_ne_zero hp]

theorem exec_objPin (promote : Bool) (hx : (s.obj fn obj.toNat).live = true) (hp : (s.obj fn obj.toNat).pinCount < 0xFFFF) :
    let s1 := s.setObj fn obj.toNat { s.obj fn obj.toNat with pins := (s.obj fn obj.toNat).pins + 1 }
    exec (.objPin fn obj promote) s
      = .next ((if promote then s1.promoteAll fn obj.toNat else s1).objAnswer fn resOk obj.toNat false) := by
  change execObjPin fn obj promote s = _
  rw [execObjPin, State.objCommand_answers _ hl hb]
  simp [hx, Nat.not_le.2 hp]

theorem exec_objUnpin (hx : (s.obj fn obj.toNat).live = true) (hp : (s.obj fn obj.toNat).pins ≠ 0) :
    exec (.objUnpin fn obj) s = .next ((s.setObj fn obj.toNat
      { s.obj fn obj.toNat with pins := (s.obj fn obj.toNat).pins - 1 }).objAnswer fn resOk obj.toNat false) := by
  change execObjUnpin fn obj s = _
  rw [execObjUnpin, State.objCommand_answers _ hl hb]
  simp [hx, hp]

theorem exec_objPromote (hx : (s.obj fn obj.toNat).live = true) :
    exec (.objPromote fn obj) s = .next ((s.promoteAll fn obj.toNat).objAnswer fn resOk obj.toNat false) := by
  change execObjPromote fn obj s = _
  rw [execObjPromote, State.objCommand_answers _ hl hb]
  simp [hx]

theorem exec_objDemote {tier : Fin 4} (hx : (s.obj fn obj.toNat).live = true) (ht : tier.val = 1 ∨ tier.val = 2)
    (hlay : (s.obj fn obj.toNat).layout ≠ 2) :
    exec (.objDemote fn obj tier) s = .next (if (s.obj fn obj.toNat).pins = 0
      then ((s.demoteAll fn obj.toNat tier).startMove fn obj.toNat).objAnswer fn resOk obj.toNat false
      else s.objAnswer fn resPinned obj.toNat false) := by
  have h0 : tier.val ≠ 0 := by omega
  have h3 : tier.val ≠ 3 := by omega
  change execObjDemote fn obj tier s = _
  rw [execObjDemote, State.objCommand_answers _ hl hb]
  by_cases hp : (s.obj fn obj.toNat).pins = 0
  · simp [hx, h0, h3, hlay, hp]
  · simp [hx, h0, h3, hlay, hp, Nat.pos_of_ne_zero hp]

theorem exec_objSetPref {tier : Fin 4} (hx : (s.obj fn obj.toNat).live = true) (ht : tier.val ≠ 3)
    (hbad : prefBad (s.obj fn obj.toNat).layout tier = false) :
    exec (.objSetPref fn obj tier) s
      = .next ((s.setObj fn obj.toNat { s.obj fn obj.toNat with pref := tier }).objAnswer fn resOk obj.toNat false) := by
  change execObjSetPref fn obj tier s = _
  rw [execObjSetPref, State.objCommand_answers _ hl hb]
  simp [hx, ht, hbad]

theorem exec_objQuery (ho : obj.toNat ≠ 0) :
    exec (.objQuery fn obj) s
      = .next ((s.showEntry fn (s.objEntry fn obj.toNat)).objAnswer fn resOk obj.toNat false) := by
  change execObjQuery fn obj s = _
  rw [execObjQuery, State.objCommand_answers _ hl hb]
  simp only [if_neg ho, State.showEntry]

/-- An object that does not exist takes none of the commands that want one. -/
theorem exec_object_of_free (hf : (s.obj fn obj.toNat).st = .free) :
    ∀ c ∈ [Instr.objRelease fn obj, .objPin fn obj true, .objUnpin fn obj, .objPromote fn obj],
    exec c s = .next (s.objAnswer fn resState obj.toNat false) := by
  simp only [List.forall_mem_cons, List.not_mem_nil, false_imp_iff, implies_true, and_true]
  have hx := Obj.live_of_free hf
  have h (body : State → State × Nat × Nat × Bool) (hbody : body s = (s, resState, obj.toNat, false)) :
      (.next (s.objCommand fn body) : Out) = .next (s.objAnswer fn resState obj.toNat false) := by
    rw [State.objCommand_answers body hl hb, hbody]
  exact ⟨h _ (by simp [hf]), h _ (by simp [hx]), h _ (by simp [hf, hx]), h _ (by simp [hx])⟩

end

/-- Settles O31: each command by its own equation, and what an answer shows. -/
theorem objectCommandsComplete : Obligations.ObjectCommandsComplete := by
  intro s fn obj hl o x
  refine ⟨fun hb => ⟨exec_objCreate hl hb, fun hr hw hp => ?_, fun hx hp => ⟨exec_objPin hl hb false hx hp, exec_objPin hl hb true hx hp⟩,
    fun hx hp => ⟨exec_objUnpin hl hb hx hp, exec_objRelease_of_pinned hl hb hx hp⟩, exec_objPromote hl hb,
    fun tier hx ht hlay => exec_objDemote hl hb hx ht hlay, fun tier hx ht hbad => exec_objSetPref hl hb hx ht hbad, fun ho => ?_,
    exec_object_of_free hl hb⟩, exec_object_of_busy hl⟩
  · have hq := (s.releaseObj fn o).objAnswer_quiet fn resOk o false
    refine ⟨_, exec_objRelease hl hb hr hw hp, ?_, State.objAnswer_result _ _ _ _ (by decide), State.objAnswer_obj _ _ _ _ obj.isLt,
      fun k hk => ?_, (s.sameMemory_releaseObj fn o).trans hq.sameMemory, ⟨hq.cis, hq.bkt⟩, hq.pmp, hq.engs, ⟨hq.sess, hq.ses, hq.keepers⟩⟩
    · rw [State.obj, hq.mem]
      exact congrArg Obj.st (State.obj_setObj_self _ _ _ _)
    · rw [hq.mem]
      exact SMap.get_set_ne s.mem.objs {} { s.obj fn o with st := .releasing } (Ne.symm hk)
  · refine ⟨_, exec_objQuery hl hb ho, State.objAnswer_result _ _ _ _ (by decide), ?_, fun k hk => ?_⟩
    · exact ((State.foldl_setReg_quiet _ _ _ _ s).trans (State.objAnswer_quiet _ _ _ _ _)).mem
    · rw [State.reg_objAnswer, State.reg_showEntry _ _ _ hk]
      rw [objFld_off, objFld_off]
      simp only [F.tnt4_OBJ_QUERY_ENTRY, F.tnt4_OBJ_STATUS_BUSY]
      omega

end Sys2Proof.Machine

/-! # The memories stay canonical

Every operation of the model that leads from a state to a state keeps the canonical form of the memories: one lemma for each, in
the order of the model's files, named `State.Canon.` and the operation's name, so that the proof of an operation follows its
definition and cites the lemmas of the operations that it calls. -/

namespace Sys2Proof.Machine
open Sys2Proof

/-! ## The canonical form -/

/-- Every memory of the state is in its canonical form. -/
def State.Canon (s : State) : Prop := s.memoryWf = true

/-- The outcome is no state, or one whose memories are in canonical form. -/
def Out.Canon : Out → Prop
  | .next t => t.Canon
  | _ => True

/-- There is no state, or one whose memories are in canonical form. -/
def CanonOpt : Option State → Prop
  | some t => t.Canon
  | none => True

/-- The state that a reservation leaves has its memories in canonical form. -/
def Reserve.Canon : Reserve → Prop
  | .ok t | .wait t | .limit t => t.Canon

theorem State.colsWf_congr {s t : State} (hc : t.cis.cols = s.cis.cols) (hf : t.cis.fills = s.cis.fills) : t.colsWf = s.colsWf := by
  have h : t.colDefault = s.colDefault := by funext k; simp only [State.colDefault, hf]
  simp only [State.colsWf, hc, h]

theorem SMap.wf_dropBlock {α : Type} [DecidableEq α] {d : α} {m : SMap α} (h : SMap.wf d m = true) {n u : Nat} :
    SMap.wf d (m.keep fun b => !(b / n == u)) = true :=
  SMap.wf_keep _ _ _ h

namespace State.Canon

section
variable {s : State} (h : s.Canon)
include h

/-- What leaves every memory as it is keeps the canonical form. Over a computed state the equation is proved with
`by with_reducible rfl`, which compares the memories and evaluates nothing. -/
theorem same {t : State}
    (e : (t.cis.cols, t.cis.fills, t.mem.well, t.mem.sump, t.mem.goldBytes, t.bkt.query, t.bkt.record, t.bkt.ring, t.pmp.store)
      = (s.cis.cols, s.cis.fills, s.mem.well, s.mem.sump, s.mem.goldBytes, s.bkt.query, s.bkt.record, s.bkt.ring, s.pmp.store)) :
    t.Canon := by
  simp only [Prod.mk.injEq] at e
  obtain ⟨hc, hf, hw, hs, hg, hq, hr, hn, hp⟩ := e
  exact (State.memoryWf_congr hc hf hw hs hg hq hr hn hp).trans h

/-! The parts of the form. -/

theorem cols : s.colsWf = true := ((State.memoryWf_iff s).1 h).1
theorem wellWf : SMap.wf 0#8 s.mem.well = true := ((State.memoryWf_iff s).1 h).2.1
theorem sumpWf : SMap.wf 0#8 s.mem.sump = true := ((State.memoryWf_iff s).1 h).2.2.1
theorem goldBytesWf : SMap.wf 0#8 s.mem.goldBytes = true := ((State.memoryWf_iff s).1 h).2.2.2.1
theorem queryWf : SMap.wf 0#8 s.bkt.query = true := ((State.memoryWf_iff s).1 h).2.2.2.2.1
theorem recordWf : SMap.wf 0#8 s.bkt.record = true := ((State.memoryWf_iff s).1 h).2.2.2.2.2.1
theorem ringWf : SMap.wf 0#8 s.bkt.ring = true := ((State.memoryWf_iff s).1 h).2.2.2.2.2.2.1
theorem storeWf : SMap.wf 0#8 s.pmp.store = true := ((State.memoryWf_iff s).1 h).2.2.2.2.2.2.2

/-! ### Writes to one block -/

theorem ofMem {t : State} (hw : SMap.wf 0#8 t.mem.well = true) (hs : SMap.wf 0#8 t.mem.sump = true)
    (hg : SMap.wf 0#8 t.mem.goldBytes = true)
    (e : (t.cis.cols, t.cis.fills, t.bkt.query, t.bkt.record, t.bkt.ring, t.pmp.store)
      = (s.cis.cols, s.cis.fills, s.bkt.query, s.bkt.record, s.bkt.ring, s.pmp.store)) : t.Canon := by
  simp only [Prod.mk.injEq] at e
  obtain ⟨hc, hf, hq, hr, hn, hp⟩ := e
  refine (State.memoryWf_iff t).2 ⟨?_, hw, hs, hg, hq ▸ h.queryWf, hr ▸ h.recordWf, hn ▸ h.ringWf, hp ▸ h.storeWf⟩
  exact (State.colsWf_congr hc hf).trans h.cols

theorem ofBkt {t : State} (hq : SMap.wf 0#8 t.bkt.query = true) (hr : SMap.wf 0#8 t.bkt.record = true)
    (hn : SMap.wf 0#8 t.bkt.ring = true)
    (e : (t.cis.cols, t.cis.fills, t.mem.well, t.mem.sump, t.mem.goldBytes, t.pmp.store)
      = (s.cis.cols, s.cis.fills, s.mem.well, s.mem.sump, s.mem.goldBytes, s.pmp.store)) : t.Canon := by
  simp only [Prod.mk.injEq] at e
  obtain ⟨hc, hf, hw, hs, hg, hp⟩ := e
  refine (State.memoryWf_iff t).2 ⟨?_, hw ▸ h.wellWf, hs ▸ h.sumpWf, hg ▸ h.goldBytesWf, hq, hr, hn, hp ▸ h.storeWf⟩
  exact (State.colsWf_congr hc hf).trans h.cols

theorem ofStore {t : State} (hp : SMap.wf 0#8 t.pmp.store = true)
    (e : (t.cis.cols, t.cis.fills, t.mem.well, t.mem.sump, t.mem.goldBytes, t.bkt.query, t.bkt.record, t.bkt.ring)
      = (s.cis.cols, s.cis.fills, s.mem.well, s.mem.sump, s.mem.goldBytes, s.bkt.query, s.bkt.record, s.bkt.ring)) : t.Canon := by
  simp only [Prod.mk.injEq] at e
  obtain ⟨hc, hf, hw, hs, hg, hq, hr, hn⟩ := e
  refine (State.memoryWf_iff t).2
    ⟨?_, hw ▸ h.wellWf, hs ▸ h.sumpWf, hg ▸ h.goldBytesWf, hq ▸ h.queryWf, hr ▸ h.recordWf, hn ▸ h.ringWf, hp⟩
  exact (State.colsWf_congr hc hf).trans h.cols

theorem ofCols {t : State} (hc : t.colsWf = true)
    (e : (t.mem.well, t.mem.sump, t.mem.goldBytes, t.bkt.query, t.bkt.record, t.bkt.ring, t.pmp.store)
      = (s.mem.well, s.mem.sump, s.mem.goldBytes, s.bkt.query, s.bkt.record, s.bkt.ring, s.pmp.store)) : t.Canon := by
  simp only [Prod.mk.injEq] at e
  obtain ⟨hw, hs, hg, hq, hr, hn, hp⟩ := e
  exact (State.memoryWf_iff t).2
    ⟨hc, hw ▸ h.wellWf, hs ▸ h.sumpWf, hg ▸ h.goldBytesWf, hq ▸ h.queryWf, hr ▸ h.recordWf, hn ▸ h.ringWf, hp ▸ h.storeWf⟩

/-! An update of a state that is itself computed: the base stays a variable here, so that nothing evaluates it. -/

theorem setFrames {m : SMap Frame} : ({ s with mem := { s.mem with frames := m } } : State).Canon := h.same rfl

theorem setRefetch {m : SMap Nat} : ({ s with mem := { s.mem with refetch := m } } : State).Canon := h.same rfl

theorem setObjs {m : SMap Obj} : ({ s with mem := { s.mem with objs := m } } : State).Canon := h.same rfl

theorem setWeightPend {l : List Nat} : ({ s with cis := { s.cis with weightPend := l } } : State).Canon := h.same rfl

theorem setSumpUse {m : SMap Nat} : ({ s with mem := { s.mem with sumpUse := m } } : State).Canon := h.same rfl

theorem eraseFrame {m : SMap Frame} {w : SMap Nat} {f : Nat} :
    ({ s with mem := { s.mem with frames := m, well := SMap.keep s.mem.well (fun b => !(b / 65536 == f)), wellBad := w } } : State).Canon :=
  h.ofMem (SMap.wf_dropBlock h.wellWf) h.sumpWf h.goldBytesWf rfl

theorem setGoldBytes {k : Nat} {bs : List Byte} :
    ({ s with mem := { s.mem with goldBytes := SMap.setList s.mem.goldBytes 0#8 k bs } } : State).Canon :=
  h.ofMem h.wellWf h.sumpWf (SMap.wf_setList _ _ _ _ h.goldBytesWf) rfl

theorem eraseSump {u : Nat} {m : SMap Nat} {b : SMap Bool} :
    ({ s with mem := { s.mem with sumpUse := m, sump := SMap.keep s.mem.sump (fun b => !(b / 65536 == u)), sumpBad := b } } : State).Canon :=
  h.ofMem h.wellWf (SMap.wf_dropBlock h.sumpWf) h.goldBytesWf rfl

theorem setSump {k : Nat} {bs : List Byte} {b : SMap Bool} :
    ({ s with mem := { s.mem with sump := SMap.setList s.mem.sump 0#8 k bs, sumpBad := b } } : State).Canon :=
  h.ofMem h.wellWf (SMap.wf_setList _ _ _ _ h.sumpWf) h.goldBytesWf rfl

/-! ### Branches, folds and pairs -/

theorem ite {t : State} (ht : t.Canon) {c : Prop} [Decidable c] : (if c then s else t).Canon := by
  split
  · exact h
  · exact ht

theorem foldl {α : Type} {f : State → α → State} (hf : ∀ t a, t.Canon → (f t a).Canon) {l : List α} : (l.foldl f s).Canon :=
  foldl_keeps State.Canon f hf l s h

theorem getD {o : Option State} (ho : CanonOpt o) : (o.getD s).Canon := by
  cases o with
  | none => exact h
  | some t => exact ho

end

section
variable {α β γ : Type}

theorem foldl_snd {s : State} (h : s.Canon) {b : β} {f : β × State → α → β × State} (hf : ∀ y a, y.2.Canon → (f y a).2.Canon)
    {l : List α} : (l.foldl f (b, s)).2.Canon :=
  foldl_keeps (fun y : β × State => y.2.Canon) f hf l _ h

theorem foldl_fst {s : State} (h : s.Canon) {b : β} {f : State × β → α → State × β} (hf : ∀ y a, y.1.Canon → (f y a).1.Canon)
    {l : List α} : (l.foldl f (s, b)).1.Canon :=
  foldl_keeps (fun y : State × β => y.1.Canon) f hf l _ h

theorem foldl_snd_snd {s : State} (h : s.Canon) {b : β} {c : γ} {f : β × γ × State → α → β × γ × State}
    (hf : ∀ y a, y.2.2.Canon → (f y a).2.2.Canon) {l : List α} : (l.foldl f (b, c, s)).2.2.Canon :=
  foldl_keeps (fun y : β × γ × State => y.2.2.Canon) f hf l _ h

theorem foldl_snd_snd_snd {δ : Type} {s : State} (h : s.Canon) {b : β} {c : γ} {d : δ} {f : β × γ × δ × State → α → β × γ × δ × State}
    (hf : ∀ y a, y.2.2.2.Canon → (f y a).2.2.2.Canon) {l : List α} : (l.foldl f (b, c, d, s)).2.2.2.Canon :=
  foldl_keeps (fun y : β × γ × δ × State => y.2.2.2.Canon) f hf l _ h

theorem foldl_build {α : Type} {b : Build} (h : b.s.Canon) {f : Build → α → Build} (hf : ∀ b a, b.s.Canon → (f b a).s.Canon) {l : List α} :
    (l.foldl f b).s.Canon :=
  foldl_keeps (fun b : Build => b.s.Canon) f hf l b h

theorem of_snd {p : β × State} (h : p.2.Canon) {a : β} {t : State} (e : p = (a, t)) : t.Canon := by rwa [e] at h

end

end State.Canon

theorem CanonOpt.eq {o p : Option State} (h : CanonOpt o) (e : o = p) : CanonOpt p := e ▸ h

theorem CanonOpt.ite {o p : Option State} (ho : CanonOpt o) (hp : CanonOpt p) {c : Prop} [Decidable c] : CanonOpt (if c then o else p) := by
  split
  · exact ho
  · exact hp

theorem CanonOpt.map {o : Option State} (h : CanonOpt o) {f : State → State} (hf : ∀ t, t.Canon → (f t).Canon) : CanonOpt (o.map f) := by
  cases o with
  | none => trivial
  | some t => exact hf t h

theorem CanonOpt.map_of {α : Type} {o : Option α} {f : α → State} (hf : ∀ a, (f a).Canon) : CanonOpt (o.map f) := by
  cases o with
  | none => trivial
  | some a => exact hf a

theorem CanonOpt.map_mem {α : Type} {o : Option α} {f : α → State} (hf : ∀ a, o = some a → (f a).Canon) : CanonOpt (o.map f) := by
  cases o with
  | none => trivial
  | some a => exact hf a rfl

theorem CanonOpt.bind {o : Option State} (h : CanonOpt o) {f : State → Option State} (hf : ∀ t, t.Canon → CanonOpt (f t)) :
    CanonOpt (o.bind f) := by
  cases o with
  | none => trivial
  | some t => exact hf t h

theorem CanonOpt.foldl {α : Type} {o : Option State} (h : CanonOpt o) {f : Option State → α → Option State}
    (hf : ∀ o a, CanonOpt o → CanonOpt (f o a)) {l : List α} : CanonOpt (l.foldl f o) :=
  foldl_keeps CanonOpt f hf l o h

theorem Out.Canon.ite {o p : Out} (ho : o.Canon) (hp : p.Canon) {c : Prop} [Decidable c] : Out.Canon (if c then o else p) := by
  split
  · exact ho
  · exact hp

theorem Reserve.Canon.eq {r r' : Reserve} (h : r.Canon) (e : r = r') : r'.Canon := e ▸ h

theorem Reserve.Canon.ite {r r' : Reserve} (h : r.Canon) (h' : r'.Canon) {c : Prop} [Decidable c] : (if c then r else r').Canon := by
  split
  · exact h
  · exact h'

/-! ### Machine/Ops -/

theorem State.Canon.setReg {s : State} (h : s.Canon) {pg : Page} {bank off : Nat} {v : W32} : (s.setReg pg bank off v).Canon :=
  h.same rfl

theorem State.Canon.setFldB {s : State} (h : s.Canon) {pg : Page} {bank : Nat} {f : Fld} {v : Nat} : (s.setFldB pg bank f v).Canon :=
  h.setReg

theorem State.Canon.setFld {s : State} (h : s.Canon) {pg : Page} {f : Fld} {v : Nat} : (s.setFld pg f v).Canon := h.setFldB

theorem State.Canon.bumpB {s : State} (h : s.Canon) {pg : Page} {bank : Nat} {f : Fld} {n : Nat} : (s.bumpB pg bank f n).Canon :=
  h.setFldB

theorem State.Canon.bump {s : State} (h : s.Canon) {pg : Page} {f : Fld} {n : Nat} : (s.bump pg f n).Canon := h.bumpB

theorem State.Canon.bump64B {s : State} (h : s.Canon) {pg : Page} {bank : Nat} {lo hi : Fld} {n : Nat} :
    (s.bump64B pg bank lo hi n).Canon :=
  h.setFldB.setFldB

theorem State.Canon.resetRegs {s : State} (h : s.Canon) {p : Nat → Nat → Nat → Bool} : (s.resetRegs p).Canon := h.same rfl

theorem State.Canon.draw {s : State} (h : s.Canon) : s.draw.2.Canon := h.same rfl

theorem State.Canon.drawBytes {s : State} (h : s.Canon) {n : Nat} : (s.drawBytes n).2.Canon := h.same rfl

theorem State.Canon.emit {s : State} (h : s.Canon) {e : Egress} : (s.emit e).Canon := by
  unfold State.emit
  split
  · exact (h.same (by with_reducible rfl)).ite (h.same (by with_reducible rfl))
  · exact h.same rfl

theorem State.Canon.irq {s : State} (h : s.Canon) {fn vec : Nat} : (s.irq fn vec).Canon := h.setReg.ite h.emit

theorem State.Canon.errEdge {s : State} (h : s.Canon) {pg : Page} {wasPending : Bool} : (s.errEdge pg wasPending).Canon := h.irq.ite h

theorem State.Canon.raise {s : State} (h : s.Canon) {pg : Page} {c : Nat} : (s.raise pg c).Canon := h.setReg.errEdge

theorem State.Canon.event {s : State} (h : s.Canon) {pg : Page} : (s.event pg).Canon := h.bump

theorem State.Canon.logErr {s : State} (h : s.Canon) {kind : Nat} {src : Page} {detail addr arg : Nat} :
    (s.logErr kind src detail addr arg).Canon := by
  unfold State.logErr
  extract_lets
  exact h.bump.raise.ite (h.same (by with_reducible rfl)).setFld.event

theorem State.Canon.shadow {s : State} (h : s.Canon) {t off v : Nat} : (s.shadow t off v).Canon := h.ite h.emit

theorem State.Canon.shadowLive {s : State} (h : s.Canon) {t off v : Nat} : (s.shadowLive t off v).Canon := h.ite h.shadow

theorem State.Canon.setFnState {s : State} (h : s.Canon) {t st : Nat} : (s.setFnState t st).Canon := by
  unfold State.setFnState
  extract_lets s1 _ s2
  have hs1 : s1.Canon := h.setFld.shadow
  have hs2 : s2.Canon := hs1.ite hs1.setFld.irq
  exact h.ite (hs2.irq.ite hs2)

theorem State.Canon.fault {s : State} (h : s.Canon) {fn kind status : Nat} {src : Page} {detail addr cookie : Nat} :
    (s.fault fn kind status src detail addr cookie).Canon := by
  unfold State.fault
  extract_lets _ _ _ _ _ s1 s2
  have hs1 : s1.Canon := (h.same (by with_reducible rfl)).setFld
  have hs2 : s2.Canon := hs1.shadowLive
  exact h.logErr.ite (h.bump.raise.ite (hs2.irq.ite hs2))

/-! ### Machine/Access -/

theorem State.Canon.badAccess {s : State} (h : s.Canon) {pg : Page} {off : Nat} {write : Bool} : (s.badAccess pg off write).Canon :=
  (h.bump.setReg.ite (h.ite h.bump.fault)).ite (h.bump.setReg.ite (h.ite h.bump.fault)).raise

theorem State.Canon.gate {s : State} (h : s.Canon) {k : State → Out} (hk : ∀ t, t.Canon → Out.Canon (k t)) : Out.Canon (s.gate k) := by
  unfold State.gate
  split
  · exact hk _ h
  · exact h

theorem State.Canon.gateOn {s : State} (h : s.Canon) {pg : Page} {k : State → Out} (hk : ∀ t, t.Canon → Out.Canon (k t)) :
    Out.Canon (s.gateOn pg k) := by
  unfold State.gateOn
  split
  · exact hk _ h
  · exact h

theorem State.Canon.regWrite {s : State} (h : s.Canon) {pg : Page} {off : Nat} {k : State → State} (hk : ∀ t, t.Canon → (k t).Canon) :
    (s.regWrite pg off k).Canon :=
  (hk _ h).ite h.badAccess

/-! ### Machine/Column -/

theorem State.Canon.resolve {s : State} (h : s.Canon) {u : Gran} : (s.resolve u).2.Canon := by
  unfold State.resolve
  split
  · exact h
  · exact h.ite h.bump

theorem State.Canon.setCol {s : State} (h : s.Canon) {k : Nat} {c : Column} : (s.setCol k c).Canon := s.memoryWf_setCol k c h

theorem State.Canon.recordBad {s : State} (h : s.Canon) {k : Nat} {wasPoison bucket : Bool} {tag : Nat} :
    (s.recordBad k wasPoison bucket tag).Canon :=
  h.bump.setReg.setReg.logErr

theorem State.Canon.countCe {s : State} (h : s.Canon) {st pc : Nat} : (s.countCe st pc).Canon := by
  unfold State.countCe
  extract_lets _ _ s1
  have hs1 : s1.Canon := (h.same (by with_reducible rfl)).bump.event
  exact hs1.raise.ite hs1

theorem State.Canon.readCol {s : State} (h : s.Canon) {k : Nat} : (s.readCol k).2.Canon := by
  unfold State.readCol
  extract_lets
  split
  · exact h
  · exact h.setCol.countCe
  · exact h.recordBad
  · exact h.setCol.recordBad.raise

theorem State.Canon.writeCol {s : State} (h : s.Canon) {k off : Nat} {data : List Byte} : (s.writeCol k off data).2.Canon := by
  unfold State.writeCol
  extract_lets r
  have hr : r.2.Canon := h.readCol
  split
  · exact h.setCol
  · split
    · dsimp only
      exact hr
    · exact hr.setCol

theorem State.Canon.writeGran {s : State} (h : s.Canon) {p : Place} {off : Nat} {data : List Byte} : (s.writeGran p off data).2.Canon := by
  unfold State.writeGran
  refine h.foldl_snd fun acc c h => ?_
  extract_lets r
  have hr : r.2.Canon := h.writeCol
  dsimp only
  exact hr

theorem State.Canon.adderCol {s : State} (h : s.Canon) {op k off : Nat} {data new : List Byte} :
    (s.adderCol op k off data new).2.2.Canon := by
  unfold State.adderCol
  extract_lets r
  have hr : r.2.Canon := h.readCol
  split
  · dsimp only
    exact hr
  · exact hr.setCol

theorem State.Canon.adder {s : State} (h : s.Canon) {p : Place} {op off : Nat} {data : List Byte} : (s.adder p op off data).2.2.Canon := by
  unfold State.adder
  extract_lets _ _ _ _ r
  have hr : r.2.2.Canon := by
    unfold r
    refine h.foldl_snd_snd fun acc c h => ?_
    extract_lets a
    have ha : a.2.2.Canon := h.adderCol
    dsimp only
    exact ha
  split
  · exact hr.bump
  · exact h

theorem State.Canon.setChan {s : State} (h : s.Canon) {st c : Nat} {x : Chan} : (s.setChan st c x).Canon := h.same rfl

theorem State.Canon.serveAt {s : State} (h : s.Canon) {p : Place} {u : ColReq} : (s.serveAt p u).Canon := by
  unfold State.serveAt
  split
  · exact h.readCol.emit
  · exact h.writeGran.emit.ite h.writeGran
  · exact h.adder.emit

theorem State.Canon.request {s : State} (h : s.Canon) {g : Gran} {q : ColReq} : (s.request g q).Canon := by
  unfold State.request
  extract_lets r _ u _ s1
  have hr : r.2.Canon := h.resolve
  have hu : u.Canon := hr
  have hs1 : s1.Canon := hu.same (by with_reducible rfl)
  exact hs1.bump.ite ((hu.same (by with_reducible rfl)).ite hu.serveAt)

theorem State.Canon.releaseHeld {s : State} (h : s.Canon) {st c : Nat} : (s.releaseHeld st c).Canon := by
  unfold State.releaseHeld
  extract_lets
  exact (h.same (by with_reducible rfl)).foldl fun _ _ h => h.request

/-! ### Machine/Attention -/

theorem State.Canon.setTag {s : State} (h : s.Canon) {st t : Nat} {x : BktTag} : (s.setTag st t x).Canon := h.same rfl

theorem State.Canon.setUnit {s : State} (h : s.Canon) {k : Nat} {u : BktUnit} : (s.setUnit k u).Canon := h.same rfl

theorem State.Canon.setEntries {s : State} (h : s.Canon) {st t : Nat} {l : List RunEntry} : (s.setEntries st t l).Canon := h.same rfl

theorem State.Canon.setSlotWord {s : State} (h : s.Canon) {st t w : Nat} {v : W32} : (s.setSlotWord st t w v).Canon := h.same rfl

theorem State.Canon.setBus {s : State} (h : s.Canon) {st pc : Nat} {l : List Xfer} : (s.setBus st pc l).Canon := h.same rfl

theorem State.Canon.issue {s : State} (h : s.Canon) {st pc : Nat} {x : Xfer} : (s.issue st pc x).Canon := h.setBus

theorem State.Canon.setKeeper {s : State} (h : s.Canon) {q : Nat} {k : Keeper} : (s.setKeeper q k).Canon := h.same rfl

theorem State.Canon.post {s : State} (h : s.Canon) {q : Nat} {entry : List Byte} : (s.post q entry).Canon := h.setKeeper

theorem State.Canon.ringWrite {s : State} (h : s.Canon) {st pc off : Nat} {bytes : List Byte} : (s.ringWrite st pc off bytes).Canon :=
  s.memoryWf_ringWrite st pc off bytes h

theorem State.Canon.consume {s : State} (h : s.Canon) {st pc fuel : Nat} : (s.consume st pc fuel).Canon := by
  induction fuel generalizing s with
  | zero => exact h
  | succ fuel ih =>
    unfold State.consume
    extract_lets head tail avail e _ s1
    have hs1 : s1.Canon := h.same rfl
    exact h.ite (ih (hs1.raise.ite hs1.setEntries))

theorem State.Canon.execRunRingPublish {s : State} (h : s.Canon) {st : Fin 20} {pc : Fin 64} {bytes : List Byte} {tail : W32} :
    Out.Canon (execRunRingPublish st pc bytes tail s) := by
  unfold Machine.execRunRingPublish
  extract_lets
  refine h.gate fun s h => ?_
  extract_lets _ s1
  have hs1 : s1.Canon := h.ringWrite
  split
  · exact (hs1.same (by with_reducible rfl)).consume
  · exact hs1.raise

theorem State.Canon.postTag {s : State} (h : s.Canon) {q : Nat} {r : List Byte} : (s.postTag q r).Canon := h.setKeeper.ite h.post

theorem State.Canon.setSlotWords {s : State} (h : s.Canon) {st t w : Nat} {vs : List W32} : (s.setSlotWords st t w vs).Canon :=
  h.same rfl

theorem State.Canon.initSlot {s : State} (h : s.Canon) {st t hdim : Nat} : (s.initSlot st t hdim).Canon := h.ite h.setSlotWords

theorem State.Canon.clearSlot {s : State} (h : s.Canon) {st t : Nat} : (s.clearSlot st t).Canon := h.same rfl

theorem State.Canon.sendStart {s : State} (h : s.Canon) {st pc bp : Nat} : (s.sendStart st pc bp).Canon := by
  unfold State.sendStart
  extract_lets
  split
  · exact h
  · split
    · exact h
    · exact h.setUnit.issue.foldl fun _ _ h => h.ite h.issue

theorem State.Canon.queueTag {s : State} (h : s.Canon) {st t k : Nat} : (s.queueTag st t k).Canon := h.setUnit.sendStart.ite h.setUnit

theorem State.Canon.writeTagArea {s : State} (h : s.Canon) {st t : Nat} {query record : List Byte} :
    (s.writeTagArea st t query record).Canon :=
  s.memoryWf_writeTagArea st t query record h

theorem State.Canon.execTagOpen {s0 : State} (h : s0.Canon) {st : Fin 20} {t : Fin 256} {query record : List Byte} {value : W32} :
    Out.Canon (execTagOpen st t query record value s0) := by
  unfold Machine.execTagOpen
  refine h.gateOn fun s0 h => ?_
  extract_lets s _ _ _ _ s1 _ s2 s2'
  have hs : s.Canon := h.writeTagArea
  have hs1 : s1.Canon := (hs.same (by with_reducible rfl)).initSlot
  have hs2 : s2.Canon := hs1.setTag
  have hs2' : s2'.Canon := hs1.setTag.setEntries
  split
  · exact hs
  · split
    · exact hs.raise
    · split
      · exact hs2.foldl fun _ _ h => h.queueTag
      · exact hs2'.postTag.raise

theorem State.Canon.execTagRelease {s : State} (h : s.Canon) {st : Fin 20} {t : Fin 256} : Out.Canon (execTagRelease st t s) := by
  unfold Machine.execTagRelease
  refine h.gate fun s h => ?_
  split
  · exact h
  · exact h.raise
  · exact h.setTag.clearSlot

theorem State.Canon.takeXfer {s : State} (h : s.Canon) {st pc typ : Nat} {r : Xfer × State} (hr : s.takeXfer st pc typ = some r) :
    r.2.Canon := by
  unfold State.takeXfer at hr
  split at hr
  · cases hr
  · split at hr
    · cases hr; exact h.setBus
    · cases hr

theorem State.Canon.issueReductions {s : State} (h : s.Canon) {st pc t : Nat} : (s.issueReductions st pc t).Canon := by
  unfold State.issueReductions
  exact h.ite ((h.setTag.issue.ite h).ite ((h.setTag.foldl fun _ _ h => h.issue).ite h))

theorem State.Canon.execWindlassProg {s : State} (h : s.Canon) {st : Fin 20} {pc : Fin 64} : Out.Canon (execWindlassProg st pc s) := by
  unfold Machine.execWindlassProg
  split
  · exact h
  · next x s1 heq =>
      have hs1 : s1.Canon := h.takeXfer heq
      exact hs1.foldl fun _ _ h => h.setUnit

theorem State.Canon.execWindlassStart {s : State} (h : s.Canon) {st : Fin 20} {pc : Fin 64} : Out.Canon (execWindlassStart st pc s) := by
  unfold Machine.execWindlassStart
  split
  · exact h
  · next x s1 heq =>
      have hs1 : s1.Canon := h.takeXfer heq
      exact hs1.setUnit

theorem State.Canon.execWindlassPagelist {s : State} (h : s.Canon) {st : Fin 20} {pc : Fin 64} :
    Out.Canon (execWindlassPagelist st pc s) := by
  unfold Machine.execWindlassPagelist
  split
  · exact h
  · next x s1 heq =>
      have hs1 : s1.Canon := h.takeXfer heq
      exact hs1.setUnit

theorem State.Canon.execWindlassQuery {s : State} (h : s.Canon) {st : Fin 20} {pc : Fin 64} : Out.Canon (execWindlassQuery st pc s) := by
  unfold Machine.execWindlassQuery
  split
  · exact h
  · next x s1 heq =>
      have hs1 : s1.Canon := h.takeXfer heq
      refine hs1.foldl fun s j h => ?_
      extract_lets
      split
      · exact h.setUnit.ite (h.setUnit.ite h)
      · exact h

theorem State.Canon.execQueryBroadcast {s : State} (h : s.Canon) {st : Fin 20} {pc : Fin 64} {t : Fin 256} :
    Out.Canon (execQueryBroadcast st pc t s) := by
  unfold Machine.execQueryBroadcast
  extract_lets _ _ s1
  have hs1 : s1.Canon := h.setTag
  split
  · exact hs1.foldl fun _ _ h => h.issue
  · exact h

theorem State.Canon.execMaxUp {s : State} (h : s.Canon) {st : Fin 20} {pc : Fin 64} : Out.Canon (execMaxUp st pc s) := by
  unfold Machine.execMaxUp
  split
  · exact h
  · next x s1 heq =>
      have hs1 : s1.Canon := h.takeXfer heq
      extract_lets _ _ _ s2 _ s3 _ _ s4
      have hs2 : s2.Canon := hs1.foldl fun _ _ h => h.setUnit
      have hs3 : s3.Canon := hs2.foldl fun _ _ h => h.setSlotWord
      have hs4 : s4.Canon := hs3.setTag
      split
      · exact hs4.foldl fun _ _ h => h.issue.issueReductions
      · exact hs4.issueReductions

theorem State.Canon.execMaxDown {s : State} (h : s.Canon) {st : Fin 20} {pc : Fin 64} : Out.Canon (execMaxDown st pc s) := by
  unfold Machine.execMaxDown
  split
  · exact h
  · next x s1 heq =>
      have hs1 : s1.Canon := h.takeXfer heq
      extract_lets _ _ s2
      have hs2 : s2.Canon := hs1.setTag
      exact (hs2.foldl fun _ _ h => h.setUnit.same (by with_reducible rfl)).issueReductions

theorem State.Canon.execAccUp {s : State} (h : s.Canon) {st : Fin 20} {pc : Fin 64} : Out.Canon (execAccUp st pc s) := by
  unfold Machine.execAccUp
  split
  · exact h
  · next x s1 heq =>
      have hs1 : s1.Canon := h.takeXfer heq
      extract_lets _ _ _ _ _ _ s2 _ s3
      have hs2 : s2.Canon := hs1.foldl fun _ _ h => h.setSlotWord
      have hs3 : s3.Canon := hs2.setTag
      split
      · exact hs3.foldl fun _ _ h => h.setUnit
      · exact hs3

theorem State.Canon.execWindlassDone {s : State} (h : s.Canon) {st : Fin 20} {pc : Fin 64} : Out.Canon (execWindlassDone st pc s) := by
  unfold Machine.execWindlassDone
  split
  · exact h
  · next x s1 heq =>
      have hs1 : s1.Canon := h.takeXfer heq
      exact hs1.setTag

theorem State.Canon.execWindlassPoison {s : State} (h : s.Canon) {st : Fin 20} {pc : Fin 64} : Out.Canon (execWindlassPoison st pc s) := by
  unfold Machine.execWindlassPoison
  split
  · exact h
  · next x s1 heq =>
      have hs1 : s1.Canon := h.takeXfer heq
      exact hs1.setReg.setReg.setTag.recordBad.raise

theorem State.Canon.execUnitTagStart {s : State} (h : s.Canon) {st : Fin 20} {pc : Fin 64} {bp : Fin 16} :
    Out.Canon (execUnitTagStart st pc bp s) := by
  unfold Machine.execUnitTagStart
  extract_lets
  split
  · exact h.setUnit
  · exact h

theorem State.Canon.onMicro {s : State} (h : s.Canon) {st pc bp op : Nat} {f : BktUnit → State} (hf : ∀ a, (f a).Canon) :
    Out.Canon (onMicro st pc bp op s f) := by
  unfold Machine.onMicro
  extract_lets
  split
  · exact hf _
  · exact h

theorem State.Canon.execBktNop {s : State} (h : s.Canon) {st : Fin 20} {pc : Fin 64} {bp : Fin 16} : Out.Canon (execBktNop st pc bp s) :=
  h.onMicro (fun _ => h.setUnit)

theorem State.Canon.execBktInit {s : State} (h : s.Canon) {st : Fin 20} {pc : Fin 64} {bp : Fin 16} : Out.Canon (execBktInit st pc bp s) :=
  h.onMicro (fun _ => h.setUnit)

theorem State.Canon.execBktZero {s : State} (h : s.Canon) {st : Fin 20} {pc : Fin 64} {bp : Fin 16} : Out.Canon (execBktZero st pc bp s) :=
  h.onMicro (fun _ => h.setUnit)

theorem State.Canon.unitCol {s : State} (h : s.Canon) {key : Nat} : (s.unitCol key).2.Canon := by
  unfold State.unitCol
  extract_lets
  split
  · exact h
  · exact h.setCol.countCe
  · exact h
  · exact h.setCol

theorem State.Canon.countColOps {s : State} (h : s.Canon) {st n : Nat} : (s.countColOps st n).Canon := h.bump64B

theorem State.Canon.sweep {s : State} (h : s.Canon) {st pc bp half : Nat} {f : BktUnit → Nat → Nat → List Byte → BktUnit}
    {cs : List (Nat × Nat × Nat)} {u : BktUnit} : (sweep st pc bp half f cs u s).2.Canon := by
  induction cs generalizing u s with
  | nil => exact h
  | cons c cs ih =>
    unfold Machine.sweep
    extract_lets row slot r u1 s1
    have hs1 : s1.Canon := h.unitCol.countColOps
    split
    · exact ih hs1
    · exact hs1.issue

theorem State.Canon.execBktQk {s : State} (h : s.Canon) {st : Fin 20} {pc : Fin 64} {bp : Fin 16} : Out.Canon (execBktQk st pc bp s) :=
  h.onMicro (fun _ => h.setUnit.ite (h.ite h.sweep.setUnit))

theorem State.Canon.execBktMask {s : State} (h : s.Canon) {st : Fin 20} {pc : Fin 64} {bp : Fin 16} : Out.Canon (execBktMask st pc bp s) :=
  h.onMicro (fun _ => h.setUnit)

theorem State.Canon.execBktSmax {s : State} (h : s.Canon) {st : Fin 20} {pc : Fin 64} {bp : Fin 16} :
    Out.Canon (execBktSmax st pc bp s) := by
  unfold Machine.execBktSmax
  extract_lets
  exact h.onMicro (fun _ => h.setUnit.ite (h.setUnit.same (by with_reducible rfl)))

theorem State.Canon.execBktPv {s : State} (h : s.Canon) {st : Fin 20} {pc : Fin 64} {bp : Fin 16} : Out.Canon (execBktPv st pc bp s) :=
  h.onMicro (fun _ => h.setUnit.ite (h.ite h.sweep.setUnit))

theorem State.Canon.execBktNext {s : State} (h : s.Canon) {st : Fin 20} {pc : Fin 64} {bp : Fin 16} : Out.Canon (execBktNext st pc bp s) :=
  h.onMicro (fun _ => h.setUnit)

theorem State.Canon.execBktBr {s : State} (h : s.Canon) {st : Fin 20} {pc : Fin 64} {bp : Fin 16} : Out.Canon (execBktBr st pc bp s) := by
  unfold Machine.execBktBr
  exact h.onMicro (fun _ => ((h.same (by with_reducible rfl)).ite h).setUnit)

theorem State.Canon.execBktMaxx {s : State} (h : s.Canon) {st : Fin 20} {pc : Fin 64} {bp : Fin 16} : Out.Canon (execBktMaxx st pc bp s) :=
  h.onMicro (fun _ => h.setUnit.issueReductions)

theorem State.Canon.execBktSendacc {s : State} (h : s.Canon) {st : Fin 20} {pc : Fin 64} {bp : Fin 16} :
    Out.Canon (execBktSendacc st pc bp s) :=
  h.onMicro (fun _ => h.setUnit.issueReductions)

theorem State.Canon.execBktEnd {s : State} (h : s.Canon) {st : Fin 20} {pc : Fin 64} {bp : Fin 16} : Out.Canon (execBktEnd st pc bp s) :=
  h.onMicro (fun _ => h.setUnit.issue.issueReductions.sendStart)

theorem State.Canon.completeTag {s : State} (h : s.Canon) {st t status : Nat} : (s.completeTag st t status).Canon :=
  h.setTag.setEntries.event.postTag.raise.ite h.setTag.setEntries.event.postTag

theorem State.Canon.tagComplete {s : State} (h : s.Canon) {st : Fin 20} {t : Fin 256} : (s.tagComplete st t).Canon := by
  unfold State.tagComplete
  extract_lets _ _ _ s1
  have hs1 : s1.Canon := h.setSlotWords
  exact ((hs1.same (by with_reducible rfl)).setTag.completeTag.ite h.completeTag).ite h

theorem State.Canon.execYieldService {s : State} (h : s.Canon) {st : Fin 20} {pc : Fin 64} {bp : Fin 16} :
    Out.Canon (execYieldService st pc bp s) := by
  unfold Machine.execYieldService
  extract_lets _ _ s1
  have hs1 : s1.Canon := h.same rfl
  exact hs1.foldl fun _ _ h => h.resolve.serveAt

theorem State.Canon.execMicroprogramWrite {s : State} (h : s.Canon) {st : Fin 20} {word : W32} :
    Out.Canon (execMicroprogramWrite st word s) := by
  unfold Machine.execMicroprogramWrite
  extract_lets _ _ s1
  have hs1 : s1.Canon := h.foldl fun _ _ h => (h.same (by with_reducible rfl)).issue.foldl fun _ _ h => h.ite h.setTag
  split
  · exact h.badAccess
  · exact hs1.setFld

/-! ### Machine/Quadrille -/

theorem State.Canon.setQdr {s : State} (h : s.Canon) {i : Nat} {x : Qdr} : (s.setQdr i x).Canon := h.same rfl

theorem State.Canon.setQueue {s : State} (h : s.Canon) {i q : Nat} {x : QQueue} : (s.setQueue i q x).Canon := h.same rfl

theorem State.Canon.enqueue {s : State} (h : s.Canon) {i q : Nat} {f : QFrame} : (s.enqueue i q f).Canon :=
  (h.setQueue.setQdr.ite h.setQueue).setFldB.ite (h.setQueue.setQdr.ite h.setQueue)

theorem State.Canon.dequeue {s : State} (h : s.Canon) {i q k : Nat} {f : QFrame} {delay : Nat} : (s.dequeue i q k f delay).Canon := by
  unfold State.dequeue
  extract_lets _ _ _ _ _ s1 _ s2 s3
  have hs1 : s1.Canon := h.setQueue
  have hs2 : s2.Canon := hs1.setQdr.ite hs1
  have hs3 : s3.Canon := hs2.bump64B.event
  exact hs3.setFldB.ite hs3

theorem State.Canon.serveEnsemble {s : State} (h : s.Canon) {i : Nat} {head : State → Nat → Option (Nat × QFrame)} {qs : List Nat} :
    (s.serveEnsemble i head qs).2.Canon := by
  induction qs generalizing s with
  | nil => exact h
  | cons q qs ih =>
    unfold State.serveEnsemble
    split
    · exact ih h
    · split
      · exact ih h
      · extract_lets rest x deficit
        split
        · exact h.setQueue.setQdr
        · exact ih h.setQueue.setQdr

theorem State.Canon.pickFrame {s : State} (h : s.Canon) {i : Nat} {head : State → Nat → Option (Nat × QFrame)} :
    (s.pickFrame i head).2.Canon := by
  unfold State.pickFrame
  extract_lets _ e
  have he : e.2.Canon := h.serveEnsemble
  split
  · exact h
  · split
    · exact h
    · split
      · dsimp only
        exact he
      · split
        · dsimp only
          exact he
        · dsimp only
          exact he

theorem State.Canon.execShaperTick {s : State} (h : s.Canon) {i : Fin 17} {queue : Fin 67} : Out.Canon (execShaperTick i queue s) := by
  unfold Machine.execShaperTick
  extract_lets
  refine h.gate fun s h => ?_
  extract_lets
  split
  · exact h
  · exact h.setQueue

theorem State.Canon.execQueueConfigWrite {s : State} (h : s.Canon) {i : Fin 17} {value : W32} :
    Out.Canon (execQueueConfigWrite i value s) := by
  unfold Machine.execQueueConfigWrite
  extract_lets
  refine h.regWrite fun s h => ?_
  extract_lets _ _ _ _ _ _ s1 _ s2
  have hs1 : s1.Canon := h.setReg
  have hs2 : s2.Canon := hs1.setQueue.ite hs1
  exact h.ite (hs2.setQdr.ite (hs2.setQdr.ite hs2))

theorem State.Canon.execShaperBurstWrite {s : State} (h : s.Canon) {i : Fin 17} {value : W32} :
    Out.Canon (execShaperBurstWrite i value s) :=
  h.regWrite (fun _ h => h.ite h.setFldB.setQueue)

theorem State.Canon.setGateStart {s : State} (h : s.Canon) {i st : Nat} : (s.setGateStart i st).Canon := h.setFld.setFld

theorem State.Canon.gateUpdate {s : State} (h : s.Canon) {i t : Nat} : (s.gateUpdate i t).Canon := by
  unfold State.gateUpdate
  extract_lets _ _ _ s1 _ oper
  have hs1 : s1.Canon := by
    unfold s1
    split
    · exact h.setGateStart
    · exact h
  clear_value oper
  split
  · exact hs1.setQdr
  · exact hs1.setQdr.bump.raise.ite hs1.setQdr.bump

theorem State.Canon.execGateListCommit {s : State} (h : s.Canon) {i : Fin 17} {hi : W32} : Out.Canon (execGateListCommit i hi s) :=
  h.regWrite (fun _ h => h.setReg.setReg.setQdr.setGateStart.ite h.setReg.setReg.setQdr)

theorem State.Canon.execGateListCancel {s : State} (h : s.Canon) {i : Fin 17} : Out.Canon (execGateListCancel i s) :=
  h.regWrite (fun _ h => h.setQdr)

/-! ### Machine/Link -/

theorem State.Canon.setPort {s : State} (h : s.Canon) {p : Nat} {x : GPort} : (s.setPort p x).Canon := h.same rfl

theorem State.Canon.setPortState {s : State} (h : s.Canon) {p v : Nat} : (s.setPortState p v).Canon := h.setFld

theorem State.Canon.linkViolation {s : State} (h : s.Canon) {p code seq : Nat} : (s.linkViolation p code seq).Canon :=
  h.bump.setReg.raise.logErr

theorem State.Canon.wire {s : State} (h : s.Canon) {p : Nat} {f : Frm} : (s.wire p f).Canon := h.setPort.bump64B.emit

theorem State.Canon.sendLinkctl {s : State} (h : s.Canon) {p : Nat} {nak : Bool} : (s.sendLinkctl p nak).Canon := h.wire

theorem State.Canon.startRetrain {s : State} (h : s.Canon) {p : Nat} : (s.startRetrain p).Canon :=
  h.ite h.setPortState.setPort.raise.emit

theorem State.Canon.sendNak {s : State} (h : s.Canon) {p : Nat} : (s.sendNak p).Canon :=
  h.ite (h.setPort.bump.sendLinkctl.linkViolation.setPort.startRetrain.ite h.setPort.bump.sendLinkctl)

theorem State.Canon.replayFrom {s : State} (h : s.Canon) {p seq : Nat} : (s.replayFrom p seq).Canon := by
  unfold State.replayFrom
  exact (h.foldl fun _ _ h => h.wire).bump.event

theorem State.Canon.takeTrailer {s : State} (h : s.Canon) {p : Nat} {bs : List Byte} : (s.takeTrailer p bs).Canon := by
  unfold State.takeTrailer
  extract_lets _ _ _ _ _ _ s1
  have hs1 : s1.Canon := by
    unfold s1
    split
    · split
      · exact h.setPort
      · exact h.ite h.linkViolation
    · exact h
  exact (hs1.setFldB.linkViolation.ite hs1.setFldB).ite hs1

theorem State.Canon.maybeOff {s : State} (h : s.Canon) {p : Nat} : (s.maybeOff p).Canon := h.setPortState.setPort.ite h

theorem State.Canon.takeData {s : State} (h : s.Canon) {p : Nat} {bs : List Byte} : (s.takeData p bs).2.Canon := by
  unfold State.takeData
  extract_lets _ s0 _ _ _ s1
  have hs0 : s0.Canon := h.takeTrailer
  have hs1 : s1.Canon := hs0.setPort.setFld
  split
  · exact h.sendNak
  · split
    · split
      · exact hs0.sendNak.linkViolation
      · exact hs1.bump64B
    · split
      · exact hs0.setPort
      · exact hs0.sendNak

theorem State.Canon.giveBack {s : State} (h : s.Canon) {p : Nat} {f : Frm} : (s.giveBack p f).Canon := h.setPort

theorem State.Canon.unreachable {s : State} (h : s.Canon) : s.unreachable.Canon := h.bump.raise

theorem State.Canon.originate {s : State} (h : s.Canon) {f : Frm} : (s.originate f).2.Canon := by
  unfold State.originate
  extract_lets
  split
  · extract_lets
    exact h.same rfl
  · exact h.unreachable

theorem State.Canon.reply {s : State} (h : s.Canon) {f : Frm} {typ status : Nat} {payload : List Byte} :
    (s.reply f typ status payload).Canon :=
  h.originate

theorem State.Canon.execPortEnable {s : State} (h : s.Canon) {p : Fin 12} : Out.Canon (execPortEnable p s) := by
  unfold Machine.execPortEnable
  refine h.gate fun s h => ?_
  extract_lets s1 _ s2
  have hs1 : s1.Canon := h.setFld
  have hs2 : s2.Canon := hs1.setPort
  split
  · exact hs2.setPortState.setPort.emit
  · exact hs2

theorem State.Canon.execPortDisable {s : State} (h : s.Canon) {p : Fin 12} : Out.Canon (execPortDisable p s) := by
  unfold Machine.execPortDisable
  refine h.gate fun s h => ?_
  extract_lets s1
  have hs1 : s1.Canon := h.setFld
  split
  · exact hs1.setPortState.setPort
  · split
    · exact hs1.setPort.maybeOff
    · exact hs1

theorem State.Canon.execPortTrain {s : State} (h : s.Canon) {p : Fin 12} {lanes : Fin 16} {snr : List Byte} :
    Out.Canon (execPortTrain p lanes snr s) := by
  unfold Machine.execPortTrain
  extract_lets
  refine h.gate fun s h => ?_
  extract_lets _ s1 s2 _ s3
  have hs1 : s1.Canon := h.setFld.setFld
  have hs2 : s2.Canon := hs1.foldl fun _ _ h => h.setReg
  have hs3 : s3.Canon := hs2.setPort
  split
  · exact h
  · exact hs3.bump64B.emit

theorem State.Canon.execHello {s : State} (h : s.Canon) {p : Fin 12} {payload : List Byte} : Out.Canon (execHello p payload s) := by
  unfold Machine.execHello
  extract_lets
  refine h.gate fun s h => ?_
  extract_lets _ _ s1 s2 _ s3 _ s3' s4
  have hs1 : s1.Canon := h.setFld.setFld.setFld.setPortState
  have hs2 : s2.Canon := hs1.foldl fun _ _ h => h.setFldB
  have hs3 : s3.Canon := hs2.setPort
  have hs3' : s3'.Canon := hs2.setPort.setFld
  have hs4 : s4.Canon := hs3'.foldl fun _ _ h => h.wire
  split
  · exact h.linkViolation.startRetrain
  · split
    · exact h
    · split
      · exact h.setPortState.raise
      · split
        · exact h
        · split
          · exact hs3.setFld.setFld
          · exact hs4.raise.ite hs4

theorem State.Canon.execPortRetrain {s : State} (h : s.Canon) {p : Fin 12} : Out.Canon (execPortRetrain p s) := by
  unfold Machine.execPortRetrain
  refine h.gate fun s h => ?_
  split
  · exact h.setFld.startRetrain
  · exact h

theorem State.Canon.execLaneLockLoss {s : State} (h : s.Canon) {p : Fin 12} {lane : Fin 4} : Out.Canon (execLaneLockLoss p lane s) := by
  unfold Machine.execLaneLockLoss
  refine h.gate fun s h => ?_
  split
  · exact h.setReg.startRetrain
  · exact h

theorem State.Canon.execAckTimer {s : State} (h : s.Canon) {p : Fin 12} : Out.Canon (execAckTimer p s) := by
  unfold Machine.execAckTimer
  refine h.gate fun s h => ?_
  split
  · exact h.sendLinkctl
  · exact h

theorem State.Canon.execReplayTimeout {s : State} (h : s.Canon) {p : Fin 12} : Out.Canon (execReplayTimeout p s) := by
  unfold Machine.execReplayTimeout
  refine h.gate fun s h => ?_
  extract_lets
  split
  · exact h
  · extract_lets s1 _ s2
    have hs1 : s1.Canon := h.replayFrom
    have hs2 : s2.Canon := hs1.setPort
    split
    · exact h
    · exact hs2.startRetrain.ite hs2

theorem State.Canon.takeNak {s : State} (h : s.Canon) {p sq : Nat} : (s.takeNak p sq).Canon := by
  unfold State.takeNak
  extract_lets
  split
  · exact h.setPort.replayFrom.startRetrain.ite h.setPort.replayFrom
  · exact h.setPort.ite h.linkViolation

theorem State.Canon.execLinkctl {s : State} (h : s.Canon) {p : Fin 12} {frame : List Byte} : Out.Canon (execLinkctl p frame s) := by
  unfold Machine.execLinkctl
  extract_lets
  refine h.gate fun s h => ?_
  extract_lets s1 s2
  have hs1 : s1.Canon := h.takeTrailer
  have hs2 : s2.Canon := hs1.takeNak.ite hs1
  split
  · exact h
  · split
    · exact h.sendNak
    · exact hs2.maybeOff

theorem State.Canon.execUncorrectableCodeword {s : State} (h : s.Canon) {p : Fin 12} : Out.Canon (execUncorrectableCodeword p s) := by
  unfold Machine.execUncorrectableCodeword
  refine h.gate fun s h => ?_
  split
  · exact h
  · exact h.bump.sendNak

theorem State.Canon.transmit {s : State} (h : s.Canon) {p : Nat} {f : Frm} : (s.transmit p f).Canon := h.setFld.setFldB.setPort.wire

theorem State.Canon.execFrameSend {s : State} (h : s.Canon) {i : Fin 17} {delay : W32} : Out.Canon (execFrameSend i delay s) := by
  unfold Machine.execFrameSend
  extract_lets
  refine h.gate fun s h => ?_
  extract_lets r
  have hr : r.2.Canon := h.pickFrame
  split
  · exact hr
  · extract_lets s1
    have hs1 : s1.Canon := hr.dequeue
    split
    · exact hs1.transmit.maybeOff
    · exact hs1.emit

theorem State.Canon.execFrameEnqueue {s : State} (h : s.Canon) {i : Fin 17} {queue : Fin 67} {len : W32} {bytes : List Byte} :
    Out.Canon (execFrameEnqueue i queue len bytes s) := by
  unfold Machine.execFrameEnqueue
  extract_lets
  refine h.gateOn fun s h => ?_
  extract_lets
  split
  · exact h
  · split
    · exact h.enqueue
    · split
      · exact h
      · extract_lets
        exact (h.same (by with_reducible rfl)).enqueue

theorem State.Canon.refuseFrame {s : State} (h : s.Canon) {p : Nat} {f : Frm} : (s.refuseFrame p f).Canon :=
  h.giveBack.unreachable.ite h.giveBack.unreachable.reply

theorem State.Canon.execFrameForward {s : State} (h : s.Canon) {p : Fin 12} : Out.Canon (execFrameForward p s) := by
  unfold Machine.execFrameForward
  refine h.gate fun s h => ?_
  extract_lets
  split
  · exact h
  · extract_lets s1
    have hs1 : s1.Canon := h.setPort
    split
    · exact hs1.refuseFrame
    · split
      · exact hs1.refuseFrame
      · extract_lets
        split
        · exact hs1.giveBack.enqueue
        · exact h

/-! ### Machine/Tier -/

theorem State.Canon.setObj {s : State} (h : s.Canon) {fn o : Nat} {x : Obj} : (s.setObj fn o x).Canon := h.same rfl

theorem State.Canon.setTile {s : State} (h : s.Canon) {k : Nat} {x : TileRec} : (s.setTile k x).Canon := h.same rfl

theorem State.Canon.tileCol {s : State} (h : s.Canon) {ver : Nat → Nat} {loc : StackLoc} {off : Nat} : (s.tileCol ver loc off).2.Canon := by
  unfold State.tileCol
  split
  · exact h
  · extract_lets r
    have hr : r.2.Canon := h.resolve
    dsimp only
    exact hr

theorem State.Canon.wellWord {s : State} (h : s.Canon) {w dva : Nat} : (s.wellWord w dva).2.Canon := by
  unfold State.wellWord
  extract_lets _ _ _ s1 s2 r _ u'
  have hs1 : s1.Canon := h.same rfl
  have hs2 : s2.Canon := hs1.bump
  have hr : r.2.Canon := h.drawBytes
  have hu' : u'.Canon := hr
  split
  · exact h
  · exact hs2.raise.ite hs2
  · split
    · exact (hu'.same (by with_reducible rfl)).raise.logErr
    · exact hu'.ofMem (SMap.wf_setList _ _ _ _ hu'.wellWf) hu'.sumpWf hu'.goldBytesWf rfl
  · exact h.logErr
  · exact (h.same (by with_reducible rfl)).raise.logErr

theorem State.Canon.readWell {s : State} (h : s.Canon) {b n dva : Nat} : (s.readWell b n dva).2.Canon := by
  unfold State.readWell
  extract_lets _ x
  have hx : x.2.Canon := by
    unfold x
    refine h.foldl_snd fun acc w h => ?_
    extract_lets y
    have hy : y.2.Canon := h.wellWord
    dsimp only
    exact hy
  split
  · dsimp only
    exact hx
  · dsimp only
    exact hx

theorem State.Canon.readPieces {s : State} (h : s.Canon) {fn o t off n : Nat} : (s.readPieces fn o t off n).2.Canon := by
  unfold State.readPieces
  extract_lets
  split
  · exact h.readWell
  · split
    · split
      · next s1 heq => exact h.tileCol.of_snd heq
      · next c s1 heq =>
          have hs1 : s1.Canon := h.tileCol.of_snd heq
          extract_lets x
          have hx : x.2.Canon := hs1.readCol
          dsimp only
          exact hx
    · split
      · split
        · exact h.raise
        · exact h
      · split
        · exact h
        · exact h

theorem State.Canon.readPiece {s : State} (h : s.Canon) {fn o t off n : Nat} : (s.readPiece fn o t off n).2.Canon := by
  unfold State.readPiece
  extract_lets r
  have hr : r.2.Canon := h.readPieces
  dsimp only
  exact hr

theorem State.Canon.writePiece {s : State} (h : s.Canon) {fn o t off : Nat} {p : Piece} : (s.writePiece fn o t off p).Canon := by
  unfold State.writePiece
  extract_lets _ _ _ _ s0
  have hs0 : s0.Canon := h.setTile
  split
  · extract_lets
    exact h.ofMem (SMap.wf_setList _ _ _ _ h.wellWf) h.sumpWf h.goldBytesWf rfl
  · split
    · split
      · next s1 heq => exact hs0.tileCol.of_snd heq
      · next c s1 heq =>
          have hs1 : s1.Canon := hs0.tileCol.of_snd heq
          exact hs1.setCol.ite hs1.writeCol
    · split
      · extract_lets
        exact h.ofMem h.wellWf (SMap.wf_setList _ _ _ _ h.sumpWf) h.goldBytesWf rfl
      · exact h

theorem State.Canon.readTile {s : State} (h : s.Canon) {fn o t : Nat} : (s.readTile fn o t).2.Canon := by
  unfold State.readTile
  refine h.foldl_snd fun acc c h => ?_
  extract_lets r
  have hr : r.2.Canon := h.readPieces
  dsimp only
  exact hr

theorem State.Canon.writeTile {s : State} (h : s.Canon) {fn o t : Nat} {ps : List Piece} : (s.writeTile fn o t ps).Canon := by
  unfold State.writeTile
  refine h.foldl_snd fun acc p h => ?_
  exact h.writePiece

theorem State.Canon.useLine {s : State} (h : s.Canon) {q line ver : Nat} {full : Bool} {pos : Nat} {take : Bool} :
    (s.useLine q line ver full pos take).Canon :=
  h.same rfl

theorem State.Canon.useSlots {s : State} (h : s.Canon) {pair r n : Nat} {take : Bool} : (s.useSlots pair r n take).Canon := h.same rfl

theorem State.Canon.useLoc {s : State} (h : s.Canon) {loc : StackLoc} {slotVer : Nat} {take : Bool} :
    (s.useLoc loc slotVer take).Canon := by
  unfold State.useLoc
  split
  · exact h.useLine
  · exact h.foldl fun _ _ h => h.useLine
  · exact h.useSlots

theorem State.Canon.zeroLoc {s : State} (h : s.Canon) {ver : Nat → Nat} {loc : StackLoc} : (s.zeroLoc ver loc).Canon := by
  unfold State.zeroLoc
  refine h.foldl fun s c h => ?_
  split
  · next s1 heq => exact h.tileCol.of_snd heq
  · next k s1 heq =>
      have hs1 : s1.Canon := h.tileCol.of_snd heq
      exact hs1.setCol

theorem State.Canon.poisonLoc {s : State} (h : s.Canon) {ver : Nat → Nat} {loc : StackLoc} : (s.poisonLoc ver loc).Canon := by
  unfold State.poisonLoc
  refine h.foldl fun s c h => ?_
  split
  · next s1 heq => exact h.tileCol.of_snd heq
  · next k s1 heq =>
      have hs1 : s1.Canon := h.tileCol.of_snd heq
      exact hs1.setCol

theorem State.Canon.dropFrame {s : State} (h : s.Canon) {k : Nat} : (s.dropFrame k).Canon := by
  unfold State.dropFrame
  extract_lets
  split
  · exact h
  · extract_lets _ rd u _ s1
    have hrd : rd.2.Canon := by
      unfold rd
      refine h.foldl_snd fun acc g h => ?_
      refine h.foldl_snd fun acc c h => ?_
      extract_lets x
      have hx : x.2.Canon := h.readPiece
      dsimp only
      exact hx
    have hu : u.Canon := hrd.setTile
    have hs1 : s1.Canon := hu.ofMem (SMap.wf_dropBlock hrd.wellWf) hu.sumpWf hu.goldBytesWf rfl
    exact (hs1.foldl fun _ _ h => h.writePiece).bump

/-- As in the other lemmas on the moves of a tile, the tile that is read is made a variable first: nothing may evaluate
the reading of its 2048 columns. -/
theorem State.Canon.toSump {s : State} (h : s.Canon) {k u : Nat} : (s.toSump k u).Canon := by
  unfold State.toSump
  have hx : (s.readTile (k / 2 ^ 32) (k / 65536 % 65536) (k % 65536)).2.Canon := h.readTile
  dsimp only
  generalize s.readTile (k / 2 ^ 32) (k / 65536 % 65536) (k % 65536) = x at hx ⊢
  exact hx.setSumpUse.setTile.writeTile

theorem State.Canon.leaveStack {s : State} (h : s.Canon) {k : Nat} : CanonOpt (s.leaveStack k) := by
  unfold State.leaveStack
  have hx : (s.readTile (k / 2 ^ 32) (k / 65536 % 65536) (k % 65536)).2.Canon := h.readTile
  dsimp only
  generalize s.readTile (k / 2 ^ 32) (k / 65536 % 65536) (k % 65536) = x at hx ⊢
  split
  · exact h
  · split
    · exact h.setTile.useLoc
    · split
      · exact hx.setGoldBytes.setTile.useLoc
      · split
        · split
          · exact trivial
          · exact h.toSump.useLoc
        · split
          · exact trivial
          · exact CanonOpt.map_of fun _ => h.toSump.useLoc

theorem State.Canon.evictOne {s : State} (h : s.Canon) {q pool : Nat} {only : Option Nat} : CanonOpt (s.evictOne q pool only) := by
  unfold State.evictOne
  split
  · exact trivial
  · refine CanonOpt.map ?_ fun _ h => h.bump
    split
    · exact h.dropFrame
    · exact h.leaveStack
  · exact h.same rfl
  · split
    · exact trivial
    · extract_lets s1
      have hs1 : s1.Canon := h.foldl fun _ _ h => h.foldl fun _ _ h => h.useSlots
      exact hs1.same rfl

theorem State.Canon.underCap {s : State} (h : s.Canon) {fn tier q pool : Nat} : CanonOpt (s.underCap fn tier q pool) := by
  unfold State.underCap
  split
  · exact h
  · refine h.evictOne.bind fun s1 h => ?_
    split
    · exact h
    · exact trivial

theorem State.Canon.placeStack {s : State} (h : s.Canon) {fn o t : Nat} : CanonOpt (s.placeStack fn o t) := by
  unfold State.placeStack
  extract_lets x take
  have htake {s : State} (h : s.Canon) (loc : StackLoc) : (take s loc).Canon := by
    unfold take
    extract_lets r s1
    have hs1 : s1.Canon := h.useLoc
    exact (hs1.poisonLoc.ite hs1.zeroLoc).setTile
  refine h.underCap.bind fun s1 hs1 => ?_
  split
  · exact htake hs1 _
  · exact hs1.evictOne.bind fun s2 hs2 => CanonOpt.map_of fun loc => htake hs2 loc

theorem State.Canon.placeSump {s : State} (h : s.Canon) {fn o t : Nat} : CanonOpt (s.placeSump fn o t) := by
  unfold State.placeSump
  split
  · exact trivial
  · refine CanonOpt.map_of fun u => ?_
    extract_lets k _ s1
    have hs1 : s1.Canon := h.ofMem h.wellWf (SMap.wf_dropBlock h.sumpWf) h.goldBytesWf rfl
    exact hs1.setTile

theorem State.Canon.placeTile {s : State} (h : s.Canon) {fn o t : Nat} : CanonOpt (s.placeTile fn o t) := by
  unfold State.placeTile
  split
  · exact h.placeSump
  · split
    · next s1 heq => exact h.placeStack.eq heq
    · exact h.placeSump

theorem State.Canon.askMove {s : State} (h : s.Canon) {m : Move} : (s.askMove m).Canon := by
  unfold State.askMove
  extract_lets
  exact h.ite (h.same (by with_reducible rfl))

theorem State.Canon.touch {s : State} (h : s.Canon) {q fn o t : Nat} : (s.touch q fn o t).Canon := by
  unfold State.touch
  extract_lets _ _ s1 _ s2
  have hs1 : s1.Canon := h.setObj
  have hs2 : s2.Canon := hs1.event.ite hs1
  split
  · exact hs1.bump
  · exact (hs2.askMove.ite hs2).ite ((hs2.bump.ite hs2.askMove).ite hs2)

theorem State.Canon.recordAddr {s : State} (h : s.Canon) {fn : Nat} {src : Page} {dva : Nat} : (s.recordAddr fn src dva).Canon :=
  h.fault

theorem State.Canon.recordSpace {s : State} (h : s.Canon) {q fn : Nat} {src : Page} {dva : Nat} : (s.recordSpace q fn src dva).Canon :=
  h.fault.raise

theorem State.Canon.readDva {s : State} (h : s.Canon) {q fn : Nat} {sp : List (Nat × Nat)} : (s.readDva q fn sp).2.2.Canon := by
  induction sp generalizing s with
  | nil => exact h
  | cons a rest ih =>
    unfold State.readDva
    split
    · exact h
    · extract_lets o t s1 x y
      have hs1 : s1.Canon := h.touch.ite h
      exact ih hs1.readPieces

theorem State.Canon.writeAt {s : State} (h : s.Canon) {q fn a : Nat} {p : Piece} : (s.writeAt q fn a p).2.Canon := by
  unfold State.writeAt
  extract_lets _ _ s1
  have hs1 : s1.Canon := h.touch
  split
  · exact h
  · split
    · split
      · exact hs1
      · exact hs1.writePiece
    · split
      · exact hs1
      · next s2 heq =>
          have hs2 : s2.Canon := hs1.placeTile.eq heq
          exact hs2.writePiece

theorem State.Canon.writeDva {s : State} (h : s.Canon) {q fn a : Nat} {ps : List Piece} : (s.writeDva q fn a ps).2.Canon := by
  induction ps generalizing s a with
  | nil => exact h
  | cons p ps ih =>
    unfold State.writeDva
    split
    · next s1 heq => exact ih (h.writeAt.of_snd heq)
    · exact h.writeAt

/-! ### Machine/Objects -/

theorem State.Canon.setObjReg {s : State} (h : s.Canon) {fn : Nat} {f : Fld} {v : Nat} : (s.setObjReg fn f v).Canon := h.setFld

theorem State.Canon.objAnswer {s : State} (h : s.Canon) {fn res obj : Nat} {busy : Bool} : (s.objAnswer fn res obj busy).Canon :=
  h.setObjReg.setObjReg.setObjReg

theorem State.Canon.objCommand {s : State} (h : s.Canon) {fn : Nat} {body : State → State × Nat × Nat × Bool}
    (hbody : ∀ t, t.Canon → (body t).1.Canon) : (s.objCommand fn body).Canon :=
  h.regWrite (fun _ h => h.setObjReg.ite (hbody _ h).objAnswer)

theorem State.Canon.reserveFrames {s : State} (h : s.Canon) {fn o : Nat} {fs : List Nat} : (s.reserveFrames fn o fs).Canon := by
  unfold State.reserveFrames
  refine h.foldl fun s e h => ?_
  extract_lets _ u
  have hu : u.Canon := h.setTile
  exact hu.ofMem (SMap.wf_dropBlock h.wellWf) hu.sumpWf hu.goldBytesWf rfl

theorem State.Canon.createObj {s : State} (h : s.Canon) {fn o : Nat} : (s.createObj fn o).1.Canon := by
  unfold State.createObj
  extract_lets _ _ _ _ _ _ _ _ _ _ _ _ _ _ _ _ s1
  have hs1 : s1.Canon := h.setObj
  split
  · exact h
  · split
    · exact h
    · split
      · exact h
      · split
        · exact h
        · split
          · exact h
          · split
            · exact h
            · exact hs1.reserveFrames.ite hs1

theorem State.Canon.execObjCreate {s : State} (h : s.Canon) {fn : Fin 65} {obj : W16} : Out.Canon (execObjCreate fn obj s) :=
  h.objCommand (fun _ h => h.createObj)

theorem State.Canon.execObjRelease {s : State} (h : s.Canon) {fn : Fin 65} {obj : W16} : Out.Canon (execObjRelease fn obj s) := by
  unfold Machine.execObjRelease
  extract_lets
  refine h.objCommand fun s h => ?_
  extract_lets _ _ drop
  have hdrop : drop.Canon := h.same rfl
  split
  · exact h
  · split
    · exact h
    · split
      · exact hdrop.setObj
      · exact hdrop.setObj

theorem State.Canon.promoteAll {s : State} (h : s.Canon) {fn o : Nat} : (s.promoteAll fn o).Canon := by
  unfold State.promoteAll
  exact h.foldl fun _ _ h => h.ite ((h.askMove.ite h).ite (h.ite h.askMove))

theorem State.Canon.execObjPin {s : State} (h : s.Canon) {fn : Fin 65} {obj : W16} {promote : Bool} :
    Out.Canon (execObjPin fn obj promote s) := by
  unfold Machine.execObjPin
  extract_lets
  refine h.objCommand fun s h => ?_
  extract_lets _ s1
  have hs1 : s1.Canon := h.setObj
  split
  · exact h
  · exact hs1.promoteAll.ite hs1

theorem State.Canon.execObjUnpin {s : State} (h : s.Canon) {fn : Fin 65} {obj : W16} : Out.Canon (execObjUnpin fn obj s) := by
  unfold Machine.execObjUnpin
  extract_lets
  refine h.objCommand fun s h => ?_
  extract_lets
  split
  · exact h
  · exact h.setObj

theorem State.Canon.execObjPromote {s : State} (h : s.Canon) {fn : Fin 65} {obj : W16} : Out.Canon (execObjPromote fn obj s) := by
  unfold Machine.execObjPromote
  extract_lets
  refine h.objCommand fun s h => ?_
  split
  · exact h.promoteAll
  · exact h

theorem State.Canon.demoteAll {s : State} (h : s.Canon) {fn o tier : Nat} : (s.demoteAll fn o tier).Canon := by
  unfold State.demoteAll
  exact h.foldl fun _ _ h => h.askMove.ite h

theorem State.Canon.startMove {s : State} (h : s.Canon) {fn o : Nat} : (s.startMove fn o).Canon := by
  unfold State.startMove
  extract_lets
  split
  · extract_lets
    exact (h.same (by with_reducible rfl)).setObj.ite h
  · exact h

theorem State.Canon.execObjDemote {s : State} (h : s.Canon) {fn : Fin 65} {obj : W16} {tier : Fin 4} :
    Out.Canon (execObjDemote fn obj tier s) := by
  unfold Machine.execObjDemote
  extract_lets
  refine h.objCommand fun s h => ?_
  extract_lets
  split
  · exact h
  · split
    · exact h
    · split
      · exact h
      · exact h.demoteAll.startMove

theorem State.Canon.execObjSetPref {s : State} (h : s.Canon) {fn : Fin 65} {obj : W16} {tier : Fin 4} :
    Out.Canon (execObjSetPref fn obj tier s) := by
  unfold Machine.execObjSetPref
  extract_lets
  refine h.objCommand fun s h => ?_
  extract_lets
  split
  · exact h
  · split
    · exact h
    · exact h.setObj

theorem State.Canon.execObjQuery {s : State} (h : s.Canon) {fn : Fin 65} {obj : W16} : Out.Canon (execObjQuery fn obj s) := by
  unfold Machine.execObjQuery
  extract_lets
  refine h.objCommand fun s h => ?_
  extract_lets
  split
  · exact h
  · exact h.foldl fun _ _ h => h.setReg

theorem State.Canon.loadFailed {s : State} (h : s.Canon) {fn o : Nat} : (s.loadFailed fn o).Canon := h.setObj.logErr

theorem State.Canon.objectLoadDone {s : State} (h : s.Canon) {fn : Fin 65} {obj : W16} {golden : Option (List Byte)} :
    (s.objectLoadDone fn obj golden).Canon := by
  unfold State.objectLoadDone
  extract_lets _ _ s0
  have hs0 : s0.Canon := h.setObj
  split
  · exact h
  · split
    · exact h.loadFailed
    · extract_lets _ r
      have hr : r.2.Canon := hs0.writeDva
      split
      · exact h.loadFailed
      · split
        · exact hr.setObj
        · exact hr.recordSpace.loadFailed
        · exact hr.loadFailed

theorem State.Canon.freeTile {s : State} (h : s.Canon) {k : Nat} : (s.freeTile k).Canon := by
  unfold State.freeTile
  extract_lets _ _ _ s1 s2 _ s3 u''
  have hs1 : s1.Canon := by
    unfold s1
    split
    · exact h.ofMem (SMap.wf_dropBlock h.wellWf) h.sumpWf h.goldBytesWf rfl
    · exact h
  have hs2 : s2.Canon := by
    unfold s2
    split
    · exact hs1.useLoc
    · exact hs1
  have hs3 : s3.Canon := by
    unfold s3
    split
    · exact hs2.ofMem hs2.wellWf (SMap.wf_dropBlock hs2.sumpWf) hs2.goldBytesWf rfl
    · exact hs2
  have hu'' : u''.Canon := hs3.setTile
  exact hu''.ofMem hu''.wellWf hu''.sumpWf (SMap.wf_dropBlock hs3.goldBytesWf) rfl

theorem State.Canon.freeObj {s : State} (h : s.Canon) {fn o : Nat} : (s.freeObj fn o).Canon := by
  unfold State.freeObj
  extract_lets ks s1
  have hs1 : s1.Canon := h.foldl fun _ _ h => h.freeTile
  exact hs1.setObj.same (by with_reducible rfl)

theorem State.Canon.execObjectFreed {s : State} (h : s.Canon) {fn : Fin 65} {obj : W16} : Out.Canon (execObjectFreed fn obj s) := by
  unfold Machine.execObjectFreed
  refine h.gate fun s h => ?_
  extract_lets
  split
  · exact h.freeObj
  · exact h

theorem State.Canon.execPromotion {s : State} (h : s.Canon) {fn : Fin 65} {obj : W16} : Out.Canon (execPromotion fn obj s) :=
  h.gate (fun _ h => h.startMove)

theorem State.Canon.toWell {s : State} (h : s.Canon) {k f : Nat} : (s.toWell k f).Canon := by
  unfold State.toWell
  have hx : (s.readTile (k / 2 ^ 32) (k / 65536 % 65536) (k % 65536)).2.Canon := h.readTile
  dsimp only
  generalize s.readTile (k / 2 ^ 32) (k / 65536 % 65536) (k % 65536) = x at hx ⊢
  exact hx.eraseFrame.setTile.writeTile.setFrames

theorem State.Canon.moveToWell {s : State} (h : s.Canon) {k q : Nat} : (s.moveToWell k q).Canon := by
  unfold State.moveToWell
  extract_lets
  split
  · exact h
  · next s1 heq =>
      have hs1 : s1.Canon := h.underCap.eq heq
      split
      · exact hs1.toWell
      · split
        · exact hs1
        · next s2 heq =>
            have hs2 : s2.Canon := hs1.evictOne.eq heq
            split
            · exact hs2.toWell
            · exact hs2

/-- The tile read is a variable before the match is taken apart, and the definition is unfolded as a function: otherwise the
kernel evaluates the reading of 2048 columns to compare the two sides. -/
theorem State.Canon.moveToStack {s : State} (h : s.Canon) {k : Nat} : (s.moveToStack k).Canon := by
  conv =>
    arg 1
    fun
    fun
    delta State.moveToStack
  extract_lets fn o t x
  have hx : x.2.Canon := h.readTile
  obtain ⟨y, hy⟩ : ∃ y, y = x := ⟨x, rfl⟩
  rw [← hy] at hx ⊢
  split
  · exact hx
  · next s1 heq =>
      have hs1 : s1.Canon := hx.placeStack.eq heq
      extract_lets s2 _ u
      have hs2 : s2.Canon := hs1.writeTile
      have hu : u.Canon := hs2.setTile
      exact hu.ofMem hu.wellWf hu.sumpWf (SMap.wf_dropBlock hs2.goldBytesWf) rfl

theorem State.Canon.doMove {s : State} (h : s.Canon) {m : Move} : (s.doMove m).Canon :=
  (h.moveToWell.ite h.moveToStack).ite ((h.dropFrame.getD h.dropFrame.leaveStack).ite h.dropFrame)

theorem State.Canon.execTileMoveComplete {s : State} (h : s.Canon) {fn : Fin 65} {obj : W16} {hostOk : Bool} :
    Out.Canon (execTileMoveComplete fn obj hostOk s) := by
  unfold Machine.execTileMoveComplete
  extract_lets
  refine h.gate fun s h => ?_
  split
  · exact h
  · extract_lets _ _ s1 _ s2 _ s3
    have hs1 : s1.Canon := h.raise.ite h.doMove.bump
    have hs2 : s2.Canon := hs1.same (by with_reducible rfl)
    have hs3 : s3.Canon := hs2.setObj
    split
    · exact hs2.setObj.setObjReg
    · exact hs3.startMove

theorem State.Canon.evictUntil {s : State} (h : s.Canon) {q pool target fuel : Nat} : (s.evictUntil q pool target fuel).Canon := by
  induction fuel generalizing s with
  | zero => exact h
  | succ fuel ih =>
    unfold State.evictUntil
    split
    · exact h
    · split
      · exact h
      · next s1 heq => exact ih (h.evictOne.eq heq)

theorem State.Canon.freeSumpCopies {s : State} (h : s.Canon) {target : Nat} : (s.freeSumpCopies target).Canon := by
  unfold State.freeSumpCopies
  refine h.foldl fun s k h => ?_
  extract_lets _ u
  have hu : u.Canon := h.setTile
  split
  · split
    · exact hu.ofMem hu.wellWf (SMap.wf_dropBlock h.sumpWf) hu.goldBytesWf rfl
    · exact h
  · exact h

theorem State.Canon.execEviction {s : State} (h : s.Canon) {q : Fin 4} {pool : Fin 5} : Out.Canon (execEviction q pool s) := by
  unfold Machine.execEviction
  refine h.gateOn fun s h => ?_
  extract_lets
  split
  · exact h
  · split
    · exact h.freeSumpCopies
    · exact h.evictUntil

theorem State.Canon.changeSlice {s : State} (h : s.Canon) {q i : Nat} {toScratch : Bool} : (s.changeSlice q i toScratch).Canon := by
  unfold State.changeSlice
  extract_lets
  exact h.ite ((h.ite (h.same (by with_reducible rfl)).setFld).ite (h.setReg.ite h.setFld.raise))

theorem State.Canon.execSliceModeChange {s : State} (h : s.Canon) {q : Fin 4} {hi : W32} : Out.Canon (execSliceModeChange q hi s) := by
  unfold Machine.execSliceModeChange
  exact h.regWrite (fun _ h => h.foldl fun _ _ h => h.changeSlice)

theorem State.Canon.execSliceSwitchComplete {s : State} (h : s.Canon) {q : Fin 4} {slice : Fin 64} :
    Out.Canon (execSliceSwitchComplete q slice s) := by
  unfold Machine.execSliceSwitchComplete
  extract_lets
  refine h.gate fun s h => ?_
  extract_lets _ s1 _ s2 s3
  have hs1 : s1.Canon := h.foldl fun _ _ h => h.dropFrame
  have hs2 : s2.Canon := hs1.same (by with_reducible rfl)
  have hs3 : s3.Canon := hs2.setReg
  split
  · exact h
  · exact hs3.ite hs3.setFld

theorem State.Canon.execQuotaFloorWrite {s : State} (h : s.Canon) {q : Fin 4} {units : W32} : Out.Canon (execQuotaFloorWrite q units s) :=
  h.regWrite (fun _ h => h.ite (h.badAccess.ite (h.setFld.ite h.setFldB)))

theorem State.Canon.execSumpChunksWrite {s : State} (h : s.Canon) {value : W32} : Out.Canon (execSumpChunksWrite value s) :=
  h.regWrite (fun _ h => h.ite (h.ite h.setFld))

/-! ### Machine/Pumps -/

theorem State.Canon.setPq {s : State} (h : s.Canon) {page q : Nat} {x : PmpQueue} : (s.setPq page q x).Canon := h.same rfl

theorem State.Canon.endDesc {s : State} (h : s.Canon) {c : DCtx} {e : DEnd} : (s.endDesc c e).Canon := by
  unfold State.endDesc
  extract_lets _ _ _ s1 _ s2 s3 s4 _ s5 s6
  have hs1 : s1.Canon := by
    unfold s1
    split
    · exact h.setPq.ite h
    · exact h
  have hs2 : s2.Canon := hs1.raise.event.ite hs1
  have hs3 : s3.Canon := hs2.raise.ite hs2
  have hs4 : s4.Canon := hs3.raise.ite hs3
  have hs5 : s5.Canon := by
    unfold s5
    split
    · split
      · exact hs4.emit
      · split
        · next t heq => exact hs4.writeDva.of_snd heq
        · exact hs4.fault
        · next dva t heq =>
            have ht : t.Canon := hs4.writeDva.of_snd heq
            exact ht.raise.fault
    · exact hs4
  have hs6 : s6.Canon := hs5.fault.ite hs5
  exact hs6.irq.ite hs6

theorem State.Canon.storeWrite {s : State} (h : s.Canon) {e a : Nat} {ps : List Piece} : (s.storeWrite e a ps).Canon :=
  State.memoryWf_storeWrite ps s e a h

theorem State.Canon.setEng {s : State} (h : s.Canon) {e : Nat} {x : Eng} : (s.setEng e x).Canon := h.same rfl

theorem State.Canon.spaceRead {s : State} (h : s.Canon) {c : DCtx} {sp a n : Nat} {host : Option (List Byte)} :
    (s.spaceRead c sp a n host).2.2.Canon := by
  unfold State.spaceRead
  extract_lets r
  have hr : r.2.2.Canon := h.readDva
  split
  · split
    · dsimp only
      exact hr
    · dsimp only
      exact hr
    · dsimp only
      exact hr
  · split
    · exact h
    · exact h
  · exact h

theorem State.Canon.hostSend {s : State} (h : s.Canon) {fn a : Nat} {ps : List Piece} : (s.hostSend fn a ps).Canon := by
  induction ps generalizing s a with
  | nil => exact h
  | cons p ps ih => exact ih h.emit

theorem State.Canon.countBytes {s : State} (h : s.Canon) {c : DCtx} {n : Nat} : (s.countBytes c n).Canon := h.bump64B

theorem State.Canon.spaceWrite {s : State} (h : s.Canon) {c : DCtx} {sp a : Nat} {ps : List Piece} : (s.spaceWrite c sp a ps).2.Canon := by
  unfold State.spaceWrite
  extract_lets
  split
  · split
    · next t heq =>
        have ht : t.Canon := h.writeDva.of_snd heq
        exact ht.countBytes
    · next x' t heq =>
        have ht : t.Canon := h.writeDva.of_snd heq
        exact ht.countBytes
    · next x' t heq =>
        have ht : t.Canon := h.writeDva.of_snd heq
        exact ht.raise.countBytes
  · exact h.hostSend.countBytes
  · exact h.storeWrite.countBytes
  · split
    · exact h.setEng.countBytes
    · exact h

theorem State.Canon.copyDesc {s : State} (h : s.Canon) {c : DCtx} {host : Option (List Byte)} : (s.copyDesc c host).2.Canon := by
  unfold State.copyDesc
  extract_lets _ r w
  have hr : r.2.2.Canon := h.spaceRead
  have hw : w.2.Canon := hr.spaceWrite
  split
  · dsimp only
    exact hw
  · dsimp only
    exact hw
  · split
    · dsimp only
      exact hw
    · dsimp only
      exact hw

theorem State.Canon.fillDesc {s : State} (h : s.Canon) {c : DCtx} : (s.fillDesc c).2.Canon := by
  unfold State.fillDesc
  extract_lets _ _ w
  have hw : w.2.Canon := h.spaceWrite
  split
  · dsimp only
    exact hw
  · dsimp only
    exact hw

theorem State.Canon.adderAt {s : State} (h : s.Canon) {q fn op a : Nat} {data : List Byte} : (s.adderAt q fn op a data).2.2.2.Canon := by
  unfold State.adderAt
  extract_lets
  refine h.foldl_snd_snd_snd fun acc sp h => ?_
  extract_lets s _ _ r _ w
  have hs : s.Canon := h
  have hr : r.2.Canon := hs.readPiece
  have hw : w.2.Canon := hr.writeAt
  split
  · exact h
  · split
    · exact hs
    · split
      · dsimp only
        exact hr
      · dsimp only
        exact hw

theorem State.Canon.countAdd {s : State} (h : s.Canon) {fn a : Nat} : (s.countAdd fn a).Canon := by
  unfold State.countAdd
  extract_lets
  split
  · split
    · next k s1 heq =>
        have hs1 : s1.Canon := h.tileCol.of_snd heq
        exact hs1.bump
    · next s1 heq => exact h.tileCol.of_snd heq
  · exact h

theorem State.Canon.adderDesc {s : State} (h : s.Canon) {c : DCtx} {host : Option (List Byte)} : (s.adderDesc c host).2.Canon := by
  unfold State.adderDesc
  extract_lets _ r _ z
  have hr : r.2.2.Canon := h.spaceRead
  have hz : z.2.2.Canon := by
    unfold z
    refine hr.foldl_snd_snd fun acc p h => ?_
    extract_lets _ w
    have hw : w.2.2.2.Canon := h.adderAt
    split
    · exact h
    · split
      · dsimp only
        exact hw
      · exact hw.raise
      · split
        · dsimp only
          exact hw
        · exact hw.countAdd.countBytes
  split
  · dsimp only
    exact hr
  · split
    · dsimp only
      exact hr
    · split
      · dsimp only
        exact hz
      · dsimp only
        exact hz

theorem State.Canon.setTbl {s : State} (h : s.Canon) {i : Nat} {x : TblSlot} : (s.setTbl i x).Canon := h.same rfl

theorem State.Canon.tableWrite {s : State} (h : s.Canon) {i : Nat} {data : List Byte} {by' : Nat} : (s.tableWrite i data by').2.Canon := by
  unfold State.tableWrite
  extract_lets _ _ _ _ s1
  have hs1 : s1.Canon := (h.same (by with_reducible rfl)).setTbl
  split
  · exact h.setTbl
  · exact hs1.raise

theorem State.Canon.tblRef {s : State} (h : s.Canon) {i gen : Nat} {take : Bool} : (s.tblRef i gen take).Canon := h.setTbl

theorem State.Canon.pinObj {s : State} (h : s.Canon) {k : Nat} {take : Bool} : (s.pinObj k take).Canon := h.same rfl

theorem State.Canon.packDesc {s : State} (h : s.Canon) {c : DCtx} {data plane tbl : List Byte} {gen : Nat} :
    (s.packDesc c data plane tbl gen).2.Canon := by
  unfold State.packDesc
  extract_lets _ _ _ _ _ _ _ w
  have hw : w.2.Canon := h.bumpB.spaceWrite
  split
  · dsimp only
    exact hw
  · dsimp only
    exact hw

theorem State.Canon.staleEnd {s : State} (h : s.Canon) {c : DCtx} : (s.staleEnd c).2.Canon := h.raise

theorem State.Canon.compressDesc {s : State} (h : s.Canon) {c : DCtx} {host : Option (List Byte)} {id : Nat} :
    (s.compressDesc c host id).2.2.Canon := by
  unfold State.compressDesc
  extract_lets _ _ fin _ _ _ r _ _ w
  have hr : r.2.2.Canon := h.spaceRead
  have hw : w.2.Canon := hr.tableWrite
  split
  · unfold fin
    dsimp only
    exact h
  · split
    · unfold fin
      dsimp only
      exact h.staleEnd
    · split
      · unfold fin
        dsimp only
        exact h
      · split
        · unfold fin
          dsimp only
          exact hr
        · split
          · unfold fin
            dsimp only
            exact hr
          · split
            · split
              · dsimp only
                exact hw
              · unfold fin
                dsimp only
                exact hw.packDesc
            · unfold fin
              dsimp only
              exact hr.packDesc

theorem State.Canon.countFlags {s : State} (h : s.Canon) {page pump fn : Nat} {f : BlkFlags} : (s.countFlags page pump fn f).Canon := by
  unfold State.countFlags
  extract_lets _ _ s1 s2 s3 s4
  have hs1 : s1.Canon := h.bumpB.bumpB.ite h
  have hs2 : s2.Canon := hs1.bumpB.bumpB.ite hs1
  have hs3 : s3.Canon := hs2.bumpB.bumpB.ite hs2
  have hs4 : s4.Canon := hs3.bumpB.bumpB.ite hs3
  exact h.ite hs4.raise.raise.event

theorem State.Canon.readBlock {s : State} (h : s.Canon) {rd : State → Nat → Nat → List Piece × SpaceEnd × State} {tbl : List Byte}
    {sb st : Nat} {e : Option Nat} {last : Bool} (hrd : ∀ t b c, t.Canon → (rd t b c).2.2.Canon) :
    (readBlock rd tbl sb st e last s).2.2.Canon := by
  unfold Machine.readBlock
  extract_lets _ _ r _ _ r'
  have hr : r.2.2.Canon := hrd _ _ _ h
  have hr' : r'.2.2.Canon := hrd _ _ _ h
  split
  · dsimp only
    exact hr
  · extract_lets _ _ r2
    have hr2 : r2.2.2.Canon := hrd _ _ _ hr'
    split
    · exact h
    · dsimp only
      exact hr2

theorem State.Canon.expandBlocks {s : State} (h : s.Canon) {rd : State → Nat → Nat → List Piece × SpaceEnd × State}
    (hrd : ∀ t b c, t.Canon → (rd t b c).2.2.Canon) {tbl : List Byte} {packed : Bool} {sb first lastB : Nat} {strict : Bool} {n b : Nat}
    {pos : Option (Nat × Nat)} {wp : Bool} : (expandBlocks rd tbl packed sb first lastB strict n b pos wp s).2.2.2.Canon := by
  induction n generalizing s b pos wp with
  | zero => exact h
  | succ n ih =>
    unfold Machine.expandBlocks
    extract_lets g ws here wp' endG fr r
    have hg : g.2.2.Canon := by
      unfold g
      split
      · exact hrd _ _ _ h
      · exact h
    have hfr : fr.2.Canon := by
      unfold fr
      split
      · exact hg.draw
      · exact hg
    have hr : r.2.2.Canon := hfr.readBlock hrd
    split
    · exact hg
    · split
      · exact hr
      · split
        · exact ih hr
        · split
          · exact hr
          · exact ih hr

theorem State.Canon.expandDesc {s : State} (h : s.Canon) {c : DCtx} {host : Option (List Byte)} : (s.expandDesc c host).2.Canon := by
  unfold State.expandDesc
  extract_lets _ _ _ _ _ _ r _ s1 _ _ _ w1 w _ _ s2
  have hr : r.2.2.2.Canon := h.expandBlocks (fun _ _ _ h => h.spaceRead)
  have hs1 : s1.Canon := hr.foldl fun _ _ h => h.countFlags
  have hw1 : w1.2.Canon := hs1.spaceWrite
  have hw : w.2.Canon := by
    unfold w
    split
    · exact hs1.spaceWrite
    · split
      · exact hw1.spaceWrite
      · exact hw1
  have hs2 : s2.Canon := hw.setEng.ite hw
  split
  · exact h.staleEnd
  · split
    · exact h
    · split
      · exact hs2
      · exact hs2
      · split
        · exact hs2
        · split
          · exact hs2
          · exact hs2

/-! ### Machine/PumpExec -/

theorem State.Canon.stopQueue {s : State} (h : s.Canon) {page q reason : Nat} : (s.stopQueue page q reason).Canon :=
  h.setFldB.setFldB.raise

theorem State.Canon.takeDesc {s : State} (h : s.Canon) {c : DCtx} {opens : Bool} : (s.takeDesc c opens).Canon := by
  unfold State.takeDesc
  extract_lets _ s1
  have hs1 : s1.Canon := h.same rfl
  split
  · exact hs1
  · exact hs1.setFldB.setPq

theorem State.Canon.runPump {s : State} (h : s.Canon) {page : Nat} {src : DescSrc} {want : Nat → Bool} {k : DCtx → State → State}
    (hk : ∀ a t, t.Canon → (k a t).Canon) : (s.runPump page src want k).Canon := by
  unfold State.runPump
  split
  · exact h
  · split
    · exact h.stopQueue
    · exact h
  · exact h.ite (h.takeDesc.endDesc.ite (h.takeDesc.endDesc.ite (hk _ _ h.takeDesc)))

theorem State.Canon.endWith {c : DCtx} {r : DEnd × State} (h : r.2.Canon) : (State.endWith c r).Canon := h.endDesc

theorem State.Canon.askHost {s : State} (h : s.Canon) {c : DCtx} {n : Nat} : (s.askHost c n).Canon := h.emit.ite h

theorem State.Canon.padUnits {s : State} (h : s.Canon) {bs : List Byte} : (s.padUnits bs).2.Canon := by
  unfold State.padUnits
  extract_lets _ r
  have hr : r.2.Canon := h.drawBytes
  dsimp only
  exact hr

theorem State.Canon.peerFrame {s : State} (h : s.Canon) {d : Desc} {data : List Byte} {p : Nat × Nat} : (s.peerFrame d data p).2.Canon := by
  unfold State.peerFrame
  extract_lets _ _ r
  have hr : r.2.Canon := h.padUnits
  split
  · exact h
  · split
    · dsimp only
      exact hr
    · split
      · exact h
      · dsimp only
        exact hr

theorem State.Canon.putFlying {s : State} (h : s.Canon) {f : Flying} : (s.putFlying f).Canon := h.same rfl

theorem State.Canon.sendRequest {s : State} (h : s.Canon) {f : Flying} {data : List Byte} {p : Nat × Nat} :
    (s.sendRequest f data p).2.Canon := by
  unfold State.sendRequest
  extract_lets _ r _ _ _ o u' _ s1
  have hr : r.2.Canon := h.peerFrame
  have ho : o.2.Canon := hr.originate
  have hu' : u'.Canon := ho
  have hs1 : s1.Canon := hu'.same (by with_reducible rfl)
  split
  · exact hs1.same (by with_reducible rfl)
  · exact hs1

theorem State.Canon.endFlying {s : State} (h : s.Canon) {f : Flying} {e : DEnd} : (s.endFlying f e).Canon := by
  unfold State.endFlying
  extract_lets _ s1 s2 s3
  have hs1 : s1.Canon := h.same rfl
  have hs2 : s2.Canon := hs1.foldl fun _ _ h => h.pinObj
  have hs3 : s3.Canon := by
    unfold s3
    split
    · exact hs2.tblRef
    · exact hs2
  exact hs3.endDesc

theorem State.Canon.settleFlying {s : State} (h : s.Canon) {f : Flying} : (s.settleFlying f).Canon := by
  unfold State.settleFlying
  extract_lets _ _ s
  have hs : s.Canon := (h.same (by with_reducible rfl)).ite h
  split
  · exact h.putFlying
  · split
    · exact hs.endFlying
    · exact hs.endFlying.ite hs.endFlying

theorem State.Canon.startPeer {s : State} (h : s.Canon) {c : DCtx} : (s.startPeer c).Canon := by
  unfold State.startPeer
  extract_lets _ r _ s0 _ _ s1 _ z
  have hr : r.2.2.Canon := by
    unfold r
    split
    · exact h
    · exact h.spaceRead
  have hs0 : s0.Canon := hr
  have hs1 : s1.Canon := (hs0.same (by with_reducible rfl)).foldl fun _ _ h => h.pinObj
  have hz : z.2.Canon := hs1.foldl_snd fun _ _ h => h.sendRequest
  split
  · exact hs0.endDesc
  · exact hs0.endDesc.ite hz.settleFlying

theorem State.Canon.execPumpNop {s : State} (h : s.Canon) {page : Fin 10} {src : DescSrc} : Out.Canon (execPumpNop page src s) :=
  h.runPump (fun _ _ h => h.endDesc)

theorem State.Canon.pumpCopy {s : State} (h : s.Canon) {page : Fin 10} {src : DescSrc} {host : Option (List Byte)} :
    (s.pumpCopy page src host).Canon :=
  h.runPump (fun _ _ h => h.startPeer.ite h.askHost.copyDesc.endWith)

theorem State.Canon.execPumpFill {s : State} (h : s.Canon) {page : Fin 10} {src : DescSrc} : Out.Canon (execPumpFill page src s) :=
  h.runPump (fun _ _ h => h.fillDesc.endWith)

theorem State.Canon.pumpAdder {s : State} (h : s.Canon) {page : Fin 10} {src : DescSrc} {host : Option (List Byte)} :
    (s.pumpAdder page src host).Canon :=
  h.runPump (fun _ _ h => h.startPeer.ite h.askHost.adderDesc.endWith)

theorem State.Canon.compressRun {s : State} (h : s.Canon) {c : DCtx} {host : Option (List Byte)} : (s.compressRun c host).Canon := by
  unfold State.compressRun
  extract_lets _ r u _ s1
  have hr : r.2.2.Canon := h.askHost.compressDesc
  have hu : u.Canon := hr
  have hs1 : s1.Canon := (hu.same (by with_reducible rfl)).foldl fun _ _ h => h.pinObj
  split
  · exact hu.endDesc
  · exact hs1.putFlying

theorem State.Canon.execPumpCompress {s : State} (h : s.Canon) {page : Fin 10} {src : DescSrc} {host : Option (List Byte)} :
    Out.Canon (execPumpCompress page src host s) :=
  h.runPump (fun _ _ h => h.compressRun)

theorem State.Canon.execCompressSecondPass {s : State} (h : s.Canon) {id : Nat} : Out.Canon (execCompressSecondPass id s) := by
  unfold Machine.execCompressSecondPass
  refine h.gate fun s h => ?_
  split
  · exact h
  · extract_lets
    split
    · exact h.endFlying
    · split
      · extract_lets r
        have hr : r.2.Canon := h.packDesc
        split
        · exact h
        · exact hr.endFlying
      · exact h

theorem State.Canon.execPumpExpand {s : State} (h : s.Canon) {page : Fin 10} {src : DescSrc} {host : Option (List Byte)} :
    Out.Canon (execPumpExpand page src host s) :=
  h.runPump (fun _ _ h => h.askHost.expandDesc.endWith)

theorem State.Canon.execPumpFence {s : State} (h : s.Canon) {page : Fin 10} {src : DescSrc} : Out.Canon (execPumpFence page src s) :=
  h.runPump (fun _ _ h => h.endDesc)

theorem State.Canon.execPumpSqDoorbell {s : State} (h : s.Canon) {page : Fin 10} {value : W32} :
    Out.Canon (execPumpSqDoorbell page value s) :=
  h.regWrite (fun _ h => h.badAccess.ite h.setFldB)

theorem State.Canon.execPumpQueueResume {s : State} (h : s.Canon) {page : Fin 10} {value : W32} :
    Out.Canon (execPumpQueueResume page value s) :=
  h.regWrite (fun _ h => h.setFldB.setFldB.ite h)

theorem State.Canon.execTableCommit {s : State} (h : s.Canon) {value : W32} : Out.Canon (execTableCommit value s) :=
  h.regWrite (fun _ h => h.ite (h.raise.ite h.tableWrite))

theorem State.Canon.execTableGenerationDrain {s : State} (h : s.Canon) {slot : Fin 16} : Out.Canon (execTableGenerationDrain slot s) := by
  unfold Machine.execTableGenerationDrain
  refine h.gate fun s h => ?_
  extract_lets
  split
  · exact h
  · split
    · exact h.setTbl
    · extract_lets y s1 _ s2
      have hs1 : s1.Canon := h.setTbl
      have hs2 : s2.Canon := hs1.same rfl
      exact hs2.tblRef.ite hs2

/-! ### Machine/Engine -/

theorem State.Canon.setCtx {s : State} (h : s.Canon) {e : Nat} {y : Bool} {c : ProgCtx} : (s.setCtx e y c).Canon := h.setEng

theorem State.Canon.setEngState {s : State} (h : s.Canon) {e v : Nat} : (s.setEngState e v).Canon := h.setFld.setFld

theorem State.Canon.chunkEnd {s : State} (h : s.Canon) {e : Nat} {ok : Bool} : (s.chunkEnd e ok).Canon := by
  unfold State.chunkEnd
  refine h.foldl fun s q h => ?_
  extract_lets _ s1
  have hs1 : s1.Canon := h.setKeeper
  split
  · exact h
  · extract_lets
    exact (hs1.ite (hs1.same (by with_reducible rfl))).ite hs1.raise

theorem State.Canon.yEnded {s : State} (h : s.Canon) {e : Nat} {c : ProgCtx} {cause : Nat} : (s.yEnded e c cause).Canon := by
  unfold State.yEnded
  extract_lets _ s1
  have hs1 : s1.Canon := h.ite h.raise
  exact hs1.ite (hs1.chunkEnd.ite (hs1.setFld.setFld.setFld.setFld.ite hs1))

theorem State.Canon.zeroCtx {s : State} (h : s.Canon) {e : Nat} {y : Bool} : (s.zeroCtx e y).Canon := h.setCtx.setFld.setFld.setFld

theorem State.Canon.leave {s : State} (h : s.Canon) {e : Nat} {y : Bool} : (s.leave e y).Canon := h.setCtx.setFld.ite h.setCtx

theorem State.Canon.endY {s : State} (h : s.Canon) {e cause : Nat} : (s.endY e cause).Canon := by
  unfold State.endY
  extract_lets _ _ s1 _ s2 s3 s4 d
  have hs1 : s1.Canon := h.setFld.setFld.setFld.setFld
  have hs2 : s2.Canon := hs1.setEng
  have hs3 : s3.Canon := hs2.leave.zeroCtx
  have hs4 : s4.Canon := (hs3.ite hs3.setEngState).ite hs3
  have hd : d.2.Canon := hs4.draw
  exact hd.fault.yEnded

theorem State.Canon.stopM {s : State} (h : s.Canon) {e : Nat} {y : Bool} {cause : Nat} : (s.stopM e y cause).Canon :=
  h.raise.draw.endY.ite h.raise.setEng.setEngState

theorem State.Canon.stopV {s : State} (h : s.Canon) {e : Nat} {y : Bool} {cause : Nat} : (s.stopV e y cause).Canon :=
  h.raise.endY.ite h.raise.setEng.setEngState

theorem State.Canon.goTo {s : State} (h : s.Canon) {e : Nat} {y : Bool} {pc : Nat} : (s.goTo e y pc).Canon := h.stopM.ite h.setCtx

theorem State.Canon.advance {s : State} (h : s.Canon) {e : Nat} {y : Bool} : (s.advance e y).Canon := h.goTo

theorem State.Canon.endProg {s : State} (h : s.Canon) {e : Nat} {y : Bool} : (s.endProg e y).Canon :=
  (h.leave.ite h.leave.setEngState).setFld.setFld.yEnded.ite (h.leave.ite h.leave.setEngState)

theorem State.Canon.taint {s : State} (h : s.Canon) {e : Nat} {y : Bool} : (s.taint e y).Canon := h.setCtx

theorem State.Canon.runOp {s : State} (h : s.Canon) {e : Nat} {y : Bool} {cls op : Nat} {k : Nat → State → State}
    (hk : ∀ a t, t.Canon → (k a t).Canon) : (s.runOp e y cls op k).Canon :=
  (hk _ _ h).ite h

theorem State.Canon.setAccInt {s : State} (h : s.Canon) {e t : Nat} {i : Bool} : (s.setAccInt e t i).Canon := h.setEng

theorem State.Canon.mxFlags {s : State} (h : s.Canon) {e : Nat} {nan inf : Bool} : (s.mxFlags e nan inf).Canon :=
  ((h.setFld.ite h.setFld.raise).ite h).setFld.ite ((h.setFld.ite h.setFld.raise).ite h)

theorem State.Canon.setAcc {s : State} (h : s.Canon) {e t r c : Nat} {v : W32} : (s.setAcc e t r c v).Canon :=
  h.setEng.ite h.setEng.mxFlags

theorem State.Canon.setRowBytes {s : State} (h : s.Canon) {e a : Nat} {bs : List Byte} : (s.setRowBytes e a bs).Canon := h.setEng

theorem State.Canon.countMx {s : State} (h : s.Canon) {e n : Nat} : (s.countMx e n).Canon := h.bump64B.bump64B

/-! ### Machine/Operands -/

theorem State.Canon.storeCell {s : State} (h : s.Canon) {e : Nat} {y : Bool} {v : W32} {u : Cell} : (s.storeCell e y v u).1.Canon := by
  unfold State.storeCell
  extract_lets
  split
  · exact h.setCtx
  · exact h.setAcc
  · exact h.setEng
  · exact h.storeWrite
  · exact h

theorem State.Canon.setMbit {s : State} (h : s.Canon) {e : Nat} {y : Bool} {k i : Nat} {b : Bool} : (s.setMbit e y k i b).Canon :=
  h.setCtx

/-! ### Machine/Flags -/

theorem State.Canon.setLast {s : State} (h : s.Canon) {e : Nat} {y : Bool} {fl : Nat} : (s.setLast e y fl).Canon :=
  (h.setFld.setFld.raise.ite h.setFld.setFld).bump.ite (h.setFld.setFld.raise.ite h.setFld.setFld)

/-! ### Machine/Vx -/

theorem State.Canon.runVx {s : State} (h : s.Canon) {e : Nat} {y : Bool} {fm : VxForm} {x : VxW} {bad : Nat → Bool} {refused : Bool}
    {body : State → Nat → Option Nat → Bool → RowRun} {upto : Option Nat} {xt : VxExtra}
    (hbody : ∀ t b c d, t.Canon → (body t b c d).1.Canon) : (s.runVx e y fm x bad refused body upto xt).Canon := by
  unfold State.runVx
  extract_lets _ s0 _ _ _ z s1
  have hs0 : s0.Canon := h.taint.ite h
  have hz : z.1.Canon := by
    unfold z
    refine hs0.foldl_fst fun acc row h => ?_
    extract_lets s _ _ r
    have hs : s.Canon := h
    have hr : r.1.Canon := hbody _ _ _ _ hs
    split
    · exact h
    · split
      · exact hs
      · dsimp only
        exact hr
  have hs1 : s1.Canon := hz.bump64B
  split
  · exact h.stopV
  · split
    · exact h.stopV
    · split
      · exact h.stopV
      · split
        · exact h.setLast.advance
        · split
          · exact hs1.stopM
          · split
            · exact hs1.setCtx
            · exact hs1.setLast.ite hs1.setLast.advance

theorem State.Canon.storeList {s : State} (h : s.Canon) {e : Nat} {y : Bool} {o : Nat} {row : Option Nat} {int undef : Bool}
    {l : List (Nat × W32 × Nat)} : (s.storeList e y o row int undef l).1.Canon := by
  unfold State.storeList
  refine h.foldl_fst fun acc p h => ?_
  extract_lets d _ r
  have hd : d.2.Canon := h.draw
  have hr : r.1.Canon := (hd.ite h).storeCell
  dsimp only
  exact hr

theorem State.Canon.zeroList {s : State} (h : s.Canon) {e : Nat} {y : Bool} {o : Nat} {row : Option Nat} {l : List Nat} :
    (s.zeroList e y o row l).Canon := by
  unfold State.zeroList
  exact h.foldl fun _ _ h => h.storeCell

theorem State.Canon.vecRow {s : State} (h : s.Canon) {e : Nat} {y : Bool} {x : VxW} {int every : Bool} {draws : Nat} {f : VecFn} {n : Nat}
    {row : Option Nat} {undef : Bool} : (s.vecRow e y x int every draws f n row undef).1.Canon := by
  unfold State.vecRow
  extract_lets _ _ s1 _ r
  have hs1 : s1.Canon := h.same rfl
  have hr : r.1.Canon := hs1.storeList
  exact hr.zeroList.ite hr

theorem State.Canon.runVec {s : State} (h : s.Canon) {e : Nat} {y : Bool} {w : Nat} {fm : VxForm} {every : Bool} {draws : Nat}
    {bad : VxW → Nat → Bool} {f : VxW → VecFn} {upto : Option Nat} : (s.runVec e y w fm every draws bad f upto).Canon :=
  h.runVx (fun _ _ _ _ h => h.vecRow)

theorem State.Canon.runRed {s : State} (h : s.Canon) {e : Nat} {y : Bool} {w : Nat} {fm : VxForm} {bad : VxW → Nat → Bool} {f : VxW → RedFn}
    {upto : Option Nat} : (s.runRed e y w fm bad f upto).Canon := by
  unfold State.runRed
  extract_lets
  exact h.runVx (fun _ _ _ _ h => (h.same (by with_reducible rfl)).storeList)

theorem State.Canon.runMask {s : State} (h : s.Canon) {e : Nat} {y : Bool} {w : Nat} {fm : VxForm}
    {f : VxW → State → Option Nat → Nat → Nat → Bool} : (s.runMask e y w fm f).Canon := by
  unfold State.runMask
  extract_lets
  exact h.runVx (fun _ _ _ _ h => ((h.same (by with_reducible rfl)).ite h).foldl fun _ _ h => h.setMbit.ite (h.setMbit.ite h))

/-! ### Machine/VxArith -/

theorem State.Canon.runEl {s : State} (h : s.Canon) {e : Nat} {y : Bool} {op : Nat} {f : ElFn} {upto : Option Nat} {w : Nat} :
    (s.runEl e y op f upto w).Canon :=
  h.runVec

/-! ### Machine/VxReduce -/

theorem State.Canon.runTile {s : State} (h : s.Canon) {e : Nat} {y : Bool} {w : Nat} {arg noInt : Bool} {f : TileFn} :
    (s.runTile e y w arg noInt f).Canon := by
  unfold State.runTile
  extract_lets
  exact h.runVx (fun _ _ _ _ h => ((h.same (by with_reducible rfl)).storeList.zeroList.ite (h.same (by with_reducible rfl)).storeList).bump64B)

/-! ### Machine/VxExec -/

theorem State.Canon.vxNop {s : State} (h : s.Canon) {e : Nat} {y : Bool} {u : Option Nat} {w : Nat} : (vxNop s e y u w).Canon :=
  h.runVx (fun _ _ _ _ h => h)

theorem State.Canon.vxAdd {s : State} (h : s.Canon) {e : Nat} {y : Bool} {u : Option Nat} {w : Nat} : (vxAdd s e y u w).Canon := h.runEl

theorem State.Canon.vxSub {s : State} (h : s.Canon) {e : Nat} {y : Bool} {u : Option Nat} {w : Nat} : (vxSub s e y u w).Canon := h.runEl

theorem State.Canon.vxMul {s : State} (h : s.Canon) {e : Nat} {y : Bool} {u : Option Nat} {w : Nat} : (vxMul s e y u w).Canon := h.runEl

theorem State.Canon.vxFma {s : State} (h : s.Canon) {e : Nat} {y : Bool} {u : Option Nat} {w : Nat} : (vxFma s e y u w).Canon := h.runEl

theorem State.Canon.vxMax {s : State} (h : s.Canon) {e : Nat} {y : Bool} {u : Option Nat} {w : Nat} : (vxMax s e y u w).Canon := h.runEl

theorem State.Canon.vxMin {s : State} (h : s.Canon) {e : Nat} {y : Bool} {u : Option Nat} {w : Nat} : (vxMin s e y u w).Canon := h.runEl

theorem State.Canon.vxMov {s : State} (h : s.Canon) {e : Nat} {y : Bool} {u : Option Nat} {w : Nat} : (vxMov s e y u w).Canon := h.runEl

theorem State.Canon.vxAbs {s : State} (h : s.Canon) {e : Nat} {y : Bool} {u : Option Nat} {w : Nat} : (vxAbs s e y u w).Canon := h.runEl

theorem State.Canon.vxNeg {s : State} (h : s.Canon) {e : Nat} {y : Bool} {u : Option Nat} {w : Nat} : (vxNeg s e y u w).Canon := h.runEl

theorem State.Canon.vxExp {s : State} (h : s.Canon) {e : Nat} {y : Bool} {u : Option Nat} {w : Nat} : (vxExp s e y u w).Canon := h.runEl

theorem State.Canon.vxLog {s : State} (h : s.Canon) {e : Nat} {y : Bool} {u : Option Nat} {w : Nat} : (vxLog s e y u w).Canon := h.runEl

theorem State.Canon.vxRcp {s : State} (h : s.Canon) {e : Nat} {y : Bool} {u : Option Nat} {w : Nat} : (vxRcp s e y u w).Canon := h.runEl

theorem State.Canon.vxRsqrt {s : State} (h : s.Canon) {e : Nat} {y : Bool} {u : Option Nat} {w : Nat} : (vxRsqrt s e y u w).Canon :=
  h.runEl

theorem State.Canon.vxSilu {s : State} (h : s.Canon) {e : Nat} {y : Bool} {u : Option Nat} {w : Nat} : (vxSilu s e y u w).Canon :=
  h.runEl

theorem State.Canon.vxGelu {s : State} (h : s.Canon) {e : Nat} {y : Bool} {u : Option Nat} {w : Nat} : (vxGelu s e y u w).Canon :=
  h.runEl

theorem State.Canon.vxSigm {s : State} (h : s.Canon) {e : Nat} {y : Bool} {u : Option Nat} {w : Nat} : (vxSigm s e y u w).Canon :=
  h.runEl

theorem State.Canon.vxTanh {s : State} (h : s.Canon) {e : Nat} {y : Bool} {u : Option Nat} {w : Nat} : (vxTanh s e y u w).Canon :=
  h.runEl

theorem State.Canon.vxF2i {s : State} (h : s.Canon) {e : Nat} {y : Bool} {u : Option Nat} {w : Nat} : (vxF2i s e y u w).Canon := h.runEl

theorem State.Canon.vxI2f {s : State} (h : s.Canon) {e : Nat} {y : Bool} {u : Option Nat} {w : Nat} : (vxI2f s e y u w).Canon := h.runEl

theorem State.Canon.vxAnd {s : State} (h : s.Canon) {e : Nat} {y : Bool} {u : Option Nat} {w : Nat} : (vxAnd s e y u w).Canon := h.runEl

theorem State.Canon.vxOr {s : State} (h : s.Canon) {e : Nat} {y : Bool} {u : Option Nat} {w : Nat} : (vxOr s e y u w).Canon := h.runEl

theorem State.Canon.vxXor {s : State} (h : s.Canon) {e : Nat} {y : Bool} {u : Option Nat} {w : Nat} : (vxXor s e y u w).Canon := h.runEl

theorem State.Canon.vxShl {s : State} (h : s.Canon) {e : Nat} {y : Bool} {u : Option Nat} {w : Nat} : (vxShl s e y u w).Canon := h.runEl

theorem State.Canon.vxShr {s : State} (h : s.Canon) {e : Nat} {y : Bool} {u : Option Nat} {w : Nat} : (vxShr s e y u w).Canon := h.runEl

theorem State.Canon.vxSra {s : State} (h : s.Canon) {e : Nat} {y : Bool} {u : Option Nat} {w : Nat} : (vxSra s e y u w).Canon := h.runEl

theorem State.Canon.vxSel {s : State} (h : s.Canon) {e : Nat} {y : Bool} {u : Option Nat} {w : Nat} : (vxSel s e y u w).Canon :=
  h.runVec

theorem State.Canon.vxRotp {s : State} (h : s.Canon) {e : Nat} {y : Bool} {u : Option Nat} {w : Nat} : (vxRotp s e y u w).Canon :=
  h.runVec

theorem State.Canon.runCmp {s : State} (h : s.Canon) {e : Nat} {y : Bool} {op w : Nat} : (s.runCmp e y op w).Canon := h.runMask

theorem State.Canon.vxCmpeq {s : State} (h : s.Canon) {e : Nat} {y : Bool} {u : Option Nat} {w : Nat} : (vxCmpeq s e y u w).Canon :=
  h.runCmp

theorem State.Canon.vxCmpne {s : State} (h : s.Canon) {e : Nat} {y : Bool} {u : Option Nat} {w : Nat} : (vxCmpne s e y u w).Canon :=
  h.runCmp

theorem State.Canon.vxCmplt {s : State} (h : s.Canon) {e : Nat} {y : Bool} {u : Option Nat} {w : Nat} : (vxCmplt s e y u w).Canon :=
  h.runCmp

theorem State.Canon.vxCmple {s : State} (h : s.Canon) {e : Nat} {y : Bool} {u : Option Nat} {w : Nat} : (vxCmple s e y u w).Canon :=
  h.runCmp

theorem State.Canon.vxCmpgt {s : State} (h : s.Canon) {e : Nat} {y : Bool} {u : Option Nat} {w : Nat} : (vxCmpgt s e y u w).Canon :=
  h.runCmp

theorem State.Canon.vxCmpge {s : State} (h : s.Canon) {e : Nat} {y : Bool} {u : Option Nat} {w : Nat} : (vxCmpge s e y u w).Canon :=
  h.runCmp

theorem State.Canon.vxIsnan {s : State} (h : s.Canon) {e : Nat} {y : Bool} {u : Option Nat} {w : Nat} : (vxIsnan s e y u w).Canon :=
  h.runMask

theorem State.Canon.runMm {s : State} (h : s.Canon) {e : Nat} {y : Bool} {w : Nat} {f : Bool → Bool → Bool} : (s.runMm e y w f).Canon :=
  h.runMask

theorem State.Canon.vxMand {s : State} (h : s.Canon) {e : Nat} {y : Bool} {u : Option Nat} {w : Nat} : (vxMand s e y u w).Canon :=
  h.runMm

theorem State.Canon.vxMor {s : State} (h : s.Canon) {e : Nat} {y : Bool} {u : Option Nat} {w : Nat} : (vxMor s e y u w).Canon := h.runMm

theorem State.Canon.vxMandn {s : State} (h : s.Canon) {e : Nat} {y : Bool} {u : Option Nat} {w : Nat} : (vxMandn s e y u w).Canon :=
  h.runMm

theorem State.Canon.vxMnot {s : State} (h : s.Canon) {e : Nat} {y : Bool} {u : Option Nat} {w : Nat} : (vxMnot s e y u w).Canon :=
  h.runMask

theorem State.Canon.vxMfill {s : State} (h : s.Canon) {e : Nat} {y : Bool} {u : Option Nat} {w : Nat} : (vxMfill s e y u w).Canon :=
  h.runMask

theorem State.Canon.vxRowset {s : State} (h : s.Canon) {e : Nat} {y : Bool} {u : Option Nat} {w : Nat} : (vxRowset s e y u w).Canon := by
  unfold Machine.vxRowset
  extract_lets
  exact h.runVx (fun _ _ _ _ h => h.setEng.same (by with_reducible rfl))

theorem State.Canon.vxRsum {s : State} (h : s.Canon) {e : Nat} {y : Bool} {u : Option Nat} {w : Nat} : (vxRsum s e y u w).Canon :=
  h.runRed

theorem State.Canon.vxRmax {s : State} (h : s.Canon) {e : Nat} {y : Bool} {u : Option Nat} {w : Nat} : (vxRmax s e y u w).Canon :=
  h.runRed

theorem State.Canon.vxRmin {s : State} (h : s.Canon) {e : Nat} {y : Bool} {u : Option Nat} {w : Nat} : (vxRmin s e y u w).Canon :=
  h.runRed

theorem State.Canon.vxRargmax {s : State} (h : s.Canon) {e : Nat} {y : Bool} {u : Option Nat} {w : Nat} : (vxRargmax s e y u w).Canon :=
  h.runRed

theorem State.Canon.vxRargmin {s : State} (h : s.Canon) {e : Nat} {y : Bool} {u : Option Nat} {w : Nat} : (vxRargmin s e y u w).Canon :=
  h.runRed

theorem State.Canon.vxRband {s : State} (h : s.Canon) {e : Nat} {y : Bool} {u : Option Nat} {w : Nat} : (vxRband s e y u w).Canon :=
  h.runRed

theorem State.Canon.vxRbor {s : State} (h : s.Canon) {e : Nat} {y : Bool} {u : Option Nat} {w : Nat} : (vxRbor s e y u w).Canon :=
  h.runRed

theorem State.Canon.vxTsum {s : State} (h : s.Canon) {e : Nat} {y : Bool} {u : Option Nat} {w : Nat} : (vxTsum s e y u w).Canon :=
  h.runTile

theorem State.Canon.vxTsumsq {s : State} (h : s.Canon) {e : Nat} {y : Bool} {u : Option Nat} {w : Nat} : (vxTsumsq s e y u w).Canon :=
  h.runTile

theorem State.Canon.vxTmax {s : State} (h : s.Canon) {e : Nat} {y : Bool} {u : Option Nat} {w : Nat} : (vxTmax s e y u w).Canon :=
  h.runTile

theorem State.Canon.vxTmin {s : State} (h : s.Canon) {e : Nat} {y : Bool} {u : Option Nat} {w : Nat} : (vxTmin s e y u w).Canon :=
  h.runTile

theorem State.Canon.vxTargmax {s : State} (h : s.Canon) {e : Nat} {y : Bool} {u : Option Nat} {w : Nat} : (vxTargmax s e y u w).Canon :=
  h.runTile

theorem State.Canon.vxTargmin {s : State} (h : s.Canon) {e : Nat} {y : Bool} {u : Option Nat} {w : Nat} : (vxTargmin s e y u w).Canon :=
  h.runTile

theorem State.Canon.vxScan {s : State} (h : s.Canon) {e : Nat} {y : Bool} {u : Option Nat} {w : Nat} : (vxScan s e y u w).Canon :=
  h.runVec

theorem State.Canon.vxFindge {s : State} (h : s.Canon) {e : Nat} {y : Bool} {u : Option Nat} {w : Nat} : (vxFindge s e y u w).Canon :=
  h.runRed

theorem State.Canon.vxKth {s : State} (h : s.Canon) {e : Nat} {y : Bool} {u : Option Nat} {w : Nat} : (vxKth s e y u w).Canon :=
  h.runRed

theorem State.Canon.vxPerm {s : State} (h : s.Canon) {e : Nat} {y : Bool} {u : Option Nat} {w : Nat} : (vxPerm s e y u w).Canon :=
  h.runVec

theorem State.Canon.vxBcast {s : State} (h : s.Canon) {e : Nat} {y : Bool} {u : Option Nat} {w : Nat} : (vxBcast s e y u w).Canon :=
  h.runVec

theorem State.Canon.vxRng {s : State} (h : s.Canon) {e : Nat} {y : Bool} {u : Option Nat} {w : Nat} : (vxRng s e y u w).Canon :=
  h.runVec

theorem State.Canon.setCnt {s : State} (h : s.Canon) {e : Nat} {y : Bool} {n : Nat} : (s.setCnt e y n).Canon := h.setFld

theorem State.Canon.runPack {s : State} (h : s.Canon) {e : Nat} {y : Bool} {w : Nat} {keep : (Nat → Bool) → Nat → Nat → Bool}
    {place : List Nat → List W32 → List (Nat × W32 × Nat)} : (s.runPack e y w keep place).Canon :=
  (h.setCnt.ite h).runVx (fun _ _ _ _ h => (h.storeList.zeroList.ite h.storeList).setCnt)

theorem State.Canon.vxCompress {s : State} (h : s.Canon) {e : Nat} {y : Bool} {u : Option Nat} {w : Nat} : (vxCompress s e y u w).Canon :=
  h.runPack

theorem State.Canon.vxExpand {s : State} (h : s.Canon) {e : Nat} {y : Bool} {u : Option Nat} {w : Nat} : (vxExpand s e y u w).Canon :=
  h.runPack

theorem State.Canon.vxScmb {s : State} (h : s.Canon) {e : Nat} {y : Bool} {u : Option Nat} {w : Nat} : (vxScmb s e y u w).Canon := by
  unfold Machine.vxScmb
  extract_lets
  exact h.runVx (fun _ _ _ _ h => (h.same (by with_reducible rfl)).storeList.zeroList.ite (h.same (by with_reducible rfl)).storeList)

theorem State.Canon.vxSummary {s : State} (h : s.Canon) {e : Nat} {y : Bool} {u : Option Nat} {w : Nat} : (vxSummary s e y u w).Canon := by
  unfold Machine.vxSummary
  extract_lets
  refine h.runVx fun s n row u h => ?_
  extract_lets _ _ _ _ _ s1 s2 _ s3 s4
  have hs1 : s1.Canon := (h.same (by with_reducible rfl)).post
  have hs2 : s2.Canon := hs1.setReg.setReg
  have hs3 : s3.Canon := hs2.setCtx
  have hs4 : s4.Canon := hs3.setFld.ite hs3
  exact hs4

theorem State.Canon.vxRunOf {s : State} (h : s.Canon) {op e : Nat} {y : Bool} {u : Option Nat} {v : Nat} :
    (vxRunOf op s e y u v).Canon := by
  unfold Machine.vxRunOf
  split
  · exact h.vxAdd
  · exact h.vxSub
  · exact h.vxMul
  · exact h.vxFma
  · exact h.vxMax
  · exact h.vxMin
  · exact h.vxSel
  · exact h.vxMov
  · exact h.vxAbs
  · exact h.vxNeg
  · exact h.vxExp
  · exact h.vxLog
  · exact h.vxRcp
  · exact h.vxRsqrt
  · exact h.vxSilu
  · exact h.vxGelu
  · exact h.vxSigm
  · exact h.vxTanh
  · exact h.vxF2i
  · exact h.vxI2f
  · exact h.vxRotp
  · exact h.vxAnd
  · exact h.vxOr
  · exact h.vxXor
  · exact h.vxShl
  · exact h.vxShr
  · exact h.vxSra
  · exact h.vxCmpeq
  · exact h.vxCmpne
  · exact h.vxCmplt
  · exact h.vxCmple
  · exact h.vxCmpgt
  · exact h.vxCmpge
  · exact h.vxIsnan
  · exact h.vxMand
  · exact h.vxMor
  · exact h.vxMandn
  · exact h.vxMnot
  · exact h.vxMfill
  · exact h.vxRowset
  · exact h.vxRsum
  · exact h.vxRmax
  · exact h.vxRmin
  · exact h.vxRargmax
  · exact h.vxRargmin
  · exact h.vxRband
  · exact h.vxRbor
  · exact h.vxTsum
  · exact h.vxTsumsq
  · exact h.vxTmax
  · exact h.vxTmin
  · exact h.vxTargmax
  · exact h.vxTargmin
  · exact h.vxScan
  · exact h.vxFindge
  · exact h.vxKth
  · exact h.vxPerm
  · exact h.vxBcast
  · exact h.vxCompress
  · exact h.vxExpand
  · exact h.vxScmb
  · exact h.vxRng
  · exact h.vxSummary
  · exact h.vxNop

theorem State.Canon.execVxNop {s : State} (h : s.Canon) {e : Fin 32} {y : Bool} : Out.Canon (execVxNop e y s) :=
  h.taint.advance.ite (h.runOp (fun _ _ h => h.vxNop))

theorem State.Canon.execAdd {s : State} (h : s.Canon) {e : Fin 32} {y : Bool} : Out.Canon (execAdd e y s) :=
  h.runOp (fun _ _ h => h.vxAdd)

theorem State.Canon.execSub {s : State} (h : s.Canon) {e : Fin 32} {y : Bool} : Out.Canon (execSub e y s) :=
  h.runOp (fun _ _ h => h.vxSub)

theorem State.Canon.execMul {s : State} (h : s.Canon) {e : Fin 32} {y : Bool} : Out.Canon (execMul e y s) :=
  h.runOp (fun _ _ h => h.vxMul)

theorem State.Canon.execFma {s : State} (h : s.Canon) {e : Fin 32} {y : Bool} : Out.Canon (execFma e y s) :=
  h.runOp (fun _ _ h => h.vxFma)

theorem State.Canon.execMax {s : State} (h : s.Canon) {e : Fin 32} {y : Bool} : Out.Canon (execMax e y s) :=
  h.runOp (fun _ _ h => h.vxMax)

theorem State.Canon.execMin {s : State} (h : s.Canon) {e : Fin 32} {y : Bool} : Out.Canon (execMin e y s) :=
  h.runOp (fun _ _ h => h.vxMin)

theorem State.Canon.execMov {s : State} (h : s.Canon) {e : Fin 32} {y : Bool} : Out.Canon (execMov e y s) :=
  h.runOp (fun _ _ h => h.vxMov)

theorem State.Canon.execAbs {s : State} (h : s.Canon) {e : Fin 32} {y : Bool} : Out.Canon (execAbs e y s) :=
  h.runOp (fun _ _ h => h.vxAbs)

theorem State.Canon.execNeg {s : State} (h : s.Canon) {e : Fin 32} {y : Bool} : Out.Canon (execNeg e y s) :=
  h.runOp (fun _ _ h => h.vxNeg)

theorem State.Canon.execExp {s : State} (h : s.Canon) {e : Fin 32} {y : Bool} : Out.Canon (execExp e y s) :=
  h.runOp (fun _ _ h => h.vxExp)

theorem State.Canon.execLog {s : State} (h : s.Canon) {e : Fin 32} {y : Bool} : Out.Canon (execLog e y s) :=
  h.runOp (fun _ _ h => h.vxLog)

theorem State.Canon.execRcp {s : State} (h : s.Canon) {e : Fin 32} {y : Bool} : Out.Canon (execRcp e y s) :=
  h.runOp (fun _ _ h => h.vxRcp)

theorem State.Canon.execRsqrt {s : State} (h : s.Canon) {e : Fin 32} {y : Bool} : Out.Canon (execRsqrt e y s) :=
  h.runOp (fun _ _ h => h.vxRsqrt)

theorem State.Canon.execSilu {s : State} (h : s.Canon) {e : Fin 32} {y : Bool} : Out.Canon (execSilu e y s) :=
  h.runOp (fun _ _ h => h.vxSilu)

theorem State.Canon.execGelu {s : State} (h : s.Canon) {e : Fin 32} {y : Bool} : Out.Canon (execGelu e y s) :=
  h.runOp (fun _ _ h => h.vxGelu)

theorem State.Canon.execSigm {s : State} (h : s.Canon) {e : Fin 32} {y : Bool} : Out.Canon (execSigm e y s) :=
  h.runOp (fun _ _ h => h.vxSigm)

theorem State.Canon.execTanh {s : State} (h : s.Canon) {e : Fin 32} {y : Bool} : Out.Canon (execTanh e y s) :=
  h.runOp (fun _ _ h => h.vxTanh)

theorem State.Canon.execF2i {s : State} (h : s.Canon) {e : Fin 32} {y : Bool} : Out.Canon (execF2i e y s) :=
  h.runOp (fun _ _ h => h.vxF2i)

theorem State.Canon.execI2f {s : State} (h : s.Canon) {e : Fin 32} {y : Bool} : Out.Canon (execI2f e y s) :=
  h.runOp (fun _ _ h => h.vxI2f)

theorem State.Canon.execAnd {s : State} (h : s.Canon) {e : Fin 32} {y : Bool} : Out.Canon (execAnd e y s) :=
  h.runOp (fun _ _ h => h.vxAnd)

theorem State.Canon.execOr {s : State} (h : s.Canon) {e : Fin 32} {y : Bool} : Out.Canon (execOr e y s) := h.runOp (fun _ _ h => h.vxOr)

theorem State.Canon.execXor {s : State} (h : s.Canon) {e : Fin 32} {y : Bool} : Out.Canon (execXor e y s) :=
  h.runOp (fun _ _ h => h.vxXor)

theorem State.Canon.execShl {s : State} (h : s.Canon) {e : Fin 32} {y : Bool} : Out.Canon (execShl e y s) :=
  h.runOp (fun _ _ h => h.vxShl)

theorem State.Canon.execShr {s : State} (h : s.Canon) {e : Fin 32} {y : Bool} : Out.Canon (execShr e y s) :=
  h.runOp (fun _ _ h => h.vxShr)

theorem State.Canon.execSra {s : State} (h : s.Canon) {e : Fin 32} {y : Bool} : Out.Canon (execSra e y s) :=
  h.runOp (fun _ _ h => h.vxSra)

theorem State.Canon.execSel {s : State} (h : s.Canon) {e : Fin 32} {y : Bool} : Out.Canon (execSel e y s) :=
  h.runOp (fun _ _ h => h.vxSel)

theorem State.Canon.execRotp {s : State} (h : s.Canon) {e : Fin 32} {y : Bool} : Out.Canon (execRotp e y s) :=
  h.runOp (fun _ _ h => h.vxRotp)

theorem State.Canon.execCmpeq {s : State} (h : s.Canon) {e : Fin 32} {y : Bool} : Out.Canon (execCmpeq e y s) :=
  h.runOp (fun _ _ h => h.vxCmpeq)

theorem State.Canon.execCmpne {s : State} (h : s.Canon) {e : Fin 32} {y : Bool} : Out.Canon (execCmpne e y s) :=
  h.runOp (fun _ _ h => h.vxCmpne)

theorem State.Canon.execCmplt {s : State} (h : s.Canon) {e : Fin 32} {y : Bool} : Out.Canon (execCmplt e y s) :=
  h.runOp (fun _ _ h => h.vxCmplt)

theorem State.Canon.execCmple {s : State} (h : s.Canon) {e : Fin 32} {y : Bool} : Out.Canon (execCmple e y s) :=
  h.runOp (fun _ _ h => h.vxCmple)

theorem State.Canon.execCmpgt {s : State} (h : s.Canon) {e : Fin 32} {y : Bool} : Out.Canon (execCmpgt e y s) :=
  h.runOp (fun _ _ h => h.vxCmpgt)

theorem State.Canon.execCmpge {s : State} (h : s.Canon) {e : Fin 32} {y : Bool} : Out.Canon (execCmpge e y s) :=
  h.runOp (fun _ _ h => h.vxCmpge)

theorem State.Canon.execIsnan {s : State} (h : s.Canon) {e : Fin 32} {y : Bool} : Out.Canon (execIsnan e y s) :=
  h.runOp (fun _ _ h => h.vxIsnan)

theorem State.Canon.execMand {s : State} (h : s.Canon) {e : Fin 32} {y : Bool} : Out.Canon (execMand e y s) :=
  h.runOp (fun _ _ h => h.vxMand)

theorem State.Canon.execMor {s : State} (h : s.Canon) {e : Fin 32} {y : Bool} : Out.Canon (execMor e y s) :=
  h.runOp (fun _ _ h => h.vxMor)

theorem State.Canon.execMandn {s : State} (h : s.Canon) {e : Fin 32} {y : Bool} : Out.Canon (execMandn e y s) :=
  h.runOp (fun _ _ h => h.vxMandn)

theorem State.Canon.execMnot {s : State} (h : s.Canon) {e : Fin 32} {y : Bool} : Out.Canon (execMnot e y s) :=
  h.runOp (fun _ _ h => h.vxMnot)

theorem State.Canon.execMfill {s : State} (h : s.Canon) {e : Fin 32} {y : Bool} : Out.Canon (execMfill e y s) :=
  h.runOp (fun _ _ h => h.vxMfill)

theorem State.Canon.execRowset {s : State} (h : s.Canon) {e : Fin 32} {y : Bool} : Out.Canon (execRowset e y s) :=
  h.runOp (fun _ _ h => h.vxRowset)

theorem State.Canon.execRsum {s : State} (h : s.Canon) {e : Fin 32} {y : Bool} : Out.Canon (execRsum e y s) :=
  h.runOp (fun _ _ h => h.vxRsum)

theorem State.Canon.execRmax {s : State} (h : s.Canon) {e : Fin 32} {y : Bool} : Out.Canon (execRmax e y s) :=
  h.runOp (fun _ _ h => h.vxRmax)

theorem State.Canon.execRmin {s : State} (h : s.Canon) {e : Fin 32} {y : Bool} : Out.Canon (execRmin e y s) :=
  h.runOp (fun _ _ h => h.vxRmin)

theorem State.Canon.execRargmax {s : State} (h : s.Canon) {e : Fin 32} {y : Bool} : Out.Canon (execRargmax e y s) :=
  h.runOp (fun _ _ h => h.vxRargmax)

theorem State.Canon.execRargmin {s : State} (h : s.Canon) {e : Fin 32} {y : Bool} : Out.Canon (execRargmin e y s) :=
  h.runOp (fun _ _ h => h.vxRargmin)

theorem State.Canon.execRband {s : State} (h : s.Canon) {e : Fin 32} {y : Bool} : Out.Canon (execRband e y s) :=
  h.runOp (fun _ _ h => h.vxRband)

theorem State.Canon.execRbor {s : State} (h : s.Canon) {e : Fin 32} {y : Bool} : Out.Canon (execRbor e y s) :=
  h.runOp (fun _ _ h => h.vxRbor)

theorem State.Canon.execTsum {s : State} (h : s.Canon) {e : Fin 32} {y : Bool} : Out.Canon (execTsum e y s) :=
  h.runOp (fun _ _ h => h.vxTsum)

theorem State.Canon.execTsumsq {s : State} (h : s.Canon) {e : Fin 32} {y : Bool} : Out.Canon (execTsumsq e y s) :=
  h.runOp (fun _ _ h => h.vxTsumsq)

theorem State.Canon.execTmax {s : State} (h : s.Canon) {e : Fin 32} {y : Bool} : Out.Canon (execTmax e y s) :=
  h.runOp (fun _ _ h => h.vxTmax)

theorem State.Canon.execTmin {s : State} (h : s.Canon) {e : Fin 32} {y : Bool} : Out.Canon (execTmin e y s) :=
  h.runOp (fun _ _ h => h.vxTmin)

theorem State.Canon.execTargmax {s : State} (h : s.Canon) {e : Fin 32} {y : Bool} : Out.Canon (execTargmax e y s) :=
  h.runOp (fun _ _ h => h.vxTargmax)

theorem State.Canon.execTargmin {s : State} (h : s.Canon) {e : Fin 32} {y : Bool} : Out.Canon (execTargmin e y s) :=
  h.runOp (fun _ _ h => h.vxTargmin)

theorem State.Canon.execScan {s : State} (h : s.Canon) {e : Fin 32} {y : Bool} : Out.Canon (execScan e y s) :=
  h.runOp (fun _ _ h => h.vxScan)

theorem State.Canon.execFindge {s : State} (h : s.Canon) {e : Fin 32} {y : Bool} : Out.Canon (execFindge e y s) :=
  h.runOp (fun _ _ h => h.vxFindge)

theorem State.Canon.execKth {s : State} (h : s.Canon) {e : Fin 32} {y : Bool} : Out.Canon (execKth e y s) :=
  h.runOp (fun _ _ h => h.vxKth)

theorem State.Canon.execPerm {s : State} (h : s.Canon) {e : Fin 32} {y : Bool} : Out.Canon (execPerm e y s) :=
  h.runOp (fun _ _ h => h.vxPerm)

theorem State.Canon.execBcast {s : State} (h : s.Canon) {e : Fin 32} {y : Bool} : Out.Canon (execBcast e y s) :=
  h.runOp (fun _ _ h => h.vxBcast)

theorem State.Canon.execCompress {s : State} (h : s.Canon) {e : Fin 32} {y : Bool} : Out.Canon (execCompress e y s) :=
  h.runOp (fun _ _ h => h.vxCompress)

theorem State.Canon.execExpand {s : State} (h : s.Canon) {e : Fin 32} {y : Bool} : Out.Canon (execExpand e y s) :=
  h.runOp (fun _ _ h => h.vxExpand)

theorem State.Canon.execScmb {s : State} (h : s.Canon) {e : Fin 32} {y : Bool} : Out.Canon (execScmb e y s) :=
  h.runOp (fun _ _ h => h.vxScmb)

theorem State.Canon.execRng {s : State} (h : s.Canon) {e : Fin 32} {y : Bool} : Out.Canon (execRng e y s) :=
  h.runOp (fun _ _ h => h.vxRng)

theorem State.Canon.execSummary {s : State} (h : s.Canon) {e : Fin 32} {y : Bool} : Out.Canon (execSummary e y s) :=
  h.runOp (fun _ _ h => h.vxSummary)

/-! ### Machine/Mx -/

theorem State.Canon.expandUnit {s : State} (h : s.Canon) {e : Nat} {g : Staged} {fn : Nat} {tbl : List Byte} {o : Obj} :
    (s.expandUnit e g fn tbl o).2.Canon := by
  unfold State.expandUnit
  exact (h.expandBlocks (fun _ _ _ h => h)).foldl fun _ _ h => h.countFlags

theorem State.Canon.feedFault {s : State} (h : s.Canon) {q fn o status : Nat} : (s.feedFault q fn o status).Canon := h.ite h.setKeeper

theorem State.Canon.expandStaged {s : State} (h : s.Canon) {e : Nat} {g : Staged} {fn oi unit : Nat} :
    (s.expandStaged e g fn oi unit).Canon := by
  unfold State.expandStaged
  extract_lets _ _ _ _ r _ s1 s2
  have hr : r.2.Canon := h.expandUnit
  have hs1 : s1.Canon := hr.feedFault.ite hr
  have hs2 : s2.Canon := hs1.raise.ite hs1
  exact hs2.setEng

theorem State.Canon.execFeedExpand {s : State} (h : s.Canon) {e : Fin 32} : Out.Canon (execFeedExpand e s) := by
  unfold Machine.execFeedExpand
  extract_lets
  split
  · exact h
  · split
    · exact h
    · split
      · split
        · exact h.setEng
        · split
          · exact h
          · exact h.expandStaged
      · exact h

theorem State.Canon.freeStaged {s : State} (h : s.Canon) {e : Nat} {gs : List Staged} : (s.freeStaged e gs).Canon := by
  unfold State.freeStaged
  extract_lets _ _ s1
  have hs1 : s1.Canon := h.setEng
  refine hs1.foldl fun s g h => ?_
  split
  · exact h.tblRef
  · exact h

theorem State.Canon.execLatchFill {s : State} (h : s.Canon) {e : Fin 32} : Out.Canon (execLatchFill e s) := by
  unfold Machine.execLatchFill
  extract_lets
  split
  · exact h
  · extract_lets _ _ src
    clear_value src
    split
    · exact h
    · extract_lets
      split
      · exact h.setEng.stopM
      · split
        · split
          · exact h
          · exact h.setEng.freeStaged
        · split
          · exact h
          · extract_lets _ s1 s2
            have hs1 : s1.Canon := h.setEng.freeStaged
            have hs2 : s2.Canon := by
              unfold s2
              split
              · exact hs1
              · exact hs1.feedFault
              · exact hs1
            exact hs2.raise.ite hs2

theorem State.Canon.release {s : State} (h : s.Canon) {e : Nat} : (s.release e).Canon := h.setEng

theorem State.Canon.mmaRow {s : State} (h : s.Canon) {e t wf af seg : Nat} {ow undef : Bool} {tile : LatchTile} {r : Nat} :
    (s.mmaRow e t wf af seg ow undef tile r).Canon := by
  unfold State.mmaRow
  extract_lets
  exact (h.same (by with_reducible rfl)).foldl fun _ _ h => h.setAcc

theorem State.Canon.mxMma {s : State} (h : s.Canon) {e : Nat} {y : Bool} {u : Option Nat} {w : Nat} : (mxMma s e y u w).Canon := by
  unfold Machine.mxMma
  extract_lets
  split
  · exact h.stopV
  · split
    · exact h.ite h.setCtx.event
    · extract_lets _ s0 _ s1 s2 s3
      have hs0 : s0.Canon := h.taint.ite h
      have hs1 : s1.Canon := hs0.setAccInt.ite hs0
      have hs2 : s2.Canon := hs1.foldl fun _ _ h => h.mmaRow
      have hs3 : s3.Canon := hs2.countMx
      split
      · exact (h.release.ite h).advance
      · exact (h.ite h.setCtx.bump.raise).ite (h.stopM.ite (hs3.release.ite hs3).advance)

theorem State.Canon.mxAccset {s : State} (h : s.Canon) {e : Nat} {y : Bool} {u : Option Nat} {w : Nat} : (mxAccset s e y u w).Canon := by
  unfold Machine.mxAccset
  exact h.stopV.ite (h.setAccInt.foldl fun _ _ h => h.foldl fun _ _ h => h.setAcc).countMx.advance

theorem State.Canon.execMma {s : State} (h : s.Canon) {e : Fin 32} {y : Bool} : Out.Canon (execMma e y s) :=
  h.runOp (fun _ _ h => h.mxMma)

theorem State.Canon.execAccset {s : State} (h : s.Canon) {e : Fin 32} {y : Bool} : Out.Canon (execAccset e y s) :=
  h.runOp (fun _ _ h => h.mxAccset)

/-! ### Machine/Figure -/

theorem State.Canon.fgFigure {s : State} (h : s.Canon) {e : Nat} {y : Bool} {u : Option Nat} {w : Nat} : (fgFigure s e y u w).Canon := by
  unfold Machine.fgFigure
  extract_lets u _ _ _ _ _ _ _ n _ _ r
  have hr : r.Canon := by
    unfold r
    refine h.runVx fun s n row u h => ?_
    extract_lets _ _ _ _ s1 _ _ _ _ q
    have hs1 : s1.Canon := h.same rfl
    have hq : q.1.Canon := hs1.storeList
    split
    · exact hs1.storeList
    · exact hq.zeroList.ite hq
  exact h.stopV.ite (hr.bump.ite hr)

theorem State.Canon.execFigure {s : State} (h : s.Canon) {e : Fin 32} {y : Bool} : Out.Canon (execFigure e y s) :=
  h.runOp (fun _ _ h => h.fgFigure)

/-! ### Machine/Mv -/

theorem State.Canon.mvFeed {s : State} (h : s.Canon) {e : Nat} {y : Bool} {u : Option Nat} {w : Nat} : (mvFeed s e y u w).Canon :=
  h.stopV.ite (h.ite (h.setEng.taint.ite h.setEng).advance)

theorem State.Canon.mvScale {s : State} (h : s.Canon) {e : Nat} {y : Bool} {u : Option Nat} {w : Nat} : (mvScale s e y u w).Canon :=
  h.stopV.ite (h.ite (h.setEng.taint.ite h.setEng).advance)

theorem State.Canon.mvTaint {s : State} (h : s.Canon) {e : Nat} {y : Bool} {w : Nat} {writes : Bool} : (s.mvTaint e y w writes).Canon :=
  h.taint.ite h

theorem State.Canon.runCopy {s : State} (h : s.Canon) {e : Nat} {y : Bool} {page pump : Nat} {bs : List Byte} :
    (s.runCopy e y page pump bs).Canon :=
  h.copyDesc.endDesc.ite h.copyDesc.endDesc.setCtx

theorem State.Canon.mvGet {s : State} (h : s.Canon) {e : Nat} {y : Bool} {u : Option Nat} {w : Nat} : (mvGet s e y u w).Canon :=
  h.stopV.ite h.mvTaint.runCopy.advance

theorem State.Canon.mvPut {s : State} (h : s.Canon) {e : Nat} {y : Bool} {u : Option Nat} {w : Nat} : (mvPut s e y u w).Canon :=
  h.stopV.ite (h.stopM.ite h.mvTaint.runCopy.advance)

theorem State.Canon.mvRowin {s : State} (h : s.Canon) {e : Nat} {y : Bool} {u : Option Nat} {w : Nat} : (mvRowin s e y u w).Canon :=
  h.stopV.ite (h.stopM.ite h.mvTaint.setRowBytes.advance)

theorem State.Canon.mvRowout {s : State} (h : s.Canon) {e : Nat} {y : Bool} {u : Option Nat} {w : Nat} : (mvRowout s e y u w).Canon :=
  h.stopV.ite h.mvTaint.storeWrite.advance

theorem State.Canon.addCtr {s : State} (h : s.Canon) {e : Nat} {y : Bool} {ctr v : Nat} : (s.addCtr e y ctr v).Canon := h.ite h.setCtx

theorem State.Canon.syEnd {s : State} (h : s.Canon) {e : Nat} {y : Bool} {u : Option Nat} {w : Nat} : (syEnd s e y u w).Canon :=
  h.endProg

theorem State.Canon.syFence {s : State} (h : s.Canon) {e : Nat} {y : Bool} {u : Option Nat} {w : Nat} : (syFence s e y u w).Canon :=
  h.advance.ite h

theorem State.Canon.sySignal {s : State} (h : s.Canon) {e : Nat} {y : Bool} {u : Option Nat} {w : Nat} : (sySignal s e y u w).Canon := by
  unfold Machine.sySignal
  exact h.stopV.ite (h.ite (h.addCtr.ite ((h.foldl fun _ _ h => h.addCtr).ite h.addCtr)).advance)

theorem State.Canon.syWait {s : State} (h : s.Canon) {e : Nat} {y : Bool} {u : Option Nat} {w : Nat} : (syWait s e y u w).Canon :=
  h.stopV.ite (h.ite h.setCtx.advance)

theorem State.Canon.syNotify {s : State} (h : s.Canon) {e : Nat} {y : Bool} {u : Option Nat} {w : Nat} : (syNotify s e y u w).Canon :=
  h.post.advance

theorem State.Canon.syJump {s : State} (h : s.Canon) {e : Nat} {y : Bool} {u : Option Nat} {w : Nat} : (syJump s e y u w).Canon :=
  h.goTo

theorem State.Canon.execFeed {s : State} (h : s.Canon) {e : Fin 32} {y : Bool} : Out.Canon (execFeed e y s) :=
  h.runOp (fun _ _ h => h.mvFeed)

theorem State.Canon.execScale {s : State} (h : s.Canon) {e : Fin 32} {y : Bool} : Out.Canon (execScale e y s) :=
  h.runOp (fun _ _ h => h.mvScale)

theorem State.Canon.execGet {s : State} (h : s.Canon) {e : Fin 32} {y : Bool} : Out.Canon (execGet e y s) :=
  h.runOp (fun _ _ h => h.mvGet)

theorem State.Canon.execPut {s : State} (h : s.Canon) {e : Fin 32} {y : Bool} : Out.Canon (execPut e y s) :=
  h.runOp (fun _ _ h => h.mvPut)

theorem State.Canon.execRowin {s : State} (h : s.Canon) {e : Fin 32} {y : Bool} : Out.Canon (execRowin e y s) :=
  h.runOp (fun _ _ h => h.mvRowin)

theorem State.Canon.execRowout {s : State} (h : s.Canon) {e : Fin 32} {y : Bool} : Out.Canon (execRowout e y s) :=
  h.runOp (fun _ _ h => h.mvRowout)

theorem State.Canon.execEnd {s : State} (h : s.Canon) {e : Fin 32} {y : Bool} : Out.Canon (execEnd e y s) :=
  h.runOp (fun _ _ h => h.syEnd)

theorem State.Canon.execFence {s : State} (h : s.Canon) {e : Fin 32} {y : Bool} : Out.Canon (execFence e y s) :=
  h.runOp (fun _ _ h => h.syFence)

theorem State.Canon.execSignal {s : State} (h : s.Canon) {e : Fin 32} {y : Bool} : Out.Canon (execSignal e y s) :=
  h.runOp (fun _ _ h => h.sySignal)

theorem State.Canon.execWait {s : State} (h : s.Canon) {e : Fin 32} {y : Bool} : Out.Canon (execWait e y s) :=
  h.runOp (fun _ _ h => h.syWait)

theorem State.Canon.execNotify {s : State} (h : s.Canon) {e : Fin 32} {y : Bool} : Out.Canon (execNotify e y s) :=
  h.runOp (fun _ _ h => h.syNotify)

theorem State.Canon.execJump {s : State} (h : s.Canon) {e : Fin 32} {y : Bool} : Out.Canon (execJump e y s) :=
  h.runOp (fun _ _ h => h.syJump)

theorem State.Canon.execKeeperCounterAdd {s : State} (h : s.Canon) {e : Fin 32} {ctr : Fin 16} {value : W16} :
    Out.Canon (execKeeperCounterAdd e ctr value s) :=
  h.addCtr

theorem State.Canon.wordRun {s : State} (h : s.Canon) {w e : Nat} {y : Bool} {u : Option Nat} {v : Nat} : (wordRun w s e y u v).Canon := by
  suffices key : ∀ f, Machine.wordRun w = f → (f s e y u v).Canon from key _ rfl
  unfold Machine.wordRun
  split <;> rintro _ rfl
  · exact h.syEnd
  · exact h.syFence
  · exact h.sySignal
  · exact h.syWait
  · exact h.syNotify
  · exact h.syJump
  · exact h.mxMma
  · exact h.mxAccset
  · exact h.vxRunOf
  · exact h.fgFigure
  · exact h.mvFeed
  · exact h.mvScale
  · exact h.mvGet
  · exact h.mvPut
  · exact h.mvRowin
  · exact h.mvRowout

theorem State.Canon.startProg {s : State} (h : s.Canon) {e : Nat} {y : Bool} {entry round cls func : Nat} {test : Bool} :
    (s.startProg e y entry round cls func test).Canon := by
  unfold State.startProg
  extract_lets _ _ s0 _ s1 s2
  have hs0 : s0.Canon := h.zeroCtx.ite h
  have hs1 : s1.Canon := hs0.setCtx.setEngState
  have hs2 : s2.Canon := hs1.setReg.setReg
  exact hs2.setFld.setFld.setFld.setFld.setFld.ite hs2

theorem State.Canon.execTestProgramStart {s : State} (h : s.Canon) {e : Fin 32} {value : W32} :
    Out.Canon (execTestProgramStart e value s) :=
  h.regWrite (fun _ h => h.setFld.setFld.setFld.startProg.ite h.setFld.setFld)

theorem State.Canon.execProgramStoreWrite {s : State} (h : s.Canon) {e : Fin 32} {value : W32} :
    Out.Canon (execProgramStoreWrite e value s) := by
  unfold Machine.execProgramStoreWrite
  extract_lets
  refine h.regWrite fun s h => ?_
  extract_lets _ _ _ _ s1 s2 s3
  have hs1 : s1.Canon := h.setReg.setEng
  have hs2 : s2.Canon := hs1.setFld
  have hs3 : s3.Canon := hs2.taint.ite hs2
  exact (hs3.taint.ite hs3).ite hs2

theorem State.Canon.execEngineHalt {s : State} (h : s.Canon) {e : Fin 32} : Out.Canon (execEngineHalt e s) :=
  h.regWrite (fun _ h => h.setFld.setEngState.ite h.setFld)

theorem State.Canon.execEngineResume {s : State} (h : s.Canon) {e : Fin 32} : Out.Canon (execEngineResume e s) :=
  h.regWrite (fun _ h => h.setFld.setEngState.ite h.setFld)

theorem State.Canon.execEngineStep {s : State} (h : s.Canon) {e : Fin 32} : Out.Canon (execEngineStep e s) := by
  unfold Machine.execEngineStep
  refine h.regWrite fun s h => ?_
  extract_lets _ _ _ s0 s1
  have hs0 : s0.Canon := h.setEngState
  have hs1 : s1.Canon := hs0.taint.advance.ite hs0.wordRun
  exact h.ite (h.ite (hs1.setEngState.ite hs1))

theorem State.Canon.takeBranch {s : State} (h : s.Canon) {e : Nat} {y : Bool} {word : W32} : (s.takeBranch e y word).Canon := by
  unfold State.takeBranch
  extract_lets _ s1 s2
  have hs1 : s1.Canon := h.setReg
  have hs2 : s2.Canon := hs1.setFld.ite hs1
  exact hs2.endProg.ite (hs2.goTo.ite hs2.advance)

theorem State.Canon.execBranchWord {s : State} (h : s.Canon) {e : Fin 32} {y : Bool} : Out.Canon (execBranchWord e y s) := by
  unfold Machine.execBranchWord
  extract_lets
  split
  · exact h
  · exact (h.raise.ite h).takeBranch

theorem State.Canon.execBranchCmd {s : State} (h : s.Canon) {e : Fin 32} {value : W32} : Out.Canon (execBranchCmd e value s) :=
  h.regWrite (fun _ h => h.ite (h.takeBranch.ite (h.takeBranch.ite h)))

theorem State.Canon.execYProgramYield {s : State} (h : s.Canon) {e : Fin 32} {row : Option (Fin 256)} :
    Out.Canon (execYProgramYield e row s) := by
  unfold Machine.execYProgramYield
  extract_lets _ _ _ _ s1 _ _ _ _ _ s2 s3
  have hs1 : s1.Canon := h.vxRunOf.ite h
  have hs2 : s2.Canon := hs1.setEng
  have hs3 : s3.Canon := hs2.setCtx.setEngState
  split
  · exact h
  · split
    · exact hs1
    · exact hs3.setFld.setFld.event

theorem State.Canon.execYProgramResume {s : State} (h : s.Canon) {e : Fin 32} : Out.Canon (execYProgramResume e s) := by
  unfold Machine.execYProgramResume
  extract_lets _ _ s1
  have hs1 : s1.Canon := by
    unfold s1
    split
    · exact h
    · exact h.setEng.ite h.setEng
  split
  · exact h
  · exact hs1.setCtx.setEngState.setFld

theorem State.Canon.resetEngine {s : State} (h : s.Canon) {e : Nat} : (s.resetEngine e).Canon := by
  unfold State.resetEngine
  extract_lets _ s1 s2 s3 s4 s5 _ _ s6 _ s7 s8
  have hs1 : s1.Canon := h.foldl fun _ _ h => h.endFlying
  have hs2 : s2.Canon := hs1.endY.ite hs1
  have hs3 : s3.Canon := hs2.freeStaged
  have hs4 : s4.Canon := hs3.leave.ite hs3
  have hs5 : s5.Canon := hs4.zeroCtx.zeroCtx
  have hs6 : s6.Canon := hs5.setEng
  have hs7 : s7.Canon := hs6.ofStore (SMap.wf_dropBlock hs6.storeWf) rfl
  have hs8 : s8.Canon := hs7.setFld.setFld
  exact hs8.ite hs8.setEngState

/-! ### Machine/Session -/

theorem State.Canon.setSes {s : State} (h : s.Canon) {sid : Nat} {x : Session} : (s.setSes sid x).Canon := h.same rfl

theorem State.Canon.setModel {s : State} (h : s.Canon) {m : Nat} {x : Model} : (s.setModel m x).Canon := h.same rfl

theorem State.Canon.setTen {s : State} (h : s.Canon) {t : Nat} {x : Ten} : (s.setTen t x).Canon := h.same rfl

theorem State.Canon.setAdapter {s : State} (h : s.Canon) {a : Nat} {x : Adapter} : (s.setAdapter a x).Canon := h.same rfl

theorem State.Canon.setJournal {s : State} (h : s.Canon) {j : List JRec} : (s.setJournal j).Canon := h.same rfl

theorem State.Canon.setRounds {s : State} (h : s.Canon) {r : List Round} : (s.setRounds r).Canon := h.same rfl

theorem State.Canon.journalAdd {s : State} (h : s.Canon) {sid owner kind round aux : Nat} {body : List Byte} {what : JWhat} :
    (s.journalAdd sid owner kind round aux body what).Canon :=
  h.setJournal.setSes

theorem State.Canon.journalCheck {s : State} (h : s.Canon) : s.journalCheck.Canon := by
  unfold State.journalCheck
  exact h.foldl fun _ _ h => ((h.same (by with_reducible rfl)).ite h).ite ((h.same (by with_reducible rfl)).raise.logErr.ite h)

theorem State.Canon.writeRecords {s : State} (h : s.Canon) {sid round : Nat} {rs : List (List Byte)} :
    (s.writeRecords sid round rs).Canon :=
  h.ite h.setSes.journalAdd

theorem State.Canon.plainRecord {s : State} (h : s.Canon) {sid tok flags status rtag : Nat} :
    (s.plainRecord sid tok flags status rtag).Canon :=
  h.draw.writeRecords

theorem State.Canon.stateRecord {s : State} (h : s.Canon) {sid tok : Nat} : (s.stateRecord sid tok).Canon := h.plainRecord.ite h

theorem State.Canon.effect {s : State} (h : s.Canon) {sid : Nat} {r : Req} : (s.effect sid r).Canon := h.journalAdd

theorem State.Canon.enter {s : State} (h : s.Canon) {sid : Nat} {st : SesState} : (s.enter sid st).Canon := h.setSes

theorem State.Canon.settleMove {s : State} (h : s.Canon) {sid : Nat} : (s.settleMove sid).Canon := by
  unfold State.settleMove
  extract_lets
  split
  · exact h.enter.ite h
  · exact h.enter.ite h
  · exact h.setSes.enter.ite h
  · exact h.setSes.enter.ite h
  · exact h.setSes.ite h
  · exact h.setSes.ite h
  · exact h

theorem State.Canon.complete {s : State} (h : s.Canon) {sid : Nat} {r : Req} {status : Nat} : (s.complete sid r status).Canon :=
  (h.plainRecord.setSes.raise.ite h.plainRecord.setSes).settleMove

theorem State.Canon.doneEffect {s : State} (h : s.Canon) {sid : Nat} {r : Req} : (s.doneEffect sid r).Canon := h.effect.complete

theorem State.Canon.freePage {s : State} (h : s.Canon) {p : KvPage} : (s.freePage p).Canon := h.ite h.useSlots

theorem State.Canon.freePages {s : State} (h : s.Canon) {sid : Nat} : (s.freePages sid).Canon := by
  unfold State.freePages
  exact (h.foldl fun _ _ h => h.foldl fun _ _ h => h.freePage).setSes

theorem State.Canon.freeKept {s : State} (h : s.Canon) {sid : Nat} : (s.freeKept sid).Canon := by
  unfold State.freeKept
  extract_lets _ s1 _ s2
  have hs1 : s1.Canon := h.foldl fun _ _ h => h.useLoc
  have hs2 : s2.Canon := hs1.same (by with_reducible rfl)
  exact hs2.setSes

theorem State.Canon.unlink {s : State} (h : s.Canon) {sid : Nat} : (s.unlink sid).Canon := by
  unfold State.unlink
  extract_lets _ s1
  have hs1 : s1.Canon := by
    unfold s1
    refine h.foldl fun s n h => ?_
    extract_lets
    split
    · exact h.same rfl
    · exact h
  exact hs1.setSes

theorem State.Canon.discardSession {s : State} (h : s.Canon) {sid : Nat} : (s.discardSession sid).Canon := by
  unfold State.discardSession
  extract_lets _ s1
  have hs1 : s1.Canon := h.freePages.freeKept.unlink.freePages.freeKept.unlink
  exact hs1.same (by with_reducible rfl)

theorem State.Canon.gone {s : State} (h : s.Canon) {sid : Nat} : (s.gone sid).Canon := by
  unfold State.gone
  extract_lets _ s1 _ s2
  have hs1 : s1.Canon := h.setJournal
  have hs2 : s2.Canon := hs1.same (by with_reducible rfl)
  exact hs2.same (by with_reducible rfl)

theorem State.Canon.tryGone {s : State} (h : s.Canon) {sid : Nat} : (s.tryGone sid).Canon := h.gone.ite h

theorem State.Canon.endSession {s : State} (h : s.Canon) {sid : Nat} {status : Option Nat} : (s.endSession sid status).Canon := by
  unfold State.endSession
  extract_lets s1 s2
  have hs1 : s1.Canon := by
    unfold s1
    refine h.foldl fun s r h => ?_
    extract_lets d
    have hd : d.2.Canon := h.draw
    split
    · exact h.plainRecord
    · exact hd.plainRecord
  have hs2 : s2.Canon := hs1.stateRecord.discardSession
  exact hs2.setSes.tryGone

theorem State.Canon.discardSilent {s : State} (h : s.Canon) {sid : Nat} : (s.discardSilent sid).Canon := h.discardSession.setTen.gone

/-! ### Machine/Submit -/

theorem State.Canon.startRead {s : State} (h : s.Canon) {t : Nat} : (s.startRead t).Canon := h.setTen.emit.ite h

theorem State.Canon.passHead {s : State} (h : s.Canon) {t : Nat} : (s.passHead t).Canon :=
  (h.setFld.shadowLive.setTen.irq.ite h.setFld.shadowLive.setTen).startRead

theorem State.Canon.badDoorbell {s : State} (h : s.Canon) {t index : Nat} {tr : Bool} : (s.badDoorbell t index tr).Canon :=
  h.fault.raise

theorem State.Canon.execSqDoorbell {s : State} (h : s.Canon) {t : Fin 64} {value : W32} : Out.Canon (execSqDoorbell t value s) :=
  h.regWrite (fun _ h => h.event.badDoorbell.ite h.event.setFld.startRead)

theorem State.Canon.execTrDoorbell {s : State} (h : s.Canon) {t : Fin 64} {value : W32} : Out.Canon (execTrDoorbell t value s) :=
  h.regWrite (fun _ h => h.event.badDoorbell.ite h.event.setFld)

theorem State.Canon.ringRead' {s : State} (h : s.Canon) {t : Nat} {data : Option (List Byte)} : (s.ringRead' t data).Canon := by
  unfold State.ringRead'
  extract_lets _ s1
  have hs1 : s1.Canon := h.setTen
  split
  · exact h
  · split
    · exact hs1.setTen.ite hs1
    · exact hs1.fault.raise.setFnState.ite hs1

theorem State.Canon.execHostReadCompletion {s : State} (h : s.Canon) {t : Fin 64} {data : Option (List Byte)} :
    Out.Canon (execHostReadCompletion t data s) :=
  h.gate (fun _ h => h.ringRead')

theorem State.Canon.execCompletionTimeout {s : State} (h : s.Canon) {t : Fin 64} : Out.Canon (execCompletionTimeout t s) :=
  h.gate (fun _ h => h.ringRead')

theorem State.Canon.readEntry {s : State} (h : s.Canon) {t : Nat} {e : List Byte} {host : Option (List Byte)} :
    (s.readEntry t e host).Canon := by
  unfold State.readEntry
  split
  · exact h.emit
  · exact h

theorem State.Canon.refuseEntry {s : State} (h : s.Canon) {t : Nat} {e : List Byte} : (s.refuseEntry t e).Canon :=
  (h.draw.draw.setSes.ite h.draw.draw).setTen.raise

theorem State.Canon.acceptEntry {s : State} (h : s.Canon) {t : Nat} {e : List Byte} {host : Option (List Byte)} {owner : Nat} {req : Req}
    {slot : Nat} : (s.acceptEntry t e host owner req slot).Canon := by
  unfold State.acceptEntry
  extract_lets _ _ _ _ s2 _ s3
  have hs2 : s2.Canon := (h.same (by with_reducible rfl)).ite h
  have hs3 : s3.Canon := hs2.setSes.ite hs2
  exact hs3.setTen.journalAdd.journalCheck

theorem State.Canon.execSubmissionTake {s : State} (h : s.Canon) {t : Fin 64} {host : Option (List Byte)} :
    Out.Canon (execSubmissionTake t host s) := by
  unfold Machine.execSubmissionTake
  refine h.gate fun s h => ?_
  split
  · exact h
  · split
    · exact h
    · split
      · exact h.readEntry.refuseEntry
      · exact h.readEntry.acceptEntry

theorem State.Canon.accept {s : State} (h : s.Canon) {t sid : Nat} {r : Req} : (s.accept t sid r).Canon := by
  unfold State.accept
  extract_lets _ s0 _ _ _ s1 _ _ _ _ s2
  have hs0 : s0.Canon := h.event.event
  have hs1 : s1.Canon := hs0.same (by with_reducible rfl)
  have hs2 : s2.Canon := hs1.setSes
  split
  · exact hs1.setSes.plainRecord.raise.ite hs1.setSes
  · exact hs1.plainRecord.ite (hs1.setTen.ite (hs2.complete.ite (hs2.complete.ite hs2.settleMove)))

theorem State.Canon.execJournalWriteComplete {s : State} (h : s.Canon) {sid : W32} : Out.Canon (execJournalWriteComplete sid s) := by
  unfold Machine.execJournalWriteComplete
  extract_lets
  refine h.gate fun s h => ?_
  split
  · exact h
  · extract_lets s1 _ s2
    have hs1 : s1.Canon := h.setJournal
    have hs2 : s2.Canon := by
      unfold s2
      split
      · exact hs1.accept.passHead
      · exact hs1.setTen
      · exact hs1
      · exact hs1.setJournal
    exact hs2.tryGone.journalCheck

theorem State.Canon.commitRec {s : State} (h : s.Canon) {p : PRec} : (s.commitRec p).Canon := by
  unfold State.commitRec
  extract_lets
  exact (h.same (by with_reducible rfl)).ite h

theorem State.Canon.sendRecords {s : State} (h : s.Canon) {t : Nat} {ps : List PRec} : (s.sendRecords t ps).Canon := by
  unfold State.sendRecords
  exact h.foldl fun _ _ h => h.emit

theorem State.Canon.deliver {s : State} (h : s.Canon) {t k : Nat} : (s.deliver t k).Canon := by
  unfold State.deliver
  extract_lets _ _ _ s2 s3 _ _ _ s4 s5
  have hs2 : s2.Canon := h.sendRecords.shadow.setFld
  have hs3 : s3.Canon := hs2.foldl fun _ _ h => h.commitRec
  have hs4 : s4.Canon := hs3.setTen
  have hs5 : s5.Canon := hs4.irq.ite hs4
  exact hs5.passHead.ite hs5

theorem State.Canon.execTokenDelivery {s : State} (h : s.Canon) {t : Fin 64} {count : W32} : Out.Canon (execTokenDelivery t count s) := by
  unfold Machine.execTokenDelivery
  refine h.gate fun s h => ?_
  split
  · exact h
  · exact h.deliver

theorem State.Canon.execTokenIrqDelayExpiry {s : State} (h : s.Canon) {t : Fin 64} : Out.Canon (execTokenIrqDelayExpiry t s) := by
  unfold Machine.execTokenIrqDelayExpiry
  refine h.gate fun s h => ?_
  extract_lets
  split
  · exact h
  · exact h.setTen.irq

/-! ### Machine/Kv -/

theorem State.Canon.kvGrow {s : State} (h : s.Canon) {sid l hd : Nat} : CanonOpt (s.kvGrow sid l hd) :=
  CanonOpt.map_of fun _ => h.useSlots.setSes

theorem State.Canon.kvGrowN {s : State} (h : s.Canon) {sid l k n : Nat} : CanonOpt (s.kvGrowN sid l k n) := by
  induction n generalizing s with
  | zero => exact h
  | succ n ih => exact h.kvGrow.bind fun _ h => ih h

theorem State.Canon.kvCover {s : State} (h : s.Canon) {sid n : Nat} : CanonOpt (s.kvCover sid n) :=
  CanonOpt.foldl (o := some s) h fun _ _ ho => ho.bind fun _ h => h.kvGrowN

theorem State.Canon.kvReserve {s : State} (h : s.Canon) {sid n : Nat} : Reserve.Canon (s.kvReserve sid n) := by
  unfold State.kvReserve
  extract_lets
  split
  · exact h
  · split
    · next s1 heq =>
        have hs1 : s1.Canon := h.kvCover.eq heq
        split
        · exact hs1
        · split
          · next s2 heq =>
              have hs2 : s2.Canon := h.evictOne.eq heq
              split
              · next s3 heq =>
                  have hs3 : s3.Canon := hs2.kvCover.eq heq
                  split
                  · exact hs3
                  · exact hs2
              · exact hs2
          · exact h
    · split
      · next s2 heq =>
          have hs2 : s2.Canon := h.evictOne.eq heq
          split
          · next s3 heq =>
              have hs3 : s3.Canon := hs2.kvCover.eq heq
              split
              · exact hs3
              · exact hs2
          · exact hs2
      · exact h

theorem State.Canon.pageWrite {s : State} (h : s.Canon) {p : KvPage} {half o : Nat} {data : List Byte} :
    (s.pageWrite p half o data).Canon := by
  unfold State.pageWrite
  refine h.foldl_snd fun a e h => ?_
  dsimp only
  exact h.writeCol

theorem State.Canon.pageRead {s : State} (h : s.Canon) {p : KvPage} {half o n : Nat} : (s.pageRead p half o n).2.2.Canon := by
  unfold State.pageRead
  refine h.foldl_snd_snd fun a e h => ?_
  extract_lets r
  have hr : r.2.Canon := h.readCol
  dsimp only
  exact hr

theorem State.Canon.moveEntry {s : State} (h : s.Canon) {sid fromPos toPos : Nat} : (s.moveEntry sid fromPos toPos).Canon := by
  unfold State.moveEntry
  extract_lets
  split
  · exact h
  · refine h.foldl fun s e h => ?_
    split
    · exact h.foldl fun _ _ h => h.pageRead.pageWrite
    · exact h

theorem State.Canon.kvTrim {s : State} (h : s.Canon) {sid n : Nat} : (s.kvTrim sid n).Canon := by
  unfold State.kvTrim
  exact h.foldl fun _ _ h => (h.foldl fun _ _ h => h.freePage).setSes

theorem State.Canon.keptCol {s : State} (h : s.Canon) {x : Session} {o : Nat} : (s.keptCol x o).2.Canon := by
  unfold State.keptCol
  split
  · exact h.tileCol
  · exact h

theorem State.Canon.keptWrite {s : State} (h : s.Canon) {x : Session} {o : Nat} {data : List Byte} : (s.keptWrite x o data).Canon := by
  unfold State.keptWrite
  refine h.foldl_snd fun a e h => ?_
  split
  · next k s1 heq =>
      have hs1 : s1.Canon := h.keptCol.of_snd heq
      dsimp only
      exact hs1.writeCol
  · next s1 heq => exact h.keptCol.of_snd heq

theorem State.Canon.keptRead {s : State} (h : s.Canon) {x : Session} {o n : Nat} : (s.keptRead x o n).2.2.Canon := by
  unfold State.keptRead
  refine h.foldl_snd_snd fun a e h => ?_
  extract_lets
  split
  · split
    · next k s1 heq =>
        have hs1 : s1.Canon := h.keptCol.of_snd heq
        extract_lets r
        have hr : r.2.Canon := hs1.readCol
        dsimp only
        exact hr
    · next s1 heq => exact h.keptCol.of_snd heq
  · dsimp only
    exact h

theorem State.Canon.takeSpread {s : State} (h : s.Canon) {fn q ver n : Nat} {r : List StackLoc × State}
    (hr : s.takeSpread fn q ver n = some r) : r.2.Canon := by
  induction n generalizing s r with
  | zero => cases hr; exact h
  | succ n ih =>
    unfold State.takeSpread at hr
    extract_lets place here at hr
    have hplace {t : State} (ht : t.Canon) {a : StackLoc × State} (ha : place t = some a) : a.2.Canon := by
      obtain ⟨p, -, rfl⟩ := Option.map_eq_some_iff.1 ha
      exact ht.useLoc
    have hhere {a : StackLoc × State} (ha : here = some a) : a.2.Canon := by
      unfold here at ha
      split at ha
      · cases ha
      · next s1 he =>
        have hs1 : s1.Canon := h.underCap.eq he
        split at ha
        · next b hb =>
          cases ha
          exact hplace hs1 hb
        · obtain ⟨t, ht, ha⟩ := Option.bind_eq_some_iff.1 ha
          exact hplace (hs1.evictOne.eq ht) ha
    obtain ⟨a, ha, hr⟩ := Option.bind_eq_some_iff.1 hr
    obtain ⟨b, hb, rfl⟩ := Option.map_eq_some_iff.1 hr
    exact ih (r := b) (hhere ha) hb

theorem State.Canon.settleOne {s : State} (h : s.Canon) {sid : Nat} : CanonOpt (s.settleOne sid) := by
  unfold State.settleOne
  extract_lets
  refine CanonOpt.map_mem fun r hr => ?_
  extract_lets y s1
  have hs1 : s1.Canon := by
    refine (h.takeSpread hr).foldl fun s i h => ?_
    split
    · exact h.pageRead.pageRead.keptWrite
    · exact h
  exact hs1.setSes.freePages

theorem State.Canon.execSettleComplete {s : State} (h : s.Canon) {sid : W32} : Out.Canon (execSettleComplete sid s) := by
  unfold Machine.execSettleComplete
  extract_lets
  refine h.gate fun s h => ?_
  extract_lets _ r
  have hr : CanonOpt r := by
    unfold r
    refine h.settleOne.bind fun s h => ?_
    split
    · exact h.settleOne
    · exact h
  split
  · exact h
  · clear_value r
    cases r with
    | none => exact h
    | some s1 =>
      have hs1 : s1.Canon := hr
      exact hs1.enter.stateRecord.settleMove

theorem State.Canon.sinkOne {s : State} (h : s.Canon) {sid : Nat} : CanonOpt (s.sinkOne sid) := by
  unfold State.sinkOne
  extract_lets x _ r
  have hr : ∀ a, r = some a → a.2.Canon := by
    refine foldl_keeps (fun o : Option (List Nat × State) => ∀ a, o = some a → a.2.Canon) _ (fun o _ ho a ha => ?_) _ _ fun a ha => ?_
    · obtain ⟨b, hb, ha⟩ := Option.bind_eq_some_iff.1 ha
      split at ha
      · cases ha
      · obtain ⟨u, -, rfl⟩ := Option.map_eq_some_iff.1 ha
        exact (ho b hb).eraseSump
    · cases ha
      exact h
  refine CanonOpt.map_mem fun a ha => ?_
  extract_lets s1 s2
  have hs1 : s1.Canon := by
    refine (hr a ha).foldl fun s i h => ?_
    have hd : (s.keptRead x (32 * i) 32).2.2.Canon := h.keptRead
    exact hd.setSump
  have hs2 : s2.Canon := hs1.foldl fun _ _ h => h.useLoc
  exact hs2.setSes

theorem State.Canon.execSinkComplete {s : State} (h : s.Canon) {sid : W32} : Out.Canon (execSinkComplete sid s) := by
  unfold Machine.execSinkComplete
  extract_lets
  refine h.gate fun s h => ?_
  extract_lets _ r
  have hr : CanonOpt r := by
    unfold r
    refine h.sinkOne.bind fun s h => ?_
    split
    · exact h.sinkOne
    · exact h
  split
  · exact h
  · clear_value r
    cases r with
    | none => exact h.raise.enter.settleMove
    | some s1 =>
      have hs1 : s1.Canon := hr
      exact hs1.enter.stateRecord.settleMove

theorem State.Canon.wakeOne {s : State} (h : s.Canon) {sid : Nat} {exact : Bool} : CanonOpt (s.wakeOne sid exact) := by
  unfold State.wakeOne
  extract_lets x m slot place
  have hplace : CanonOpt place := CanonOpt.foldl (o := some s) h fun _ _ ho => ho.bind fun _ h => h.kvGrow
  refine hplace.map fun s1 h => ?_
  extract_lets r redo s2
  have hr : r.2.Canon := by
    refine h.foldl_snd fun a i h => ?_
    extract_lets d w
    have hd : d.2.2.Canon := h.keptRead
    split
    · split
      · exact hd.pageWrite.pageWrite
      · exact hd
    · exact hd
  have hs2 : s2.Canon := (h.ite hr).freeKept
  exact hs2.setSes

/-! ### Machine/Prefix -/

theorem State.Canon.refNode {s : State} (h : s.Canon) {n : Nat} {p : PNode} {now : BitVec 64} : (s.refNode n p now).Canon := h.same rfl

theorem State.Canon.linkNode {s : State} (h : s.Canon) {sid n : Nat} {p : PNode} : (s.linkNode sid n p).Canon := h.refNode.setSes

theorem State.Canon.copyLead {s : State} (h : s.Canon) {sid m : Nat} {p : PNode} : CanonOpt (s.copyLead sid m p) := by
  unfold State.copyLead
  extract_lets
  split
  · next s1 heq =>
      have hs1 : s1.Canon := h.kvReserve.eq heq
      refine hs1.foldl fun s e h => ?_
      refine h.foldl fun s k h => ?_
      extract_lets
      split
      · exact h.foldl fun _ _ h => h.pageRead.pageWrite
      · exact h
  · exact trivial

theorem State.Canon.linkPrefix {s : State} (h : s.Canon) {sid fuel : Nat} : (s.linkPrefix sid fuel).Canon := by
  induction fuel generalizing s with
  | zero => exact h
  | succ fuel ih =>
    unfold State.linkPrefix
    extract_lets x
    split
    · exact h
    · split
      · exact h
      · extract_lets kids next best
        split
        · exact ih h.linkNode
        · clear_value best
          split
          · split
            · next s1 heq => exact (h.copyLead.eq heq).setSes
            · exact h
          · exact h

theorem State.Canon.insertNode {s : State} (h : s.Canon) {sid : Nat} {adp : Option Nat} {ver fuel : Nat} :
    (s.insertNode sid adp ver fuel).Canon := by
  induction fuel generalizing s with
  | zero => exact h
  | succ fuel ih =>
    unfold State.insertNode
    extract_lets
    split
    · exact h
    · split
      · refine ih (State.Canon.setSes ?_)
        exact (h.foldl fun _ _ h => h.freePage).refNode
      · refine ih (State.Canon.setSes ?_)
        exact h.same rfl

/-! ### Machine/Entry -/

theorem State.Canon.onHead {s : State} (h : s.Canon) {sid : W32} {typ : Nat} {k : Req → State → State}
    (hk : ∀ a t, t.Canon → (k a t).Canon) : Out.Canon (s.onHead sid typ k) := by
  unfold State.onHead
  extract_lets
  split
  · split
    · exact hk _ _ h
    · exact h
  · exact h

theorem State.Canon.stampReady {s : State} (h : s.Canon) {sid : Nat} : (s.stampReady sid).Canon := by
  unfold State.stampReady
  extract_lets
  exact (h.same (by with_reducible rfl)).setSes

theorem State.Canon.execOpen {s : State} (h : s.Canon) {sid : W32} : Out.Canon (execOpen sid s) := by
  unfold Machine.execOpen
  extract_lets
  refine h.gate fun s h => ?_
  extract_lets
  split
  · extract_lets
    split
    · exact h.setSes.enter.doneEffect
    · exact h
  · exact h

theorem State.Canon.finishAppend {s : State} (h : s.Canon) {sid : Nat} : (s.finishAppend sid).Canon := by
  unfold State.finishAppend
  split
  · exact h.complete.ite h
  · exact h

theorem State.Canon.execAppend {s : State} (h : s.Canon) {sid : W32} : Out.Canon (execAppend sid s) :=
  h.gate (fun _ h => h.onHead (fun _ _ h => h.ite h.setSes.linkPrefix.finishAppend))

theorem State.Canon.execGenerate {s : State} (h : s.Canon) {sid : W32} : Out.Canon (execGenerate sid s) :=
  h.gate (fun _ h => h.onHead (fun _ _ h => h.ite h.setSes.stampReady))

theorem State.Canon.execClose {s : State} (h : s.Canon) {sid : W32} : Out.Canon (execClose sid s) :=
  h.gate (fun _ h => h.onHead (fun _ _ h => h.effect.plainRecord.setSes.endSession))

theorem State.Canon.park {s : State} (h : s.Canon) {sid : Nat} {r : Req} : (s.park sid r).Canon := h.setSes.doneEffect

theorem State.Canon.resume {s : State} (h : s.Canon) {sid : Nat} {r : Req} : (s.resume sid r).Canon := by
  unfold State.resume
  extract_lets
  split
  · exact h.setSes.effect.enter
  · exact h.setSes.effect.enter
  · exact h.setSes.effect
  · exact h.setSes.effect
  · exact h.setSes.effect
  · exact h.setSes.doneEffect

theorem State.Canon.execPark {s : State} (h : s.Canon) {sid : W32} : Out.Canon (execPark sid s) := by
  unfold Machine.execPark
  extract_lets
  refine h.gate fun s h => ?_
  extract_lets
  split
  · split
    · exact h.park
    · exact h
  · exact h

theorem State.Canon.execResume {s : State} (h : s.Canon) {sid : W32} : Out.Canon (execResume sid s) := by
  unfold Machine.execResume
  extract_lets
  refine h.gate fun s h => ?_
  extract_lets
  split
  · split
    · exact h.resume
    · exact h
  · exact h

theorem State.Canon.resumeDone {s : State} (h : s.Canon) {sid status : Nat} : (s.resumeDone sid status).Canon := by
  unfold State.resumeDone
  exact h.foldl fun _ _ h => h.complete

theorem State.Canon.execWakeComplete {s : State} (h : s.Canon) {sid : W32} : Out.Canon (execWakeComplete sid s) := by
  unfold Machine.execWakeComplete
  extract_lets
  refine h.gate fun s h => ?_
  extract_lets _ r
  have hr : CanonOpt r := by
    unfold r
    refine h.wakeOne.bind fun s h => ?_
    split
    · exact h.wakeOne
    · exact h
  split
  · exact h
  · clear_value r
    cases r with
    | none =>
      dsimp only
      split
      · exact h.enter.complete
      · exact h.enter.complete
      · exact h.enter
    | some s1 =>
      have hs1 : s1.Canon := hr
      exact hs1.enter.resumeDone.settleMove

theorem State.Canon.cancel {s : State} (h : s.Canon) {sid : Nat} {r : Req} : (s.cancel sid r).Canon := by
  unfold State.cancel
  exact (h.foldl fun _ _ h => h.complete).doneEffect

theorem State.Canon.execCancel {s : State} (h : s.Canon) {sid : W32} : Out.Canon (execCancel sid s) := by
  unfold Machine.execCancel
  extract_lets
  refine h.gate fun s h => ?_
  extract_lets
  split
  · split
    · exact h.cancel
    · exact h
  · exact h

theorem State.Canon.purgeOne {s : State} (h : s.Canon) {sid : Nat} : (s.purgeOne sid).Canon := by
  unfold State.purgeOne
  extract_lets s1
  have hs1 : s1.Canon := by
    unfold s1
    split
    · exact h.effect.plainRecord.setSes
    · exact h
  exact hs1.endSession

theorem State.Canon.purgeDone {s : State} (h : s.Canon) {t : Nat} : (s.purgeDone t).Canon := by
  unfold State.purgeDone
  exact (h.setTen.foldl fun _ _ h => (h.ite h.setSes).plainRecord).ite h

theorem State.Canon.execPurge {s : State} (h : s.Canon) {sid : W32} : Out.Canon (execPurge sid s) := by
  unfold Machine.execPurge
  extract_lets
  refine h.gate fun s h => ?_
  extract_lets _ s1
  have hs1 : s1.Canon := h.setTen
  split
  · exact (hs1.foldl fun _ _ h => h.ite h.purgeOne).purgeDone
  · split
    · exact h.purgeOne
    · exact h

theorem State.Canon.rebind {s : State} (h : s.Canon) {sid : Nat} : (s.rebind sid).Canon := by
  unfold State.rebind
  extract_lets
  split
  · split
    · exact h
    · split
      · exact h.setSes
      · exact h.complete.ite h.setSes
  · exact h

theorem State.Canon.bind {s : State} (h : s.Canon) {sid : Nat} {r : Req} : (s.bind sid r).Canon :=
  (h.setSes.rebind.ite h.setSes).doneEffect

theorem State.Canon.execAdapterBind {s : State} (h : s.Canon) {sid : W32} : Out.Canon (execAdapterBind sid s) := by
  unfold Machine.execAdapterBind
  extract_lets
  refine h.gate fun s h => ?_
  extract_lets
  split
  · exact h
  · split
    · exact h.bind
    · split
      · split
        · exact h.bind
        · exact h
      · exact h

theorem State.Canon.importPages {s : State} (h : s.Canon) {k n : Nat} {bs : List Byte} : (s.importPages k n bs).Canon := by
  unfold State.importPages
  extract_lets
  refine h.foldl fun s e h => ?_
  refine h.foldl fun s i h => ?_
  extract_lets
  split
  · exact h.pageWrite.pageWrite
  · exact h

theorem State.Canon.execKvImport {s : State} (h : s.Canon) {sid : W32} {data : Option (List Byte)} :
    Out.Canon (execKvImport sid data s) := by
  unfold Machine.execKvImport
  extract_lets
  refine h.gate fun s h => ?_
  refine h.onHead fun r s h => ?_
  extract_lets _ _ _ s0
  have hs0 : s0.Canon := h.emit
  split
  · exact h
  · split
    · exact hs0.complete
    · split
      · next s1 heq =>
          have hs1 : s1.Canon := hs0.kvReserve.eq heq
          exact hs1.complete
      · next s1 heq => exact hs0.kvReserve.eq heq
      · next s1 heq =>
          have hs1 : s1.Canon := hs0.kvReserve.eq heq
          exact hs1.importPages.setSes.complete

theorem State.Canon.exportPages {s : State} (h : s.Canon) {k addr : Nat} : (s.exportPages k addr).Canon := by
  unfold State.exportPages
  extract_lets _ _ _ _ _ _ s1
  have hs1 : s1.Canon := h.emit
  refine hs1.foldl fun s e h => ?_
  refine h.foldl fun s i h => ?_
  extract_lets
  split
  · exact h.pageRead.pageRead.emit
  · exact h

theorem State.Canon.execKvExport {s : State} (h : s.Canon) {sid : W32} : Out.Canon (execKvExport sid s) := by
  unfold Machine.execKvExport
  extract_lets
  refine h.gate fun s h => ?_
  exact h.onHead (fun _ _ h => h.ite (h.complete.ite (h.setSes.ite h.exportPages.complete)))

theorem State.Canon.deadlines {s : State} (h : s.Canon) {sid : Nat} : (s.deadlines sid).Canon := by
  unfold State.deadlines
  exact h.foldl fun _ _ h => h.complete

theorem State.Canon.execDeadlineExpiry {s : State} (h : s.Canon) {sid : W32} : Out.Canon (execDeadlineExpiry sid s) := by
  unfold Machine.execDeadlineExpiry
  extract_lets
  refine h.gate fun s h => ?_
  split
  · exact h
  · exact h.deadlines

theorem State.Canon.expire {s : State} (h : s.Canon) {sid : Nat} : (s.expire sid).Canon := by
  unfold State.expire
  extract_lets
  split
  · exact h.enter.ite h
  · exact h.enter.ite h
  · exact h.endSession.ite h
  · exact h

theorem State.Canon.execTimeToLiveExpiry {s : State} (h : s.Canon) {sid : W32} : Out.Canon (execTimeToLiveExpiry sid s) := by
  unfold Machine.execTimeToLiveExpiry
  extract_lets
  refine h.gate fun s h => ?_
  split
  · exact h
  · exact h.expire

theorem State.Canon.live {s : State} (h : s.Canon) {sid : Nat} {k : State → State} (hk : ∀ t, t.Canon → (k t).Canon) :
    (s.live sid k).Canon :=
  h.ite (hk _ h)

theorem State.Canon.eachReq {s : State} (h : s.Canon) {sid : Nat} {rs : List Req} {k : State → Req → State}
    (hk : ∀ t b, t.Canon → (k t b).Canon) : (s.eachReq sid rs k).Canon := by
  unfold State.eachReq
  exact h.foldl fun _ _ h => (hk _ _ h).ite h

theorem State.Canon.boundary {s : State} (h : s.Canon) {sid : Nat} : (s.boundary sid).Canon := by
  unfold State.boundary
  extract_lets _ s1 s0 s1' s2 s3 s4 s5
  have hs1 : s1.Canon := h.setSes
  have hs0 : s0.Canon := by
    unfold s0
    split
    · split
      · exact hs1.complete.ite hs1
      · exact hs1
    · exact h
  have hs1' : s1'.Canon := hs0.deadlines
  have hs2 : s2.Canon := hs1'.purgeOne.purgeDone.ite hs1'
  have hs3 : s3.Canon := hs2.live (fun _ h => h.eachReq (fun _ _ h => h.cancel))
  have hs4 : s4.Canon := by
    unfold s4
    refine hs3.live fun s h => ?_
    extract_lets s1''
    have hs1'' : s1''.Canon := h.eachReq (fun _ _ h => h.bind)
    split
    · exact hs1''.rebind.ite hs1''
    · exact hs1''
  have hs5 : s5.Canon := hs4.live (fun _ h => h.eachReq (fun _ _ h => h.park.ite h.resume))
  exact hs5.live (fun _ h => h.expire)

/-! ### Machine/Prime -/

theorem State.Canon.quarantine {s : State} (h : s.Canon) {m reason : Nat} {stall : Bool} {o : Nat} :
    (s.quarantine m reason stall o).Canon :=
  h.ite h.setModel.raise.logErr

theorem State.Canon.quarantineObj {s : State} (h : s.Canon) {o reason : Nat} : (s.quarantineObj o reason).Canon := by
  unfold State.quarantineObj
  exact h.foldl fun _ _ h => h.quarantine.ite h

theorem State.Canon.retireLog {s : State} (h : s.Canon) {part inst : Nat} : (s.retireLog part inst).Canon := h.logErr.raise

theorem State.Canon.execScheduleInstall {s : State} (h : s.Canon) {q : Fin 4} {hi : W32} {md : ModelMeta} :
    Out.Canon (execScheduleInstall q hi md s) := by
  unfold Machine.execScheduleInstall
  extract_lets
  refine h.regWrite fun s h => ?_
  extract_lets _ _ s1
  have hs1 : s1.Canon := h.setReg.setReg
  split
  · exact hs1.setFldB.raise
  · extract_lets s2 s3
    have hs2 : s2.Canon := hs1.setModel
    have hs3 : s3.Canon := hs2.foldl fun _ _ h => h.setFldB.setFldB
    exact hs3.same (by with_reducible rfl)

/-- What is read is a variable before the pair is taken apart, so that the kernel does not evaluate the reading. -/
theorem State.Canon.unitBytes {s : State} (h : s.Canon) {q o u elem : Nat} {x : Obj} : (s.unitBytes q o u elem x).2.Canon := by
  unfold State.unitBytes
  extract_lets _ _ r
  have hr : r.2.2.Canon := h.readDva
  obtain ⟨y, hy⟩ : ∃ y, y = r := ⟨r, rfl⟩
  rw [← hy] at hr ⊢
  split
  · exact hr
  · exact h

theorem State.Canon.stageTile {s : State} (h : s.Canon) {e m layer frame o u : Nat} : (s.stageTile e m layer frame o u).Canon := by
  unfold State.stageTile
  extract_lets _ _ _ _ r _ b r'
  have hr : r.2.2.Canon := h.readDva
  have hb : b.2.Canon := h.unitBytes
  have hr' : r'.2.2.Canon := hb.readDva
  split
  · exact hr.ite hr.storeWrite.setEng
  · exact h.setEng.ite (h.setEng.ite (hr'.ite hr'.storeWrite.tblRef.setEng))

theorem State.Canon.execPrimingStage {s : State} (h : s.Canon) {e : Fin 32} {m : Byte} {expert : Option (W16 × Byte)} :
    Out.Canon (execPrimingStage e m expert s) := by
  unfold Machine.execPrimingStage
  extract_lets
  refine h.gateOn fun s h => ?_
  extract_lets
  split
  · extract_lets
    split
    · split
      · exact h
      · split
        · exact h.stageTile
        · exact h
    · split
      · exact h
      · split
        · exact h.stageTile.setModel
        · split
          · exact h
          · exact h.setModel
  · exact h

theorem State.Canon.restartPriming {s : State} (h : s.Canon) {m : Nat} : (s.restartPriming m).Canon := by
  unfold State.restartPriming
  exact (h.foldl fun _ _ h => h.freeStaged).setModel

/-! ### Machine/Seal -/

theorem State.Canon.buildAdd {b : Build} (h : b.s.Canon) {sid n : Nat} {tree : Tree} {rows : List Row} :
    (b.add sid n tree rows).s.Canon := by
  unfold Build.add
  extract_lets
  split
  · exact h
  · split
    · next s1 heq => exact h.kvReserve.eq heq
    · next s1 heq => exact h.kvReserve.eq heq
    · next s1 heq =>
        have hs1 : s1.Canon := h.kvReserve.eq heq
        exact hs1.setSes

theorem State.Canon.buildGen {b : Build} (h : b.s.Canon) {drafts : List (W32 × List Byte)} {sid : Nat} : (b.gen drafts sid).s.Canon := by
  unfold Build.gen
  split
  · exact h
  · split
    · exact h
    · extract_lets s
      have hs : s.Canon := h.emit.ite h
      split
      · exact h
      · refine State.Canon.buildAdd ?_
        exact hs

theorem State.Canon.draftSession {s : State} (h : s.Canon) {sid m : Nat} : (s.draftSession sid m).Canon := h.ite h.freePages.setSes

theorem State.Canon.buildDraft {b : Build} (h : b.s.Canon) {m sid : Nat} : (b.draft m sid).s.Canon := by
  unfold Build.draft
  extract_lets s
  have hs : s.Canon := h.draftSession
  split
  · exact h
  · split
    · exact h
    · split
      · exact hs
      · refine State.Canon.buildAdd ?_
        exact hs

theorem State.Canon.buildRebuild {b : Build} (h : b.s.Canon) {bal cap sid : Nat} : (Build.rebuild bal cap b sid).s.Canon := by
  unfold Build.rebuild
  extract_lets
  split
  · extract_lets
    split
    · exact h
    · exact h.buildAdd

theorem State.Canon.buildPrompt {b : Build} (h : b.s.Canon) {bal cap sid : Nat} : (Build.prompt bal cap b sid).s.Canon := by
  unfold Build.prompt
  extract_lets
  split
  · exact h
  · extract_lets
    split
    · exact h
    · exact h.buildAdd

theorem State.Canon.buildPrefill {b : Build} (h : b.s.Canon) {bal cap m sid : Nat} : (Build.prefill bal cap m b sid).s.Canon := by
  unfold Build.prefill
  extract_lets s
  have hs : s.Canon := h.draftSession
  split
  · exact h
  · refine State.Canon.buildAdd ?_
    exact hs

theorem State.Canon.boundaries {s : State} (h : s.Canon) : s.boundaries.Canon := by
  unfold State.boundaries
  exact h.foldl fun _ _ h => h.ite h.boundary

theorem State.Canon.takeSchedule {s : State} (h : s.Canon) {m : Nat} : (s.takeSchedule m).Canon := by
  unfold State.takeSchedule
  extract_lets _ s1
  have hs1 : s1.Canon := by
    unfold s1
    split
    · exact h.setModel.restartPriming
    · exact h
  exact hs1.setModel.ite hs1

theorem State.Canon.buildRound {s : State} (h : s.Canon) {m : Nat} {drafts : List (W32 × List Byte)} : (s.buildRound m drafts).s.Canon := by
  unfold State.buildRound
  extract_lets _ _ _ b0 b1 b2 b3 b4
  have hb0 : b0.s.Canon := h
  have hb1 : b1.s.Canon := hb0.foldl_build fun _ _ h => h.buildGen
  have hb2 : b2.s.Canon := hb1.foldl_build fun _ _ h => h.buildDraft
  have hb3 : b3.s.Canon := hb2.foldl_build fun _ _ h => h.buildRebuild
  have hb4 : b4.s.Canon := hb3.foldl_build fun _ _ h => h.buildPrompt
  exact hb4.foldl_build fun _ _ h => h.buildPrefill

theorem State.Canon.buildSealed {b : Build} (h : b.s.Canon) {m : Nat} : (b.sealed m).Canon := h.same rfl

theorem State.Canon.execSealRound {s : State} (h : s.Canon) {m : Byte} {drafts : List (W32 × List Byte)} :
    Out.Canon (execSealRound m drafts s) := by
  unfold Machine.execSealRound
  refine h.gate fun s h => ?_
  extract_lets s1 b
  have hs1 : s1.Canon := h.boundaries.takeSchedule
  have hb : b.s.Canon := hs1.buildRound
  split
  · exact h
  · split
    · exact hs1
    · split
      · exact hb
      · exact hb.buildSealed.event

theorem State.Canon.abandonRound {s : State} (h : s.Canon) {num cause : Nat} : (s.abandonRound num cause).Canon := by
  unfold State.abandonRound
  extract_lets s1
  have hs1 : s1.Canon := h.setRounds
  split
  · exact h
  · exact (hs1.foldl fun _ _ h => h.kvTrim).restartPriming.raise.bump.logErr

theorem State.Canon.issueMsg {s : State} (h : s.Canon) {dst : Nat} {bytes : List Byte} : (s.issueMsg dst bytes).Canon :=
  h.padUnits.originate

theorem State.Canon.abandonRemote {s : State} (h : s.Canon) {num : Nat} : (s.abandonRemote num).Canon := by
  unfold State.abandonRemote
  split
  · exact h
  · exact h.abandonRound.foldl fun _ _ h => h.issueMsg

theorem State.Canon.remoteFailures {s : State} (h : s.Canon) : s.remoteFailures.Canon := by
  unfold State.remoteFailures
  extract_lets
  exact (h.same (by with_reducible rfl)).foldl fun _ _ h => h.abandonRemote

theorem State.Canon.execPumpCopy {s : State} (h : s.Canon) {page : Fin 10} {src : DescSrc} {host : Option (List Byte)} :
    Out.Canon (execPumpCopy page src host s) :=
  h.gate (fun _ h => h.pumpCopy.remoteFailures)

theorem State.Canon.execPumpAdder {s : State} (h : s.Canon) {page : Fin 10} {src : DescSrc} {host : Option (List Byte)} :
    Out.Canon (execPumpAdder page src host s) :=
  h.gate (fun _ h => h.pumpAdder.remoteFailures)

/-! ### Machine/Layers -/

theorem State.Canon.putRound {s : State} (h : s.Canon) {r : Round} : (s.putRound r).Canon := h.setRounds

theorem State.Canon.giveEngines {s : State} (h : s.Canon) {r : Round} : (s.giveEngines r).Canon := by
  unfold State.giveEngines
  extract_lets _ s1 _ s2 _ s2' _ s3
  have hs1 : s1.Canon := h.foldl fun _ _ h => h.setEng
  have hs2 : s2.Canon := hs1.foldl fun _ _ h => h.bumpB
  have hs2' : s2'.Canon := hs2.setModel
  have hs3 : s3.Canon := hs2'.same (by with_reducible rfl)
  exact hs3.setRounds

theorem State.Canon.endLayer {s : State} (h : s.Canon) : s.endLayer.Canon := by
  unfold State.endLayer
  extract_lets s1
  have hs1 : s1.Canon := by
    unfold s1
    split
    · exact h.putRound
    · exact h
  exact hs1.same (by with_reducible rfl)

theorem State.Canon.execLayerBoundary {s : State} (h : s.Canon) : Out.Canon (execLayerBoundary s) := by
  unfold Machine.execLayerBoundary
  refine h.gate fun s h => ?_
  split
  · exact h
  · split
    · exact h.endLayer.giveEngines
    · exact h.endLayer

theorem State.Canon.execProgramStart {s : State} (h : s.Canon) {e : Fin 32} {entry : Fin 64} : Out.Canon (execProgramStart e entry s) := by
  unfold Machine.execProgramStart
  extract_lets
  refine h.gate fun s h => ?_
  split
  · exact h
  · extract_lets s1
    have hs1 : s1.Canon := h.startProg
    split
    · exact h
    · exact hs1.putRound

theorem State.Canon.tailWrites {s : State} (h : s.Canon) {r : Round} {k l hd : Nat} {data : List Byte} :
    (s.tailWrites r k l hd data).Canon := by
  unfold State.tailWrites
  extract_lets
  refine h.foldl fun s i h => ?_
  split
  · exact h
  · extract_lets
    split
    · exact h
    · split
      · exact h.pageWrite.pageWrite
      · exact h

theorem State.Canon.execKvTailWrite {s : State} (h : s.Canon) {num : W64} {sid : W32} {draft : Bool} {layer head : W16} {data : List Byte} :
    Out.Canon (execKvTailWrite num sid draft layer head data s) := by
  unfold Machine.execKvTailWrite
  extract_lets
  refine h.gate fun s h => ?_
  split
  · exact h
  · split
    · exact h
    · exact h.tailWrites.putRound

theorem State.Canon.execSampling {s : State} (h : s.Canon) {num : W64} {sid : W32} {draft : Bool} {logits : List (List W32)} :
    Out.Canon (execSampling num sid draft logits s) := by
  unfold Machine.execSampling
  extract_lets
  refine h.gate fun s h => ?_
  split
  · exact h
  · split
    · exact h
    · split
      · exact h
      · extract_lets
        exact (h.same (by with_reducible rfl)).putRound

/-! ### Machine/Telemetry -/

theorem State.Canon.telRecord {s : State} (h : s.Canon) {kind : Nat} {src : Page} {span stamp : Nat} {body : List Byte} {flags : Nat} :
    (s.telRecord kind src span stamp body flags).Canon := by
  unfold State.telRecord
  extract_lets _ _ _ s1 _ _ _ s1'
  have hs1 : s1.Canon := h.bump.raise
  have hs1' : s1'.Canon := h.emit.setFld.event
  exact h.ite ((hs1.same (by with_reducible rfl)).ite (hs1'.irq.ite hs1'))

theorem State.Canon.telEvent {s : State} (h : s.Canon) {src : Page} {blk code : Nat} : (s.telEvent src blk code).Canon :=
  h.drawBytes.telRecord

theorem State.Canon.telQueues {s : State} (h : s.Canon) {i span stamp : Nat} : (s.telQueues i span stamp).Canon := by
  unfold State.telQueues
  extract_lets
  exact (h.same (by with_reducible rfl)).foldl fun _ _ h => (h.telRecord.ite h).setQueue

/-! ### Machine/RoundEnd -/

theorem State.Canon.feedStatus {s : State} (h : s.Canon) {r : Round} {sid : Nat} : (s.feedStatus r sid).2.Canon := by
  unfold State.feedStatus
  extract_lets
  refine h.foldl_snd fun a f h => ?_
  extract_lets _ d
  have hd : d.2.Canon := h.draw
  split
  · exact h
  · split
    · dsimp only
      exact h
    · split
      · dsimp only
        exact hd
      · exact h

theorem State.Canon.noteLost {s : State} (h : s.Canon) {sid : Nat} {l : List Lost} : (s.noteLost sid l).Canon := h.setSes

theorem State.Canon.stampRound {s : State} (h : s.Canon) {sid : Nat} : (s.stampRound sid).Canon := h.setSes.stampReady

theorem State.Canon.dropTree {s : State} (h : s.Canon) {sid : Nat} : (s.dropTree sid).Canon := by
  unfold State.dropTree
  split
  · exact h.setSes.kvTrim
  · exact h

theorem State.Canon.endGen {s : State} (h : s.Canon) {r : Round} {sid : Nat} {q : Req} : (s.endGen r sid q).Canon := by
  unfold State.endGen
  extract_lets _ _ _ _ _ _ _ _ _ s1 _ s2 _ _ _ _ s3 s4 s5
  have hs1 : s1.Canon := h.writeRecords
  have hs2 : s2.Canon := by
    unfold s2
    refine hs1.foldl fun s i h => ?_
    split
    · split
      · exact h.moveEntry
      · exact h
    · exact h
  have hs3 : s3.Canon := hs2.setSes.kvTrim.dropTree
  have hs4 : s4.Canon := hs3.bump.bump
  have hs5 : s5.Canon := hs4.stampRound
  exact hs5.setSes.settleMove.ite (hs5.complete.ite hs5)

theorem State.Canon.endPrompt {s : State} (h : s.Canon) {sid n : Nat} {q : Req} : (s.endPrompt sid n q).Canon := by
  unfold State.endPrompt
  extract_lets s1 s2
  have hs1 : s1.Canon := h.setSes
  have hs2 : s2.Canon := hs1.insertNode
  exact hs2.stampRound.finishAppend

theorem State.Canon.endRebuild {s : State} (h : s.Canon) {sid n : Nat} : (s.endRebuild sid n).Canon := by
  unfold State.endRebuild
  extract_lets _ s1
  have hs1 : s1.Canon := h.setSes
  split
  · exact (hs1.same (by with_reducible rfl)).stampRound.ite h.setSes.stampRound

theorem State.Canon.endDraft {s : State} (h : s.Canon) {r : Round} {d : Nat} : (s.endDraft r d).Canon :=
  h.freePages.setSes.ite (h.setSes.kvTrim.ite h.setSes)

theorem State.Canon.endSessionRound {s : State} (h : s.Canon) {r : Round} {sid : Nat} : (s.endSessionRound r sid).Canon := by
  unfold State.endSessionRound
  extract_lets _ _ f s1
  have hf : f.2.Canon := h.feedStatus
  have hs1 : s1.Canon := hf.ite hf.noteLost
  split
  · exact h.endDraft
  · split
    · exact hs1.endRebuild.ite hs1.kvTrim.stampRound
    · split
      · exact hs1.kvTrim.stampRound.complete
      · exact hs1.kvTrim.dropTree.stampRound.ite (hs1.endRebuild.ite (hs1.endPrompt.ite hs1.endGen))

theorem State.Canon.clearFeed {s : State} (h : s.Canon) {m : Nat} : (s.clearFeed m).Canon := by
  unfold State.clearFeed
  exact h.foldl fun _ _ h => h.setKeeper

theorem State.Canon.telRound {s : State} (h : s.Canon) {r : Round} : (s.telRound r).Canon := h.draw.telRecord

theorem State.Canon.endRound {s : State} (h : s.Canon) {r : Round} : (s.endRound r).Canon := by
  unfold State.endRound
  extract_lets s1 s2
  have hs1 : s1.Canon := h.foldl fun _ _ h => h.endSessionRound
  have hs2 : s2.Canon := hs1.telRound.setRounds.clearFeed
  exact hs2.same (by with_reducible rfl)

theorem State.Canon.sessionBoundaries {s : State} (h : s.Canon) {r : Round} : (s.sessionBoundaries r).Canon := by
  unfold State.sessionBoundaries
  exact h.foldl fun _ _ h => h.ite h.boundary

theorem State.Canon.execRoundBoundary {s : State} (h : s.Canon) {num : W64} : Out.Canon (execRoundBoundary num s) := by
  unfold Machine.execRoundBoundary
  refine h.gate fun s h => ?_
  split
  · exact h
  · split
    · exact h
    · exact h.endRound.sessionBoundaries

/-! ### Machine/Keep -/

theorem State.Canon.execObjectLoadDone {s : State} (h : s.Canon) {fn : Fin 65} {obj : W16} {golden : Option (List Byte)} :
    Out.Canon (execObjectLoadDone fn obj golden s) :=
  h.gate (fun _ h => h.objectLoadDone.quarantineObj.ite h.objectLoadDone)

theorem State.Canon.retirePair {s : State} (h : s.Canon) {pair : Nat} : (s.retirePair pair).Canon := by
  unfold State.retirePair
  extract_lets
  exact h.ite (h.same (by with_reducible rfl)).retireLog

theorem State.Canon.pairPoisoned {s : State} (h : s.Canon) {pair : Nat} : (s.pairPoisoned pair).Canon := by
  unfold State.pairPoisoned
  extract_lets _ _ _ s1
  have hs1 : s1.Canon := h.same rfl
  exact hs1.retirePair.ite hs1

theorem State.Canon.execTagComplete {s : State} (h : s.Canon) {st : Fin 20} {t : Fin 256} : Out.Canon (execTagComplete st t s) := by
  unfold Machine.execTagComplete
  exact h.gate (fun _ h => (h.tagComplete.foldl fun _ _ h => h.pairPoisoned).ite h.tagComplete)

theorem State.Canon.dropTag {s : State} (h : s.Canon) {st t : Nat} : (s.dropTag st t).Canon := by
  unfold State.dropTag
  exact h.foldl fun _ _ h => h.ite (h.setUnit.ite h.setUnit)

theorem State.Canon.execBucketUnitTimeout {s : State} (h : s.Canon) {st : Fin 20} {t : Fin 256} :
    Out.Canon (execBucketUnitTimeout st t s) := by
  unfold Machine.execBucketUnitTimeout
  refine h.gate fun s h => ?_
  split
  · exact h
  · exact h.dropTag.completeTag.foldl fun _ _ h => h.retirePair

theorem State.Canon.execCombineSlotCarry {s : State} (h : s.Canon) {st : Fin 20} {t : Fin 256} {e : Fin 32} {a0 : W32} {i : Fin 20} :
    Out.Canon (execCombineSlotCarry st t e a0 i s) := by
  unfold Machine.execCombineSlotCarry
  extract_lets
  refine h.gate fun s h => ?_
  extract_lets
  split
  · exact h
  · exact h.storeWrite

theorem State.Canon.commandPin {s : State} (h : s.Canon) {fn o : Nat} {take : Bool} : (s.commandPin fn o take).Canon := h.setObj

theorem State.Canon.execAdapterInstall {s : State} (h : s.Canon) : Out.Canon (execAdapterInstall s) := by
  unfold Machine.execAdapterInstall
  extract_lets
  refine h.regWrite fun s h => ?_
  exact h.setFldB.raise.ite (h.setFldB.ite (h.setFldB.ite h.setAdapter.commandPin.setFldB))

theorem State.Canon.execAdapterRetire {s : State} (h : s.Canon) : Out.Canon (execAdapterRetire s) :=
  h.regWrite (fun _ h => h.setAdapter.setFldB)

theorem State.Canon.execAdapterVersionFree {s : State} (h : s.Canon) {adapter version : W16} :
    Out.Canon (execAdapterVersionFree adapter version s) := by
  unfold Machine.execAdapterVersionFree
  extract_lets
  refine h.gate fun s h => ?_
  extract_lets
  split
  · exact h
  · split
    · exact h
    · exact h.setAdapter.commandPin

theorem State.Canon.zeroResource {s : State} (h : s.Canon) {e k : Nat} : (s.zeroResource e k).Canon := by
  unfold State.zeroResource
  extract_lets
  split
  · exact h.setEng
  · split
    · exact h.setEng
    · split
      · exact h.setEng
      · exact h.ofStore (SMap.wf_dropBlock h.storeWf) rfl

theorem State.Canon.grantPart {s : State} (h : s.Canon) {e func : Nat} {p : Part} : (s.grantPart e func p).Canon := by
  unfold State.grantPart
  exact (h.foldl fun _ _ h => h.zeroResource).setEng.setFld.setFld.setFld.setFld.setFld.setFld

theorem State.Canon.execPromptProgramStart {s : State} (h : s.Canon) {e : Fin 32} {entry : Fin 64} {sid : W32} {count : Fin 65} :
    Out.Canon (execPromptProgramStart e entry sid count s) := by
  unfold Machine.execPromptProgramStart
  extract_lets
  refine h.gate fun s h => ?_
  extract_lets
  split
  · exact h
  · extract_lets
    split
    · exact h
    · split
      · next s1 heq =>
          have hs1 : s1.Canon := h.kvReserve.eq heq
          exact hs1.setKeeper.grantPart.draw.startProg
      · next s1 heq => exact h.kvReserve.eq heq
      · next s1 heq =>
          have hs1 : s1.Canon := h.kvReserve.eq heq
          exact hs1.setSes

theorem State.Canon.execYrun {s : State} (h : s.Canon) {q : Fin 4} {value : W32} {meets : Bool} : Out.Canon (execYrun q value meets s) := by
  unfold Machine.execYrun
  extract_lets
  refine h.regWrite fun s h => ?_
  extract_lets s1 d
  have hs1 : s1.Canon := h.setFld.setFld
  have hd : d.2.Canon := hs1.draw
  exact hs1.ite (hd.setFld.setFld.setFld.ite hs1.setFld.setFld.setFld.setFld.setKeeper)

theorem State.Canon.execCustomProgramStart {s : State} (h : s.Canon) {q : Fin 4} : Out.Canon (execCustomProgramStart q s) := by
  unfold Machine.execCustomProgramStart
  extract_lets
  refine h.gate fun s h => ?_
  extract_lets
  split
  · exact h
  · extract_lets _ _ _ s1 d
    have hs1 : s1.Canon := h.grantPart.setFld
    have hd : d.2.Canon := hs1.draw
    split
    · exact h
    · exact hd.startProg

theorem State.Canon.execTestWin {s : State} (h : s.Canon) {q : Fin 4} {value : W32} : Out.Canon (execTestWin q value s) :=
  h.regWrite (fun _ h => h.setFld.setFld.setFld.ite h.setFld.setFld)

theorem State.Canon.execTestWindowActive {s : State} (h : s.Canon) {q : Fin 4} : Out.Canon (execTestWindowActive q s) := by
  unfold Machine.execTestWindowActive
  refine h.gate fun s h => ?_
  split
  · exact h.setFld
  · exact h

theorem State.Canon.after {s : State} (h : s.Canon) {o : Out} (ho : o.Canon) : (o.after s).Canon := by
  cases o with
  | next t => exact ho
  | fault r => exact h
  | refused r => exact h

theorem State.Canon.windowWrite {s : State} (h : s.Canon) {st : Fin 20} {off : Nat} {v : W32} : (s.windowWrite st off v).Canon := by
  unfold State.windowWrite
  extract_lets _ _ _ s1 _ _ s1'
  have hs1 : s1.Canon := h.ofBkt (SMap.wf_setList _ _ _ _ h.queryWf) h.recordWf h.ringWf rfl
  have hs1' : s1'.Canon := h.ofBkt h.queryWf (SMap.wf_setList _ _ _ _ h.recordWf) h.ringWf rfl
  split
  · exact hs1.setTag.ite hs1
  · split
    · exact (h.after h.execTagOpen).ite (hs1'.setTag.ite hs1')
    · split
      · exact h.after h.execRunRingPublish
      · split
        · exact h.after h.execTagRelease
        · split
          · exact h.ofBkt h.queryWf h.recordWf (SMap.wf_setList _ _ _ _ h.ringWf) rfl
          · exact h

theorem State.Canon.winWord {s : State} (h : s.Canon) {q : Nat} : (s.winWord q).2.Canon := by
  unfold State.winWord
  extract_lets _ _ d r
  have hd : d.2.Canon := h.draw
  have hr : r.2.Canon := by
    unfold r
    split
    · split
      · exact h
      · dsimp only
        exact hd
    · exact h
  exact hr.setFld

theorem State.Canon.execWinData {s : State} (h : s.Canon) {q : Fin 4} {value : Option W32} : Out.Canon (execWinData q value s) := by
  unfold Machine.execWinData
  extract_lets
  refine h.regWrite fun s h => ?_
  extract_lets _ _ r
  have hr : r.2.Canon := h.winWord
  split
  · exact (h.windowWrite.ite h).setFld
  · exact hr.emit

theorem State.Canon.execTagCplPop {s : State} (h : s.Canon) {q : Fin 4} : Out.Canon (execTagCplPop q s) :=
  h.regWrite (fun _ h => h.setKeeper)

theorem State.Canon.execSessionQuery {s : State} (h : s.Canon) {q : Fin 4} {handle : W32} : Out.Canon (execSessionQuery q handle s) := by
  unfold Machine.execSessionQuery
  extract_lets
  refine h.regWrite fun s h => ?_
  exact h.setReg.setReg.setReg.setReg.setReg.ite (h.setReg.foldl fun _ _ h => h.setReg)

/-! ### Machine/Remote -/

theorem State.Canon.dataFrame {s : State} (h : s.Canon) {p : Nat} {bs : List Byte} {typ : Nat} {k : Frm → State → State}
    (hk : ∀ a t, t.Canon → (k a t).Canon) : (s.dataFrame p bs typ k).Canon := by
  unfold State.dataFrame
  extract_lets _ r _ s1
  have hr : r.2.Canon := h.takeData
  have hs1 : s1.Canon := by
    unfold s1
    split
    · exact hr
    · exact hr.giveBack.linkViolation.ite (hr.setPort.ite (hk _ _ hr.giveBack))
  exact h.ite hs1.maybeOff

theorem State.Canon.applyRequest {s : State} (h : s.Canon) {f : Frm} : (s.applyRequest f).2.2.Canon := by
  unfold State.applyRequest
  extract_lets _ r space r' r'' _ _ r'''
  have hr : r.2.Canon := h.draw
  have hr' : r'.2.2.Canon := h.readDva
  have hr'' : r''.2.2.2.Canon := h.adderAt
  have hr''' : r'''.2.2.2.Canon := h.adderAt
  split
  · split
    · next t heq =>
        have ht : t.Canon := h.writeDva.of_snd heq
        exact ht.countBytes
    · unfold space
      dsimp only
      exact hr
  · dsimp only
    exact hr'
  · split
    · exact h
    · split
      · exact hr''.countAdd.countBytes
      · unfold space
        dsimp only
        exact hr
  · split
    · exact h
    · split
      · exact hr'''.countAdd.countBytes
      · unfold space
        dsimp only
        exact hr

theorem State.Canon.answer {s : State} (h : s.Canon) {bs : List Byte} {f : Frm} : (s.answer bs f).Canon := by
  unfold State.answer
  extract_lets _ _ r pay
  have hr : r.2.2.Canon := h.applyRequest
  have hpay : pay.2.Canon := hr.padUnits
  split
  · exact h.reply
  · split
    · exact h.reply
    · split
      · exact h.recordAddr.reply
      · exact hpay.reply

theorem State.Canon.execWrite {s : State} (h : s.Canon) {p : Fin 12} {frame : List Byte} : Out.Canon (execWrite p frame s) :=
  h.gate (fun _ h => h.dataFrame (fun _ _ h => h.answer))

theorem State.Canon.execRead {s : State} (h : s.Canon) {p : Fin 12} {frame : List Byte} : Out.Canon (execRead p frame s) :=
  h.gate (fun _ h => h.dataFrame (fun _ _ h => h.answer))

theorem State.Canon.execReduce {s : State} (h : s.Canon) {p : Fin 12} {frame : List Byte} : Out.Canon (execReduce p frame s) :=
  h.gate (fun _ h => h.dataFrame (fun _ _ h => h.answer))

theorem State.Canon.execAtomic {s : State} (h : s.Canon) {p : Fin 12} {frame : List Byte} : Out.Canon (execAtomic p frame s) :=
  h.gate (fun _ h => h.dataFrame (fun _ _ h => h.answer))

theorem State.Canon.takeReply {s : State} (h : s.Canon) {f : Flying} {r : PeerReq} {status : Nat} {payload : List Byte} :
    (s.takeReply f r status payload).Canon := by
  unfold State.takeReply
  extract_lets _ _ _ _ _ w
  have hw : w.2.Canon := h.spaceWrite
  split
  · exact h.settleFlying
  · split
    · split
      · exact hw.settleFlying
      · exact hw.settleFlying
    · exact h.settleFlying.ite h.settleFlying

theorem State.Canon.replyFrame {s : State} (h : s.Canon) {p : Nat} {f : Frm} : (s.replyFrame p f).Canon := by
  unfold State.replyFrame
  extract_lets
  split
  · exact h.takeReply.remoteFailures
  · exact (h.same (by with_reducible rfl)).bump.ite h.linkViolation

theorem State.Canon.execRdata {s : State} (h : s.Canon) {p : Fin 12} {frame : List Byte} : Out.Canon (execRdata p frame s) :=
  h.gate (fun _ h => h.dataFrame (fun _ _ h => h.replyFrame))

theorem State.Canon.execAckr {s : State} (h : s.Canon) {p : Fin 12} {frame : List Byte} : Out.Canon (execAckr p frame s) :=
  h.gate (fun _ h => h.dataFrame (fun _ _ h => h.replyFrame))

theorem State.Canon.execRequestTimeout {s : State} (h : s.Canon) {tid : W16} : Out.Canon (execRequestTimeout tid s) := by
  unfold Machine.execRequestTimeout
  refine h.gate fun s h => ?_
  extract_lets _ s1
  have hs1 : s1.Canon := (h.same (by with_reducible rfl)).raise
  split
  · exact h
  · exact hs1.takeReply.remoteFailures

theorem State.Canon.execMsg {s : State} (h : s.Canon) {p : Fin 12} {frame : List Byte} : Out.Canon (execMsg p frame s) := by
  unfold Machine.execMsg
  refine h.gate fun s h => ?_
  refine h.dataFrame fun f s h => ?_
  extract_lets s1
  have hs1 : s1.Canon := h.post
  split
  · exact h.bump
  · split
    · split
      · exact hs1.abandonRemote
      · exact hs1
    · exact hs1

theorem State.Canon.retirePort {s : State} (h : s.Canon) {p : Nat} : (s.retirePort p).Canon := h.setPortState.setPort.setFld.retireLog

theorem State.Canon.execTrainingTimeout {s : State} (h : s.Canon) {p : Fin 12} : Out.Canon (execTrainingTimeout p s) := by
  unfold Machine.execTrainingTimeout
  refine h.gate fun s h => ?_
  extract_lets _ _ s1
  have hs1 : s1.Canon := h.bump.setPort
  split
  · exact h
  · split
    · exact hs1.setPortState.raise.retirePort
    · exact hs1.emit

theorem State.Canon.noteReset {s : State} (h : s.Canon) {scope cause quad : Nat} : (s.noteReset scope cause quad).Canon :=
  h.setReg.logErr

theorem State.Canon.execLinkPortReset {s : State} (h : s.Canon) {p : Fin 12} : Out.Canon (execLinkPortReset p s) := by
  unfold Machine.execLinkPortReset
  refine h.gate fun s h => ?_
  extract_lets s1 s2
  have hs1 : s1.Canon := h.setPort.setPortState.setReg.setReg
  have hs2 : s2.Canon := hs1.setFld
  split
  · exact h
  · exact (hs2.foldl fun _ _ h => h.setFldB).noteReset

/-! ### Machine/Restore -/

theorem State.Canon.renamePage {s : State} (h : s.Canon) {old new : KvPage} : (s.renamePage old new).Canon := h.same rfl

theorem State.Canon.losePairs {s : State} (h : s.Canon) {bad : Nat → Bool} : (s.losePairs bad).Canon := by
  unfold State.losePairs
  extract_lets _ s1
  have hs1 : s1.Canon := h.foldl fun _ _ h => h.ite (h.freePages.setSes.ite h.noteLost)
  exact hs1.foldl fun _ _ h => (h.foldl fun _ _ h => h.foldl fun _ _ h => h.useSlots).same (by with_reducible rfl)

theorem State.Canon.askGolden {s : State} (h : s.Canon) {k : Nat} : (s.askGolden k).Canon := h.emit.ite h.emit

theorem State.Canon.settleRestore {s : State} (h : s.Canon) {ok : Nat} : (s.settleRestore ok).Canon := by
  unfold State.settleRestore
  extract_lets
  split
  · exact h
  · split
    · exact h
    · extract_lets
      exact (h.same (by with_reducible rfl)).logErr

theorem State.Canon.tileLost {s : State} (h : s.Canon) {k : Nat} : (s.tileLost k).Canon := by
  unfold State.tileLost
  extract_lets _ _ s1 s2
  have hs1 : s1.Canon := by
    unfold s1
    split
    · exact h.ofMem h.wellWf (SMap.wf_dropBlock h.sumpWf) h.goldBytesWf rfl
    · exact h
  have hs2 : s2.Canon := hs1.setTile
  exact h.setTile.ite ((hs2.same (by with_reducible rfl)).askGolden.ite (hs2.same (by with_reducible rfl)))

theorem State.Canon.settleRestores {s : State} (h : s.Canon) : s.settleRestores.Canon := by
  unfold State.settleRestores
  exact h.foldl fun _ _ h => h.settleRestore

theorem State.Canon.liftTiles {s : State} (h : s.Canon) {ks : List Nat} : (s.liftTiles ks).Canon := by
  unfold State.liftTiles
  exact h.foldl fun _ _ h => h.moveToStack.ite h

theorem State.Canon.copyCol {s : State} (h : s.Canon) {a b : Nat} : (s.copyCol a b).Canon := h.readCol.setCol

theorem State.Canon.copyLoc {s : State} (h : s.Canon) {va : Nat → Nat} {a : StackLoc} {vb : Nat → Nat} {b : StackLoc} :
    (s.copyLoc va a vb b).Canon := by
  unfold State.copyLoc
  refine h.foldl fun s c h => ?_
  extract_lets x y
  have hx : x.2.Canon := h.tileCol
  have hy : y.2.Canon := hx.tileCol
  split
  · exact hy.copyCol
  · exact hy

theorem State.Canon.relocate {s : State} (h : s.Canon) {k : Nat} : (s.relocate k).Canon := by
  unfold State.relocate
  extract_lets
  split
  · exact h
  · split
    · exact h.useLoc.copyLoc.useLoc.setTile
    · exact h.ite (h.getD h.leaveStack)

theorem State.Canon.relocateKept {s : State} (h : s.Canon) {sid : Nat} {p : Nat → Nat → Bool} : (s.relocateKept sid p).Canon := by
  unfold State.relocateKept
  extract_lets
  refine h.foldl fun s i h => ?_
  extract_lets
  split
  · exact h
  · split
    · exact h
    · split
      · split
        · exact h
        · exact h.useLoc.copyLoc.useLoc.setSes
      · exact h

/-! ### Machine/Bringup -/

theorem State.Canon.readyPages {s : State} (h : s.Canon) {l : List Page} : (s.readyPages l).Canon := by
  unfold State.readyPages
  exact h.foldl fun _ _ h => h.ite h.setFld

theorem State.Canon.loadScheduler {s : State} (h : s.Canon) {i : Nat} : (s.loadScheduler i).Canon := by
  unfold State.loadScheduler
  split
  · extract_lets _ s1 _ s2
    have hs1 : s1.Canon := h.foldl fun _ _ h => h.setReg
    have hs2 : s2.Canon := hs1.setReg.setReg.setFld
    exact hs2.setFldB.setFldB.setFldB.setQueue.ite hs2

theorem State.Canon.profileQuad {s : State} (h : s.Canon) {q : Nat} : (s.profileQuad q).Canon := by
  unfold State.profileQuad
  exact (h.foldl fun _ _ h => h.setFld).loadScheduler

theorem State.Canon.profileSlices {s : State} (h : s.Canon) : s.profileSlices.Canon := by
  unfold State.profileSlices
  exact h.foldl fun _ _ h => h.setReg.setReg.ite h.setReg.setReg

theorem State.Canon.applyProfile {s : State} (h : s.Canon) : s.applyProfile.Canon := by
  unfold State.applyProfile
  exact (h.foldl fun _ _ h => h.profileQuad.setFldB).setFld.foldl fun _ _ h => h.loadScheduler

theorem State.Canon.loadStores {s : State} (h : s.Canon) {q : Nat} : (s.loadStores q).Canon := by
  unfold State.loadStores
  exact h.foldl fun _ _ h => h.setEng.same (by with_reducible rfl)

theorem State.Canon.copiesBack {s : State} (h : s.Canon) : s.copiesBack.Canon := h.setJournal

theorem State.Canon.quadReady {s : State} (h : s.Canon) {q : Nat} : (s.quadReady q).Canon := by
  unfold State.quadReady
  extract_lets s1 s2
  have hs1 : s1.Canon := h.readyPages.profileQuad.loadStores
  have hs2 : s2.Canon := hs1.ite hs1.setFld
  exact hs2.copiesBack.ite h

theorem State.Canon.bootReady {s : State} (h : s.Canon) : s.bootReady.Canon := by
  unfold State.bootReady
  extract_lets s1 s2 s3 s4 _ s5
  have hs1 : s1.Canon := h.foldl fun _ _ h => h.readyPages.loadStores
  have hs2 : s2.Canon := hs1.readyPages.applyProfile
  have hs3 : s3.Canon := hs2.profileSlices.ite hs2
  have hs4 : s4.Canon := hs3.setFld.setFld
  have hs5 : s5.Canon := (hs4.same (by with_reducible rfl)).copiesBack
  exact ((hs5.foldl fun _ _ h => h.startRead).ite h).ite (h.foldl fun _ _ h => h.quadReady)

/-! ### Machine/Channels -/

theorem State.Canon.onGran {s : State} (h : s.Canon) {g : Gran} {q : ColReq} : Out.Canon (s.onGran g q) := by
  unfold State.onGran
  split
  · exact h.request.ite h
  · exact trivial

theorem State.Canon.execColumnRead {s : State} (h : s.Canon) {g : Gran} {col : Fin 8} : Out.Canon (execColumnRead g col s) := h.onGran

theorem State.Canon.execColumnWrite {s : State} (h : s.Canon) {g : Gran} {off : Byte} {data : List Byte} :
    Out.Canon (execColumnWrite g off data s) :=
  h.onGran

theorem State.Canon.addReq {s : State} (h : s.Canon) {op : Nat} {g : Gran} {off : Byte} {data : List Byte} :
    Out.Canon (s.addReq op g off data) :=
  h.onGran

theorem State.Canon.execAddFp32 {s : State} (h : s.Canon) {g : Gran} {off : Byte} {data : List Byte} :
    Out.Canon (execAddFp32 g off data s) :=
  h.addReq

theorem State.Canon.execAddBf16 {s : State} (h : s.Canon) {g : Gran} {off : Byte} {data : List Byte} :
    Out.Canon (execAddBf16 g off data s) :=
  h.addReq

theorem State.Canon.execAddInt32 {s : State} (h : s.Canon) {g : Gran} {off : Byte} {data : List Byte} :
    Out.Canon (execAddInt32 g off data s) :=
  h.addReq

theorem State.Canon.execAddInt64 {s : State} (h : s.Canon) {g : Gran} {off : Byte} {data : List Byte} :
    Out.Canon (execAddInt64 g off data s) :=
  h.addReq

theorem State.Canon.execMinFp32 {s : State} (h : s.Canon) {g : Gran} {off : Byte} {data : List Byte} :
    Out.Canon (execMinFp32 g off data s) :=
  h.addReq

theorem State.Canon.execMaxFp32 {s : State} (h : s.Canon) {g : Gran} {off : Byte} {data : List Byte} :
    Out.Canon (execMaxFp32 g off data s) :=
  h.addReq

theorem State.Canon.execMinBf16 {s : State} (h : s.Canon) {g : Gran} {off : Byte} {data : List Byte} :
    Out.Canon (execMinBf16 g off data s) :=
  h.addReq

theorem State.Canon.execMaxBf16 {s : State} (h : s.Canon) {g : Gran} {off : Byte} {data : List Byte} :
    Out.Canon (execMaxBf16 g off data s) :=
  h.addReq

theorem State.Canon.execMinInt32 {s : State} (h : s.Canon) {g : Gran} {off : Byte} {data : List Byte} :
    Out.Canon (execMinInt32 g off data s) :=
  h.addReq

theorem State.Canon.execMaxInt32 {s : State} (h : s.Canon) {g : Gran} {off : Byte} {data : List Byte} :
    Out.Canon (execMaxInt32 g off data s) :=
  h.addReq

theorem State.Canon.execMinInt64 {s : State} (h : s.Canon) {g : Gran} {off : Byte} {data : List Byte} :
    Out.Canon (execMinInt64 g off data s) :=
  h.addReq

theorem State.Canon.execMaxInt64 {s : State} (h : s.Canon) {g : Gran} {off : Byte} {data : List Byte} :
    Out.Canon (execMaxInt64 g off data s) :=
  h.addReq

theorem State.Canon.execSwap32 {s : State} (h : s.Canon) {g : Gran} {off : Byte} {data : List Byte} : Out.Canon (execSwap32 g off data s) :=
  h.addReq

theorem State.Canon.execSwap64 {s : State} (h : s.Canon) {g : Gran} {off : Byte} {data : List Byte} : Out.Canon (execSwap64 g off data s) :=
  h.addReq

theorem State.Canon.execCas32 {s : State} (h : s.Canon) {g : Gran} {off : Byte} {data : List Byte} : Out.Canon (execCas32 g off data s) :=
  h.addReq

theorem State.Canon.execCas64 {s : State} (h : s.Canon) {g : Gran} {off : Byte} {data : List Byte} : Out.Canon (execCas64 g off data s) :=
  h.addReq

theorem State.Canon.execFetchAddInt32 {s : State} (h : s.Canon) {g : Gran} {off : Byte} {data : List Byte} :
    Out.Canon (execFetchAddInt32 g off data s) :=
  h.addReq

theorem State.Canon.execFetchAddInt64 {s : State} (h : s.Canon) {g : Gran} {off : Byte} {data : List Byte} :
    Out.Canon (execFetchAddInt64 g off data s) :=
  h.addReq

theorem State.Canon.execScrubRead {s : State} (h : s.Canon) {st : Fin 20} : Out.Canon (execScrubRead st s) := by
  unfold Machine.execScrubRead
  refine h.gate fun s h => ?_
  extract_lets _ _ s1
  have hs1 : s1.Canon := h.readCol
  split
  · exact h
  · exact hs1.same (by with_reducible rfl)

theorem State.Canon.refreshAlerts {s : State} (h : s.Canon) : s.refreshAlerts.Canon := h.ite h.setReg.raise

theorem State.Canon.execStackTempRead {s : State} (h : s.Canon) {st : Fin 20} {temp : Byte} : Out.Canon (execStackTempRead st temp s) := by
  unfold Machine.execStackTempRead
  extract_lets
  refine h.gate fun s h => ?_
  extract_lets _ _ s1 s2 s3 s4
  have hs1 : s1.Canon := h.setFld.setFld.setFld
  have hs2 : s2.Canon := hs1.ite hs1.telEvent
  have hs3 : s3.Canon := hs2.raise.ite hs2
  have hs4 : s4.Canon := hs3.raise.ite hs3
  exact hs4.refreshAlerts

theorem State.Canon.enterChan {s : State} (h : s.Canon) {st c : Nat} {x : Chan} : (s.enterChan st c x).Canon :=
  (h.setChan.setFld.ite h.setChan).telEvent.logErr.ite (h.setChan.setFld.ite h.setChan).telEvent

theorem State.Canon.writeExc {s : State} (h : s.Canon) {st c : Nat} {lost all : Bool} : (s.writeExc st c lost all).Canon := by
  unfold State.writeExc
  extract_lets
  split
  · exact h
  · exact h.same rfl

theorem State.Canon.handOver {s : State} (h : s.Canon) {st : Nat} : (s.handOver st).Canon := by
  unfold State.handOver
  extract_lets
  exact h.ite (h.same (by with_reducible rfl))

theorem State.Canon.refuseMapOut {s : State} (h : s.Canon) {st c cause : Nat} : (s.refuseMapOut st c cause).Canon :=
  (h.raise.setFld.ite h.raise).handOver

theorem State.Canon.withdraw {s : State} (h : s.Canon) {q : Nat} : (s.withdraw q).Canon := by
  unfold State.withdraw
  extract_lets _ _ s1 _ _ s2
  have hs1 : s1.Canon := h.same rfl
  have hs2 : s2.Canon := hs1.foldl fun _ _ h => h.relocate
  exact hs2.foldl fun _ _ h => h.relocateKept

theorem State.Canon.retireChan {s : State} (h : s.Canon) {st c : Nat} : (s.retireChan st c).Canon := h.withdraw.enterChan.telEvent

theorem State.Canon.fillStripe {s : State} (h : s.Canon) {q k : Nat} : (s.fillStripe q k).Canon := by
  unfold State.fillStripe
  extract_lets e later moved surv n f _ s1
  have hs1 : s1.Canon := h.ofCols (s.colsWf_fill f h.cols) rfl
  exact hs1.foldl fun _ _ h => h.foldl fun _ _ h => h.foldl fun _ _ h => h.setCol

theorem State.Canon.loseChan {s : State} (h : s.Canon) {st c : Nat} : (s.loseChan st c).Canon := by
  unfold State.loseChan
  extract_lets _ s0 _ s0' _ s1 s2 _ s3 s4
  have hs0 : s0.Canon := h.raise.losePairs
  have hs0' : s0'.Canon := by
    unfold s0'
    refine hs0.foldl fun s k h => ?_
    extract_lets
    split
    · exact h.useLoc.tileLost
    · exact h
  have hs1 : s1.Canon := (hs0'.same (by with_reducible rfl)).settleRestores
  have hs2 : s2.Canon := hs1.enterChan
  have hs3 : s3.Canon := by
    unfold s3
    split
    · extract_lets
      exact hs2.same (by with_reducible rfl)
    · split
      · exact hs2.refuseMapOut
      · exact hs2.writeExc
  have hs4 : s4.Canon := by
    unfold s4
    split
    · exact hs3.fillStripe
    · exact hs3
  exact hs4.releaseHeld

theorem State.Canon.retrainRequest {s : State} (h : s.Canon) {st c : Nat} : (s.retrainRequest st c).2.Canon := by
  unfold State.retrainRequest
  extract_lets
  split
  · exact h.enterChan.same (by with_reducible rfl)
  · exact h
  · exact h
  · split
    · exact h
    · exact h.setChan.same (by with_reducible rfl)
  · exact h
  · exact h
  · exact h
  · exact h

theorem State.Canon.chResult {s : State} (h : s.Canon) {st c r : Nat} : (s.chResult st c r).Canon := h.setReg

theorem State.Canon.execChCmdRetrain {s : State} (h : s.Canon) {st : Fin 20} {c : Fin 32} : Out.Canon (execChCmdRetrain st c s) :=
  h.regWrite (fun _ h => h.retrainRequest.chResult)

theorem State.Canon.execChCmdMapOut {s : State} (h : s.Canon) {st : Fin 20} {c : Fin 32} : Out.Canon (execChCmdMapOut st c s) := by
  unfold Machine.execChCmdMapOut
  refine h.regWrite fun s h => ?_
  extract_lets
  split
  · split
    · exact h.chResult.refuseMapOut
    · exact h.enterChan.chResult
  · exact h.setChan.chResult
  · exact h.setChan.chResult
  · exact h.chResult
  · exact h.chResult
  · exact h.chResult
  · exact h.chResult
  · exact h.chResult

theorem State.Canon.execMarginEnter {s : State} (h : s.Canon) {st : Fin 20} {c : Fin 32} : Out.Canon (execMarginEnter st c s) := by
  unfold Machine.execMarginEnter
  refine h.regWrite fun s h => ?_
  extract_lets
  split
  · exact h.enterChan.chResult.ite h.chResult
  · exact h.chResult
  · exact h.chResult
  · exact h.chResult

theorem State.Canon.execMarginExit {s : State} (h : s.Canon) {st : Fin 20} {c : Fin 32} : Out.Canon (execMarginExit st c s) := by
  unfold Machine.execMarginExit
  refine h.regWrite fun s h => ?_
  extract_lets
  split
  · exact h.enterChan.releaseHeld.chResult
  · exact h.chResult
  · exact h.chResult
  · exact h.chResult

theorem State.Canon.setFld_measuring {s : State} (h : s.Canon) {pg : Page} {f : Fld} {v : Nat} {l : List Nat} :
    ({ s.setFld pg f v with cis := { s.cis with measuring := l } } : State).Canon := h.same rfl

theorem State.Canon.execMarginMeasure {s : State} (h : s.Canon) {st : Fin 20} {value : W32} : Out.Canon (execMarginMeasure st value s) := by
  refine h.regWrite fun s h => ?_
  extract_lets _ _ _ s1
  have hs1 : s1.Canon := h.setFld.setFld
  split
  · exact hs1.setFld_measuring
  · exact hs1

theorem State.Canon.execMarginMeasureDone {s : State} (h : s.Canon) {st : Fin 20} {edges : W32} :
    Out.Canon (execMarginMeasureDone st edges s) := by
  unfold Machine.execMarginMeasureDone
  refine h.gate fun s h => ?_
  extract_lets s1
  have hs1 : s1.Canon := h.setFld.setReg
  split
  · exact hs1.same (by with_reducible rfl)
  · exact h

theorem State.Canon.execRetrainRequest {s : State} (h : s.Canon) {st : Fin 20} {c : Fin 32} {retries : Option W16} :
    Out.Canon (execRetrainRequest st c retries s) := by
  unfold Machine.execRetrainRequest
  extract_lets
  refine h.gate fun s h => ?_
  extract_lets
  split
  · exact h.retrainRequest
  · extract_lets _ _ s1 s2
    have hs1 : s1.Canon := h.same rfl
    have hs2 : s2.Canon := hs1.raise
    split
    · exact hs2.retrainRequest.ite hs2
    · exact hs1

theorem State.Canon.execRetrainStart {s : State} (h : s.Canon) {st : Fin 20} : Out.Canon (execRetrainStart st s) := by
  unfold Machine.execRetrainStart
  refine h.gate fun s h => ?_
  extract_lets
  split
  · exact h
  · split
    · exact h
    · extract_lets _ _ s1
      have hs1 : s1.Canon := h.same rfl
      split
      · exact hs1.enterChan
      · exact hs1.enterChan
      · exact hs1

theorem State.Canon.retrainEnd {s : State} (h : s.Canon) {st c : Nat} {passed linkOk : Bool} : (s.retrainEnd st c passed linkOk).Canon :=
  h.ite (h.enterChan.releaseHeld.ite (h.raise.enterChan.releaseHeld.ite h.raise.loseChan))

theorem State.Canon.execRetrainComplete {s : State} (h : s.Canon) {st : Fin 20} {c : Fin 32} {passed linkOk : Bool} :
    Out.Canon (execRetrainComplete st c passed linkOk s) :=
  h.gate (fun _ h => h.retrainEnd)

theorem State.Canon.execRetrainTimeout {s : State} (h : s.Canon) {st : Fin 20} {c : Fin 32} {linkOk : Bool} :
    Out.Canon (execRetrainTimeout st c linkOk s) :=
  h.gate (fun _ h => h.retrainEnd)

theorem State.Canon.execMapOutStart {s : State} (h : s.Canon) {st : Fin 20} {c : Fin 32} : Out.Canon (execMapOutStart st c s) := by
  unfold Machine.execMapOutStart
  refine h.gate fun s h => ?_
  extract_lets
  split
  · exact h
  · split
    · exact h.refuseMapOut
    · exact h.writeExc.setChan

theorem State.Canon.movePage {s : State} (h : s.Canon) {idx l sid : Nat} {pages : List KvPage} {p : KvPage} :
    CanonOpt (s.movePage idx l sid pages p) :=
  CanonOpt.map_of fun _ => ((h.useSlots.foldl fun _ _ h => h.foldl fun _ _ h => h.copyCol).renamePage).useSlots

theorem State.Canon.moveFrom {s : State} (h : s.Canon) {pair : Nat} : (s.moveFrom pair).Canon := by
  unfold State.moveFrom
  extract_lets
  split
  · exact h.foldl fun _ _ h => h.getD h.movePage
  · split
    · exact h.relocate
    · exact h

theorem State.Canon.execKvRunMove {s : State} (h : s.Canon) {st : Fin 20} {pc : Fin 64} {bp : Fin 16} :
    Out.Canon (execKvRunMove st pc bp s) :=
  h.gate (fun _ h => h.moveFrom.ite h)

theorem State.Canon.execMapoutGranuleCopy {s : State} (h : s.Canon) {q : Fin 4} {k : Fin 16} : Out.Canon (execMapoutGranuleCopy q k s) := by
  unfold Machine.execMapoutGranuleCopy
  refine h.gate fun s h => ?_
  extract_lets _ _ _ _ _ _ _ _ _ _ _ s1 _ s2
  have hs1 : s1.Canon := h.foldl fun _ _ h => h.copyCol
  have hs2 : s2.Canon := hs1.same (by with_reducible rfl)
  split
  · exact h
  · exact hs2.retireChan.ite hs2

theorem State.Canon.execChannelLost {s : State} (h : s.Canon) {st : Fin 20} {c : Fin 32} : Out.Canon (execChannelLost st c s) := by
  unfold Machine.execChannelLost
  refine h.gate fun s h => ?_
  split
  · exact h.loseChan
  · exact h.loseChan
  · exact h.loseChan
  · exact h

theorem State.Canon.failedBringUp {s : State} (h : s.Canon) {st c : Nat} : (s.failedBringUp st c).Canon := by
  unfold State.failedBringUp
  split
  · exact h.refuseMapOut
  · exact h.writeExc.retireChan

theorem State.Canon.setStackState {s : State} (h : s.Canon) {st v : Nat} : (s.setStackState st v).Canon := h.setFld.setFld

/-- A fill without the pseudo-channels of a stack. -/
def Fill.without (f : Fill) (st : Nat) : Fill := { f with pcs := f.pcs.filter (fun p => !(5 * f.quad + p / 64 == st)) }

/-- A fill covers the columns of the other stacks as before. -/
theorem Fill.covers_without {f : Fill} {st k : Nat} (hk : k / stackCols ≠ st) : (f.without st).covers k = f.covers k := by
  have hst : (placeOfKey k).st ≠ st := hk
  have hpc : (placeOfKey k).pc < 64 := Nat.mod_lt _ (by decide)
  have key : ((placeOfKey k).st / 5 == f.quad && (f.without st).pcs.contains ((placeOfKey k).st % 5 * 64 + (placeOfKey k).pc))
      = ((placeOfKey k).st / 5 == f.quad && f.pcs.contains ((placeOfKey k).st % 5 * 64 + (placeOfKey k).pc)) := by
    by_cases hq : (placeOfKey k).st / 5 = f.quad
    · have hp : 5 * f.quad + ((placeOfKey k).st % 5 * 64 + (placeOfKey k).pc) / 64 = (placeOfKey k).st := by omega
      simp [Fill.without, List.mem_filter, hp, hst]
    · rw [beq_false_of_ne hq, Bool.false_and, Bool.false_and]
  exact congrArg₂ (· && ·) (congrArg₂ (· && ·) key rfl) rfl

/-- Columns dropped from the listed ones keep the canonical form while the others hold the default that they had. -/
theorem State.colsWf_keep {s t : State} {p : Nat → Bool} (h : s.colsWf = true) (hc : t.cis.cols = SMap.keep s.cis.cols p)
    (hd : ∀ k, p k = true → t.colDefault k = s.colDefault k) : t.colsWf = true := by
  simp only [State.colsWf, Bool.and_eq_true, hc] at h ⊢
  refine ⟨(SMap.sorted_filter _ _ h.1).1, List.all_eq_true.2 fun e he => ?_⟩
  obtain ⟨he, hp⟩ := List.mem_filter.1 he
  rw [hd e.1 hp]
  exact List.all_eq_true.1 h.2 e he

theorem State.Canon.eraseStack {s : State} (h : s.Canon) {st : Nat} :
    ({ s with cis := { s.cis with
      cols := SMap.keep s.cis.cols (fun k => !(k / stackCols == st))
      fills := s.cis.fills.map fun f => f.without st } } : State).Canon := by
  refine h.ofCols (State.colsWf_keep (p := fun k => !(k / stackCols == st)) h.cols rfl fun k hk => ?_) rfl
  have hk : k / stackCols ≠ st := by simpa using hk
  have hf : s.cis.fills.any (fun f => (f.without st).covers k) = s.cis.fills.any fun f => f.covers k := by
    simp only [Fill.covers_without hk]
  simp only [State.colDefault, List.any_map]
  exact congrArg (fun c => if c = true then poisonCol zeroCol else zeroCol) hf

theorem State.Canon.broughtUp {s : State} (h : s.Canon) {st : Nat} {lanes : List (Fin 32)} {rows : List (Fin 64 × Fin 32)} :
    (s.broughtUp st lanes rows).Canon := by
  unfold State.broughtUp
  extract_lets pg s1 s2
  have hs1 : s1.Canon := h.foldl fun _ _ h => h.setFld
  have hs2 : s2.Canon := by
    refine hs1.foldl fun s r h => ?_
    extract_lets k u
    have hu : u.Canon := h.setFld
    exact hu.same rfl
  exact hs2.eraseStack

theorem State.Canon.bringChannels {s : State} (h : s.Canon) {st : Nat} {failed : W32} : (s.bringChannels st failed).Canon := by
  unfold State.bringChannels
  exact h.foldl fun _ _ h => h.failedBringUp.ite h.enterChan

theorem State.Canon.execStackBringUp {s : State} (h : s.Canon) {st : Fin 20} {failed : W32} {lanes : List (Fin 32)}
    {rows : List (Fin 64 × Fin 32)} : Out.Canon (execStackBringUp st failed lanes rows s) := by
  unfold Machine.execStackBringUp
  split
  · exact h
  · exact h.broughtUp.bringChannels.setStackState.bootReady

theorem State.Canon.resumeChannels {s : State} (h : s.Canon) {st : Nat} {failed linkOk : W32} :
    (s.resumeChannels st failed linkOk).Canon := by
  unfold State.resumeChannels
  extract_lets _ s1
  have hs1 : s1.Canon := h.same rfl
  refine hs1.foldl fun s c h => ?_
  extract_lets
  split
  · exact h
  · exact h
  · exact h
  · exact h.setChan.retrainEnd

theorem State.Canon.execStackResume {s : State} (h : s.Canon) {st : Fin 20} {failed linkOk : W32} :
    Out.Canon (execStackResume st failed linkOk s) := by
  unfold Machine.execStackResume
  split
  · exact h
  · exact h.resumeChannels.setStackState.bootReady

theorem State.Canon.beginRepair {s : State} (h : s.Canon) {st : Nat} {spare : Bool} {r : Repair} : (s.beginRepair st spare r).Canon := by
  unfold State.beginRepair
  extract_lets
  exact h.regWrite (fun _ h => h.ite (h.setFld.ite (h.setFld.raise.ite (h.same (by rfl)))))

theorem State.Canon.execLaneRepair {s : State} (h : s.Canon) {st : Fin 20} {c : Fin 32} {lane : Fin 128} :
    Out.Canon (execLaneRepair st c lane s) :=
  h.beginRepair

theorem State.Canon.execRowRepair {s : State} (h : s.Canon) {st : Fin 20} {c : Fin 32} {target : Fin 128} {row : W16} :
    Out.Canon (execRowRepair st c target row s) :=
  h.beginRepair

theorem State.Canon.execRepairComplete {s : State} (h : s.Canon) {st : Fin 20} {ok : Bool} : Out.Canon (execRepairComplete st ok s) := by
  unfold Machine.execRepairComplete
  extract_lets
  refine h.gate fun s h => ?_
  extract_lets _ _ s1 s2
  have hs1 : s1.Canon := h.same rfl
  have hs2 : s2.Canon := hs1.setFld
  split
  · exact h
  · extract_lets
    split
    · exact hs1.setFld.raise
    · split
      · exact hs2.same rfl
      · exact hs2.setFld

theorem State.Canon.execSlotWeightWrite {s : State} (h : s.Canon) {q v : Fin 4} {j : Fin 8} {value : W32} :
    Out.Canon (execSlotWeightWrite q v j value s) :=
  h.regWrite (fun _ h => h.setReg)

/-! ### Machine/Retire -/

theorem State.Canon.abandonAll {s : State} (h : s.Canon) {cause : Nat} : (s.abandonAll cause).Canon := by
  unfold State.abandonAll
  exact h.foldl fun _ _ h => h.abandonRound

theorem State.Canon.quarantineEngine {s : State} (h : s.Canon) {e : Nat} : (s.quarantineEngine e).Canon := by
  unfold State.quarantineEngine
  exact h.foldl fun _ _ h => h.quarantine.ite h

theorem State.Canon.engineOff {s : State} (h : s.Canon) {e : Nat} : (s.engineOff e).Canon := h.resetEngine.setEngState

theorem State.Canon.reown {s : State} (h : s.Canon) : s.reown.Canon := h.same rfl

theorem State.Canon.loseWell {s : State} (h : s.Canon) {q : Nat} : (s.loseWell q).Canon := by
  unfold State.loseWell
  extract_lets _ s1
  have hs1 : s1.Canon := by
    unfold s1
    refine h.foldl fun s f h => ?_
    extract_lets _ _ _ s1' s2
    have hs1' : s1'.Canon := h.ofMem (SMap.wf_dropBlock h.wellWf) h.sumpWf h.goldBytesWf rfl
    have hs2 : s2.Canon := by
      unfold s2
      split
      · exact hs1'.useLoc
      · exact hs1'
    exact hs1'.setTile.ite hs2.setTile.tileLost
  exact (hs1.same (by with_reducible rfl)).settleRestores

theorem State.Canon.abortPage {s : State} (h : s.Canon) {page : Nat} : (s.abortPage page).Canon := by
  unfold State.abortPage
  exact h.foldl fun _ _ h => h.endFlying

theorem State.Canon.retireDie {s : State} (h : s.Canon) {n : Nat} : (s.retireDie n).Canon := by
  unfold State.retireDie
  extract_lets s1 s2 s3 s4 s5
  have hs1 : s1.Canon := h.abandonAll
  have hs2 : s2.Canon := hs1.abortPage.abortPage.foldl fun _ _ h => h.engineOff
  have hs3 : s3.Canon := hs2.foldl fun _ _ h => h.setFld
  have hs4 : s4.Canon := hs3.setKeeper.setReg
  have hs5 : s5.Canon := hs4.retireLog.reown.loseWell
  exact h.ite (hs5.foldl fun _ _ h => h.quarantineEngine)

theorem State.Canon.retireEngine {s : State} (h : s.Canon) {e : Nat} : (s.retireEngine e).Canon := by
  unfold State.retireEngine
  extract_lets _ s1 s2
  have hs1 : s1.Canon := (h.foldl fun _ _ h => h.abandonRound).engineOff.retireLog
  have hs2 : s2.Canon := hs1.quarantineEngine
  exact h.ite (hs2.retireDie.ite hs2)

theorem State.Canon.execEngineReset {s : State} (h : s.Canon) {e : Fin 32} : Out.Canon (execEngineReset e s) := by
  unfold Machine.execEngineReset
  extract_lets
  refine h.gate fun s h => ?_
  extract_lets _ _ _ _ _ s1 _ s2
  have hs1 : s1.Canon := h.foldl fun _ _ h => h.abandonRound
  have hs2 : s2.Canon := (hs1.same (by with_reducible rfl)).ite hs1
  split
  · exact h
  · split
    · exact hs2.retireEngine
    · exact hs2.resetEngine.noteReset

theorem State.Canon.execHeartbeat {s : State} (h : s.Canon) {u : Fin 4} : Out.Canon (execHeartbeat u s) := h.gate (fun _ h => h)

theorem State.Canon.execHeartbeatTimeout {s : State} (h : s.Canon) {q : Fin 4} : Out.Canon (execHeartbeatTimeout q s) :=
  h.gate (fun _ h => h.retireDie.ite h)

theorem State.Canon.movePumpQueues {s : State} (h : s.Canon) {page pump : Nat} : (s.movePumpQueues page pump).Canon := by
  unfold State.movePumpQueues
  split
  · exact h
  · exact h.foldl fun _ _ h => h.setFldB.ite h

theorem State.Canon.retirePump {s : State} (h : s.Canon) {page pump : Nat} : (s.retirePump page pump).Canon := by
  unfold State.retirePump
  extract_lets _ s1 _ s2 s3
  have hs1 : s1.Canon := h.foldl fun _ _ h => h.endFlying
  have hs2 : s2.Canon := (hs1.same (by with_reducible rfl)).retireLog
  have hs3 : s3.Canon := hs2.movePumpQueues
  exact h.ite (hs3.retireEngine.ite hs3)

theorem State.Canon.execPumpHangTimeout {s : State} (h : s.Canon) {page : Fin 10} {pump : Fin 8} :
    Out.Canon (execPumpHangTimeout page pump s) :=
  h.gate (fun _ h => h.retirePump.ite h)

theorem State.Canon.stall {s : State} (h : s.Canon) {r : Round} {stuck : List Nat} : (s.stall r stuck).Canon := by
  unfold State.stall
  extract_lets _ s1 s2 _ _ s3
  have hs1 : s1.Canon := h.abandonRound.raise
  have hs2 : s2.Canon := hs1.foldl fun _ _ h => h.resetEngine.noteReset
  have hs3 : s3.Canon := hs2.setModel
  exact hs3.quarantine.ite hs3

theorem State.Canon.execRoundStall {s : State} (h : s.Canon) {num : W64} : Out.Canon (execRoundStall num s) := by
  unfold Machine.execRoundStall
  refine h.gate fun s h => ?_
  split
  · exact h
  · extract_lets
    split
    · exact h
    · exact h.stall

theorem State.Canon.newTable {s : State} (h : s.Canon) {q v : Nat} {w : Nat → Nat → Nat} : (s.newTable q v w).Canon := by
  unfold State.newTable
  exact (h.foldl fun _ _ h => h.setFld).setFld.telEvent

theorem State.Canon.dropWeights {s : State} (h : s.Canon) {q v : Nat} : (s.dropWeights q v).Canon := by
  unfold State.dropWeights
  exact h.newTable.setWeightPend.setFld

theorem State.Canon.withdrawTile {s : State} (h : s.Canon) {k : Nat} : (s.withdrawTile k).Canon := by
  unfold State.withdrawTile
  extract_lets
  split
  · exact h
  · extract_lets s1
    have hs1 : s1.Canon := h.useLoc
    split
    · exact hs1.setTile.tileLost
    · extract_lets
      exact (hs1.same (by with_reducible rfl)).setTile

theorem State.Canon.rehome {s : State} (h : s.Canon) {k : Nat} : (s.rehome k).Canon := by
  unfold State.rehome
  extract_lets
  split
  · split
    · exact h.useLoc.setTile
    · exact h
  · exact h

theorem State.Canon.loseKept {s : State} (h : s.Canon) {sid : Nat} {p : Nat → Nat → Bool} : (s.loseKept sid p).Canon := by
  unfold State.loseKept
  exact h.ite ((h.foldl fun _ _ h => h.useLoc).setSes.enter.ite (h.foldl fun _ _ h => h.useLoc).setSes)

theorem State.Canon.loseJournal {s : State} (h : s.Canon) {q : Nat} : (s.loseJournal q).Canon := h.setJournal.raise.logErr.ite h

theorem State.Canon.stackOff {s : State} (h : s.Canon) {st : Nat} : (s.stackOff st).Canon := by
  unfold State.stackOff
  extract_lets s1 _ _ s2
  have hs1 : s1.Canon := h.setFld.setFld
  have hs2 : s2.Canon := hs1.same (by with_reducible rfl)
  exact hs2

theorem State.Canon.retireStack {s : State} (h : s.Canon) {st : Nat} : (s.retireStack st).Canon := by
  unfold State.retireStack
  extract_lets _ _ s1 s2 _ s3 s4 _ s5 s6
  have hs1 : s1.Canon := h.setFld.stackOff.retireLog
  have hs2 : s2.Canon := hs1.abandonAll
  have hs3 : s3.Canon := hs2.foldl fun _ _ h => h.withdrawTile
  have hs4 : s4.Canon := hs3.foldl fun _ _ h => h.loseKept
  have hs5 : s5.Canon := by
    unfold s5
    split
    · exact hs4.dropWeights.setObjs
    · exact hs4.setWeightPend
  have hs6 : s6.Canon := (hs5.foldl fun _ _ h => h.rehome).losePairs
  exact h.ite hs6.loseJournal.settleRestores.liftTiles

theorem State.Canon.execStackRetire {s : State} (h : s.Canon) {st : Fin 20} : Out.Canon (execStackRetire st s) :=
  h.gate (fun _ h => h.retireStack)

theorem State.Canon.execJournalCompact {s : State} (h : s.Canon) {sid : W32} : Out.Canon (execJournalCompact sid s) := by
  unfold Machine.execJournalCompact
  extract_lets
  refine h.gate fun s h => ?_
  extract_lets
  split
  · exact h
  · exact h.journalAdd

theorem State.Canon.execJournalRemirror {s : State} (h : s.Canon) {sid : W32} : Out.Canon (execJournalRemirror sid s) := by
  unfold Machine.execJournalRemirror
  extract_lets
  refine h.gate fun s h => ?_
  extract_lets _ _ _ s1
  have hs1 : s1.Canon := h.setJournal
  split
  · exact h
  · exact hs1.logErr.journalCheck

theorem State.Canon.replaceLost {s : State} (h : s.Canon) {sid : Nat} {l : Lost} : CanonOpt (s.replaceLost sid l) := by
  unfold State.replaceLost
  extract_lets
  split
  · exact h
  · exact CanonOpt.map_of fun _ => h.useSlots.useSlots.renamePage

theorem State.Canon.replaceAll {s : State} (h : s.Canon) {sid : Nat} : CanonOpt (s.replaceAll sid) :=
  CanonOpt.foldl (o := some s) h fun _ _ ho => ho.bind fun _ h => h.replaceLost

theorem State.Canon.execRebuild {s : State} (h : s.Canon) {sid : W32} : Out.Canon (execRebuild sid s) := by
  unfold Machine.execRebuild
  extract_lets
  refine h.gate fun s h => ?_
  extract_lets
  split
  · exact h
  · split
    · exact h
    · next s1 heq =>
        have hs1 : s1.Canon := h.replaceAll.eq heq
        exact hs1.setSes.bump.logErr

/-! ### Machine/Refetch -/

theorem State.Canon.unitNow {s : State} (h : s.Canon) {e fn o u : Nat} : (s.unitNow e fn o u).2.Canon := by
  unfold State.unitNow
  extract_lets _ _ r _ _ rd _ _ r'
  have hr : r.2.2.Canon := h.readDva
  have hrd : ∀ t b c, t.Canon → (rd t b c).2.2.Canon := fun _ _ _ h => h.readDva
  have hr' : r'.2.2.2.Canon := h.expandBlocks hrd
  obtain ⟨y, hy⟩ : ∃ y, y = r := ⟨r, rfl⟩
  obtain ⟨z, hz⟩ : ∃ z, z = r' := ⟨r', rfl⟩
  rw [← hy] at hr ⊢
  rw [← hz] at hr' ⊢
  split
  · exact hr
  · exact hr'

theorem State.Canon.refill {s : State} (h : s.Canon) {e fn o : Nat} : (s.refill e fn o).Canon := by
  unfold State.refill
  extract_lets fresh stage s1 a b _ s2
  have hs1 : s1.Canon := by
    unfold s1
    refine h.foldl fun s g h => ?_
    unfold stage
    extract_lets
    split
    · exact (h.readDva.storeWrite.ite h.unitBytes.readDva.storeWrite).ite h
    · exact h
  have ha : a.2.Canon := by
    unfold a
    refine hs1.foldl_snd fun a z h => ?_
    extract_lets r
    have hr : r.2.Canon := by
      unfold r
      unfold fresh
      split
      · extract_lets a' b'
        have ha' : a'.2.Canon := h.unitNow
        have hb' : b'.2.Canon := by
          unfold b'
          split
          · exact ha'.unitNow
          · dsimp only
            exact ha'
        split
        · dsimp only
          exact hb'
        · dsimp only
          exact h
      · dsimp only
        exact h
    dsimp only
    exact hr
  have hb : b.2.Canon := by
    unfold b
    refine ha.foldl_snd fun b t h => ?_
    split
    · extract_lets r
      have hr : r.2.Canon := by
        unfold r
        unfold fresh
        split
        · extract_lets a' b'
          have ha' : a'.2.Canon := h.unitNow
          have hb' : b'.2.Canon := by
            unfold b'
            split
            · exact ha'.unitNow
            · dsimp only
              exact ha'
          split
          · dsimp only
            exact hb'
          · dsimp only
            exact h
        · dsimp only
          exact h
      dsimp only
      exact hr
    · dsimp only
      exact h
  have hs2 : s2.Canon := hb.setEng
  exact (hs2.setCtx.ite hs2).setCtx.ite (hs2.setCtx.ite hs2)

theorem State.Canon.lockTile {s : State} (h : s.Canon) {k : Nat} {on : Bool} : (s.lockTile k on).Canon := h.setObj

theorem State.Canon.refetchFail {s : State} (h : s.Canon) {k : Nat} : (s.refetchFail k).Canon := by
  unfold State.refetchFail
  extract_lets _ _ _ s1 _ s2 s3
  have hs1 : s1.Canon := (h.same (by with_reducible rfl)).lockTile
  have hs2 : s2.Canon := hs1.setObj.logErr
  have hs3 : s3.Canon := hs2.quarantineObj.ite hs2
  exact (hs3.foldl fun _ _ h => h.abandonRound).foldl fun _ _ h => h.resetEngine

theorem State.Canon.execRefetch {s : State} (h : s.Canon) {fn : Fin 65} {obj tile : W16} : Out.Canon (execRefetch fn obj tile s) := by
  unfold Machine.execRefetch
  extract_lets
  refine h.gate fun s h => ?_
  extract_lets s1
  have hs1 : s1.Canon := h.lockTile
  split
  · exact h
  · split
    · exact hs1.refetchFail
    · exact (hs1.same (by with_reducible rfl)).askGolden

theorem State.Canon.restoreTile {s : State} (h : s.Canon) {k : Nat} {golden : Option (List Byte)} : (s.restoreTile k golden).Canon := by
  unfold State.restoreTile
  extract_lets _ _ _ _ s0
  have hs0 : s0.Canon := h.same rfl
  split
  · exact (hs0.same (by with_reducible rfl)).settleRestore
  · extract_lets
    split
    · exact (hs0.same (by with_reducible rfl)).settleRestore
    · split
      · exact (hs0.same (by with_reducible rfl)).settleRestore
      · next s1 heq =>
          have hs1 : s1.Canon := hs0.placeTile.eq heq
          exact hs1.writeTile.setTile.settleRestore

theorem State.Canon.endRefetch {s : State} (h : s.Canon) {fn o k : Nat} : (s.endRefetch fn o k).Canon := by
  unfold State.endRefetch
  extract_lets _ s2 s3
  have hs2 : s2.Canon := (h.same (by with_reducible rfl)).lockTile
  have hs3 : s3.Canon := hs2.logErr
  exact hs3.foldl fun _ _ h => h.refill

theorem State.Canon.execRefetchGoldenDone {s : State} (h : s.Canon) {fn : Fin 65} {obj tile : W16} {golden : Option (List Byte)} :
    Out.Canon (execRefetchGoldenDone fn obj tile golden s) := by
  unfold Machine.execRefetchGoldenDone
  extract_lets o k
  refine h.gate fun s h => ?_
  extract_lets
  split
  · exact h.restoreTile
  · split
    · exact h
    · split
      · exact h.refetchFail
      · next data =>
        split
        · exact h.refetchFail
        · have hs1 : (s.writeTile fn o tile.toNat (piecesOf 0 (s.goldenTile k data))).Canon := h.writeTile
          dsimp only
          generalize s.writeTile fn o tile.toNat (piecesOf 0 (s.goldenTile k data)) = s1 at hs1 ⊢
          refine Out.Canon.ite ?_ (Out.Canon.ite ?_ ?_)
          · exact hs1.endRefetch
          · exact hs1.setRefetch.askGolden
          · exact hs1.refetchFail

theorem State.Canon.execUnload {s : State} (h : s.Canon) : Out.Canon (execUnload s) := by
  unfold Machine.execUnload
  exact h.regWrite (fun _ h => h.ite (h.foldl fun _ _ h => (h.foldl fun _ _ h => h.complete).setSes))

theorem State.Canon.execInjectionEnable {s : State} (h : s.Canon) {value : W32} : Out.Canon (execInjectionEnable value s) :=
  h.regWrite (fun _ h => h.setFld.ite (h.setFld.ite h))

theorem State.Canon.inject {s : State} (h : s.Canon) {kind : Nat} {target : Bool} {k : State → Nat → Option State}
    (hk : ∀ t b, t.Canon → CanonOpt (k t b)) : (s.inject kind target k).Canon := by
  unfold State.inject
  refine h.regWrite fun s h => ?_
  extract_lets s1
  have hs1 : s1.Canon := h.setFld.setFld
  split
  · exact hs1.setFld
  · split
    · next s2 heq =>
        have hs2 : s2.Canon := (hk _ _ hs1).eq heq
        exact hs2.setFld
    · exact hs1.setFld

theorem State.Canon.injAt {s : State} (h : s.Canon) {target : Bool} {a : Nat} : (s.injAt target a).2.Canon := by
  unfold State.injAt
  extract_lets
  split
  · exact h
  · split
    · exact h
    · split
      · exact h
      · split
        · extract_lets c
          have hc : c.2.Canon := h.tileCol
          dsimp only
          exact hc
        · exact h

theorem State.Canon.execInjectCorrupt {s : State} (h : s.Canon) {kind : Fin 3} {target : Bool} :
    Out.Canon (execInjectCorrupt kind target s) := by
  unfold Machine.execInjectCorrupt
  extract_lets
  refine h.inject fun s a h => ?_
  extract_lets t _ u
  have ht : t.2.Canon := h.injAt
  have hu : u.Canon := ht
  split
  · exact trivial
  · extract_lets u''
    have hu'' : u''.Canon := hu.setCol
    exact hu''.same (by with_reducible rfl)
  · exact hu.same (by with_reducible rfl)

theorem State.Canon.execInjectPoison {s : State} (h : s.Canon) {target : Bool} : Out.Canon (execInjectPoison target s) := by
  unfold Machine.execInjectPoison
  refine h.inject fun s a h => ?_
  extract_lets t u
  have ht : t.2.Canon := h.injAt
  have hu : u.Canon := ht
  split
  · exact trivial
  · exact hu.setCol
  · exact hu.same (by with_reducible rfl)

theorem State.Canon.failPair {s : State} (h : s.Canon) {pair : Nat} : (s.failPair pair).Canon := h.retirePair.losePairs

theorem State.Canon.execInjectPartFailure {s : State} (h : s.Canon) : Out.Canon (execInjectPartFailure s) := by
  unfold Machine.execInjectPartFailure
  refine h.inject fun s a h => ?_
  extract_lets
  split
  · split
    · exact h.retireEngine
    · exact trivial
  · split
    · exact h.retirePump
    · exact trivial
  · split
    · exact h.setKeeper
    · exact trivial
  · split
    · exact h.failPair
    · exact trivial
  · split
    · split
      · exact trivial
      · exact trivial
      · exact trivial
      · exact h.loseChan
    · exact trivial
  · split
    · exact h.retireStack
    · exact trivial
  · split
    · exact h.retireDie
    · exact trivial
  · split
    · split
      · exact h.after h.execLaneLockLoss
      · exact trivial
    · exact trivial
  · split
    · exact h.raise.retirePort
    · exact trivial
  · exact trivial

/-! ### Machine/Time -/

theorem State.Canon.takePublication {s : State} (h : s.Canon) {v : Nat} : (s.takePublication v).Canon := by
  unfold State.takePublication
  extract_lets s1
  have hs1 : s1.Canon := h.setFld.setFld
  exact hs1.same (by with_reducible rfl)

theorem State.Canon.execHostTimePublish {s : State} (h : s.Canon) {hi : W32} : Out.Canon (execHostTimePublish hi s) :=
  h.regWrite (fun _ h => h.setFld.bump.logErr.ite h.takePublication)

theorem State.Canon.calibrate {s : State} (h : s.Canon) {blk host count : Nat} : (s.calibrate blk host count).Canon := by
  unfold State.calibrate
  extract_lets _ d _ u
  have hd : d.2.Canon := h.draw
  have hu : u.Canon := hd
  exact hu.same (by with_reducible rfl)

theorem State.Canon.execHostTimeCopyUpdate {s : State} (h : s.Canon) {blk : Fin 44} {count : W64} :
    Out.Canon (execHostTimeCopyUpdate blk count s) := by
  unfold Machine.execHostTimeCopyUpdate
  extract_lets
  split
  · exact h
  · extract_lets s1 s2 _ s3
    have hs1 : s1.Canon := h.same rfl
    have hs2 : s2.Canon := hs1.calibrate
    have hs3 : s3.Canon := by
      unfold s3
      split
      · exact hs2
      · exact hs2.same (by with_reducible rfl)
    split
    · exact h
    · exact hs3.gateUpdate.ite hs3

theorem State.Canon.execHostTimeStale {s : State} (h : s.Canon) : Out.Canon (execHostTimeStale s) := by
  unfold Machine.execHostTimeStale
  extract_lets s1
  have hs1 : s1.Canon := h.setFld
  split
  · exact h
  · exact hs1.irq.ite hs1

theorem State.Canon.countSlow {s : State} (h : s.Canon) {q span : Nat} {lat : Nat → Nat} {med : Nat} :
    (s.countSlow q span lat med).Canon := by
  unfold State.countSlow
  exact h.foldl fun _ _ h => (h.same (by with_reducible rfl)).ite (h.same (by with_reducible rfl))

/-- The runs of the steering after a table change, over a computed state. -/
theorem State.Canon.setFastRun {s : State} (h : s.Canon) {m : SMap Nat} : ({ s with cis := { s.cis with fastRun := m } } : State).Canon :=
  h.same rfl

theorem State.Canon.steer {s : State} (h : s.Canon) {q span : Nat} {lat : Nat → Nat} : (s.steer q span lat).Canon := by
  unfold State.steer
  extract_lets _ s1
  have hs1 : s1.Canon := h.countSlow
  split
  · exact hs1
  · split
    · exact hs1
    · exact hs1.newTable.setFastRun

theorem State.Canon.retryWeights {s : State} (h : s.Canon) {q : Nat} : (s.retryWeights q).Canon := by
  unfold State.retryWeights
  split
  · split
    · exact h.dropWeights
    · exact h
  · exact h

theorem State.Canon.placeAgain {s : State} (h : s.Canon) {fn o : Nat} : CanonOpt (s.placeAgain fn o) := by
  unfold State.placeAgain
  extract_lets x y
  refine CanonOpt.map (CanonOpt.foldl (o := some s) h fun a t ha => ?_) fun _ h => h.setObj.foldl fun _ _ h => h.retryWeights
  cases a with
  | none => trivial
  | some s =>
    have h : s.Canon := ha
    dsimp only
    split
    · exact h
    · exact CanonOpt.map_of fun b => h.useLoc.copyLoc.useLoc.setTile

theorem State.Canon.execSlotVersionMigrate {s : State} (h : s.Canon) {fn : Fin 65} {obj : W16} :
    Out.Canon (execSlotVersionMigrate fn obj s) := by
  unfold Machine.execSlotVersionMigrate
  refine h.gate fun s h => ?_
  split
  · exact h.getD h.placeAgain
  · exact h

theorem State.Canon.raiseLeads {s : State} (h : s.Canon) {span : Nat} : (s.raiseLeads span).Canon := by
  unfold State.raiseLeads
  refine h.foldl fun s e h => ?_
  exact h.setModel.ite (h.setModel.raise.ite (h.setModel.foldl fun _ _ h => h.setFldB.bumpB).telEvent)

theorem State.Canon.telChannels {s : State} (h : s.Canon) {st span stamp : Nat} {lat : Nat → Nat} :
    (s.telChannels st span stamp lat).Canon := by
  unfold State.telChannels
  exact h.foldl fun _ _ h => h.telRecord

theorem State.Canon.closeKeeper {s : State} (h : s.Canon) {q span stamp : Nat} {lat : Nat → Nat} :
    (s.closeKeeper q span stamp lat).Canon := by
  unfold State.closeKeeper
  extract_lets s1 s2 s3 s4
  have hs1 : s1.Canon := h.foldl fun _ _ h => h.setReg
  have hs2 : s2.Canon := hs1.steer.retryWeights
  have hs3 : s3.Canon := hs2.raiseLeads.ite hs2
  have hs4 : s4.Canon := hs3.foldl fun _ _ h => h.telChannels
  exact hs4.same (by with_reducible rfl)

theorem State.Canon.govern {s : State} (h : s.Canon) {x : Nat → Nat} : (s.govern x).2.Canon := by
  unfold State.govern
  extract_lets
  refine h.foldl_snd fun a n h => ?_
  extract_lets _ _ _ _ s1 s2
  have hs1 : s1.Canon := h.setFldB.setFldB.setFldB
  have hs2 : s2.Canon := hs1.raise.ite hs1
  exact hs2.ite hs2.event.telEvent

theorem State.Canon.closeTel {s : State} (h : s.Canon) {span stamp : Nat} {x : Nat → Nat} : (s.closeTel span stamp x).Canon := by
  unfold State.closeTel
  extract_lets s1 s2 g s3 s4 s5 _ _ s6 s7 _ _ s8
  have hs1 : s1.Canon := h.foldl fun _ _ h => h.setFld
  have hs2 : s2.Canon := hs1.setReg.setFld.setFld.setFld
  have hg : g.2.Canon := hs2.govern
  have hs3 : s3.Canon := hg.setReg
  have hs4 : s4.Canon := hs3.bump.ite hs3
  have hs5 : s5.Canon := hs4.foldl fun _ _ h => h.setFld
  have hs6 : s6.Canon := (hs5.same (by with_reducible rfl)).refreshAlerts
  have hs7 : s7.Canon := hs6.bump.ite hs6
  have hs8 : s8.Canon := hs7.telRecord
  exact hs8.telRecord

theorem State.Canon.closeWindow {s : State} (h : s.Canon) {b w i : Nat} {x : Nat → Nat} : (s.closeWindow b w i x).Canon := by
  unfold State.closeWindow
  extract_lets _ _ _ _ s1
  have hs1 : s1.Canon := h.same rfl
  exact hs1.closeKeeper.ite ((hs1.same (by with_reducible rfl)).ite (hs1.closeTel.ite hs1.telQueues))

theorem State.Canon.execTelemetryWindowClose {s : State} (h : s.Canon) {blk : Fin 44} {samples : List W16} :
    Out.Canon (execTelemetryWindowClose blk samples s) := by
  unfold Machine.execTelemetryWindowClose
  refine h.gate fun s h => ?_
  split
  · exact h
  · split
    · exact h
    · exact h.closeWindow

/-! ### Machine/Tenant -/

theorem State.Canon.enableNow {s : State} (h : s.Canon) {t rest : Nat} : (s.enableNow t rest).Canon :=
  h.setFld.setFnState.startRead.ite h.setFld.raise.setFnState

theorem State.Canon.discardWork {s : State} (h : s.Canon) {t : Nat} : (s.discardWork t).Canon := by
  unfold State.discardWork
  exact (h.foldl fun _ _ h => h.discardSilent).setTen

theorem State.Canon.stopExchange {s : State} (h : s.Canon) {t : Nat} : (s.stopExchange t).Canon := by
  unfold State.stopExchange
  refine h.foldl fun s hd h => ?_
  split
  · exact h.complete.ite h
  · exact h

theorem State.Canon.quiesce {s : State} (h : s.Canon) {t : Nat} {flr : Bool} : (s.quiesce t flr).Canon :=
  h.setTen.setFld.setFld.setFnState.stopExchange.noteReset

theorem State.Canon.disable {s : State} (h : s.Canon) {t : Nat} : (s.disable t).Canon := h.quiesce.ite (h.setFld.setFld.ite h.setFld)

theorem State.Canon.enable {s : State} (h : s.Canon) {t : Nat} : (s.enable t).Canon := h.enableNow.ite (h.setFld.setFld.ite h)

theorem State.Canon.endShutdown {s : State} (h : s.Canon) {t : Nat} : (s.endShutdown t).Canon := by
  unfold State.endShutdown
  extract_lets s1 _ s2
  have hs1 : s1.Canon := h.ite h.discardWork
  have hs2 : s2.Canon := hs1.setFld.setFld
  exact hs2.setFnState.ite (hs2.enableNow.ite hs2.setFnState)

theorem State.Canon.flr {s : State} (h : s.Canon) {t : Nat} : (s.flr t).Canon := by
  unfold State.flr
  extract_lets _ _ s1 _ s2 s3 s4 _ s5
  have hs1 : s1.Canon := h.quiesce.ite (h.setTen.ite h)
  have hs2 : s2.Canon := hs1.resetRegs
  have hs3 : s3.Canon := hs2.same (by with_reducible rfl)
  have hs4 : s4.Canon := hs3.setReg
  have hs5 : s5.Canon := hs4.setTen
  exact hs5.ite hs5.noteReset

theorem State.Canon.removeFn {s : State} (h : s.Canon) {t : Nat} : (s.removeFn t).Canon := h.flr.setTen.ite h.flr.setTen.setFnState

/-! ### Machine/Image -/

theorem State.Canon.enterRecovery {s : State} (h : s.Canon) {cause : Nat} : (s.enterRecovery cause).Canon := by
  unfold State.enterRecovery
  extract_lets s1 s2 s3
  have hs1 : s1.Canon := h.setFld.setFld.setFld
  have hs2 : s2.Canon := hs1.setFld.setFld
  have hs3 : s3.Canon := (hs2.raise.ite hs2).raise
  exact (hs3.same (by with_reducible rfl)).irq

theorem State.Canon.regeometry {s : State} (h : s.Canon) : s.regeometry.Canon := by
  unfold State.regeometry
  extract_lets _ s1
  have hs1 : s1.Canon := h.same rfl
  refine hs1.foldl fun s k h => ?_
  extract_lets _ _ s2
  have hs2 : s2.Canon := h.writeExc
  split
  · exact hs2.same (by with_reducible rfl)
  · exact hs2.same (by with_reducible rfl)
  · exact h

theorem State.Canon.takeProfile {s : State} (h : s.Canon) : s.takeProfile.Canon := by
  unfold State.takeProfile
  extract_lets s1 s2
  have hs1 : s1.Canon := by
    unfold s1
    split
    · exact h.ite (h.same (by with_reducible rfl)).regeometry
    · exact h
  have hs2 : s2.Canon := hs1.setFld
  exact hs2.foldl fun _ _ h => h.setFnState.ite h

theorem State.Canon.runImage {s : State} (h : s.Canon) {img : List Byte} {fromHost : Bool} : (s.runImage img fromHost).Canon := by
  unfold State.runImage
  extract_lets s1 _ _ _ s2 s3
  have hs1 : s1.Canon := h.takeProfile
  have hs2 : s2.Canon := hs1.setFld.setFld.setFld
  have hs3 : s3.Canon := hs2.setFld.setReg
  exact (hs3.same (by with_reducible rfl)).bootReady

theorem State.Canon.bootSlot {s : State} (h : s.Canon) {flashOk : Bool} : (s.bootSlot flashOk).Canon := h.runImage.ite h.enterRecovery

/-! ### Machine/Reset -/

theorem State.Canon.finishJournal {s : State} (h : s.Canon) {n : Nat} : (State.finishJournal n s).Canon := by
  induction n generalizing s with
  | zero => exact h
  | succ n ih =>
    unfold State.finishJournal
    split
    · exact h
    · exact ih (h.after h.execJournalWriteComplete)

theorem State.Canon.endWork {s : State} (h : s.Canon) : s.endWork.Canon := h.finishJournal.abandonAll

/-- A die's blocks after a reset, over a computed state. -/
theorem State.Canon.clearDie {s : State} (h : s.Canon) {a : SMap PmpQueue} {b : SMap Nat} {c : SMap Nat} {l : LinkState} :
    ({ s with pmp := { s.pmp with queues := a }, mem := { s.mem with primeNow := b, wellCe := c }, link := l } : State).Canon := h.same rfl

theorem State.Canon.resetDie {s : State} (h : s.Canon) {q : Nat} : (s.resetDie q).Canon := by
  unfold State.resetDie
  refine State.Canon.clearDie (State.Canon.setKeeper ?_)
  exact h.abortPage.abortPage.foldl fun _ _ h => h.resetEngine.setEng

theorem State.Canon.resetStack {s : State} (h : s.Canon) {st : Nat} : (s.resetStack st).Canon := h.same rfl

theorem State.Canon.toSelfRefresh {s : State} (h : s.Canon) {st : Nat} : (s.toSelfRefresh st).Canon := by
  unfold State.toSelfRefresh
  extract_lets s1
  have hs1 : s1.Canon := h.setStackState
  exact h.ite (hs1.same (by with_reducible rfl))

theorem State.Canon.resetPages {s : State} (h : s.Canon) {covers keeps : Nat → Nat → Bool} : (s.resetPages covers keeps).Canon := by
  unfold State.resetPages
  extract_lets _ s1 s2
  have hs1 : s1.Canon := h.resetRegs
  have hs2 : s2.Canon := hs1.same (by with_reducible rfl)
  exact hs2.same (by with_reducible rfl)

theorem State.Canon.clearRepair {s : State} (h : s.Canon) {st : Nat} : (s.clearRepair st).Canon := h.setFld.setFld

theorem State.Canon.quadReset {s : State} (h : s.Canon) {q cause : Nat} : (s.quadReset q cause).Canon := by
  unfold State.quadReset
  extract_lets s1 s2 s3 s4 s5 s6
  have hs1 : s1.Canon := h.endWork.resetDie
  have hs2 : s2.Canon := hs1.foldl fun _ _ h => h.resetStack
  have hs3 : s3.Canon := hs2.resetPages
  have hs4 : s4.Canon := hs3.foldl fun _ _ h => h.ite h.setFld
  have hs5 : s5.Canon := hs4.foldl fun _ _ h => h.clearRepair.toSelfRefresh
  have hs6 : s6.Canon := hs5.setFld.noteReset
  exact hs6.quadReady

theorem State.Canon.execQuad {s : State} (h : s.Canon) {q : Fin 4} : Out.Canon (execQuad q s) :=
  h.regWrite (fun _ h => h.setFld.ite h.setFld.quadReset)

theorem State.Canon.order6 {s : State} (h : s.Canon) {flashOk : Bool} : (s.order6 flashOk).Canon := by
  unfold State.order6
  extract_lets
  exact (h.same (by with_reducible rfl)).ite h.bootSlot

/-- The blocks that a warm reset clears, over a computed state. -/
theorem State.Canon.clearBlocks {s : State} (h : s.Canon) {q : SMap PmpQueue} {a r : List Nat} {l : LinkState} {t : TelState}
    {x y : SMap Nat} {z : SesAll} :
    ({ s with
      pmp := { s.pmp with queues := q, late := a, lostRounds := r }
      link := l
      tel := t
      cis := { s.cis with slowRun := x, fastRun := y }
      ses := z } : State).Canon := h.same rfl

theorem State.Canon.setBoot {s : State} (h : s.Canon) {b : BootState} : ({ s with boot := b } : State).Canon := h.same rfl

theorem State.Canon.warmReset {s : State} (h : s.Canon) {cause : Nat} {flashOk : Bool} : (s.warmReset cause flashOk).Canon := by
  unfold State.warmReset
  refine State.Canon.order6 (State.Canon.setBoot (State.Canon.refreshAlerts (State.Canon.noteReset (State.Canon.setFld ?_))))
  refine State.Canon.foldl (State.Canon.foldl (State.Canon.foldl (State.Canon.resetPages (State.Canon.clearBlocks ?_))
    fun _ _ h => h.clearRepair.toSelfRefresh) fun _ _ h => h.setFld) fun _ _ h => h.endShutdown.ite h
  exact ((h.endWork.foldl fun _ _ h => h.resetDie).foldl fun _ _ h => h.endFlying).foldl fun _ _ h => h.resetStack

theorem State.Canon.execWarm {s : State} (h : s.Canon) {flashOk : Bool} : Out.Canon (execWarm flashOk s) :=
  h.regWrite (fun _ h => h.warmReset.ite h)

theorem State.Canon.execWarmRst {s : State} (h : s.Canon) {flashOk : Bool} : Out.Canon (execWarmRst flashOk s) := h.warmReset.ite h

theorem State.Canon.coldReset {s : State} : s.coldReset.Canon := State.memoryWf_reset

/-! ### Machine/Boot -/

theorem State.Canon.execPerst {s : State} (h : s.Canon) {prof : Fin 4} {flashOk : Bool} : Out.Canon (execPerst prof flashOk s) := by
  unfold Machine.execPerst
  extract_lets _ _ s1 s2 s3 s4 s5
  have hs1 : s1.Canon := h.same rfl
  have hs2 : s2.Canon := hs1.setFld.setFld
  have hs3 : s3.Canon := hs2.setReg.setReg
  have hs4 : s4.Canon := hs3.raise.ite hs3
  have hs5 : s5.Canon := hs4.setFld.setFld
  split
  · exact h
  · exact (hs5.foldl fun _ _ h => h.setFld).bootSlot

theorem State.Canon.execCommit {s : State} (h : s.Canon) {reached : Fin 65} : Out.Canon (execCommit reached s) := by
  unfold Machine.execCommit
  exact h.regWrite (fun _ h => h.setFld.ite (h.setFld.ite (h.same (by with_reducible rfl)).setFld))

theorem State.Canon.execProfileSelect {s : State} (h : s.Canon) {profile : Fin 4} {flashOk : Bool} :
    Out.Canon (execProfileSelect profile flashOk s) := by
  unfold Machine.execProfileSelect
  exact h.regWrite (fun _ h => h.setFld.ite (h.setFld.setFld.ite (h.setFld.setFld.setFld.same (by with_reducible rfl)).warmReset))

theorem State.Canon.endLoad {s : State} (h : s.Canon) {result cause : Nat} : (s.endLoad result cause).Canon := by
  unfold State.endLoad
  extract_lets s1
  have hs1 : s1.Canon := h.setReg.setFld
  exact (hs1.same (by with_reducible rfl)).irq

theorem State.Canon.execLoad {s : State} (h : s.Canon) {flash : Bool} : Out.Canon (execLoad flash s) := by
  unfold Machine.execLoad
  refine h.regWrite fun s h => ?_
  extract_lets s1 _ _ s2
  have hs1 : s1.Canon := h.setFld
  have hs2 : s2.Canon := hs1.setFld.emit
  exact hs1.ite ((hs1.endLoad.ite (hs2.same (by with_reducible rfl))).ite hs1.setReg)

theorem State.Canon.execLoadComplete {s : State} (h : s.Canon) {data : Option (List Byte)} : Out.Canon (execLoadComplete data s) := by
  unfold Machine.execLoadComplete
  extract_lets
  split
  · exact h
  · split
    · exact h.endLoad
    · extract_lets
      split
      · exact h.raise.endLoad
      · split
        · exact h.same rfl
        · split
          · exact h.endLoad.runImage
          · exact h.endLoad

theorem State.Canon.execFlashWriteComplete {s : State} (h : s.Canon) {ok readOk : Bool} :
    Out.Canon (execFlashWriteComplete ok readOk s) := by
  unfold Machine.execFlashWriteComplete
  extract_lets
  split
  · exact h
  · extract_lets s1 s2
    have hs1 : s1.Canon := h.same rfl
    have hs2 : s2.Canon := hs1.endLoad.ite hs1.raise.endLoad
    split
    · exact (hs2.same (by with_reducible rfl)).bootSlot
    · split
      · exact hs2.runImage
      · exact hs2

theorem State.Canon.spdm {s : State} (h : s.Canon) {m : SpdmResp} {k : State → State} (hk : ∀ t, t.Canon → (k t).Canon) :
    Out.Canon (s.spdm m k) := by
  unfold State.spdm
  split
  · exact h
  · exact (hk _ h).emit.event.irq

theorem State.Canon.execGetVersion {s : State} (h : s.Canon) : Out.Canon (execGetVersion s) := h.spdm (fun _ h => h)

theorem State.Canon.execGetCapabilities {s : State} (h : s.Canon) : Out.Canon (execGetCapabilities s) := h.spdm (fun _ h => h)

theorem State.Canon.execNegotiateAlgorithms {s : State} (h : s.Canon) : Out.Canon (execNegotiateAlgorithms s) := by
  unfold Machine.execNegotiateAlgorithms
  exact h.spdm (fun _ h => h.same (by with_reducible rfl))

theorem State.Canon.execGetDigests {s : State} (h : s.Canon) : Out.Canon (execGetDigests s) := h.spdm (fun _ h => h)

theorem State.Canon.execGetCertificate {s : State} (h : s.Canon) {slot : Byte} {off len : W32} :
    Out.Canon (execGetCertificate slot off len s) := by
  unfold Machine.execGetCertificate
  extract_lets
  split
  · exact h.spdm (fun _ h => h)
  · exact h.spdm (fun _ h => h)

theorem State.Canon.execChallenge {s : State} (h : s.Canon) {slot summary : Byte} {nonce : List Byte} :
    Out.Canon (execChallenge slot summary nonce s) := by
  unfold Machine.execChallenge
  extract_lets d _ t
  have hd : d.2.Canon := h.drawBytes
  have ht : t.2.Canon := hd.draw
  split
  · exact h.spdm (fun _ h => h)
  · exact h.spdm (fun _ h => ht)

theorem State.Canon.execGetMeasurements {s : State} (h : s.Canon) {index : Byte} {signed : Bool} {nonce : List Byte} :
    Out.Canon (execGetMeasurements index signed nonce s) := by
  unfold Machine.execGetMeasurements
  extract_lets _ _ t
  have ht : t.2.Canon := h.draw
  split
  · exact h.spdm (fun _ h => h)
  · exact h.spdm (fun _ h => ht.ite h)

theorem State.Canon.execSpdmUnsupported {s : State} (h : s.Canon) {u : Byte} : Out.Canon (execSpdmUnsupported u s) :=
  h.spdm (fun _ h => h)

theorem State.Canon.jtag {s : State} (h : s.Canon) {offered : Bool} {ir : JtagIr} {k : State → State} (hk : ∀ t, t.Canon → (k t).Canon) :
    Out.Canon (s.jtag offered ir k) := by
  unfold State.jtag
  extract_lets
  split
  · exact h
  · split
    · exact hk _ (h.same (by with_reducible rfl))
    · exact h.same rfl

theorem State.Canon.execBypass {s : State} (h : s.Canon) : Out.Canon (execBypass s) := h.jtag (fun _ h => h)

theorem State.Canon.execIdcode {s : State} (h : s.Canon) : Out.Canon (execIdcode s) := h.jtag (fun _ h => h.emit)

theorem State.Canon.execSamplePreload {s : State} (h : s.Canon) {data : List Byte} : Out.Canon (execSamplePreload data s) := by
  unfold Machine.execSamplePreload
  exact h.jtag (fun _ h => (h.drawBytes.same (by with_reducible rfl)).emit)

theorem State.Canon.execExtest {s : State} (h : s.Canon) : Out.Canon (execExtest s) := h.jtag (fun _ h => h.emit)

theorem State.Canon.execClamp {s : State} (h : s.Canon) : Out.Canon (execClamp s) := h.jtag (fun _ h => h.emit)

theorem State.Canon.execHighz {s : State} (h : s.Canon) : Out.Canon (execHighz s) := h.jtag (fun _ h => h.emit)

theorem State.Canon.execUnlockChal {s : State} (h : s.Canon) : Out.Canon (execUnlockChal s) := by
  unfold Machine.execUnlockChal
  exact h.jtag (fun _ h => (h.drawBytes.same (by with_reducible rfl)).emit)

theorem State.Canon.execUnlockResp {s : State} (h : s.Canon) {key sig : List Byte} : Out.Canon (execUnlockResp key sig s) :=
  h.jtag (fun _ h => h.setFld.raise.ite (h.setFld.ite (h.setFld.setFld.raise.ite h.setFld)))

/-! ### Machine/Port -/

theorem State.Canon.execFunctionEnable {s : State} (h : s.Canon) {t : Fin 64} : Out.Canon (execFunctionEnable t s) := h.enable.ite h

theorem State.Canon.execFunctionDisable {s : State} (h : s.Canon) {t : Fin 64} : Out.Canon (execFunctionDisable t s) := h.disable.ite h

theorem State.Canon.execD3hotEntry {s : State} (h : s.Canon) {fn : Fin 66} : Out.Canon (execD3hotEntry fn s) := by
  unfold Machine.execD3hotEntry
  extract_lets
  split
  · exact h
  · split
    · exact h.ite (h.same (by with_reducible rfl))
    · split
      · exact h
      · exact h.setTen.disable

theorem State.Canon.execReturnToD0 {s : State} (h : s.Canon) {fn : Fin 66} : Out.Canon (execReturnToD0 fn s) := by
  unfold Machine.execReturnToD0
  extract_lets
  split
  · split
    · exact h
    · exact h.same rfl
  · exact h.setTen

theorem State.Canon.execFlr {s : State} (h : s.Canon) {t : Fin 64} : Out.Canon (execFlr t s) := h.flr.ite h

theorem State.Canon.execPfFlr {s : State} (h : s.Canon) {flashOk : Bool} : Out.Canon (execPfFlr flashOk s) := by
  unfold Machine.execPfFlr
  extract_lets s1
  have hs1 : s1.Canon := h.foldl fun _ _ h => h.removeFn.ite h
  split
  · exact h
  · exact (hs1.same (by with_reducible rfl)).warmReset

theorem State.Canon.execShutdownComplete {s : State} (h : s.Canon) {t : Fin 64} : Out.Canon (execShutdownComplete t s) :=
  h.endShutdown.ite h

theorem State.Canon.execVfDisable {s : State} (h : s.Canon) {port : Fin 2} {num : Fin 65} : Out.Canon (execVfDisable port num s) := by
  unfold Machine.execVfDisable
  split
  · exact h
  · exact h.foldl fun _ _ h => h.removeFn.ite h

theorem State.Canon.execFunctionProvisioned {s : State} (h : s.Canon) {t : Fin 64} : Out.Canon (execFunctionProvisioned t s) := by
  unfold Machine.execFunctionProvisioned
  extract_lets _ s1
  have hs1 : s1.Canon := h.setTen
  split
  · exact h
  · exact hs1.setFnState.ite hs1

theorem State.Canon.execDiscard {s : State} (h : s.Canon) : Out.Canon (execDiscard s) :=
  h.regWrite (fun _ h => h.ite (h.discardWork.setFnState.ite (h.discardWork.ite h)))

theorem State.Canon.execAtsTranslation {s : State} (h : s.Canon) {chunk : Fin 2097152} {ok : Bool} :
    Out.Canon (execAtsTranslation chunk ok s) := by
  unfold Machine.execAtsTranslation
  extract_lets _ _ _ s1
  have hs1 : s1.Canon := h.same rfl
  split
  · exact h
  · split
    · exact h.same rfl
    · exact hs1.bump.raise.raise

theorem State.Canon.execInvalidateRequest {s : State} (h : s.Canon) {itag : Fin 32} {chunks : List Nat} :
    Out.Canon (execInvalidateRequest itag chunks s) := by
  unfold Machine.execInvalidateRequest
  extract_lets
  split
  · exact h
  · exact h.same rfl

theorem State.Canon.execInvalidateCompletion {s : State} (h : s.Canon) {itag : Fin 32} : Out.Canon (execInvalidateCompletion itag s) := by
  unfold Machine.execInvalidateCompletion
  extract_lets _ s1
  have hs1 : s1.Canon := h.same rfl
  split
  · exact h
  · exact hs1.bump.emit

theorem State.Canon.noteViolation {s : State} (h : s.Canon) {c f port low : Nat} : (s.noteViolation c f port low).Canon := by
  unfold State.noteViolation
  exact (h.foldl fun _ _ h => h.bump.setReg.setReg).raise.event

theorem State.Canon.answerViolation {s : State} (h : s.Canon) {c f : Nat} {write : Bool} {addr : Nat} :
    (s.answerViolation c f write addr).Canon := by
  unfold State.answerViolation
  extract_lets s3 s4
  have hs3 : s3.Canon := h.fault.ite h
  have hs4 : s4.Canon := hs3.emit.ite hs3
  split
  · split
    · exact hs4.badAccess.emit
    · exact hs4.emit
  · exact hs4.ringRead'.ite hs4

theorem State.Canon.execPartnerViolation {s : State} (h : s.Canon) {code : Fin 8} {fn : Fin 66} {port : Fin 2} {write : Bool} {addr : W64} :
    Out.Canon (execPartnerViolation code fn port write addr s) := by
  unfold Machine.execPartnerViolation
  extract_lets
  split
  · exact h
  · exact h.noteViolation.answerViolation

theorem State.Canon.execPcieLinkTrain {s : State} (h : s.Canon) {port : Fin 2} {width : Fin 17} {rate : Fin 7} {flit : Bool} :
    Out.Canon (execPcieLinkTrain port width rate flit s) := by
  unfold Machine.execPcieLinkTrain
  extract_lets _ _ s1
  have hs1 : s1.Canon := h.setReg
  split
  · exact h
  · exact hs1.bumpB.raise.ite hs1

/-! ### Machine/Package -/

theorem State.Canon.logTrip {s : State} (h : s.Canon) {cause unit temp : Nat} : (s.logTrip cause unit temp).Canon := h.setReg

theorem State.Canon.execVauxGood {s : State} (h : s.Canon) {maddr : Fin 4} {mv : W16} : Out.Canon (execVauxGood maddr mv s) := by
  unfold Machine.execVauxGood
  extract_lets _ s1 s2
  have hs1 : s1.Canon := h.same rfl
  have hs2 : s2.Canon := hs1.ite hs1.setReg
  split
  · exact h
  · exact hs2.setReg.setFld

theorem State.Canon.execVinRamp {s : State} (h : s.Canon) : Out.Canon (execVinRamp s) := by
  unfold Machine.execVinRamp
  extract_lets
  split
  · exact h
  · exact h.same rfl

theorem State.Canon.execVinLoss {s : State} (h : s.Canon) {vaux : Bool} : Out.Canon (execVinLoss vaux s) := by
  unfold Machine.execVinLoss
  extract_lets s1
  have hs1 : s1.Canon := State.Canon.coldReset
  split
  · exact h
  · exact hs1.same (by with_reducible rfl)

theorem State.Canon.execVinLow {s : State} (h : s.Canon) {mv : W16} : Out.Canon (execVinLow mv s) := by
  unfold Machine.execVinLow
  split
  · exact h
  · exact h.setFld.refreshAlerts

theorem State.Canon.execThermalTrip {s : State} (h : s.Canon) {cause : Fin 5} {unit : Fin 32} {temp : Byte} :
    Out.Canon (execThermalTrip cause unit temp s) := by
  unfold Machine.execThermalTrip
  extract_lets _ _ s1
  have hs1 : s1.Canon := State.Canon.coldReset
  split
  · exact h
  · exact hs1.same (by with_reducible rfl)

theorem State.Canon.execMgmtBusWrite {s : State} (h : s.Canon) {u : Fin 4096} {w : List Byte} : Out.Canon (execMgmtBusWrite u w s) :=
  h.emit.ite h

theorem State.Canon.execI3cAddressAssign {s : State} (h : s.Canon) {addr : Fin 128} : Out.Canon (execI3cAddressAssign addr s) := by
  unfold Machine.execI3cAddressAssign
  extract_lets
  split
  · exact h
  · exact (h.same (by with_reducible rfl)).setFld

theorem State.Canon.execPerstAssertion {s : State} (h : s.Canon) : Out.Canon (execPerstAssertion s) := h.ite State.Canon.coldReset

theorem State.Canon.execVauxLoss {s : State} (h : s.Canon) : Out.Canon (execVauxLoss s) := by
  unfold Machine.execVauxLoss
  extract_lets s1
  have hs1 : s1.Canon := h.setReg.setReg.setReg
  split
  · exact h
  · exact hs1.same (by with_reducible rfl)

/-! ### Machine/RegWrite -/

theorem State.Canon.store {s : State} (h : s.Canon) {pg : Page} {off v : Nat} : (s.store pg off v).Canon := by
  unfold State.store
  extract_lets
  split
  · exact h.setReg
  · exact h

theorem State.Canon.act {s : State} (h : s.Canon) {c : State → Out} (hc : ∀ t, t.Canon → Out.Canon (c t)) : (s.act c).Canon :=
  h.after (hc _ h)

theorem State.Canon.writeCtrl {s : State} (h : s.Canon) {pg : Page} {v : Nat} : (s.writeCtrl pg v).Canon := by
  unfold State.writeCtrl
  extract_lets _ s0 _ s1 _ s1' s2 s3
  have hs0 : s0.Canon := h.setFld
  have hs1 : s1.Canon := by
    unfold s1
    refine hs0.act fun _ h => ?_
    split
    · exact h.execPortEnable
    · exact h.execPortDisable
  have hs1' : s1'.Canon := hs0.setFld.setFld
  have hs2 : s2.Canon := by
    unfold s2
    split
    · exact hs1'
    · refine hs1'.act fun _ h => ?_
      split
      · exact h.execEngineHalt
      · exact h.execEngineResume
  have hs3 : s3.Canon := (hs2.act (fun _ h => h.execEngineStep)).ite hs2
  split
  · refine hs0.act fun _ h => ?_
    split
    · exact h.execFunctionEnable
    · exact h.execFunctionDisable
  · exact (hs1.act (fun _ h => h.execLinkPortReset)).ite hs1
  · exact (hs3.act (fun _ h => h.execEngineReset)).ite hs3
  · exact hs0.setFld.setFld.setFld
  · exact hs0.setFld

theorem State.Canon.injectErr {s : State} (h : s.Canon) {pg : Page} {causes : Nat} : (s.injectErr pg causes).Canon := by
  unfold State.injectErr
  exact h.ite (h.foldl fun _ _ h => h.raise.ite h)

theorem State.Canon.writeHeader {s : State} (h : s.Canon) {pg : Page} {off v : Nat} : (s.writeHeader pg off v).Canon := by
  unfold State.writeHeader
  extract_lets
  split
  · exact h.writeCtrl
  · exact h.setReg.errEdge
  · exact h.setReg.errEdge
  · exact h.injectErr
  · exact h
  · exact h
  · exact h
  · exact h
  · exact h.badAccess

theorem State.Canon.objCmd {s : State} (h : s.Canon) {fn v : Nat} : (s.objCmd fn v).Canon := by
  unfold State.objCmd
  extract_lets
  split
  · exact h.act (fun _ h => h.execObjCreate)
  · exact h.act (fun _ h => h.execObjRelease)
  · exact h.act (fun _ h => h.execObjPin)
  · exact h.act (fun _ h => h.execObjUnpin)
  · exact h.act (fun _ h => h.execObjPromote)
  · exact h.act (fun _ h => h.execObjDemote)
  · exact h.act (fun _ h => h.execObjSetPref)
  · exact h.act (fun _ h => h.execObjQuery)
  · exact h

theorem State.Canon.chCmd {s : State} (h : s.Canon) {st v : Nat} : (s.chCmd st v).Canon := by
  unfold State.chCmd
  extract_lets
  split
  · exact h.act (fun _ h => h.execChCmdRetrain)
  · exact h.act (fun _ h => h.execChCmdMapOut)
  · exact h.act (fun _ h => h.execMarginEnter)
  · exact h.act (fun _ h => h.execMarginExit)
  · exact h

theorem State.Canon.repairCmd {s : State} (h : s.Canon) {st v : Nat} : (s.repairCmd st v).Canon := by
  unfold State.repairCmd
  extract_lets
  split
  · exact h.act (fun _ h => h.execLaneRepair)
  · exact h.act (fun _ h => h.execRowRepair)
  · exact h

theorem State.Canon.resetCmd {s : State} (h : s.Canon) {v : Nat} : (s.resetCmd v).Canon := by
  unfold State.resetCmd
  extract_lets s1 s2 d
  have hs1 : s1.Canon := h.setFld
  have hs2 : s2.Canon := (hs1.act (fun _ h => h.execQuad)).ite hs1
  have hd : d.2.Canon := hs2.draw
  exact (hd.act (fun _ h => h.execWarm)).ite hs2

theorem State.Canon.injCmd {s : State} (h : s.Canon) {v : Nat} : (s.injCmd v).Canon := by
  unfold State.injCmd
  extract_lets _ s1
  have hs1 : s1.Canon := h.setFld.setFld
  split
  · exact hs1
  · split
    · exact hs1.act (fun _ h => h.execInjectCorrupt)
    · split
      · exact hs1.act (fun _ h => h.execInjectPoison)
      · exact (hs1.act (fun _ h => h.execInjectPartFailure)).ite hs1

theorem State.Canon.secCmd {s : State} (h : s.Canon) {off v : Nat} : (s.secCmd off v).Canon := by
  unfold State.secCmd
  extract_lets d
  have hd : d.2.Canon := h.draw
  split
  · exact (hd.act (fun _ h => h.execCommit)).ite h
  · split
    · exact (hd.act (fun _ h => h.execProfileSelect)).ite h.setFld
    · exact (h.act (fun _ h => h.execLoad)).ite h.setFld

theorem State.Canon.rowWrite {s : State} (h : s.Canon) {pg : Page} {off v : Nat} : CanonOpt (s.rowWrite pg off v) := by
  unfold State.rowWrite
  extract_lets _ _ s1 d
  have hs1 : s1.Canon := h.setFld
  have hd : d.2.Canon := h.draw
  split
  · exact h.act (fun _ h => h.execHostTimePublish)
  · exact (h.act (fun _ h => h.execDiscard)).ite h
  · exact h.secCmd
  · exact h.secCmd
  · exact h.secCmd
  · exact h.resetCmd
  · exact (h.act (fun _ h => h.execUnload)).ite h
  · exact h.act (fun _ h => h.execInjectionEnable)
  · exact h.injCmd
  · exact h.act (fun _ h => h.execQueueConfigWrite)
  · exact h.act (fun _ h => h.execShaperBurstWrite)
  · exact h.act (fun _ h => h.execGateListCommit)
  · exact (hs1.act (fun _ h => h.execGateListCancel)).ite hs1
  · exact h.act (fun _ h => h.execPumpSqDoorbell)
  · exact h.act (fun _ h => h.execPumpQueueResume)
  · exact (h.act (fun _ h => h.execPortRetrain)).ite h
  · exact hd.act (fun _ h => h.execYrun)
  · exact h.act (fun _ h => h.execTestWin)
  · exact h.act (fun _ h => h.execWinData)
  · exact (h.act (fun _ h => h.execTagCplPop)).ite h
  · exact h.act (fun _ h => h.execSessionQuery)
  · exact (h.act (fun _ h => h.execAdapterInstall)).ite ((h.act (fun _ h => h.execAdapterRetire)).ite h)
  · exact h.act (fun _ h => h.execSliceModeChange)
  · exact h.act (fun _ h => h.execQuotaFloorWrite)
  · exact h.act (fun _ h => h.execSumpChunksWrite)
  · exact h.act (fun _ h => h.execScheduleInstall)
  · exact h.objCmd
  · exact h.objCmd
  · exact h.act (fun _ h => h.execTableCommit)
  · exact h.act (fun _ h => h.execProgramStoreWrite)
  · exact h.act (fun _ h => h.execTestProgramStart)
  · exact h.act (fun _ h => h.execBranchCmd)
  · exact h.chCmd
  · exact h.act (fun _ h => h.execMarginMeasure)
  · exact h.repairCmd
  · split
    · exact h.act (fun _ h => h.execSlotWeightWrite)
    · exact trivial
  · exact h.act (fun _ h => h.execMicroprogramWrite)
  · exact h.act (fun _ h => h.execSqDoorbell)
  · exact h.act (fun _ h => h.execTrDoorbell)
  · exact trivial

theorem State.Canon.writeSqCfg {s : State} (h : s.Canon) {pg : Page} {v : Nat} : (s.writeSqCfg pg v).Canon :=
  (h.ite h.setFldB.setFldB).setFldB

theorem State.Canon.writeModelPrime {s : State} (h : s.Canon) {pg : Page} {v : Nat} : (s.writeModelPrime pg v).Canon := by
  unfold State.writeModelPrime
  exact h.setFldB.setFldB.foldl fun _ _ h => h.setFldB

theorem State.Canon.ringMoved {s : State} (h : s.Canon) {t : Nat} {sq : Bool} : (s.ringMoved t sq).Canon :=
  h.setFld.setFld.setTen.ite h.setFld.setFld

theorem State.Canon.afterWrite {s : State} (h : s.Canon) {pg : Page} {off : Nat} : (s.afterWrite pg off).Canon := by
  unfold State.afterWrite
  split
  · exact h.setFld.ite h
  · exact h.refreshAlerts
  · exact h.refreshAlerts
  · exact h.ringMoved
  · exact h.ringMoved
  · exact h.ringMoved
  · exact h.ringMoved
  · exact h

theorem State.Canon.writeMsix {s : State} (h : s.Canon) {fn off v : Nat} : (s.writeMsix fn off v).Canon :=
  h.ite (h.setReg.setReg.irq.ite h.setReg)

theorem State.Canon.commitPair {s : State} (h : s.Canon) {pg : Page} {off v : Nat} : (s.commitPair pg off v).Canon := h.store.store

theorem State.Canon.writeWord {s : State} (h : s.Canon) {pg : Page} {off : Nat} {w : W32} : (s.writeWord pg off w).Canon := by
  unfold State.writeWord
  extract_lets
  split
  · exact h.writeMsix
  · split
    · exact h.writeHeader
    · split
      · exact h
      · split
        · exact h.badAccess
        · split
          · next t heq => exact h.rowWrite.eq heq
          · split
            · exact h
            · split
              · exact h.same rfl
              · exact h.commitPair.afterWrite.ite (h.writeSqCfg.ite (h.writeModelPrime.ite h.store.afterWrite))

theorem State.Canon.untoldWord {s : State} (h : s.Canon) {pg : Page} {r : Reg} : (s.untoldWord pg r).2.Canon := by
  unfold State.untoldWord
  extract_lets d
  have hd : d.2.Canon := h.draw
  dsimp only
  exact hd

theorem State.Canon.readWord {s : State} (h : s.Canon) {pg : Page} {off : Nat} : (s.readWord pg off).2.Canon := by
  unfold State.readWord
  extract_lets _ s1
  have hs1 : s1.Canon := (h.same (by with_reducible rfl)).ite h
  split
  · exact h.winWord
  · split
    · exact h
    · split
      · exact hs1
      · split
        · exact hs1.setReg
        · split
          · exact hs1
          · split
            · split
              · exact hs1.untoldWord
              · exact hs1.setReg
            · exact hs1

/-! ### Machine/Registers -/

theorem State.Canon.dropped {s : State} (h : s.Canon) {fn off : Nat} {write : Bool} : (s.dropped fn off write).Canon := by
  unfold State.dropped
  split
  · exact h.badAccess
  · exact h.bump.setReg.ite (h.ite h.badAccess)

theorem State.Canon.busWrite {s : State} (h : s.Canon) {fn off : Nat} {w : W32} : (s.busWrite fn off w).Canon := by
  unfold State.busWrite
  split
  · exact h.writeWord
  · exact h.dropped

theorem State.Canon.busRead {s : State} (h : s.Canon) {fn off : Nat} : (s.busRead fn off).2.Canon := by
  unfold State.busRead
  split
  · exact h.readWord
  · exact h

theorem State.Canon.execRegisterWrite {s : State} (h : s.Canon) {fn : Fin 66} {off : W32} {data : List Byte} :
    Out.Canon (execRegisterWrite fn off data s) := by
  unfold Machine.execRegisterWrite
  extract_lets
  split
  · exact h
  · split
    · exact h.dropped
    · exact h.foldl fun _ _ h => h.busWrite

theorem State.Canon.readWords {s : State} (h : s.Canon) {fn off n : Nat} : (s.readWords fn off n).2.Canon := by
  induction n generalizing s off with
  | zero => exact h
  | succ n ih => exact ih h.busRead

theorem State.Canon.regRead {s : State} (h : s.Canon) {fn : Fin 66} {o len : Nat} : (s.regRead fn o len).Canon :=
  h.readWords.emit.ite ((h.act (fun _ h => h.execPartnerViolation)).ite h.dropped.emit)

theorem State.Canon.execRegisterReadClear {s : State} (h : s.Canon) {fn : Fin 66} {off : W32} {len : Fin 4097} :
    Out.Canon (execRegisterReadClear fn off len s) := by
  unfold Machine.execRegisterReadClear
  split
  · exact h
  · exact h.regRead

theorem State.Canon.execPairLoRead {s : State} (h : s.Canon) {fn : Fin 66} {off : W32} : Out.Canon (execPairLoRead fn off s) := by
  unfold Machine.execPairLoRead
  extract_lets
  split
  · split
    · exact h.regRead
    · exact h
  · exact h

theorem State.Canon.execErrorInject {s : State} (h : s.Canon) {fn : Fin 66} {slot : Fin 16384} {causes : W32} :
    Out.Canon (execErrorInject fn slot causes s) := by
  unfold Machine.execErrorInject
  split
  · split
    · exact h.injectErr
    · exact h
  · exact h

theorem State.Canon.execMgmtBusRead {s : State} (h : s.Canon) {off : Fin 4096} {len : Fin 257} : Out.Canon (execMgmtBusRead off len s) :=
  h.emit.ite h

theorem State.Canon.execDebugAccess {s : State} (h : s.Canon) {op : DebugOp} : Out.Canon (execDebugAccess op s) := by
  unfold Machine.execDebugAccess
  extract_lets _ s0
  have hs0 : s0.Canon := h.same rfl
  split
  · exact h
  · split
    · split
      · split
        · exact hs0
        · exact hs0.emit
      · exact hs0.emit
    · split
      · extract_lets
        split
        · exact hs0
        · exact hs0.setReg
      · exact hs0
    · extract_lets r
      have hr : r.2.Canon := hs0.resolve
      split
      · exact trivial
      · exact hr.emit
    · extract_lets r
      have hr : r.2.Canon := hs0.resolve
      split
      · exact trivial
      · exact hr.setCol
    · exact hs0.emit
    · exact hs0.ofMem (SMap.wf_set _ _ _ _ hs0.wellWf) hs0.sumpWf hs0.goldBytesWf rfl
    · exact hs0.emit
    · exact hs0.ofStore (SMap.wf_set _ _ _ _ hs0.storeWf) rfl

/-! ### Machine/Dispatch -/

theorem State.Canon.exec {s : State} (h : s.Canon) {i : Instr} : Out.Canon (exec i s) := by
  unfold Machine.exec
  split
  · exact h.execSealRound
  · exact h.execKvTailWrite
  · exact h.execLayerBoundary
  · exact h.execSampling
  · exact h.execRoundBoundary
  · exact h.execDeadlineExpiry
  · exact h.execTimeToLiveExpiry
  · exact h.execTokenDelivery
  · exact h.execTokenIrqDelayExpiry
  · exact h.execHostTimePublish
  · exact h.execHostTimeCopyUpdate
  · exact h.execHostTimeStale
  · exact h.execTelemetryWindowClose
  · exact h.execSlotVersionMigrate
  · exact h.execRegisterWrite
  · exact h.execRegisterReadClear
  · exact h.execPairLoRead
  · exact h.execErrorInject
  · exact h.execColumnRead
  · exact h.execColumnWrite
  · exact h.execAddFp32
  · exact h.execAddBf16
  · exact h.execAddInt32
  · exact h.execAddInt64
  · exact h.execMinFp32
  · exact h.execMaxFp32
  · exact h.execMinBf16
  · exact h.execMaxBf16
  · exact h.execMinInt32
  · exact h.execMaxInt32
  · exact h.execMinInt64
  · exact h.execMaxInt64
  · exact h.execSwap32
  · exact h.execSwap64
  · exact h.execCas32
  · exact h.execCas64
  · exact h.execFetchAddInt32
  · exact h.execFetchAddInt64
  · exact h.execScrubRead
  · exact h.execStackTempRead
  · exact h.execRetrainRequest
  · exact h.execChCmdRetrain
  · exact h.execChCmdMapOut
  · exact h.execMarginEnter
  · exact h.execMarginExit
  · exact h.execMarginMeasure
  · exact h.execMarginMeasureDone
  · exact h.execRetrainStart
  · exact h.execRetrainComplete
  · exact h.execRetrainTimeout
  · exact h.execMapOutStart
  · exact h.execKvRunMove
  · exact h.execMapoutGranuleCopy
  · exact h.execChannelLost
  · exact h.execStackBringUp
  · exact h.execStackResume
  · exact h.execLaneRepair
  · exact h.execRowRepair
  · exact h.execRepairComplete
  · exact h.execSlotWeightWrite
  · exact h.execRunRingPublish
  · exact h.execTagOpen
  · exact h.execTagRelease
  · exact h.execUnitTagStart
  · exact h.execQueryBroadcast
  · exact h.execBktNop
  · exact h.execBktInit
  · exact h.execBktZero
  · exact h.execBktQk
  · exact h.execBktMask
  · exact h.execBktSmax
  · exact h.execBktPv
  · exact h.execBktNext
  · exact h.execBktBr
  · exact h.execBktMaxx
  · exact h.execBktSendacc
  · exact h.execBktEnd
  · exact h.execWindlassProg
  · exact h.execWindlassStart
  · exact h.execWindlassPagelist
  · exact h.execWindlassQuery
  · exact h.execMaxUp
  · exact h.execMaxDown
  · exact h.execAccUp
  · exact h.execWindlassDone
  · exact h.execWindlassPoison
  · exact h.execTagComplete
  · exact h.execCombineSlotCarry
  · exact h.execYieldService
  · exact h.execMicroprogramWrite
  · exact h.execBucketUnitTimeout
  · exact h.execObjCreate
  · exact h.execObjRelease
  · exact h.execObjPin
  · exact h.execObjUnpin
  · exact h.execObjPromote
  · exact h.execObjDemote
  · exact h.execObjSetPref
  · exact h.execObjQuery
  · exact h.execObjectLoadDone
  · exact h.execObjectFreed
  · exact h.execTileMoveComplete
  · exact h.execPromotion
  · exact h.execEviction
  · exact h.execSliceModeChange
  · exact h.execSliceSwitchComplete
  · exact h.execQuotaFloorWrite
  · exact h.execSumpChunksWrite
  · exact h.execScheduleInstall
  · exact h.execPrimingStage
  · exact h.execPumpNop
  · exact h.execPumpCopy
  · exact h.execPumpFill
  · exact h.execPumpAdder
  · exact h.execPumpCompress
  · exact h.execCompressSecondPass
  · exact h.execPumpExpand
  · exact h.execPumpFence
  · exact h.execPumpSqDoorbell
  · exact h.execPumpQueueResume
  · exact h.execTableCommit
  · exact h.execTableGenerationDrain
  · exact h.execFeedExpand
  · exact h.execLatchFill
  · exact h.execMma
  · exact h.execAccset
  · exact h.execProgramStart
  · exact h.execTestProgramStart
  · exact h.execProgramStoreWrite
  · exact h.execEngineHalt
  · exact h.execEngineStep
  · exact h.execEngineResume
  · exact h.execEngineReset
  · exact h.execVxNop
  · exact h.execAdd
  · exact h.execSub
  · exact h.execMul
  · exact h.execFma
  · exact h.execMax
  · exact h.execMin
  · exact h.execSel
  · exact h.execMov
  · exact h.execAbs
  · exact h.execNeg
  · exact h.execExp
  · exact h.execLog
  · exact h.execRcp
  · exact h.execRsqrt
  · exact h.execSilu
  · exact h.execGelu
  · exact h.execSigm
  · exact h.execTanh
  · exact h.execF2i
  · exact h.execI2f
  · exact h.execRotp
  · exact h.execAnd
  · exact h.execOr
  · exact h.execXor
  · exact h.execShl
  · exact h.execShr
  · exact h.execSra
  · exact h.execCmpeq
  · exact h.execCmpne
  · exact h.execCmplt
  · exact h.execCmple
  · exact h.execCmpgt
  · exact h.execCmpge
  · exact h.execIsnan
  · exact h.execMand
  · exact h.execMor
  · exact h.execMandn
  · exact h.execMnot
  · exact h.execMfill
  · exact h.execRowset
  · exact h.execRsum
  · exact h.execRmax
  · exact h.execRmin
  · exact h.execRargmax
  · exact h.execRargmin
  · exact h.execRband
  · exact h.execRbor
  · exact h.execTsum
  · exact h.execTsumsq
  · exact h.execTmax
  · exact h.execTmin
  · exact h.execTargmax
  · exact h.execTargmin
  · exact h.execScan
  · exact h.execFindge
  · exact h.execKth
  · exact h.execPerm
  · exact h.execBcast
  · exact h.execCompress
  · exact h.execExpand
  · exact h.execScmb
  · exact h.execRng
  · exact h.execSummary
  · exact h.execBranchWord
  · exact h.execBranchCmd
  · exact h.execFigure
  · exact h.execYProgramYield
  · exact h.execYProgramResume
  · exact h.execFeed
  · exact h.execScale
  · exact h.execGet
  · exact h.execPut
  · exact h.execRowin
  · exact h.execRowout
  · exact h.execEnd
  · exact h.execFence
  · exact h.execSignal
  · exact h.execWait
  · exact h.execNotify
  · exact h.execJump
  · exact h.execKeeperCounterAdd
  · exact h.execSqDoorbell
  · exact h.execTrDoorbell
  · exact h.execSubmissionTake
  · exact h.execOpen
  · exact h.execAppend
  · exact h.execGenerate
  · exact h.execPark
  · exact h.execResume
  · exact h.execClose
  · exact h.execCancel
  · exact h.execKvImport
  · exact h.execKvExport
  · exact h.execAdapterBind
  · exact h.execPurge
  · exact h.execSettleComplete
  · exact h.execSinkComplete
  · exact h.execWakeComplete
  · exact h.execAdapterInstall
  · exact h.execAdapterRetire
  · exact h.execAdapterVersionFree
  · exact h.execPromptProgramStart
  · exact h.execYrun
  · exact h.execCustomProgramStart
  · exact h.execTestWin
  · exact h.execTestWindowActive
  · exact h.execWinData
  · exact h.execTagCplPop
  · exact h.execSessionQuery
  · exact h.execFrameEnqueue
  · exact h.execFrameSend
  · exact h.execShaperTick
  · exact h.execQueueConfigWrite
  · exact h.execShaperBurstWrite
  · exact h.execGateListCommit
  · exact h.execGateListCancel
  · exact h.execHostReadCompletion
  · exact h.execCompletionTimeout
  · exact h.execFunctionEnable
  · exact h.execFunctionDisable
  · exact h.execD3hotEntry
  · exact h.execFlr
  · exact h.execPfFlr
  · exact h.execShutdownComplete
  · exact h.execVfDisable
  · exact h.execFunctionProvisioned
  · exact h.execDiscard
  · exact h.execAtsTranslation
  · exact h.execInvalidateRequest
  · exact h.execInvalidateCompletion
  · exact h.execPartnerViolation
  · exact h.execPcieLinkTrain
  · exact h.execGetVersion
  · exact h.execGetCapabilities
  · exact h.execNegotiateAlgorithms
  · exact h.execGetDigests
  · exact h.execGetCertificate
  · exact h.execChallenge
  · exact h.execGetMeasurements
  · exact h.execSpdmUnsupported
  · exact h.execPortEnable
  · exact h.execPortDisable
  · exact h.execPortTrain
  · exact h.execTrainingTimeout
  · exact h.execHello
  · exact h.execPortRetrain
  · exact h.execLaneLockLoss
  · exact h.execWrite
  · exact h.execRead
  · exact h.execReduce
  · exact h.execAtomic
  · exact h.execRdata
  · exact h.execAckr
  · exact h.execMsg
  · exact h.execLinkctl
  · exact h.execFrameForward
  · exact h.execAckTimer
  · exact h.execReplayTimeout
  · exact h.execRequestTimeout
  · exact h.execLinkPortReset
  · exact h.execJournalWriteComplete
  · exact h.execJournalCompact
  · exact h.execJournalRemirror
  · exact h.execRebuild
  · exact h.execPumpHangTimeout
  · exact h.execHeartbeat
  · exact h.execHeartbeatTimeout
  · exact h.execStackRetire
  · exact h.execRoundStall
  · exact h.execRefetch
  · exact h.execRefetchGoldenDone
  · exact h.execUnload
  · exact h.execWarm
  · exact h.execQuad
  · exact h.execWarmRst
  · exact h.execInjectionEnable
  · exact h.execInjectCorrupt
  · exact h.execInjectPoison
  · exact h.execInjectPartFailure
  · exact h.execPerst
  · exact h.execCommit
  · exact h.execProfileSelect
  · exact h.execLoad
  · exact h.execLoadComplete
  · exact h.execFlashWriteComplete
  · exact h.execUnlockChal
  · exact h.execUnlockResp
  · exact h.execBypass
  · exact h.execIdcode
  · exact h.execSamplePreload
  · exact h.execExtest
  · exact h.execClamp
  · exact h.execHighz
  · exact h.execDebugAccess
  · exact h.execVauxGood
  · exact h.execVinRamp
  · exact h.execVinLoss
  · exact h.execVinLow
  · exact h.execThermalTrip
  · exact h.execMgmtBusRead
  · exact h.execMgmtBusWrite
  · exact h.execI3cAddressAssign
  · exact h.execUncorrectableCodeword
  · exact h.execPerstAssertion
  · exact h.execReturnToD0
  · exact h.execVauxLoss

/-! ### Machine/Step -/

theorem State.Canon.step {s : State} (h : s.Canon) : Out.Canon (step s) := by
  unfold Machine.step
  split
  · exact h
  · exact (h.same (by with_reducible rfl)).exec

/-! ### The obligation -/

/-- Settles O3, by the lemma of every command. -/
theorem stepsKeepMemoryCanonical : Obligations.StepsKeepMemoryCanonical := by
  intro s t hs ht
  have h : Out.Canon (step s) := State.Canon.step hs
  rwa [ht] at h

end Sys2Proof.Machine

/-! # The cistern code -/

namespace Sys2Proof.Machine
open Sys2Proof

/-! ## Multiplication by x, and products

The model computes in GF(2^8) on numbers; here the same operations stand on bytes, where their laws hold without bounds. -/

/-- `gfX` on bytes. -/
def gX (a : Byte) : Byte := a <<< 1 ^^^ if a.msb then 0x1D#8 else 0#8

/-- `gfMulN` on bytes. -/
def gmulN : Nat → Byte → Nat → Byte
  | 0, _, _ => 0#8
  | n + 1, a, b => (if b % 2 = 1 then a else 0#8) ^^^ gmulN n (gX a) (b / 2)

/-- `gfMul` on bytes. -/
def gmul (a b : Byte) : Byte := gmulN 8 a b.toNat

/-- `gfPow` on bytes. -/
def gpow (a : Byte) : Nat → Byte
  | 0 => 1#8
  | n + 1 => gmul a (gpow a n)

theorem toNat_gX : ∀ a : Byte, (gX a).toNat = gfX a.toNat := by decide +kernel

theorem toNat_gmulN (n : Nat) (a : Byte) (b : Nat) : (gmulN n a b).toNat = gfMulN n a.toNat b := by
  induction n generalizing a b with
  | zero => rfl
  | succ n ih => rw [gmulN, gfMulN, BitVec.toNat_xor, ih, toNat_gX, apply_ite BitVec.toNat]; rfl

theorem toNat_gmul (a b : Byte) : (gmul a b).toNat = gfMul a.toNat b.toNat := toNat_gmulN ..

theorem toNat_gpow (a : Byte) (n : Nat) : (gpow a n).toNat = gfPow a.toNat n := by
  induction n with
  | zero => rfl
  | succ n ih => rw [gpow, gfPow, toNat_gmul, ih]

theorem xor_cancel_left (a b : Byte) : a ^^^ (a ^^^ b) = b := by
  rw [← BitVec.xor_assoc, BitVec.xor_self, BitVec.zero_xor]

theorem xor_left_comm (a b c : Byte) : a ^^^ (b ^^^ c) = b ^^^ (a ^^^ c) := by
  rw [← BitVec.xor_assoc, BitVec.xor_comm a, BitVec.xor_assoc]

theorem gX_zero : gX 0#8 = 0#8 := by decide

theorem gX_xor (a b : Byte) : gX (a ^^^ b) = gX a ^^^ gX b := by
  simp only [gX, BitVec.shiftLeft_xor_distrib, BitVec.msb_xor]
  cases a.msb <;> cases b.msb <;> simp [BitVec.xor_assoc, BitVec.xor_comm, xor_left_comm]

theorem gmulN_zero_left (n b : Nat) : gmulN n 0#8 b = 0#8 := by
  induction n generalizing b with
  | zero => rfl
  | succ n ih => simp [gmulN, gX_zero, ih]

theorem gmulN_xor_left (n : Nat) (a a' : Byte) (b : Nat) : gmulN n (a ^^^ a') b = gmulN n a b ^^^ gmulN n a' b := by
  induction n generalizing a a' b with
  | zero => simp [gmulN]
  | succ n ih =>
    rw [gmulN, gmulN, gmulN, gX_xor, ih]
    split <;> simp [BitVec.xor_assoc, xor_left_comm]

theorem gmulN_xor_right (n : Nat) (a : Byte) (b b' : Nat) : gmulN n a (b ^^^ b') = gmulN n a b ^^^ gmulN n a b' := by
  induction n generalizing a b b' with
  | zero => simp [gmulN]
  | succ n ih =>
    rw [gmulN, gmulN, gmulN, Nat.xor_div_two, ih]
    have hodd : ((b ^^^ b') % 2 = 1) = ¬(b % 2 = 1 ↔ b' % 2 = 1) := propext Nat.xor_mod_two_eq_one
    simp only [hodd]
    by_cases h : b % 2 = 1 <;> by_cases h' : b' % 2 = 1 <;> simp [h, h', BitVec.xor_assoc, xor_left_comm]

/-- Multiplying by x commutes with multiplying by anything. -/
theorem gmulN_gX (n : Nat) (a : Byte) (b : Nat) : gmulN n (gX a) b = gX (gmulN n a b) := by
  induction n generalizing a b with
  | zero => exact gX_zero.symm
  | succ n ih => rw [gmulN, gmulN, gX_xor, ih, apply_ite gX, gX_zero]

/-- Two factors may be multiplied on in either order: each is a sum of powers of x. -/
theorem gmulN_right_comm (m n : Nat) (a : Byte) (b c : Nat) : gmulN m (gmulN n a b) c = gmulN n (gmulN m a c) b := by
  induction m generalizing a c with
  | zero => exact (gmulN_zero_left n b).symm
  | succ m ih =>
    rw [gmulN, gmulN, gmulN_xor_left, ← gmulN_gX, ih]
    congr 1
    split
    · rfl
    · exact (gmulN_zero_left n b).symm

theorem one_gmul : ∀ a : Byte, gmul 1#8 a = a := by decide +kernel

theorem gmul_comm (a b : Byte) : gmul a b = gmul b a := by
  have h : gmul (gmul 1#8 a) b = gmul (gmul 1#8 b) a := gmulN_right_comm ..
  rwa [one_gmul, one_gmul] at h

theorem gmul_assoc (a b c : Byte) : gmul (gmul a b) c = gmul a (gmul b c) := by
  have h : gmul (gmul b a) c = gmul (gmul b c) a := gmulN_right_comm ..
  rw [gmul_comm a b, h, gmul_comm]

theorem gmul_left_comm (a b c : Byte) : gmul a (gmul b c) = gmul b (gmul a c) := by
  rw [← gmul_assoc, gmul_comm a b, gmul_assoc]

theorem xor_gmul (a b c : Byte) : gmul (a ^^^ b) c = gmul a c ^^^ gmul b c := gmulN_xor_left ..

theorem gmul_xor (a b c : Byte) : gmul a (b ^^^ c) = gmul a b ^^^ gmul a c := by
  rw [gmul_comm, xor_gmul, gmul_comm b, gmul_comm c]

@[simp] theorem zero_gmul (a : Byte) : gmul 0#8 a = 0#8 := gmulN_zero_left ..
@[simp] theorem gmul_zero (a : Byte) : gmul a 0#8 = 0#8 := by rw [gmul_comm, zero_gmul]
@[simp] theorem gmul_one (a : Byte) : gmul a 1#8 = a := by rw [gmul_comm, one_gmul]

/-! ## Powers and inverses -/

theorem gpow_add (a : Byte) (m n : Nat) : gpow a (m + n) = gmul (gpow a m) (gpow a n) := by
  induction m with
  | zero => rw [Nat.zero_add, gpow, one_gmul]
  | succ m ih => rw [Nat.succ_add, gpow, gpow, ih, gmul_assoc]

theorem gpow_mul (a : Byte) (m n : Nat) : gpow a (m * n) = gpow (gpow a m) n := by
  induction n with
  | zero => rfl
  | succ n ih => rw [Nat.mul_succ, Nat.add_comm, gpow_add, ih, gpow]

theorem one_gpow (n : Nat) : gpow 1#8 n = 1#8 := by
  induction n with
  | zero => rfl
  | succ n ih => rw [gpow, ih, one_gmul]

/-- The generator α = x. -/
theorem gpow_two_succ (n : Nat) : gpow 2#8 (n + 1) = gX (gpow 2#8 n) := by
  have h : ∀ a : Byte, gmul 2#8 a = gX a := by decide +kernel
  rw [gpow, h]

theorem toNat_gpow_two (n : Nat) : (gpow 2#8 n).toNat = gfX^[n] 1 := by
  induction n with
  | zero => rfl
  | succ n ih => rw [gpow_two_succ, toNat_gX, ih, Function.iterate_succ_apply']

/-- A number of which bits are set at the places in a list. -/
theorem testBit_foldl_or (l : List Nat) (m i : Nat) :
    (l.foldl (fun m a => m ||| 2 ^ a) m).testBit i = (m.testBit i || decide (i ∈ l)) := by
  induction l generalizing m with
  | nil => simp
  | cons a l ih => simp [ih, Nat.testBit_or, Nat.testBit_two_pow, Bool.or_assoc, eq_comm]

/-- The first 255 powers of α are the bytes but 0. -/
theorem gfX_powers : (List.iterate gfX 1 255).foldl (fun m a => m ||| 2 ^ a) 0 = 2 ^ 256 - 2 := by decide +kernel

theorem exists_gpow_two {a : Byte} (h : a ≠ 0#8) : ∃ n, a = gpow 2#8 n := by
  have hbit : (2 ^ 256 - 2).testBit a.toNat = true := by
    obtain ⟨k, hk⟩ := Nat.exists_eq_succ_of_ne_zero fun e => h (BitVec.eq_of_toNat_eq e)
    have hlt := a.isLt
    rw [show 2 ^ 256 - 2 = 2 * (2 ^ 255 - 1) from rfl, hk, Nat.testBit_succ, Nat.mul_div_cancel_left _ (by decide),
      Nat.testBit_two_pow_sub_one, decide_eq_true_eq]
    omega
  rw [← gfX_powers, testBit_foldl_or, Nat.zero_testBit, Bool.false_or, decide_eq_true_eq, List.mem_iterate] at hbit
  obtain ⟨n, -, hn⟩ := hbit
  exact ⟨n, BitVec.eq_of_toNat_eq (by rw [toNat_gpow_two, hn])⟩

theorem gpow_254 {a : Byte} (h : a ≠ 0#8) : gmul a (gpow a 254) = 1#8 := by
  obtain ⟨n, rfl⟩ := exists_gpow_two h
  have h255 : gpow 2#8 255 = 1#8 := by decide +kernel
  calc gmul (gpow 2#8 n) (gpow (gpow 2#8 n) 254)
    _ = gpow (gpow 2#8 n) 255 := rfl
    _ = gpow (gpow 2#8 255) n := by rw [← gpow_mul, Nat.mul_comm, gpow_mul]
    _ = 1#8 := by rw [h255, one_gpow]

theorem gmul_eq_zero {a b : Byte} (ha : a ≠ 0#8) (h : gmul a b = 0#8) : b = 0#8 := by
  rw [← one_gmul b, ← gpow_254 ha, gmul_comm a, gmul_assoc, h, gmul_zero]

/-! ## Columns as polynomials -/

/-- A row of bytes at a point, byte 0 being the coefficient of the highest power, after a value `a` already held. -/
def evalFrom (a : Byte) (c : List Byte) (x : Byte) : Byte := c.foldl (fun a b => gmul a x ^^^ b) a

/-- A row of bytes as a polynomial, at a point. -/
def evalAt (c : List Byte) (x : Byte) : Byte := evalFrom 0#8 c x

theorem evalFrom_eq (a : Byte) (c : List Byte) (x : Byte) : evalFrom a c x = gmul a (gpow x c.length) ^^^ evalAt c x := by
  induction c generalizing a with
  | nil => simp [evalAt, evalFrom, gpow]
  | cons b c ih =>
    have h : ∀ a, evalFrom a (b :: c) x = evalFrom (gmul a x ^^^ b) c x := fun _ => rfl
    rw [evalAt, h, h, ih, ih (_ ^^^ _), zero_gmul, BitVec.zero_xor, xor_gmul, List.length_cons, gpow, gmul_assoc, BitVec.xor_assoc]

theorem evalAt_append (c d : List Byte) (x : Byte) :
    evalAt (c ++ d) x = gmul (evalAt c x) (gpow x d.length) ^^^ evalAt d x := by
  rw [evalAt, evalFrom, List.foldl_append]
  exact evalFrom_eq (evalAt c x) d x

theorem evalAt_cons (b : Byte) (c : List Byte) (x : Byte) : evalAt (b :: c) x = gmul b (gpow x c.length) ^^^ evalAt c x := by
  rw [← evalFrom_eq, evalAt, evalFrom, List.foldl_cons, zero_gmul, BitVec.zero_xor]; rfl

/-- An error adds its value times its place's power. -/
theorem evalAt_xorAt {c : List Byte} {i : Nat} (hi : i < c.length) (v x : Byte) :
    evalAt (xorAt c i v.toNat) x = evalAt c x ^^^ gmul v (gpow x (c.length - 1 - i)) := by
  induction c generalizing i with
  | nil => exact absurd hi (Nat.not_lt_zero i)
  | cons b c ih =>
    cases i with
    | zero => simp [xorAt, evalAt_cons, xor_gmul, BitVec.xor_comm, xor_left_comm]
    | succ i =>
      have hi' : i < c.length := Nat.lt_of_succ_lt_succ hi
      have hx : xorAt (b :: c) (i + 1) v.toNat = b :: xorAt c i v.toNat := rfl
      have hlen : (xorAt c i v.toNat).length = c.length := List.length_modify ..
      rw [hx, evalAt_cons, evalAt_cons, ih hi', hlen, List.length_cons, BitVec.xor_assoc,
        show c.length + 1 - 1 - (i + 1) = c.length - 1 - i by omega]

theorem syndrome_eq (c : List Byte) (i : Nat) : syndrome c i = (evalAt c (gpow 2#8 i)).toNat := by
  have h : ∀ a : Byte, c.foldl (fun a b => gfMul a (gfPow 2 i) ^^^ b.toNat) a.toNat = (evalFrom a c (gpow 2#8 i)).toNat := by
    induction c with
    | nil => exact fun _ => rfl
    | cons b c ih =>
      intro a
      rw [List.foldl_cons, evalFrom, List.foldl_cons, ← evalFrom, ← ih, BitVec.toNat_xor, toNat_gmul, toNat_gpow]
      rfl
  exact h 0#8

/-- The four syndromes, as bytes. -/
theorem syndromes_eq (c : List Byte) : syndromes c
    = [(evalAt c (gpow 2#8 0)).toNat, (evalAt c (gpow 2#8 1)).toNat, (evalAt c (gpow 2#8 2)).toNat, (evalAt c (gpow 2#8 3)).toNat] := by
  simp only [← syndrome_eq]; rfl

/-! ## Code words -/

/-- `rsStep` on bytes. -/
def rsStepByte (r : Byte × Byte × Byte × Byte) (d : Byte) : Byte × Byte × Byte × Byte :=
  let f := d ^^^ r.1
  (r.2.1 ^^^ gmul 0x0F#8 f, r.2.2.1 ^^^ gmul 0x36#8 f, r.2.2.2 ^^^ gmul 0x78#8 f, gmul 0x40#8 f)

/-- The remainder of the division by the generator. -/
def rsRem (data : List Byte) : Byte × Byte × Byte × Byte := data.foldl rsStepByte (0#8, 0#8, 0#8, 0#8)

/-- A remainder as `rsStep` holds it. -/
def rsNums (r : Byte × Byte × Byte × Byte) : Nat × Nat × Nat × Nat := (r.1.toNat, r.2.1.toNat, r.2.2.1.toNat, r.2.2.2.toNat)

theorem rsStep_rsNums (r : Byte × Byte × Byte × Byte) (d : Byte) : rsStep (rsNums r) d.toNat = rsNums (rsStepByte r d) := by
  simp only [rsNums, rsStep, rsStepByte, BitVec.toNat_xor, toNat_gmul]
  rfl

theorem foldl_rsStep_rsNums (data : List Byte) (r : Byte × Byte × Byte × Byte) :
    data.foldl (fun r d => rsStep r d.toNat) (rsNums r) = rsNums (data.foldl rsStepByte r) := by
  induction data generalizing r with
  | nil => rfl
  | cons d data ih => rw [List.foldl_cons, rsStep_rsNums, ih]; rfl

theorem rsCheck_eq (data : List Byte) :
    rsCheck data = [(rsRem data).1, (rsRem data).2.1, (rsRem data).2.2.1, (rsRem data).2.2.2] := by
  have h : data.foldl (fun r d => rsStep r d.toNat) (0, 0, 0, 0) = rsNums (rsRem data) := foldl_rsStep_rsNums data (0#8, 0#8, 0#8, 0#8)
  simp only [rsCheck, h, rsNums, BitVec.ofNat_toNat, BitVec.setWidth_eq]

/-- Is a point a root of the generator? -/
def RsRoot (x : Byte) : Prop := gpow x 4 = gmul 0x0F#8 (gpow x 3) ^^^ gmul 0x36#8 (gpow x 2) ^^^ gmul 0x78#8 x ^^^ 0x40#8

theorem rsRoot_gpow : ∀ i < 4, RsRoot (gpow 2#8 i) := by unfold RsRoot; decide +kernel

theorem length_rsCheck (data : List Byte) : (rsCheck data).length = 4 := rfl

theorem evalAt_four (a b c d x : Byte) :
    evalAt [a, b, c, d] x = gmul a (gpow x 3) ^^^ gmul b (gpow x 2) ^^^ gmul c x ^^^ d := by
  simp [evalAt, evalFrom, gpow, xor_gmul, gmul_assoc]

/-- A step of the division multiplies the remainder by x and adds the next byte times x^4, at every root of the generator. -/
theorem evalAt_rsStepByte {x : Byte} (hx : RsRoot x) (r : Byte × Byte × Byte × Byte) (d : Byte) :
    evalAt [(rsStepByte r d).1, (rsStepByte r d).2.1, (rsStepByte r d).2.2.1, (rsStepByte r d).2.2.2] x
      = gmul (evalAt [r.1, r.2.1, r.2.2.1, r.2.2.2] x) x ^^^ gmul d (gpow x 4) := by
  obtain ⟨a, b, c, e⟩ := r
  have hf : gmul (d ^^^ a) (gpow x 4) = gmul (d ^^^ a) (gmul 0x0F#8 (gpow x 3) ^^^ gmul 0x36#8 (gpow x 2) ^^^ gmul 0x78#8 x ^^^ 0x40#8) :=
    congrArg _ hx
  have hd : gmul d (gpow x 4) = gmul (d ^^^ a) (gpow x 4) ^^^ gmul a (gpow x 4) := by
    rw [xor_gmul, BitVec.xor_assoc, BitVec.xor_self, BitVec.xor_zero]
  rw [hd, hf, evalAt_four, evalAt_four, rsStepByte]
  generalize d ^^^ a = f
  simp only [gpow, gmul_xor, gmul_comm, gmul_left_comm, gmul_one, BitVec.xor_assoc, BitVec.xor_comm, xor_left_comm,
    xor_cancel_left]

theorem evalAt_rsCheck {x : Byte} (hx : RsRoot x) (data : List Byte) :
    evalAt (rsCheck data) x = gmul (evalAt data x) (gpow x 4) := by
  induction data using List.reverseRecOn with
  | nil => simp [rsCheck_eq, rsRem, evalAt, evalFrom]
  | append_singleton data d ih =>
    have hrem : rsRem (data ++ [d]) = rsStepByte (rsRem data) d := by rw [rsRem, List.foldl_append]; rfl
    have h1 : gpow x 1 = x := gmul_one x
    rw [rsCheck_eq] at ih ⊢
    rw [hrem, evalAt_rsStepByte hx, ih, evalAt_append, List.length_singleton, h1, xor_gmul, gmul_assoc, gmul_assoc, gmul_comm (gpow x 4)]
    simp [evalAt, evalFrom]

@[simp] theorem length_slice (bs : List Byte) (o n : Nat) : (slice bs o n).length = n := by
  simp only [slice, List.length_append, List.length_replicate, List.length_take, List.length_drop]
  omega

theorem slice_of_length {bs : List Byte} {n : Nat} (h : bs.length = n) : slice bs 0 n = bs := by
  simp [slice, ← h]

theorem encodeCol_eq {data : List Byte} (h : data.length = 32) : encodeCol data = data ++ rsCheck data := by
  rw [encodeCol, slice_of_length h]

@[simp] theorem length_encodeCol (data : List Byte) : (encodeCol data).length = 36 := by
  rw [encodeCol, List.length_append, length_slice, length_rsCheck]

/-- A code word vanishes at the roots of the generator (R90). -/
theorem evalAt_encodeCol (data : List Byte) {x : Byte} (hx : RsRoot x) : evalAt (encodeCol data) x = 0#8 := by
  rw [encodeCol, evalAt_append, evalAt_rsCheck hx, length_rsCheck, BitVec.xor_self]

theorem syndrome_encodeCol (data : List Byte) {i : Nat} (hi : i < 4) : syndrome (encodeCol data) i = 0 := by
  rw [syndrome_eq, evalAt_encodeCol data (rsRoot_gpow i hi)]; rfl

/-! ## Errors in two places -/

/-- The syndromes of errors `u` and `v` at places whose locators are `x` and `y`. -/
def errs (u v x y : Byte) (k : Nat) : Byte := gmul u (gpow x k) ^^^ gmul v (gpow y k)

/-- Syndromes, each added to the one before it times a locator: errors at the locator go. -/
def cancelAt (z : Byte) (s : Nat → Byte) (k : Nat) : Byte := s (k + 1) ^^^ gmul z (s k)

theorem cancelAt_errs (z u v x y : Byte) :
    cancelAt z (errs u v x y) = errs (gmul u (x ^^^ z)) (gmul v (y ^^^ z)) x y := by
  funext k
  simp only [cancelAt, errs, gpow, gmul_xor, xor_gmul, gmul_assoc, gmul_comm, BitVec.xor_assoc, BitVec.xor_comm, xor_left_comm]

/-- No errors at two places leave the first two syndromes zero. -/
theorem errs_eq_zero {u v x y : Byte} (hxy : x ≠ y) (h0 : errs u v x y 0 = 0#8) (h1 : errs u v x y 1 = 0#8) : u = 0#8 ∧ v = 0#8 := by
  simp only [errs, gpow, gmul_one, BitVec.xor_eq_zero_iff] at h0 h1
  subst h0
  have hd : gmul (x ^^^ y) u = 0#8 := by rw [gmul_comm, gmul_xor, h1, BitVec.xor_self]
  have hu : u = 0#8 := gmul_eq_zero (mt BitVec.xor_eq_zero_iff.1 hxy) hd
  exact ⟨hu, hu⟩

/-- Errors at two places are cancelled by no other place alone. -/
theorem not_cancelAt_errs {u v x y z : Byte} (hu : u ≠ 0#8) (hv : v ≠ 0#8) (hxy : x ≠ y) (h0 : cancelAt z (errs u v x y) 0 = 0#8)
    (h1 : cancelAt z (errs u v x y) 1 = 0#8) : False := by
  rw [cancelAt_errs] at h0 h1
  obtain ⟨hx, hy⟩ := errs_eq_zero hxy h0 h1
  exact hxy ((BitVec.xor_eq_zero_iff.1 (gmul_eq_zero hu hx)).trans (BitVec.xor_eq_zero_iff.1 (gmul_eq_zero hv hy)).symm)

/-- Both of two places cancelled in turn. -/
def cancelTwo (z w : Byte) (s : Nat → Byte) : Nat → Byte := cancelAt w (cancelAt z s)

theorem cancelTwo_errs (z w u v x y : Byte) : cancelTwo z w (errs u v x y)
    = errs (gmul (gmul u (x ^^^ z)) (x ^^^ w)) (gmul (gmul v (y ^^^ z)) (y ^^^ w)) x y := by
  rw [cancelTwo, cancelAt_errs, cancelAt_errs]

/-- Errors are cancelled at their own places. -/
theorem cancelTwo_errs_self (u v x y : Byte) (k : Nat) : cancelTwo x y (errs u v x y) k = 0#8 := by
  rw [cancelTwo_errs]
  simp [errs]

/-- Errors at two places are cancelled at no other two. -/
theorem eq_of_cancelTwo_errs {u v x y z w : Byte} (hu : u ≠ 0#8) (hv : v ≠ 0#8) (hxy : x ≠ y)
    (h0 : cancelTwo z w (errs u v x y) 0 = 0#8) (h1 : cancelTwo z w (errs u v x y) 1 = 0#8) : (x = z ∨ x = w) ∧ (y = z ∨ y = w) := by
  have hroot {u x : Byte} (hu : u ≠ 0#8) (h : gmul (gmul u (x ^^^ z)) (x ^^^ w) = 0#8) : x = z ∨ x = w := by
    rw [← BitVec.xor_eq_zero_iff (x := x) (y := z)]
    by_cases hz : x ^^^ z = 0#8
    · exact .inl hz
    · exact .inr (BitVec.xor_eq_zero_iff.1 (gmul_eq_zero (mt (gmul_eq_zero hu) hz) h))
  rw [cancelTwo_errs] at h0 h1
  obtain ⟨hx, hy⟩ := errs_eq_zero hxy h0 h1
  exact ⟨hroot hu hx, hroot hv hy⟩

/-- The first four syndromes decide whether two places cancel them. -/
theorem cancelTwo_congr {s t : Nat → Byte} (h : ∀ k < 4, s k = t k) (z w : Byte) {k : Nat} (hk : k < 2) :
    cancelTwo z w s k = cancelTwo z w t k := by
  simp only [cancelTwo, cancelAt, h k (by omega), h (k + 1) (by omega), h (k + 1 + 1) (by omega)]

/-! ## Locators -/

/-- `locator` on bytes. -/
def loc (i : Nat) : Byte := gpow 2#8 (35 - i)

theorem locator_eq (i : Nat) : locator i = (loc i).toNat := (toNat_gpow 2#8 (35 - i)).symm

theorem loc_injective {i j : Nat} (hi : i < 36) (hj : j < 36) (h : loc i = loc j) : i = j := by
  have hall : ∀ i < 36, ∀ j < 36, loc i = loc j → i = j := by decide +kernel
  exact hall i hi j hj h

theorem loc_ne {i j : Nat} (hij : i < j) (hj : j < 36) : loc i ≠ loc j :=
  fun h => Nat.ne_of_lt hij (loc_injective (hij.trans hj) hj h)

/-- The syndromes of a column, as a sequence of bytes. -/
def synd (c : Column) (k : Nat) : Byte := evalAt c (gpow 2#8 k)

/-- Four syndromes as the decoder has them. -/
def syndNums (s : Nat → Byte) : List Nat := [(s 0).toNat, (s 1).toNat, (s 2).toNat, (s 3).toNat]

theorem syndromes_eq_syndNums (c : Column) : syndromes c = syndNums (synd c) := syndromes_eq c

/-- An error adds its value times its locator's power to a syndrome. -/
theorem synd_xorAt {c : Column} (hc : c.length = 36) {i : Nat} (hi : i < 36) (v : Byte) (k : Nat) :
    synd (xorAt c i v.toNat) k = synd c k ^^^ gmul v (gpow (loc i) k) := by
  rw [synd, evalAt_xorAt (by omega), hc, loc, ← gpow_mul, ← gpow_mul, Nat.mul_comm, Nat.sub_right_comm]; rfl

theorem synd_encodeCol (data : List Byte) {k : Nat} (hk : k < 4) : synd (encodeCol data) k = 0#8 :=
  evalAt_encodeCol data (rsRoot_gpow k hk)

/-! ## The search for the error -/

/-- The only entry of a list that passes a test is the one found. -/
theorem find?_eq_some_of_unique {α : Type} {p : α → Bool} {l : List α} {a : α} (ha : a ∈ l) (hp : p a = true)
    (h : ∀ b ∈ l, p b = true → b = a) : l.find? p = some a := by
  cases hf : l.find? p with
  | none => exact absurd hp (List.find?_eq_none.1 hf a ha)
  | some b => rw [h b (List.mem_of_find?_eq_some hf) (List.find?_some hf)]

/-- What `findOne` asks of two syndromes in a row. -/
theorem gfMul_locator_iff (s : Nat → Byte) (i k : Nat) :
    (gfMul (s k).toNat (locator i) == (s (k + 1)).toNat) = true ↔ cancelAt (loc i) s k = 0#8 := by
  rw [locator_eq, ← toNat_gmul, beq_iff_eq, BitVec.toNat_inj, cancelAt, BitVec.xor_eq_zero_iff, gmul_comm, eq_comm]

/-- Does one place cancel the four syndromes? -/
@[reducible] def CancelsOne (s : Nat → Byte) (x : Byte) : Prop :=
  cancelAt x s 0 = 0#8 ∧ cancelAt x s 1 = 0#8 ∧ cancelAt x s 2 = 0#8

theorem findOne_eq (s : Nat → Byte) : findOne (s 0).toNat (s 1).toNat (s 2).toNat (s 3).toNat
    = ((List.range 36).find? fun i => decide (CancelsOne s (loc i))).map fun i => (i, (s 0).toNat) := by
  unfold findOne
  congr 2
  funext i
  rw [Bool.eq_iff_iff, Bool.and_eq_true, Bool.and_eq_true, gfMul_locator_iff s i 0, gfMul_locator_iff s i 1, gfMul_locator_iff s i 2,
    decide_eq_true_eq, and_assoc]

/-- One error is found at its place. -/
theorem findOne_one {u : Byte} {i : Nat} (hu : u ≠ 0#8) (hi : i < 36) (y : Byte) {s : Nat → Byte} (hs : s = errs u 0#8 (loc i) y) :
    findOne (s 0).toNat (s 1).toNat (s 2).toNat (s 3).toNat = some (i, u.toNat) := by
  have h0 : s 0 = u := by simp [hs, errs, gpow]
  have hc (j k : Nat) : cancelAt (loc j) s k = gmul (gmul u (loc i ^^^ loc j)) (gpow (loc i) k) := by
    rw [hs, cancelAt_errs]; simp [errs]
  rw [findOne_eq, h0, find?_eq_some_of_unique (a := i) (List.mem_range.2 hi), Option.map_some]
  · simp [CancelsOne, hc]
  · intro j hj hp
    obtain ⟨hz, -⟩ := of_decide_eq_true hp
    rw [hc, gpow, gmul_one] at hz
    exact loc_injective (List.mem_range.1 hj) hi (BitVec.xor_eq_zero_iff.1 (gmul_eq_zero hu hz)).symm

/-- Two errors are at no one place. -/
theorem findOne_two {u v : Byte} {i j : Nat} (hu : u ≠ 0#8) (hv : v ≠ 0#8) (hij : loc i ≠ loc j) {s : Nat → Byte}
    (hs : s = errs u v (loc i) (loc j)) : findOne (s 0).toNat (s 1).toNat (s 2).toNat (s 3).toNat = none := by
  rw [findOne_eq, Option.map_eq_none_iff, List.find?_eq_none]
  intro l _ hp
  obtain ⟨h0, h1, -⟩ := of_decide_eq_true hp
  rw [hs] at h0 h1
  exact not_cancelAt_errs hu hv hij h0 h1

/-- `solveTwo` on bytes: the errors at two locators that give the first two syndromes. -/
def solveErrs (s : Nat → Byte) (x y : Byte) : Byte × Byte :=
  let e := gmul (s 1 ^^^ gmul x (s 0)) (gpow (x ^^^ y) 254)
  (s 0 ^^^ e, e)

theorem solveTwo_eq (s : Nat → Byte) (i j : Nat) : solveTwo (s 0).toNat (s 1).toNat i j
    = ((solveErrs s (loc i) (loc j)).1.toNat, (solveErrs s (loc i) (loc j)).2.toNat) := by
  simp only [solveTwo, solveErrs, gfInv, locator_eq, BitVec.toNat_xor, toNat_gmul, toNat_gpow]

theorem errs_solveErrs (s : Nat → Byte) {x y : Byte} (hxy : x ≠ y) :
    errs (solveErrs s x y).1 (solveErrs s x y).2 x y 0 = s 0 ∧ errs (solveErrs s x y).1 (solveErrs s x y).2 x y 1 = s 1 := by
  have he : gmul (solveErrs s x y).2 (x ^^^ y) = s 1 ^^^ gmul x (s 0) := by
    rw [solveErrs, gmul_assoc, gmul_comm (gpow _ _), gpow_254 (mt BitVec.xor_eq_zero_iff.1 hxy), gmul_one]
  have h1 : (solveErrs s x y).1 = s 0 ^^^ (solveErrs s x y).2 := rfl
  refine ⟨by simp [errs, h1, gpow], ?_⟩
  calc errs (solveErrs s x y).1 (solveErrs s x y).2 x y 1
    _ = gmul x (s 0) ^^^ gmul (solveErrs s x y).2 (x ^^^ y) := by
      simp only [errs, h1, gpow, gmul_one, xor_gmul, gmul_xor, gmul_comm, BitVec.xor_assoc]
    _ = s 1 := by rw [he, BitVec.xor_comm, BitVec.xor_assoc, BitVec.xor_self, BitVec.xor_zero]

theorem solveErrs_errs (u v : Byte) {x y : Byte} (hxy : x ≠ y) : solveErrs (errs u v x y) x y = (u, v) := by
  have h1 : errs u v x y 1 ^^^ gmul x (errs u v x y 0) = gmul v (x ^^^ y) := by
    simp only [errs, gpow, gmul_one, gmul_xor, gmul_comm, BitVec.xor_assoc, BitVec.xor_comm, xor_left_comm, xor_cancel_left]
  have h2 : gmul (gmul v (x ^^^ y)) (gpow (x ^^^ y) 254) = v := by
    rw [gmul_assoc, gpow_254 (mt BitVec.xor_eq_zero_iff.1 hxy), gmul_one]
  have h3 : errs u v x y 0 ^^^ v = u := by simp [errs, gpow]
  rw [solveErrs, h1, h2, h3]

/-- Do the errors that the first two syndromes give at two places give the others? -/
@[reducible] def FitsTwo (s : Nat → Byte) (x y : Byte) : Prop :=
  errs (solveErrs s x y).1 (solveErrs s x y).2 x y 2 = s 2 ∧ errs (solveErrs s x y).1 (solveErrs s x y).2 x y 3 = s 3

theorem FitsTwo.cancelTwo {s : Nat → Byte} {x y : Byte} (h : FitsTwo s x y) (hxy : x ≠ y) {k : Nat} (hk : k < 2) :
    cancelTwo x y s k = 0#8 := by
  obtain ⟨h0, h1⟩ := errs_solveErrs s hxy
  obtain ⟨h2, h3⟩ := h
  have h4 (k : Nat) (hk : k < 4) : errs (solveErrs s x y).1 (solveErrs s x y).2 x y k = s k := by
    interval_cases k <;> assumption
  rw [← cancelTwo_congr h4 x y hk, cancelTwo_errs_self]

theorem fitsTwo_errs (u v : Byte) {x y : Byte} (hxy : x ≠ y) : FitsTwo (errs u v x y) x y := by
  rw [FitsTwo, solveErrs_errs u v hxy]
  exact ⟨rfl, rfl⟩

theorem findTwo_eq (s : Nat → Byte) : findTwo (s 0).toNat (s 1).toNat (s 2).toNat (s 3).toNat
    = ((List.range 36).flatMap fun j => (List.range j).map fun i => (i, j)).find? fun p => decide (FitsTwo s (loc p.1) (loc p.2)) := by
  unfold findTwo
  congr 1
  funext p
  rw [Bool.eq_iff_iff, Bool.and_eq_true, decide_eq_true_eq]
  simp only [solveTwo_eq, locator_eq, ← toNat_gmul, ← BitVec.toNat_xor, beq_iff_eq, BitVec.toNat_inj, FitsTwo, errs, gpow, gmul_one]

theorem mem_pairs {i j : Nat} : (i, j) ∈ ((List.range 36).flatMap fun j => (List.range j).map fun i => (i, j)) ↔ i < j ∧ j < 36 := by
  simp [List.mem_flatMap, and_comm]

/-- Two errors are found at their places. -/
theorem findTwo_two {u v : Byte} {i j : Nat} (hu : u ≠ 0#8) (hv : v ≠ 0#8) (hij : i < j) (hj : j < 36) {s : Nat → Byte}
    (hs : s = errs u v (loc i) (loc j)) : findTwo (s 0).toNat (s 1).toNat (s 2).toNat (s 3).toNat = some (i, j) := by
  have hfits : FitsTwo s (loc i) (loc j) := by rw [hs]; exact fitsTwo_errs u v (loc_ne hij hj)
  rw [findTwo_eq]
  refine find?_eq_some_of_unique (mem_pairs.2 ⟨hij, hj⟩) (decide_eq_true_iff.2 hfits) ?_
  rintro ⟨l, m⟩ hlm hfit
  obtain ⟨hlm, hm⟩ := mem_pairs.1 hlm
  have hc (k : Nat) (hk : k < 2) : cancelTwo (loc l) (loc m) s k = 0#8 := (decide_eq_true_iff.1 hfit).cancelTwo (loc_ne hlm hm) hk
  rw [hs] at hc
  obtain ⟨hx, hy⟩ := eq_of_cancelTwo_errs hu hv (loc_ne hij hj) (hc 0 (by decide)) (hc 1 (by decide))
  have h1 := hx.imp (loc_injective (hij.trans hj) (hlm.trans hm)) (loc_injective (hij.trans hj) hm)
  have h2 := hy.imp (loc_injective hj (hlm.trans hm)) (loc_injective hj hm)
  obtain ⟨rfl, rfl⟩ : l = i ∧ m = j := by omega
  rfl

/-! ## Poison -/

/-- The poison syndrome, as a sequence of bytes. -/
def poisonSynd (k : Nat) : Byte := [2#8, 57#8, 4#8, 197#8].getD k 0#8

theorem poisonSyndrome_eq : poisonSyndrome = syndNums poisonSynd := by decide +kernel

/-- No two places cancel the poison syndrome (R92). -/
theorem not_cancelTwo_poisonSynd {i j : Nat} (hij : i < j) (hj : j < 36) :
    ¬(cancelTwo (loc i) (loc j) poisonSynd 0 = 0#8 ∧ cancelTwo (loc i) (loc j) poisonSynd 1 = 0#8) := by
  have hall : ∀ j < 36, ∀ i < j, ¬(cancelTwo (loc i) (loc j) poisonSynd 0 = 0#8 ∧ cancelTwo (loc i) (loc j) poisonSynd 1 = 0#8) := by
    decide +kernel
  exact hall j hj i hij

theorem errs_comm (u v x y : Byte) : errs u v x y = errs v u y x := by
  funext k
  exact BitVec.xor_comm ..

theorem poisonSyndrome_ne_errs (u v : Byte) {i j : Nat} (hij : i ≠ j) (hi : i < 36) (hj : j < 36) {s : Nat → Byte}
    (hs : ∀ k < 4, s k = errs u v (loc i) (loc j) k) : syndNums s ≠ poisonSyndrome := by
  wlog hlt : i < j generalizing i j u v
  · exact this v u hij.symm hj hi (fun k hk => by rw [hs k hk, errs_comm]) (by omega)
  rw [poisonSyndrome_eq]
  intro h
  simp only [syndNums, List.cons.injEq, BitVec.toNat_inj, and_true] at h
  obtain ⟨h0, h1, h2, h3⟩ := h
  have hp (k : Nat) (hk : k < 4) : poisonSynd k = errs u v (loc i) (loc j) k := by
    rw [← hs k hk]
    interval_cases k <;> symm <;> assumption
  refine not_cancelTwo_poisonSynd hlt hj ⟨?_, ?_⟩ <;> rw [cancelTwo_congr hp _ _ (by decide), cancelTwo_errs_self]

/-! ## Decoding -/

/-- The correction of a column that is neither clean nor poisoned. -/
def correctCol (c : Column) (s0 s1 s2 s3 : Nat) : ColDec :=
  match if s0 = 0 then none else findOne s0 s1 s2 s3 with
  | some (i, v) => .fixed (xorAt c i v)
  | none =>
    match findTwo s0 s1 s2 s3 with
    | some (i, j) => .fixed (xorAt (xorAt c i (solveTwo s0 s1 i j).1) j (solveTwo s0 s1 i j).2)
    | none => .uncorrectable

theorem decodeCol_eq {c : Column} {s0 s1 s2 s3 : Nat} (h : syndromes c = [s0, s1, s2, s3]) : decodeCol c =
    if [s0, s1, s2, s3] = [0, 0, 0, 0] then .clean else if [s0, s1, s2, s3] = poisonSyndrome then .poisoned else correctCol c s0 s1 s2 s3 := by
  unfold decodeCol
  rw [h]
  split
  · next hz => rw [hz, if_pos rfl]
  · next hz hl =>
    cases hl
    have hne : [s0, s1, s2, s3] ≠ [0, 0, 0, 0] := by simpa using hz
    rw [if_neg hne]
    rfl
  · next hl => exact absurd rfl (hl _ _ _ _)

theorem correctCol_ne_poisoned (c : Column) (s0 s1 s2 s3 : Nat) : correctCol c s0 s1 s2 s3 ≠ .poisoned := by
  unfold correctCol
  split
  · simp
  · split <;> simp

/-- A column is poisoned when its syndrome is the poison syndrome (R92). -/
theorem decodeCol_eq_poisoned_iff (c : Column) : decodeCol c = .poisoned ↔ syndromes c = poisonSyndrome := by
  have h : syndromes c = [(synd c 0).toNat, (synd c 1).toNat, (synd c 2).toNat, (synd c 3).toNat] := syndromes_eq_syndNums c
  rw [decodeCol_eq h, ← h]
  split
  · next hz => rw [hz, poisonSyndrome_eq]; decide +kernel
  · split
    · next hp => exact iff_of_true rfl hp
    · next hp => exact iff_of_false (correctCol_ne_poisoned _ _ _ _ _) hp

theorem decodeCol_of_clean {c : Column} (h : ∀ k < 4, synd c k = 0#8) : decodeCol c = .clean := by
  rw [decodeCol_eq (syndromes_eq_syndNums c), h 0 (by decide), h 1 (by decide), h 2 (by decide), h 3 (by decide)]
  rfl

/-- A column with errors in at most two places is neither clean nor poisoned. -/
theorem decodeCol_errs {c : Column} {u v : Byte} {i j : Nat} (hij : i ≠ j) (hi : i < 36) (hj : j < 36)
    (hs : ∀ k < 4, synd c k = errs u v (loc i) (loc j) k) (hu : u ≠ 0#8 ∨ v ≠ 0#8) :
    decodeCol c = correctCol c (synd c 0).toNat (synd c 1).toNat (synd c 2).toNat (synd c 3).toNat := by
  have hz : [(synd c 0).toNat, (synd c 1).toNat, (synd c 2).toNat, (synd c 3).toNat] ≠ [0, 0, 0, 0] := by
    intro h
    simp only [List.cons.injEq, and_true] at h
    obtain ⟨h0, h1, -, -⟩ := h
    obtain ⟨rfl, rfl⟩ := errs_eq_zero (fun h => hij (loc_injective hi hj h)) ((hs 0 (by decide)).symm.trans (BitVec.eq_of_toNat_eq h0))
      ((hs 1 (by decide)).symm.trans (BitVec.eq_of_toNat_eq h1))
    simp at hu
  have hp : [(synd c 0).toNat, (synd c 1).toNat, (synd c 2).toNat, (synd c 3).toNat] ≠ poisonSyndrome :=
    poisonSyndrome_ne_errs u v hij hi hj hs
  rw [decodeCol_eq (syndromes_eq_syndNums c), if_neg hz, if_neg hp]

/-- An error in one byte is corrected. -/
theorem decodeCol_one {c : Column} {u : Byte} {i : Nat} (hi : i < 36) (hu : u ≠ 0#8) (hs : ∀ k < 4, synd c k = gmul u (gpow (loc i) k)) :
    decodeCol c = .fixed (xorAt c i u.toNat) := by
  obtain ⟨j, hj, hij⟩ : ∃ j < 36, i ≠ j := ⟨(i + 1) % 36, by omega, by omega⟩
  have he (k : Nat) (hk : k < 4) : synd c k = errs u 0#8 (loc i) (loc j) k := by simp [hs k hk, errs]
  have h0 : (synd c 0).toNat ≠ 0 := fun h => hu (by simpa [hs, gpow] using BitVec.eq_of_toNat_eq (y := 0#8) h)
  rw [decodeCol_errs hij hi hj he (.inl hu), correctCol, if_neg h0, he 0 (by decide), he 1 (by decide), he 2 (by decide), he 3 (by decide),
    findOne_one hu hi (loc j) rfl]

/-- Errors in two bytes are corrected. -/
theorem decodeCol_two {c : Column} {u v : Byte} {i j : Nat} (hij : i < j) (hj : j < 36) (hu : u ≠ 0#8) (hv : v ≠ 0#8)
    (hs : ∀ k < 4, synd c k = errs u v (loc i) (loc j) k) : decodeCol c = .fixed (xorAt (xorAt c i u.toNat) j v.toNat) := by
  rw [decodeCol_errs hij.ne (hij.trans hj) hj hs (.inl hu), hs 0 (by decide), hs 1 (by decide), hs 2 (by decide), hs 3 (by decide), correctCol,
    findOne_two hu hv (loc_ne hij hj) rfl, ite_self, findTwo_two hu hv hij hj rfl]
  simp only [solveTwo_eq, solveErrs_errs u v (loc_ne hij hj)]

/-! ## Bytes changed twice -/

@[simp] theorem length_xorAt (c : Column) (i v : Nat) : (xorAt c i v).length = c.length := List.length_modify ..

theorem xorAt_xorAt_self (c : Column) (i v : Nat) : xorAt (xorAt c i v) i v = c := by
  have h : (fun b : Byte => b ^^^ BitVec.ofNat 8 v) ∘ (fun b => b ^^^ BitVec.ofNat 8 v) = id := by
    funext b
    simp
  rw [xorAt, xorAt, List.modify_modify_eq, h, List.modify_id]

theorem xorAt_comm (c : Column) {i j : Nat} (hij : i ≠ j) (u v : Nat) : xorAt (xorAt c i u) j v = xorAt (xorAt c j v) i u :=
  List.modify_modify_ne _ _ _ hij

/-! ## Poisoned columns -/

theorem evalAt_zeros (n : Nat) (x : Byte) : evalAt (List.replicate n 0#8) x = 0#8 := by
  induction n with
  | zero => rfl
  | succ n ih => rw [List.replicate_succ, evalAt_cons, ih, zero_gmul, BitVec.xor_zero]

theorem evalAt_zipWith_xor {c d : List Byte} (h : c.length = d.length) (x : Byte) :
    evalAt (List.zipWith (fun a b => a ^^^ b) c d) x = evalAt c x ^^^ evalAt d x := by
  induction c generalizing d with
  | nil => cases d with
    | nil => simp [evalAt, evalFrom]
    | cons => cases h
  | cons a c ih => cases d with
    | nil => cases h
    | cons b d =>
      have hlen : c.length = d.length := Nat.succ.inj h
      rw [List.zipWith_cons_cons, evalAt_cons, evalAt_cons, evalAt_cons, ih hlen, List.length_zipWith, ← hlen, Nat.min_self, xor_gmul]
      simp only [BitVec.xor_assoc, xor_left_comm]

/-- The mark adds its own syndrome to a code word's, which are zero. -/
theorem synd_poisonCol (data : List Byte) {k : Nat} (hk : k < 4) :
    synd (poisonCol data) k = synd (List.replicate 32 0#8 ++ poisonCheck) k := by
  have hlen : (rsCheck (slice data 0 32)).length = poisonCheck.length := rfl
  rw [synd, synd, poisonCol, evalAt_append, evalAt_append, evalAt_zeros, evalAt_zipWith_xor hlen, evalAt_rsCheck (rsRoot_gpow k hk), zero_gmul,
    List.length_zipWith, ← hlen, length_rsCheck, Nat.min_self, ← BitVec.xor_assoc, BitVec.xor_self]

/-- Settles O19: the search finds the errors at their places and at no others, and none of them has the poison syndrome. -/
theorem columnCodeCorrects : Obligations.ColumnCodeCorrects := by
  refine ⟨fun data i j u v hd hij hj hu hv => ?_, ⟨fun data hd => ⟨length_encodeCol data, ?_, fun i hi => syndrome_encodeCol data hi⟩,
    fun data i u hd hi => ⟨decodeCol_of_clean fun k hk => synd_encodeCol data hk, fun hu => ?_⟩⟩, fun data hd => ?_, decodeCol_eq_poisoned_iff⟩
  · have hlen := length_encodeCol data
    rw [decodeCol_two hij hj hu hv, xorAt_comm _ hij.ne', xorAt_xorAt_self, xorAt_xorAt_self]
    intro k hk
    rw [synd_xorAt (by simp) hj, synd_xorAt hlen (by omega), synd_encodeCol data hk, BitVec.zero_xor]; rfl
  · rw [encodeCol_eq hd, List.take_left' hd]
  · rw [decodeCol_one hi hu, xorAt_xorAt_self]
    intro k hk
    rw [synd_xorAt (length_encodeCol data) hi, synd_encodeCol data hk, BitVec.zero_xor]
  · rw [decodeCol_eq_poisoned_iff, poisonSyndrome, syndromes_eq_syndNums, syndromes_eq_syndNums]
    simp only [syndNums, synd_poisonCol data (show 0 < 4 by decide), synd_poisonCol data (show 1 < 4 by decide),
      synd_poisonCol data (show 2 < 4 by decide), synd_poisonCol data (show 3 < 4 by decide)]

end Sys2Proof.Machine

/-! # Requests to columns -/

namespace Sys2Proof.Machine
open Sys2Proof

/-! ## What a request to columns can change -/

/-- A report beside another table of the stacks. -/
theorem Quiet.withCis {s t : State} (h : Quiet s t) (c : CisState) : Quiet { s with cis := c } { t with cis := c } := by
  obtain ⟨r, e, f, g, w, rfl⟩ := h
  exact ⟨r, e, f, g, w, rfl⟩

/-- `t` is `s` but for the columns whose keys are among `p`, the other tables of the stacks, and what reports change. -/
structure ColumnsOnly (p : Nat → Prop) (s t : State) : Prop where
  col : ∀ k, ¬p k → t.col k = s.col k
  wf : s.colsWf = true → t.colsWf = true
  rest : Quiet { s with cis := t.cis } t

namespace ColumnsOnly
variable {p : Nat → Prop} {s t u : State}

theorem trans (h : ColumnsOnly p s t) (k : ColumnsOnly p t u) : ColumnsOnly p s u where
  col j hj := (k.col j hj).trans (h.col j hj)
  wf hs := k.wf (h.wf hs)
  rest := (h.rest.withCis u.cis).trans k.rest

/-- What leaves the columns and the filled stripes as they are. -/
theorem of_cis (hc : t.cis.cols = s.cis.cols) (hf : t.cis.fills = s.cis.fills) (hr : Quiet { s with cis := t.cis } t) : ColumnsOnly p s t where
  col k _ := by simp only [State.col, State.colDefault, hc, hf]
  wf hs := (State.colsWf_congr hc hf).trans hs
  rest := hr

theorem of_quiet (h : Quiet s t) : ColumnsOnly p s t :=
  of_cis (by rw [h.cis]) (by rw [h.cis]) (by rw [h.cis]; exact h)

theorem thenQuiet (h : ColumnsOnly p s t) (k : Quiet t u) : ColumnsOnly p s u := h.trans (of_quiet k)

theorem refl (s : State) : ColumnsOnly p s s := of_quiet (Quiet.refl s)

/-- Columns changed in turn. -/
theorem foldl {α β : Type} {f : β → α → β} {st : β → State} {l : List α} (hf : ∀ b, ∀ a ∈ l, ColumnsOnly p (st b) (st (f b a))) (b : β) :
    ColumnsOnly p (st b) (st (l.foldl f b)) := by
  induction l generalizing b with
  | nil => exact refl _
  | cons a l ih =>
    obtain ⟨ha, hl⟩ := List.forall_mem_cons.1 (fun a ha b => hf b a ha)
    exact (ha b).trans (ih (fun b a ha => hl a ha b) _)

end ColumnsOnly

section
variable {p : Nat → Prop} {k : Nat} (hk : p k)
include hk

theorem State.setCol_columnsOnly (s : State) (c : Column) : ColumnsOnly p s (s.setCol k c) where
  col j hj := by rw [State.col_setCol, if_neg (fun h : k = j => hj (h ▸ hk))]
  wf := s.colsWf_setCol k c
  rest := Quiet.refl _

omit hk in
theorem State.countCe_columnsOnly (s : State) (st pc : Nat) : ColumnsOnly p s (s.countCe st pc) := by
  unfold State.countCe
  extract_lets n _ s1
  have h : ColumnsOnly p s s1 := by
    refine ColumnsOnly.thenQuiet ?_ ((State.bump_quiet _ _ _ _).trans (State.event_quiet _ _))
    exact .of_cis rfl rfl (Quiet.refl _)
  split
  · exact h.thenQuiet (s1.raise_quiet _ _)
  · exact h

theorem State.readCol_columnsOnly (s : State) : ColumnsOnly p s (s.readCol k).2 := by
  simp only [State.readCol]
  split
  · exact .refl s
  · exact (s.setCol_columnsOnly hk _).trans (State.countCe_columnsOnly _ _ _)
  · exact .of_quiet (s.recordBad_quiet _ _ _ _)
  · exact (s.setCol_columnsOnly hk _).thenQuiet ((State.recordBad_quiet _ _ _ _ _).trans (State.raise_quiet _ _ _))

theorem State.writeCol_columnsOnly (s : State) (off : Nat) (data : List Byte) : ColumnsOnly p s (s.writeCol k off data).2 := by
  simp only [State.writeCol]
  split
  · exact s.setCol_columnsOnly hk _
  · split
    · exact s.readCol_columnsOnly hk
    · exact (s.readCol_columnsOnly hk).trans (State.setCol_columnsOnly hk _ _)

theorem State.adderCol_columnsOnly (s : State) (op off : Nat) (data new : List Byte) :
    ColumnsOnly p s (s.adderCol op k off data new).2.2 := by
  simp only [State.adderCol]
  split
  · exact s.readCol_columnsOnly hk
  · exact (s.readCol_columnsOnly hk).trans (State.setCol_columnsOnly hk _ _)

end

/-! ## The columns of a granule -/

/-- The keys of the columns of a granule at a place (R80). -/
def Place.keys (a : Place) (k : Nat) : Prop := ∃ c < 8, k = a.key c

/-- The pieces of data laid in a granule begin before the data ends. -/
theorem colPieces_lt {fuel off : Nat} {data : List Byte} : ∀ c ∈ colPieces fuel off data, 32 * c.1 < off + data.length := by
  induction fuel generalizing off data with
  | zero => simp [colPieces]
  | succ fuel ih =>
    intro c hc
    rw [colPieces] at hc
    split at hc
    · exact absurd hc List.not_mem_nil
    · next hlen =>
      rcases List.mem_cons.1 hc with rfl | hc
      · dsimp only
        omega
      · have hlt := ih c hc
        rw [List.length_drop] at hlt
        have hne : data.drop (32 - off % 32) ≠ [] := by
          intro h
          cases fuel <;> simp [h, colPieces] at hc
        have := List.drop_eq_nil_iff.not.1 hne
        omega

theorem State.writeGran_columnsOnly (s : State) (a : Place) {off : Nat} {data : List Byte} (h : off + data.length ≤ 256) :
    ColumnsOnly a.keys s (s.writeGran a off data).2 := by
  refine ColumnsOnly.foldl (st := Prod.snd) (fun b c hc => ?_) (false, s)
  have := colPieces_lt c hc
  exact b.2.writeCol_columnsOnly ⟨c.1, by omega, rfl⟩ _ _

/-- What is asked of the operand of an adder operation (R96, R97). -/
theorem adderOk_spec {op off : Nat} {data : List Byte} (h : adderOk op off data = true) : off % adderSize op = 0
    ∧ off + (if op = 0x0E ∨ op = 0x0F then data.length / 2 else data.length) ≤ 256
    ∧ (op = 0x0E ∨ op = 0x0F → data.length = 2 * adderSize op) := by
  simp only [adderOk, Bool.and_eq_true, Bool.or_eq_true, decide_eq_true_eq, beq_iff_eq, Bool.not_eq_true', Bool.or_eq_false_iff,
    decide_eq_false_iff_not] at h
  obtain ⟨⟨⟨⟨⟨⟨-, halign⟩, -⟩, -⟩, hin⟩, -⟩, hcas⟩ := h
  exact ⟨halign, hin, fun hop => hcas.resolve_left (by tauto)⟩

/-- The part of an operand that is laid over the granule, lies in it; a CAS lays its compare value. -/
theorem adderOk_within {op off : Nat} {data : List Byte} (h : adderOk op off data = true) :
    off + (if op = 0x0E || op = 0x0F then data.take (adderSize op) else data).length ≤ 256 := by
  obtain ⟨-, hin, hcas⟩ := adderOk_spec h
  simp only [Bool.or_eq_true, decide_eq_true_eq]
  split at hin
  · next hop =>
    have := hcas hop
    rw [if_pos hop, List.length_take]
    omega
  · next hop => rwa [if_neg hop]

theorem State.adder_columnsOnly (s : State) (a : Place) (op off : Nat) (data : List Byte) :
    ColumnsOnly a.keys s (s.adder a op off data).2.2 := by
  simp only [State.adder]
  split
  · next hok =>
    refine ColumnsOnly.thenQuiet ?_ (State.bump_quiet _ _ _ _)
    refine ColumnsOnly.foldl (st := fun b : List Byte × Bool × State => b.2.2) (fun b c hc => ?_) ([], false, s)
    have := colPieces_lt c hc
    have := adderOk_within hok
    exact b.2.2.adderCol_columnsOnly ⟨c.1, by omega, rfl⟩ _ _ _ _
  · exact .refl s

/-- A request that names bytes of its granule alone; an adder operation is checked when it is carried out (R97). -/
def ColReq.Within : ColReq → Prop
  | .read c => c < 8
  | .write off data => off + data.length ≤ 256
  | .adder _ _ _ => True

theorem State.serveAt_columnsOnly (s : State) (a : Place) {q : ColReq} (hq : q.Within) : ColumnsOnly a.keys s (s.serveAt a q) := by
  unfold State.serveAt
  cases q with
  | read c => exact (s.readCol_columnsOnly ⟨c, hq, rfl⟩).thenQuiet (State.emit_quiet _ _)
  | write off data =>
    have h := s.writeGran_columnsOnly a hq
    dsimp only
    split
    · exact h.thenQuiet (State.emit_quiet _ _)
    · exact h
  | adder op off data => exact (s.adder_columnsOnly a op off data).thenQuiet (State.emit_quiet _ _)

theorem State.request_columnsOnly (s : State) (g : Gran) {q : ColReq} (hq : q.Within) :
    ColumnsOnly (s.resolve g).1.keys s (s.request g q) := by
  have hr : ColumnsOnly (s.resolve g).1.keys s (s.resolve g).2 := .of_quiet (s.resolve_quiet g)
  simp only [State.request]
  split
  · refine ColumnsOnly.thenQuiet ?_ (State.bump_quiet _ _ _ _)
    exact hr.trans (.of_cis rfl rfl (Quiet.refl _))
  · split
    · exact hr.trans (.of_cis rfl rfl (Quiet.refl _))
    · exact hr.trans (State.serveAt_columnsOnly _ _ hq)

theorem State.onGran_columnsOnly {s t : State} {g : Gran} {q : ColReq} (hq : q.Within) (h : s.onGran g q = .next t) :
    ColumnsOnly (s.resolve g).1.keys s t := by
  unfold State.onGran at h
  split at h
  · cases h
    split
    · exact s.request_columnsOnly g hq
    · exact .refl s
  · cases h

/-! ## The commands -/

/-- Every adder command is a request with its operation code. -/
theorem exec_adderCommands (g : Gran) (off : Byte) (data : List Byte) (s : State) :
    ∀ p ∈ adderCommands g off data, exec p.1 s = s.onGran g (.adder p.2 off.toNat data) := by
  simp only [adderCommands, List.forall_mem_cons, List.not_mem_nil, false_imp_iff, implies_true, and_true]
  exact ⟨rfl, rfl, rfl, rfl, rfl, rfl, rfl, rfl, rfl, rfl, rfl, rfl, rfl, rfl, rfl, rfl, rfl, rfl⟩

/-- Settles O23: each of the commands is a request to a granule, whose columns alone it can change. -/
theorem columnCommandFrame : Obligations.ColumnCommandFrame := by
  intro s t g cmd hs hcmd ht
  have h : ColumnsOnly (s.resolve g).1.keys s t := by
    rcases hcmd with ⟨c, rfl⟩ | ⟨off, data, rfl⟩ | ⟨off, data, p, hp, rfl⟩
    · exact State.onGran_columnsOnly (q := .read c) c.isLt ht
    · refine State.onGran_columnsOnly (q := .write off.toNat (data.take (256 - off.toNat))) ?_ ht
      have := off.isLt
      simp only [ColReq.Within, List.length_take]
      omega
    · rw [exec_adderCommands g off data s p hp] at ht
      exact State.onGran_columnsOnly (q := .adder p.2 off.toNat data) trivial ht
  have hr := h.rest
  refine ⟨fun k hk => h.col k (fun ⟨c, hc, e⟩ => hk c hc e), h.wf hs, hr.bkt, hr.mem, hr.pmp, hr.engs, hr.link, ⟨hr.sess, hr.ses, hr.keepers⟩,
    ⟨hr.boot, hr.d3hot⟩, hr.sameTime, hr.pending, hr.profile⟩

/-! ## Adder operations -/

theorem State.onGran_of_serves {s : State} {g : Gran} (h : s.servesGran g = true) (q : ColReq) :
    s.onGran g q = .next ((s.resolve g).2.serveAt (s.resolve g).1 q) := by
  simp only [State.servesGran, Bool.and_eq_true, Bool.not_eq_true'] at h
  obtain ⟨⟨⟨⟨hg, hl⟩, he⟩, hpair⟩, hpark⟩ := h
  simp [State.onGran, State.request, hg, hl, he, hpair, hpark]

/-- An operand of no whole number of elements, or that leaves the granule, is malformed (R97). -/
theorem adderOk_eq_false {op off : Nat} {data : List Byte} (h : off % adderSize op ≠ 0
    ∨ 256 < off + (if op = 0x0E ∨ op = 0x0F then data.length / 2 else data.length)) : adderOk op off data = false := by
  rw [Bool.eq_false_iff]
  intro hok
  obtain ⟨halign, hin, -⟩ := adderOk_spec hok
  exact h.elim (· halign) (by omega)

theorem adderSize_eq : ∀ op < 18, adderSize op
    = if op ∈ [0x01, 0x06, 0x07] then 2 else if op ∈ [0x03, 0x0A, 0x0B, 0x0D, 0x0F, 0x11] then 8 else 4 := by decide

theorem adderCommands_lt (g : Gran) (off : Byte) (data : List Byte) : ∀ p ∈ adderCommands g off data, p.2 < 18 := by
  simp [adderCommands]

/-- Settles O21: a served request is carried out on its granule, and a malformed operation does nothing there. -/
theorem addersComplete : Obligations.AddersComplete := by
  intro s g off data hs p hp
  have hexec : exec p.1 s = .next ((s.resolve g).2.serveAt (s.resolve g).1 (.adder p.2 off.toNat data)) := by
    rw [exec_adderCommands g off data s p hp, State.onGran_of_serves hs]
  refine ⟨hexec, fun h => ?_⟩
  have hbad : adderOk p.2 off.toNat data = false := by
    rw [← adderSize_eq p.2 (adderCommands_lt g off data p hp)] at h
    exact h.elim id adderOk_eq_false
  have hq : Quiet s ((s.resolve g).2.emit (.adder none false)) := (s.resolve_quiet g).trans (State.emit_quiet _ _)
  refine ⟨?_, fun k => ?_⟩
  · rw [hexec, State.serveAt, State.adder, if_neg (by simp [hbad])]
  · simp only [State.col, State.colDefault, hq.cis]

end Sys2Proof.Machine

/-! # Events of a stack -/

namespace Sys2Proof.Machine
open Sys2Proof

/-! ## Registers that a report leaves, on its own page and on others -/

theorem State.fld_of_reg {s t : State} {pg : Page} {f : Fld} (h : t.reg pg 0 f.off = s.reg pg 0 f.off) : t.fld pg f = s.fld pg f := by
  rw [State.fld_eq_get, State.fld_eq_get, h]

section
variable {pg : Page} {o : Nat} (h : RegBounds pg 0 o) (hm : pg.kind ≠ .msix)
include h hm

/-- An error cause leaves every register of its page but ERR_STATUS. -/
theorem State.reg_raise_same_page (s : State) (c : Nat) (hv : (errVector pg).1 < 256) (ho : 0x010 ≠ o) :
    (s.raise pg c).reg pg 0 o = s.reg pg 0 o := by
  have hset (v : W32) : (s.setReg pg 0 0x010 v).reg pg 0 o = s.reg pg 0 o :=
    s.reg_setReg_of_key_ne _ _ _ _ _ _ _ (mt Nat.add_left_cancel ho)
  simp only [State.raise, State.errEdge]
  split
  · rw [State.reg_irq h _ _ hv hm, hset]
  · exact hset _

theorem State.reg_telRecord (s : State) (kind : Nat) (src : Page) (span stamp : Nat) (body : List Byte) (flags : Nat) (hne : pgTel ≠ pg) :
    (s.telRecord kind src span stamp body flags).reg pg 0 o = s.reg pg 0 o := by
  have hset (u : State) (f : Fld) (v : Nat) (hf : f.off < 4096) : (u.setFld pgTel f v).reg pg 0 o = u.reg pg 0 o :=
    State.reg_setReg_of_page_ne h u _ ⟨by decide, by decide, hf⟩ hne
  unfold State.telRecord
  split
  · rfl
  · extract_lets n tail head s1 _ base r s2 pending
    have h1 : s1.reg pg 0 o = s.reg pg 0 o := by
      unfold s1
      rw [State.reg_raise h _ _ (by decide) (by decide) hne hm, State.bump_eq_setFld, hset _ _ _ (by decide)]
    have h2 : s2.reg pg 0 o = s.reg pg 0 o := by
      unfold s2
      rw [State.event, State.bump_eq_setFld, hset _ _ _ (by decide), hset _ _ _ (by decide), State.reg_congr (State.emit_regs _ _)]
    split
    · exact h1
    · split
      · rw [State.reg_irq h _ _ (by decide) hm, h2]
      · exact h2

theorem State.reg_telEvent (s : State) (src : Page) (blk code : Nat) (hne : pgTel ≠ pg) :
    (s.telEvent src blk code).reg pg 0 o = s.reg pg 0 o :=
  State.reg_telRecord h hm _ _ _ _ _ _ _ hne

theorem State.reg_refreshAlerts (s : State) (hne : pgPkg ≠ pg) : s.refreshAlerts.reg pg 0 o = s.reg pg 0 o := by
  unfold State.refreshAlerts
  extract_lets v w
  split
  · rfl
  · rw [State.reg_raise h _ _ (by decide) (by decide) hne hm, State.reg_setReg_of_page_ne h s _ ⟨by decide, by decide, by decide⟩ hne]

end

theorem pgCis_bounds (st : Fin 20) {o : Nat} (ho : o < 4096) : RegBounds (pgCis st) 0 o :=
  ⟨Nat.lt_trans st.isLt (by decide), by decide, ho⟩

theorem State.reg_raise_pgCis (s : State) (st : Fin 20) (c : Nat) {o : Nat} (ho : o < 4096) (hne : 0x010 ≠ o) :
    (s.raise (pgCis st) c).reg (pgCis st) 0 o = s.reg (pgCis st) 0 o :=
  State.reg_raise_same_page (pgCis_bounds st ho) PageKind.noConfusion s c (show 0 < 256 by decide) hne

/-! ## Reports to the telemetry stream -/

/-- `t` is `s` but for what reports change, the telemetry ring's marks and the free values drawn. -/
def Streamed (s t : State) : Prop := ∃ w n, Quiet { s with tel := { s.tel with hwm := w }, free := n } t

namespace Streamed
variable {s t u : State}

theorem of_quiet (h : Quiet s t) : Streamed s t := ⟨s.tel.hwm, s.free, h⟩

theorem refl (s : State) : Streamed s s := of_quiet (Quiet.refl s)

theorem trans (h : Streamed s t) (k : Streamed t u) : Streamed s u := by
  obtain ⟨w, n, r, e, f, g, v, rfl⟩ := h
  obtain ⟨w', n', r', e', f', g', v', rfl⟩ := k
  exact ⟨w', n', r', e', f', g', v', rfl⟩

theorem thenQuiet (h : Streamed s t) (k : Quiet t u) : Streamed s u := h.trans (of_quiet k)

theorem cis (h : Streamed s t) : t.cis = s.cis := let ⟨_, _, hq⟩ := h; hq.cis
theorem mem (h : Streamed s t) : t.mem = s.mem := let ⟨_, _, hq⟩ := h; hq.mem
theorem sessions (h : Streamed s t) : SameSessions s t := let ⟨_, _, hq⟩ := h; ⟨hq.sess, hq.ses, hq.keepers⟩

end Streamed

theorem State.telRecord_streamed (s : State) (kind : Nat) (src : Page) (span stamp : Nat) (body : List Byte) (flags : Nat) :
    Streamed s (s.telRecord kind src span stamp body flags) := by
  unfold State.telRecord
  split
  · exact .refl s
  · extract_lets n tail head s1 _ base r s2 pending
    have h1 : Quiet s s1 := (s.bump_quiet _ _ _).trans (State.raise_quiet _ _ _)
    have h2 : Quiet s s2 := ((s.emit_quiet _).trans (State.setFld_quiet _ _ _ _)).trans (State.event_quiet _ _)
    split
    · exact (Streamed.of_quiet h1).trans ⟨_, s1.free, Quiet.refl _⟩
    · split
      · exact .of_quiet (h2.trans (s2.irq_quiet _ _))
      · exact .of_quiet h2

theorem State.telEvent_streamed (s : State) (src : Page) (blk code : Nat) : Streamed s (s.telEvent src blk code) :=
  Streamed.trans (t := (s.drawBytes 46).2) ⟨s.tel.hwm, s.free + 46, Quiet.refl _⟩ (State.telRecord_streamed _ _ _ _ _ _ _)

theorem State.refreshAlerts_quiet (s : State) : Quiet s s.refreshAlerts := by
  unfold State.refreshAlerts
  extract_lets v w
  split
  · exact .refl s
  · exact (s.setReg_quiet _ _ _ _).trans (State.raise_quiet _ _ _)

/-! ## The columns of a stack that is brought up -/

/-- A fill without a stack covers none of the stack's columns. -/
theorem Fill.covers_without_self (f : Fill) {st k : Nat} (hk : k / stackCols = st) : (f.without st).covers k = false := by
  have hst : (placeOfKey k).st = st := hk
  have hpc : (placeOfKey k).pc < 64 := Nat.mod_lt _ (by decide)
  rw [Bool.eq_false_iff]
  intro h
  simp only [Fill.covers, Fill.without, hst, Bool.and_eq_true, beq_iff_eq, List.contains_iff_mem, List.mem_filter, Bool.not_eq_true',
    beq_eq_false_iff_ne] at h
  obtain ⟨⟨⟨hq, -, hne⟩, -⟩, -⟩ := h
  omega

/-- Every column of the stack reads zero (R112). -/
theorem State.col_broughtUp (s : State) {st k : Nat} (lanes : List (Fin 32)) (rows : List (Fin 64 × Fin 32)) (hk : k / stackCols = st) :
    (s.broughtUp st lanes rows).col k = zeroCol := by
  unfold State.broughtUp
  extract_lets pg s1 s2 fills cols
  have hfills : fills.any (fun f => f.covers k) = false := by
    rw [List.any_eq_false]
    intro f hf
    obtain ⟨g, -, rfl⟩ := List.mem_map.1 hf
    rw [Bool.not_eq_true]
    exact g.covers_without_self hk
  have hdef : ({ s2 with cis := { s2.cis with cols := cols, fills := fills } } : State).colDefault k = zeroCol := by
    rw [State.colDefault, if_neg (by simpa using hfills)]
  rw [State.col, hdef, SMap.get_keep, if_neg (by simpa using hk)]

/-! ## Bring-up and resume -/

theorem exec_stackBringUp {s : State} {st : Fin 20} (failed : W32) (lanes : List (Fin 32)) (rows : List (Fin 64 × Fin 32))
    (h : s.fld (pgCis st) F.hdr_STATE = 1) (hr : s.boot.running = true) : exec (.stackBringUp st failed lanes rows) s
    = .next (((s.broughtUp st lanes rows).bringChannels st failed).setStackState st 2).bootReady :=
  if_neg (by simp [h, hr])

theorem exec_stackResume {s : State} {st : Fin 20} (failed linkOk : W32) (h : s.cis.selfRefresh.contains st.val = true) :
    exec (.stackResume st failed linkOk) s = .next ((s.resumeChannels st failed linkOk).setStackState st 2).bootReady :=
  if_neg (by rw [h]; decide)

/-! ## Repairs -/

theorem State.beginRepair_eq {s : State} {st : Nat} (spare : Bool) (r : Repair) (hl : s.pageLive (pgCis st) = true)
    (hn : SMap.get s.cis.repair none st = none) (hok : s.repairOk st = true) : s.beginRepair st spare r
    = if spare then { s.setFld (pgCis st) F.cis_REPAIR_STATUS_BUSY 1 with cis := { s.cis with repair := SMap.set s.cis.repair none st (some r) } }
      else (s.setFld (pgCis st) F.cis_REPAIR_STATUS_RESULT 1).raise (pgCis st) 7 := by
  cases spare <;> simp [State.beginRepair, State.regWrite, hl, hn, hok]

/-- A repair that has no spare reports it, and nothing else of the stack changes. -/
theorem State.beginRepair_without_spare {s : State} {st : Fin 20} (r : Repair) (hl : s.pageLive (pgCis st) = true)
    (hn : SMap.get s.cis.repair none st = none) (hok : s.repairOk st = true) :
    (s.beginRepair st false r).fld (pgCis st) F.cis_REPAIR_STATUS_RESULT = 1 ∧ (s.beginRepair st false r).cis = s.cis := by
  rw [State.beginRepair_eq false r hl hn hok, if_neg Bool.false_ne_true]
  refine ⟨?_, ((s.setFld_quiet _ _ _).trans (State.raise_quiet _ _ _)).cis⟩
  rw [State.fld_of_reg (State.reg_raise_pgCis _ st _ (by decide) (by decide)),
    State.fld_setFld_self _ _ (by decide) (by decide)]

/-- A repair that has a spare begins (R113). -/
theorem State.beginRepair_with_spare {s : State} {st : Fin 20} (r : Repair) (hl : s.pageLive (pgCis st) = true)
    (hn : SMap.get s.cis.repair none st = none) (hok : s.repairOk st = true) :
    (s.beginRepair st true r).fld (pgCis st) F.cis_REPAIR_STATUS_BUSY = 1
      ∧ SMap.get (s.beginRepair st true r).cis.repair none st = some r ∧ (s.beginRepair st true r).cis.cols = s.cis.cols := by
  rw [State.beginRepair_eq true r hl hn hok, if_pos rfl]
  exact ⟨s.fld_setFld_self _ (by decide) (by decide), SMap.get_set_self s.cis.repair none st (some r), rfl⟩

/-- What a good repair of a row leaves in the registers and in the tables of its stack. -/
theorem exec_repairComplete_row {s : State} {st : Fin 20} {r : Repair} (hb : s.booted = true) (hr : SMap.get s.cis.repair none st = some r)
    (hrow : r.rowOp = true) : ∃ t n, exec (.repairComplete st true) s = .next t
      ∧ t.regs = (((s.setFld (pgCis st) F.cis_REPAIR_STATUS_BUSY 0).setFld (pgCis st) F.cis_REPAIR_STATUS_RESULT 0).setFld (pgCis st)
        F.cis_REPAIR_STATUS_ROWS_REPAIRED n).regs
      ∧ t.cis = { s.cis with
        repair := SMap.set s.cis.repair none st none
        rowsUsed := SMap.set s.cis.rowsUsed 0 (rowBank st r.channel r.target) (SMap.get s.cis.rowsUsed 0 (rowBank st r.channel r.target) + 1) } := by
  change ∃ t n, execRepairComplete st true s = _ ∧ _
  rw [execRepairComplete, s.gate_booted _ hb]
  simp only [hr, hrow]
  exact ⟨_, _, rfl, rfl, rfl⟩

/-- A good repair of a row ends: it has used a spare row, and the bytes are kept. -/
theorem repairComplete_row_completes {s : State} {st : Fin 20} {r : Repair} (hb : s.booted = true)
    (hr : SMap.get s.cis.repair none st = some r) (hrow : r.rowOp = true) :
    ∃ t, exec (.repairComplete st true) s = .next t ∧ SMap.get t.cis.repair none st = none
      ∧ t.fld (pgCis st) F.cis_REPAIR_STATUS_BUSY = 0 ∧ t.fld (pgCis st) F.cis_REPAIR_STATUS_RESULT = 0
      ∧ SMap.get t.cis.rowsUsed 0 (rowBank st r.channel r.target) = SMap.get s.cis.rowsUsed 0 (rowBank st r.channel r.target) + 1
      ∧ t.cis.cols = s.cis.cols := by
  obtain ⟨t, n, ht, hregs, hcis⟩ := exec_repairComplete_row hb hr hrow
  refine ⟨t, ht, ?_, ?_, ?_, ?_, ?_⟩
  · rw [hcis]; simp
  · rw [State.fld_congr hregs, State.fld_setFld_other _ _ _ (by decide) (by decide), State.fld_setFld_other _ _ _ (by decide) (by decide),
      State.fld_setFld_self _ _ (by decide) (by decide)]
  · rw [State.fld_congr hregs, State.fld_setFld_other _ _ _ (by decide) (by decide), State.fld_setFld_self _ _ (by decide) (by decide)]
  · rw [hcis]; simp
  · rw [hcis]

/-! ## Scrubbing -/

theorem exec_scrubRead {s : State} {st : Fin 20} (hb : s.booted = true) (hst : s.fld (pgCis st) F.hdr_STATE = 2)
    (he : s.fld (pgCis st) F.hdr_SCRUB_EN ≠ 0)
    (hp : (s.chanOf st ((placeOfKey (st * stackCols + SMap.get s.cis.scrubAt 0 st)).pc / 2)).parked = false) :
    ∃ t, exec (.scrubRead st) s = .next t ∧ SMap.get t.cis.scrubAt 0 st = (SMap.get s.cis.scrubAt 0 st + 1) % stackCols
      ∧ t.cis.cols = (s.readCol (st * stackCols + SMap.get s.cis.scrubAt 0 st)).2.cis.cols ∧ SameTiers s t ∧ SameSessions s t := by
  have hr := (s.readCol_columnsOnly (p := fun _ => True) (k := st * stackCols + SMap.get s.cis.scrubAt 0 st) trivial).rest
  change ∃ t, execScrubRead st s = _ ∧ _
  rw [execScrubRead, s.gate_booted _ hb]
  dsimp only
  rw [if_neg (by simp [hst, he, hp])]
  exact ⟨_, rfl, SMap.get_set_self _ _ _ _, rfl, hr.mem, hr.sess, hr.ses, hr.keepers⟩

/-! ## Temperatures -/

/-- A field takes the low bits of what is put in it. -/
theorem Fld.get_put_mod (f : Fld) (w v : Nat) : f.get (f.put w v) = v % 2 ^ (f.msb + 1 - f.lsb) := by
  have h : f.put w v = f.put w (v % 2 ^ (f.msb + 1 - f.lsb)) := by rw [Fld.put, Fld.put, setBitsNat, setBitsNat, Nat.mod_mod]
  rw [h, f.get_put_self w (Nat.mod_lt _ (Nat.two_pow_pos _))]

theorem State.fld_setFld_mod (s : State) (pg : Page) {f : Fld} (v : Nat) (hf : f.msb < 32) :
    (s.setFld pg f v).fld pg f = v % 2 ^ (f.msb + 1 - f.lsb) := by
  rw [State.fld_eq_get, State.setFld_eq, State.reg_setReg_self, Fld.get_toNat_ofNat hf, f.get_put_mod]

/-- `t` is `s` but for reports that leave the THERM register of a stack. -/
def ThermKept (st : Fin 20) (s t : State) : Prop := Streamed s t ∧ t.reg (pgCis st) 0 0x070 = s.reg (pgCis st) 0 0x070

namespace ThermKept
variable {st : Fin 20} {s t u : State}

theorem refl (st : Fin 20) (s : State) : ThermKept st s s := ⟨.refl s, rfl⟩

theorem trans (h : ThermKept st s t) (k : ThermKept st t u) : ThermKept st s u := ⟨h.1.trans k.1, k.2.trans h.2⟩

theorem ite (h : ThermKept st s t) (k : ThermKept st s u) {c : Prop} [Decidable c] : ThermKept st s (if c then t else u) := by
  split
  · exact h
  · exact k

theorem raise (h : ThermKept st s t) (c : Nat) : ThermKept st s (t.raise (pgCis st) c) :=
  h.trans ⟨.of_quiet (t.raise_quiet _ _), t.reg_raise_pgCis st c (by decide) (by decide)⟩

theorem telEvent (h : ThermKept st s t) (src : Page) (blk code : Nat) : ThermKept st s (t.telEvent src blk code) :=
  h.trans ⟨t.telEvent_streamed _ _ _, State.reg_telEvent (pgCis_bounds st (by decide)) PageKind.noConfusion t _ _ _
    (mt (congrArg Page.kind) PageKind.noConfusion)⟩

theorem refreshAlerts (h : ThermKept st s t) : ThermKept st s t.refreshAlerts :=
  h.trans ⟨.of_quiet t.refreshAlerts_quiet, State.reg_refreshAlerts (pgCis_bounds st (by decide)) PageKind.noConfusion t
    (mt (congrArg Page.kind) PageKind.noConfusion)⟩

end ThermKept

/-- STACK_TEMP_READ reports the temperature, the highest one and the level that follows (R100). -/
theorem exec_stackTempRead {s : State} {st : Fin 20} (v : Byte) (hb : s.booted = true) :
    ∃ t, exec (.stackTempRead st v) s = .next t ∧ t.fld (pgCis st) F.cis_THERM_TEMP_C = v.toNat
      ∧ t.fld (pgCis st) F.cis_THERM_MAX_C = max v.toNat (s.fld (pgCis st) F.cis_THERM_MAX_C)
      ∧ t.fld (pgCis st) F.cis_THERM_LEVEL = paceLevel (s.fld (pgCis st) F.cis_THERM_CFG_PACE_TEMP)
        (max 1 (s.fld (pgCis st) F.cis_THERM_CFG_STEP_C)) v.toNat 32 (s.fld (pgCis st) F.cis_THERM_LEVEL) % 16
      ∧ t.cis = s.cis ∧ SameTiers s t ∧ SameSessions s t := by
  have hmax : max v.toNat (s.fld (pgCis st) F.cis_THERM_MAX_C) < 2 ^ 8 := Nat.max_lt.2 ⟨v.isLt, Fld.get_lt _ _⟩
  change ∃ t, execStackTempRead st v s = _ ∧ _
  rw [execStackTempRead, s.gate_booted _ hb]
  extract_lets pg t old n s1 s2 s3 s4
  have hs1 : Streamed s s1 := .of_quiet (((s.setFld_quiet _ _ _).trans (State.setFld_quiet _ _ _ _)).trans (State.setFld_quiet _ _ _ _))
  have h2 : ThermKept st s1 s2 := (ThermKept.refl st s1).ite ((ThermKept.refl st s1).telEvent _ _ _)
  have h3 : ThermKept st s1 s3 := (h2.raise _).ite h2
  have h4 : ThermKept st s1 s4 := (h3.raise _).ite h3
  obtain ⟨hs, hr⟩ := h4.refreshAlerts
  have h := hs1.trans hs
  refine ⟨_, rfl, ?_, ?_, ?_, h.cis, h.mem, h.sessions⟩
  · rw [State.fld_of_reg hr, State.fld_setFld_other _ _ _ (by decide) (by decide), State.fld_setFld_other _ _ _ (by decide) (by decide),
      State.fld_setFld_self _ _ (by decide) v.isLt]
  · rw [State.fld_of_reg hr, State.fld_setFld_other _ _ _ (by decide) (by decide), State.fld_setFld_self _ _ (by decide) hmax]
  · rw [State.fld_of_reg hr, State.fld_setFld_mod _ _ _ (by decide)]
    rfl

/-! ## Slot weights -/

theorem sumTo_succ (n : Nat) (f : Nat → Nat) : sumTo (n + 1) f = sumTo n f + f n := by
  rw [sumTo, List.range_succ, List.foldl_append]; rfl

theorem sumTo_digits_lt (n : Nat) (d : Nat → Nat) (hd : ∀ i, d i < 16) : sumTo n (fun i => d i * 16 ^ i) < 16 ^ n := by
  induction n with
  | zero => exact Nat.one_pos
  | succ n ih =>
    have := Nat.mul_le_mul_right (16 ^ n) (Nat.le_of_lt_succ (hd n))
    rw [sumTo_succ, Nat.pow_succ]
    omega

/-- A number made of hexadecimal digits has those digits. -/
theorem bitsOf_sumTo_digits (n : Nat) (d : Nat → Nat) (hd : ∀ i, d i < 16) {k : Nat} (hk : k < n) :
    bitsOf (sumTo n fun i => d i * 16 ^ i) (4 * k + 3) (4 * k) = d k := by
  have h4 (x : Nat) : bitsOf x (4 * k + 3) (4 * k) = x / 16 ^ k % 16 := by
    rw [bitsOf, Nat.pow_mul, show 4 * k + 3 + 1 - 4 * k = 4 by omega]; rfl
  rw [h4]
  induction n with
  | zero => exact absurd hk (Nat.not_lt_zero k)
  | succ n ih =>
    rw [sumTo_succ]
    rcases Nat.lt_succ_iff_lt_or_eq.1 hk with hk | rfl
    · have hn : d n * 16 ^ n = 16 ^ k * (16 * (d n * 16 ^ (n - k - 1))) := by
        rw [show n = k + 1 + (n - k - 1) by omega, Nat.pow_add, Nat.pow_succ, show k + 1 + (n - k - 1) - k - 1 = n - k - 1 by omega]
        ring
      rw [hn, Nat.add_mul_div_left _ _ (Nat.pow_pos (by decide)), Nat.add_mul_mod_self_left, ih hk]
    · rw [Nat.add_mul_div_right _ _ (Nat.pow_pos (by decide)), Nat.div_eq_of_lt (sumTo_digits_lt k d hd), Nat.zero_add, Nat.mod_eq_of_lt (hd k)]

/-- So does a register that holds such a number of eight digits. -/
theorem bitsOf_word_digits (d : Nat → Nat) (hd : ∀ i, d i < 16) {k : Nat} (hk : k < 8) :
    bitsOf (BitVec.ofNat 32 (sumTo 8 fun i => d i * 16 ^ i)).toNat (4 * k + 3) (4 * k) = d k := by
  have hlt : sumTo 8 (fun i => d i * 16 ^ i) < 2 ^ 32 := sumTo_digits_lt 8 d hd
  rw [BitVec.toNat_ofNat, Nat.mod_eq_of_lt hlt, bitsOf_sumTo_digits 8 d hd hk]

/-- The word that a write of slot weights leaves: each weight, at most 8 (R115). -/
def slotWord (w : W32) : W32 := BitVec.ofNat 32 (sumTo 8 fun i => min 8 (bitsOf w.toNat (4 * i + 3) (4 * i)) * 16 ^ i)

theorem bitsOf_slotWord (w : W32) {i : Nat} (hi : i < 8) :
    bitsOf (slotWord w).toNat (4 * i + 3) (4 * i) = min 8 (bitsOf w.toNat (4 * i + 3) (4 * i)) :=
  bitsOf_word_digits _ (fun _ => by omega) hi

theorem exec_slotWeightWrite {s : State} {q : Fin 4} (v : Fin 4) (j : Fin 8) (w : W32) (hl : s.pageLive (pgCisQ q) = true) :
    exec (.slotWeightWrite q v j w) s = .next (s.setReg (pgCisQ q) 0 (0x100 + 0x20 * v.val + 4 * j.val) (slotWord w)) := by
  change execSlotWeightWrite q v j w s = _
  rw [execSlotWeightWrite, State.regWrite, if_pos hl]
  rfl

theorem State.slotWeight_setReg (s : State) (q v j : Nat) (w : W32) {i : Nat} (hi : i < 8) :
    (s.setReg (pgCisQ q) 0 (0x100 + 0x20 * v + 4 * j) w).slotWeight q v (8 * j + i) = bitsOf w.toNat (4 * i + 3) (4 * i) := by
  have hj : (8 * j + i) / 8 = j := by omega
  have hi : (8 * j + i) % 8 = i := by omega
  rw [State.slotWeight, hj, hi, State.reg_setReg_self]

/-- Settles O26: each event by its own lemma. -/
theorem stackEventsComplete : Obligations.StackEventsComplete := by
  refine ⟨⟨fun s st failed lanes rows h hr => ⟨exec_stackBringUp failed lanes rows h hr, fun k hk => s.col_broughtUp lanes rows hk⟩,
    fun s st failed linkOk h => exec_stackResume failed linkOk h, fun s st c lane tgt row hl hn hok => ⟨fun hs => ?_, ?_, fun hs => ?_⟩,
    fun s st r hb hr hrow => repairComplete_row_completes hb hr hrow⟩,
    fun s st hb hst he hp => exec_scrubRead hb hst he hp, fun s st v hb => exec_stackTempRead v hb,
    fun s q v j w hl => ⟨_, exec_slotWeightWrite v j w hl, fun i hi => ?_, State.setReg_cis .., State.setReg_mem ..⟩⟩
  · refine ⟨_, rfl, ?_⟩
    rw [decide_eq_true hs]
    exact State.beginRepair_with_spare _ hl hn hok
  · by_cases hs : SMap.get s.cis.rowsUsed 0 (rowBank st c tgt) < Config.spareRows (rowBank st c tgt)
    · refine ⟨_, rfl, ?_⟩
      rw [if_pos hs]
      obtain ⟨hbusy, hrep, hcols⟩ := State.beginRepair_with_spare ⟨true, c, tgt, row.toNat⟩ hl hn hok
      rw [decide_eq_true hs]
      exact ⟨hcols, hbusy, hrep⟩
    · obtain ⟨hres, hcis⟩ := State.beginRepair_without_spare ⟨true, c, tgt, row.toNat⟩ hl hn hok
      refine ⟨_, rfl, ?_⟩
      rw [if_neg hs, decide_eq_false hs]
      exact ⟨congrArg CisState.cols hcis, hres, hcis⟩
  · refine ⟨_, rfl, ?_⟩
    rw [decide_eq_false (Nat.not_lt.2 (Nat.le_of_eq hs))]
    exact State.beginRepair_without_spare _ hl hn hok
  · rw [State.slotWeight_setReg _ _ _ _ _ hi, bitsOf_slotWord w hi]

end Sys2Proof.Machine

/-! # Failures -/

namespace Sys2Proof.Machine
open Sys2Proof

/-! ## Rounds given up -/

theorem State.freePage_rounds (s : State) (p : KvPage) : (s.freePage p).ses.rounds = s.ses.rounds := by
  unfold State.freePage
  split <;> rfl

theorem State.kvTrim_rounds (s : State) (h n : Nat) : (s.kvTrim h n).ses.rounds = s.ses.rounds := by
  unfold State.kvTrim
  refine foldl_keeps (fun u => u.ses.rounds = s.ses.rounds) _ (fun u e hu => ?_) _ s rfl
  refine foldl_keeps (fun v => v.ses.rounds = s.ses.rounds) _ (fun v p hv => ?_) _ u hu
  exact (v.freePage_rounds p).trans hv

theorem State.freeStaged_rounds (s : State) (e : Nat) (gs : List Staged) : (s.freeStaged e gs).ses.rounds = s.ses.rounds := by
  unfold State.freeStaged
  refine foldl_keeps (fun u : State => u.ses.rounds = s.ses.rounds) _ (fun u g hu => ?_) gs _ rfl
  split
  · exact hu
  · exact hu

theorem State.restartPriming_rounds (s : State) (m : Nat) : (s.restartPriming m).ses.rounds = s.ses.rounds := by
  unfold State.restartPriming
  rw [State.setModel_ses_rounds]
  exact foldl_keeps (fun u : State => u.ses.rounds = s.ses.rounds) _ (fun u e hu => (u.freeStaged_rounds _ _).trans hu) (List.range 32) s rfl

/-- A round given up is no longer in flight, and the others are (R471). -/
theorem State.abandonRound_rounds (s : State) (num cause : Nat) :
    (s.abandonRound num cause).ses.rounds = s.ses.rounds.filter fun r => r.num != num := by
  unfold State.abandonRound
  split
  · next h =>
    rw [List.find?_eq_none] at h
    exact (List.filter_eq_self.2 fun r hr => by simpa using h r hr).symm
  · next r h =>
    extract_lets s1 s2
    have h2 : s2.ses.rounds = s1.ses.rounds :=
      foldl_keeps (fun u => u.ses.rounds = s1.ses.rounds) _ (fun u h hu => (u.kvTrim_rounds _ _).trans hu) _ s1 rfl
    have hq : Quiet (s2.restartPriming r.model) _ :=
      ((State.raise_quiet _ pgRas 4).trans (State.bump_quiet _ pgRas F.ras_ABANDONED_COUNT 1)).trans
        (State.logErr_quiet _ 0x0A (pgKpr s.sealer) r.model num cause)
    exact (congrArg SesAll.rounds hq.ses).trans ((s2.restartPriming_rounds _).trans h2)

/-! ## Parts that fail -/

section
variable {s : State} (hb : s.booted = true)
include hb

theorem exec_pumpHangTimeout {page : Fin 10} {pump : Fin 8} (hp : pump.val < pumpCount page) :
    exec (.pumpHangTimeout page pump) s = .next (s.retirePump page pump) := by
  change execPumpHangTimeout page pump s = _
  rw [execPumpHangTimeout, s.gate_booted _ hb, if_pos (by simp [hb, hp])]

theorem exec_heartbeat (q : Fin 4) : exec (.heartbeat q) s = .next s := s.gate_booted _ hb

theorem exec_heartbeatTimeout (q : Fin 4) : exec (.heartbeatTimeout q) s = .next (s.retireDie q) := by
  change execHeartbeatTimeout q s = _
  rw [execHeartbeatTimeout, s.gate_booted _ hb, if_pos hb]

theorem exec_stackRetire (st : Fin 20) : exec (.stackRetire st) s = .next (s.retireStack st) := by
  change execStackRetire st s = _
  rw [execStackRetire, s.gate_booted _ hb]

theorem exec_roundStall {num : W64} {r : Round} (hr : s.roundOf num.toNat = some r)
    (he : (r.engines.filter fun e => (s.ctx e false).started).isEmpty = false)
    (hp : ((r.engines.filter fun e => (s.ctx e false).started).any fun e => (s.ctx e false).poisonWaited) = false) :
    exec (.roundStall num) s = .next (s.stall r (r.engines.filter fun e => (s.ctx e false).started)) := by
  change execRoundStall num s = _
  rw [execRoundStall, s.gate_booted _ hb]
  simp only [hr]
  rw [if_neg (by simp only [he, hp]; decide)]

end

/-! ## Refetches -/

/-- The object that a tile's key names. -/
theorem tileIx_parts (fn : Nat) (obj tile : W16) : tileIx fn obj.toNat tile.toNat / 2 ^ 32 = fn
    ∧ tileIx fn obj.toNat tile.toNat / 65536 % 65536 = obj.toNat ∧ tileIx fn obj.toNat tile.toNat / 65536 = objIx fn obj.toNat := by
  have := obj.isLt
  have := tile.isLt
  simp only [tileIx, objIx]
  omega

theorem State.objOfTile_tileIx (s : State) (fn : Nat) (obj tile : W16) : s.objOfTile (tileIx fn obj.toNat tile.toNat) = s.obj fn obj.toNat := by
  obtain ⟨-, -, h⟩ := tileIx_parts fn obj tile
  rw [State.objOfTile, State.obj, h]

theorem State.lockTile_tileIx (s : State) (fn : Nat) (obj tile : W16) (on : Bool) :
    s.lockTile (tileIx fn obj.toNat tile.toNat) on = s.setObj fn obj.toNat { s.obj fn obj.toNat with migLock := on } := by
  obtain ⟨hfn, hobj, -⟩ := tileIx_parts fn obj tile
  rw [State.lockTile, hfn, hobj, s.objOfTile_tileIx]

theorem State.askGolden_quiet (s : State) (k : Nat) : Quiet s (s.askGolden k) := by
  unfold State.askGolden
  extract_lets x
  split
  · exact s.emit_quiet _
  · exact s.emit_quiet _

/-- The state in which a tile's golden bytes have been asked for `n` times. -/
def State.setRefetch (s : State) (k n : Nat) : State := { s with mem := { s.mem with refetch := SMap.set s.mem.refetch 0 k n } }

theorem State.setRefetch_obj (s : State) (k n fn o : Nat) : (s.setRefetch k n).obj fn o = s.obj fn o := rfl

theorem State.setRefetch_refetch (s : State) (k n : Nat) : SMap.get (s.setRefetch k n).mem.refetch 0 k = n := SMap.get_set_self ..

theorem State.setRefetch_sameMemory (s : State) (k n : Nat) : SameMemory s (s.setRefetch k n) := fun sp a => by
  cases sp <;> rfl

theorem State.setObj_sameMemory (s : State) (fn o : Nat) (x : Obj) : SameMemory s (s.setObj fn o x) := fun sp a => by
  cases sp <;> rfl

/-- A tile asked for holds its object's lock and is noted as asked for once; no memory changes (R482). -/
theorem State.askGolden_setRefetch_lockTile (s : State) (fn : Nat) (obj tile : W16) :
    let k := tileIx fn obj.toNat tile.toNat
    let t := ((s.lockTile k true).setRefetch k 1).askGolden k
    (t.obj fn obj.toNat).migLock = true ∧ SMap.get t.mem.refetch 0 k = 1 ∧ SameMemory s t := by
  intro k t
  have hq : Quiet ((s.lockTile k true).setRefetch k 1) t := State.askGolden_quiet _ k
  refine ⟨?_, ?_, ?_⟩
  · rw [State.obj, hq.mem]
    change (((s.lockTile k true).setRefetch k 1).obj fn obj.toNat).migLock = true
    rw [State.setRefetch_obj, s.lockTile_tileIx, State.obj_setObj_self]
  · rw [hq.mem]
    exact State.setRefetch_refetch ..
  · exact ((s.setObj_sameMemory _ _ _).trans (State.setRefetch_sameMemory _ k 1)).trans hq.sameMemory

section
variable {s : State} (hb : s.booted = true) (fn : Fin 65) (obj tile : W16)
include hb

theorem exec_refetch_of_golden (hm : s.mayRefetch fn obj.toNat tile.toNat = true) (hg : s.noGolden (s.obj fn obj.toNat) = false) :
    let k := tileIx fn obj.toNat tile.toNat
    exec (.refetch fn obj tile) s = .next (((s.lockTile k true).setRefetch k 1).askGolden k) := by
  change execRefetch fn obj tile s = _
  rw [execRefetch, s.gate_booted _ hb]
  dsimp only
  rw [if_neg (by rw [hm]; decide), if_neg (by rw [hg]; decide), State.setRefetch]

theorem exec_refetch_of_noGolden (hm : s.mayRefetch fn obj.toNat tile.toNat = true) (hg : s.noGolden (s.obj fn obj.toNat) = true) :
    exec (.refetch fn obj tile) s
      = .next ((s.lockTile (tileIx fn obj.toNat tile.toNat) true).refetchFail (tileIx fn obj.toNat tile.toNat)) := by
  change execRefetch fn obj tile s = _
  rw [execRefetch, s.gate_booted _ hb]
  dsimp only
  rw [if_neg (by rw [hm]; decide), if_pos hg]

theorem exec_refetchGoldenDone_restoring (g : Option (List Byte)) (hr : s.mem.restoring.contains (tileIx fn obj.toNat tile.toNat) = true) :
    exec (.refetchGoldenDone fn obj tile g) s = .next (s.restoreTile (tileIx fn obj.toNat tile.toNat) g) := by
  change execRefetchGoldenDone fn obj tile g s = _
  rw [execRefetchGoldenDone, s.gate_booted _ hb]
  exact if_pos hr

section
variable (hr : s.mem.restoring.contains (tileIx fn obj.toNat tile.toNat) = false) {n : Nat}
  (hn : SMap.get s.mem.refetch 0 (tileIx fn obj.toNat tile.toNat) = n + 1)
include hr hn

theorem exec_refetchGoldenDone_none :
    exec (.refetchGoldenDone fn obj tile none) s = .next (s.refetchFail (tileIx fn obj.toNat tile.toNat)) := by
  change execRefetchGoldenDone fn obj tile none s = _
  rw [execRefetchGoldenDone, s.gate_booted _ hb]
  dsimp only
  rw [if_neg (by rw [hr]; decide), hn]

section
variable (data : List Byte) (hc : (s.obj fn obj.toNat).comp = 0)
include hc

theorem exec_refetchGoldenDone_of_clean :
    let k := tileIx fn obj.toNat tile.toNat
    let s1 := s.writeTile fn obj.toNat tile.toNat (piecesOf 0 (s.goldenTile k data))
    s1.tilePoisoned k = false → exec (.refetchGoldenDone fn obj tile (some data)) s = .next (s1.endRefetch fn obj.toNat k) := by
  intro k s1 hp
  change execRefetchGoldenDone fn obj tile (some data) s = _
  rw [execRefetchGoldenDone, s.gate_booted _ hb]
  dsimp only
  rw [if_neg (by rw [hr]; decide), hn]
  dsimp only
  rw [if_neg (fun h => h.1 hc), if_pos (by rw [hp]; rfl)]

theorem exec_refetchGoldenDone_of_poisoned (hn0 : n ≠ 0) :
    let k := tileIx fn obj.toNat tile.toNat
    let s1 := s.writeTile fn obj.toNat tile.toNat (piecesOf 0 (s.goldenTile k data))
    s1.tilePoisoned k = true → exec (.refetchGoldenDone fn obj tile (some data)) s = .next (s1.refetchFail k) := by
  intro k s1 hp
  change execRefetchGoldenDone fn obj tile (some data) s = _
  rw [execRefetchGoldenDone, s.gate_booted _ hb]
  dsimp only
  rw [if_neg (by rw [hr]; decide), hn]
  dsimp only
  rw [if_neg (fun h => h.1 hc), if_neg (by rw [hp]; decide), if_neg hn0]

end
end
end

/-! ## Unloading a model -/

theorem exec_unload {s : State} (hl : s.pageLive pgRas = true) :
    let m := s.fld pgRas F.ras_MODEL_SEL_MODEL
    exec .unload s = .next (if !((s.model m).quarantined) then s
      else ((s.sess.filter (fun (e : Nat × Session) => decide (e.1 < 2 ^ 32) && e.2.model == m && e.2.inUse && !e.2.closing)).map (fun e => e.1)).foldl
        (fun s h =>
          let s1 := (s.sesOf h).reqs.foldl (fun s r => s.complete h r stQuarantined) s
          s1.setSes h { s1.sesOf h with unloaded := true }) s) := by
  intro m
  change execUnload s = _
  rw [execUnload, State.regWrite, if_pos hl]

/-- Settles O56: each event by its own equation, a round given up by what giving it up leaves of the rounds in flight. -/
theorem failuresComplete : Obligations.FailuresComplete := by
  unfold Obligations.FailuresComplete
  refine ⟨fun s hb => ⟨fun page pump hp => exec_pumpHangTimeout hb hp, fun q => ⟨exec_heartbeat hb q, exec_heartbeatTimeout hb q⟩, exec_stackRetire hb,
      fun page pump hr => if_pos hr, fun q hq => if_pos (by rw [hq]; rfl), fun st hr => if_pos hr⟩,
    fun s num r hb hr he hp => exec_roundStall hb hr he hp, fun s num cause x hx => ?_, fun s fn obj tile hb => ?_, fun s hl => ?_⟩
  · rw [s.abandonRound_rounds, List.mem_filter] at hx
    exact ⟨by simpa using hx.2, hx.1⟩
  · intro k
    refine ⟨fun hm hg => ⟨_, exec_refetch_of_golden hb fn obj tile hm hg, s.askGolden_setRefetch_lockTile fn obj tile⟩,
      exec_refetch_of_noGolden hb fn obj tile, exec_refetchGoldenDone_restoring hb fn obj tile, fun hr hn => ?_, fun data hr hn hc => ?_⟩
    · obtain ⟨n, hn⟩ := Nat.exists_eq_succ_of_ne_zero hn
      exact exec_refetchGoldenDone_none hb fn obj tile hr hn
    · obtain ⟨n, hn⟩ := Nat.exists_eq_succ_of_ne_zero hn
      exact ⟨exec_refetchGoldenDone_of_clean hb fn obj tile hr hn data hc,
        fun hp h2 => exec_refetchGoldenDone_of_poisoned hb fn obj tile hr hn data hc (by omega) hp⟩
  · intro m
    exact ⟨fun hq => by rw [exec_unload hl, if_pos (by rw [hq]; rfl)], fun hq => by rw [exec_unload hl, if_neg (by rw [hq]; decide)]⟩

end Sys2Proof.Machine

/-! # The keeper's services -/

namespace Sys2Proof.Machine
open Sys2Proof

/-! ## Registers and memories -/

/-- Every byte lies in the stacks, the tiers, the base dies or the tile stores. -/
theorem SameMemory.of_stores {s t : State} (hc : t.cis = s.cis) (hm : t.mem = s.mem) (hb : t.bkt = s.bkt) (hp : t.pmp = s.pmp) :
    SameMemory s t := fun sp a => by
  cases sp <;> simp only [State.byteOf, State.col, State.colDefault, hc, hm, hb, hp]

theorem State.setKeeper_sameMemory (s : State) (q : Nat) (k : Keeper) : SameMemory s (s.setKeeper q k) := .of_stores rfl rfl rfl rfl

theorem State.draw_sameMemory (s : State) : SameMemory s s.draw.2 := .of_stores rfl rfl rfl rfl

theorem Quiet.setReg {s t : State} (h : Quiet s t) (pg : Page) (b o : Nat) (v : W32) : Quiet s (t.setReg pg b o v) :=
  h.trans (t.setReg_quiet _ _ _ _)

theorem Quiet.setFld {s t : State} (h : Quiet s t) (pg : Page) (f : Fld) (v : Nat) : Quiet s (t.setFld pg f v) :=
  h.trans (t.setFld_quiet _ _ _)

theorem Quiet.sameMemory_sessions {s t : State} (h : Quiet s t) : SameMemory s t ∧ SameSessions s t :=
  ⟨h.sameMemory, h.sess, h.ses, h.keepers⟩

/-- A register keeps its value when another of its page and bank is set. -/
theorem State.reg_setReg_of_off_ne (s : State) (pg : Page) (b : Nat) {o o' : Nat} (v : W32) (h : o' ≠ o) :
    (s.setReg pg b o' v).reg pg b o = s.reg pg b o :=
  s.reg_setReg_of_key_ne _ _ _ _ _ _ _ (mt Nat.add_left_cancel h)

theorem State.fld_setKeeper (s : State) (q : Nat) (k : Keeper) : (s.setKeeper q k).fld = s.fld := State.fld_congr rfl

theorem pgKpr_bounds (q : Fin 4) {o : Nat} (ho : o < 4096) : RegBounds (pgKpr q) 0 o :=
  ⟨Nat.lt_trans q.isLt (by decide), by decide, ho⟩

/-! ## What a start on an engine leaves -/

/-- From `s` to `t` the sessions and keepers are the same, and so is every register that is not on an engine's page. -/
structure EnginesOnly (s t : State) : Prop where
  sess : t.sess = s.sess
  ses : t.ses = s.ses
  keepers : t.keepers = s.keepers
  reg {pg : Page} {o : Nat} : RegBounds pg 0 o → pg.kind ≠ .mxe → pg.kind ≠ .vxe → t.reg pg 0 o = s.reg pg 0 o

namespace EnginesOnly
variable {s t u : State}

theorem of_regs (hr : t.regs = s.regs) (hsess : t.sess = s.sess) (hses : t.ses = s.ses) (hkeepers : t.keepers = s.keepers) : EnginesOnly s t :=
  ⟨hsess, hses, hkeepers, fun _ _ _ => by rw [State.reg_congr hr]⟩

theorem refl (s : State) : EnginesOnly s s := of_regs rfl rfl rfl rfl

theorem trans (h : EnginesOnly s t) (k : EnginesOnly t u) : EnginesOnly s u :=
  ⟨k.sess.trans h.sess, k.ses.trans h.ses, k.keepers.trans h.keepers, fun hb hm hv => (k.reg hb hm hv).trans (h.reg hb hm hv)⟩

theorem ite (h : EnginesOnly s t) (k : EnginesOnly s u) {c : Prop} [Decidable c] : EnginesOnly s (if c then t else u) := by
  split
  · exact h
  · exact k

theorem setEng (h : EnginesOnly s t) (e : Nat) (x : Eng) : EnginesOnly s (t.setEng e x) :=
  h.trans (of_regs rfl rfl rfl rfl)

theorem setCtx (h : EnginesOnly s t) (e : Nat) (y : Bool) (c : ProgCtx) : EnginesOnly s (t.setCtx e y c) := h.setEng _ _

theorem zeroResource (h : EnginesOnly s t) (e k : Nat) : EnginesOnly s (t.zeroResource e k) := by
  unfold State.zeroResource
  extract_lets x
  refine (h.setEng _ _).ite ((h.setEng _ _).ite ((h.setEng _ _).ite ?_))
  exact h.trans (of_regs rfl rfl rfl rfl)

theorem draw (h : EnginesOnly s t) : EnginesOnly s t.draw.2 := h.trans (of_regs rfl rfl rfl rfl)

section
variable {e : Nat} (h : EnginesOnly s t) (he : e < 256)
include h he

theorem setReg_mxe {o : Nat} (v : W32) (ho : o < 4096) : EnginesOnly s (t.setReg (pgMxe e) 0 o v) :=
  h.trans ⟨rfl, rfl, rfl, fun hb hm _ => State.reg_setReg_of_page_ne hb t v ⟨he, by decide, ho⟩ fun hp => hm (hp ▸ rfl)⟩

theorem setFld_vxe (f : Fld) (v : Nat) (hf : f.off < 4096) : EnginesOnly s (t.setFld (pgVxe e) f v) :=
  h.trans ⟨rfl, rfl, rfl, fun hb _ hv => State.reg_setReg_of_page_ne hb t _ ⟨he, by decide, hf⟩ fun hp => hv (hp ▸ rfl)⟩

theorem setEngState (v : Nat) : EnginesOnly s (t.setEngState e v) :=
  (h.setReg_mxe he _ (by decide)).setFld_vxe he F.hdr_STATE v (by decide)

theorem zeroCtxY : EnginesOnly s (t.zeroCtx e true) :=
  (((h.setCtx e _ _).setFld_vxe he (fLast true) 0 (by decide)).setFld_vxe he (fSticky true) 0 (by decide)).setFld_vxe he (fCnt true) 0 (by decide)

/-- A partition granted is reported on the engine's page. -/
theorem grantPart (func : Nat) (p : Part) : EnginesOnly s (t.grantPart e func p) := by
  unfold State.grantPart
  extract_lets x other s1 y s2 pg s3
  have h1 : EnginesOnly s s1 := foldl_keeps (EnginesOnly s) _ (fun u k hu => hu.zeroResource e k) other t h
  have h3 : EnginesOnly s s3 := ((((h1.setEng e _).setFld_vxe he F.vxe_Y_PART_ACC p.acc (by decide)).setFld_vxe he F.vxe_Y_PART_ROW_BASE p.row
    (by decide)).setFld_vxe he F.vxe_Y_PART_ROWS p.rows (by decide)).setFld_vxe he F.vxe_Y_PART_RS p.rs (by decide)
  exact (h3.setFld_vxe he F.vxe_Y_FRAMES_BASE p.frame (by decide)).setFld_vxe he F.vxe_Y_FRAMES_COUNT p.frames (by decide)

theorem startProgY (entry round cls func : Nat) (test : Bool) : EnginesOnly s (t.startProg e true entry round cls func test) := by
  unfold State.startProg
  extract_lets c pg s0 c0 s1 s2
  have h0 : EnginesOnly s s0 := (h.zeroCtxY he).ite h
  have h1 : EnginesOnly s s1 := (h0.setCtx e true _).setEngState he eRunning
  have h2 : EnginesOnly s s2 := (h1.setReg_mxe he _ (by decide)).setReg_mxe he _ (by decide)
  rw [if_pos rfl]
  exact ((((h2.setFld_vxe he F.vxe_Y_STATUS_STATE 1 (by decide)).setFld_vxe he F.vxe_Y_STATUS_WAIT_BRANCH 0 (by decide)).setFld_vxe he
    F.vxe_Y_STATUS_PC 0 (by decide)).setFld_vxe he F.vxe_Y_STATUS_CAUSE 0 (by decide)).setFld_vxe he F.vxe_Y_STATUS_FUNC func (by decide)

end
end EnginesOnly

/-! ## A program started -/

@[simp] theorem State.ctx_setCtx_self (s : State) (e : Nat) (y : Bool) (c : ProgCtx) : (s.setCtx e y c).ctx e y = c := by
  cases y <;> simp [State.ctx, State.setCtx]

theorem State.ctx_setReg (s : State) (pg : Page) (b o : Nat) (v : W32) : (s.setReg pg b o v).ctx = s.ctx := rfl

theorem State.ctx_setFld (s : State) (pg : Page) (f : Fld) (v : Nat) : (s.setFld pg f v).ctx = s.ctx := rfl

theorem State.ctx_setEngState (s : State) (e v : Nat) : (s.setEngState e v).ctx = s.ctx := rfl

/-- A context in which a program has just started: what it holds for the program's rows keeps its values (R238). -/
def ProgCtx.fresh (c : ProgCtx) (entry round cls func : Nat) (test : Bool) : ProgCtx :=
  { c with started := true, yielded := false, claimed := false, waitBranch := false, entry := entry, pc := entry, round := round, cls := cls
           func := func, test := test, row := none, rowFlags := 0, saved := none, waited := false, poisonWaited := false, tainted := false
           faulted := false }

theorem State.ctx_startProg (s : State) (e : Nat) (y : Bool) (entry round cls func : Nat) (test : Bool) :
    ∃ c, (s.startProg e y entry round cls func test).ctx e y = ProgCtx.fresh c entry round cls func test := by
  unfold State.startProg
  extract_lets c pg s0 c0 s1 s2
  refine ⟨c0, ?_⟩
  rw [apply_ite State.ctx, State.ctx_setFld, State.ctx_setFld, State.ctx_setFld, State.ctx_setFld, State.ctx_setFld, ite_self,
    State.ctx_setReg, State.ctx_setReg, State.ctx_setEngState, State.ctx_setCtx_self, ProgCtx.fresh]

/-! ## The state of the engine -/

theorem State.engState_setReg_of_off_ne (s : State) (e : Nat) {o : Nat} (v : W32) (ho : o ≠ 0x00C) :
    (s.setReg (pgMxe e) 0 o v).engState e = s.engState e := State.fld_of_reg (s.reg_setReg_of_off_ne _ _ v ho)

section
variable {e : Nat} (he : e < 256)
include he

theorem pgMxe_bounds {o : Nat} (ho : o < 4096) : RegBounds (pgMxe e) 0 o := ⟨he, by decide, ho⟩

theorem State.engState_setFld_vxe (s : State) (f : Fld) (v : Nat) (hf : f.off < 4096) :
    (s.setFld (pgVxe e) f v).engState e = s.engState e :=
  State.fld_of_reg (State.reg_setReg_of_page_ne (pgMxe_bounds he (by decide)) s _ ⟨he, by decide, hf⟩
    (mt (congrArg Page.kind) PageKind.noConfusion))

theorem State.engState_setEngState (s : State) {v : Nat} (hv : v < 16) : (s.setEngState e v).engState e = v := by
  rw [State.setEngState, State.engState_setFld_vxe he _ _ _ (by decide)]
  exact s.fld_setFld_self _ (by decide) hv

/-- An engine that starts a program is RUNNING (R243). -/
theorem State.engState_startProg (s : State) (y : Bool) (entry round cls func : Nat) (test : Bool) :
    (s.startProg e y entry round cls func test).engState e = eRunning := by
  unfold State.startProg
  extract_lets c pg s0 c0 s1 s2
  have h2 : s2.engState e = eRunning := by
    unfold s2 s1
    rw [State.engState_setReg_of_off_ne _ _ _ (by decide), State.engState_setReg_of_off_ne _ _ _ (by decide),
      State.engState_setEngState he _ (by decide)]
  split
  · simp (disch := decide) only [pg, State.engState_setFld_vxe he, h2]
  · exact h2

end

/-! ## Programs of the registry -/

/-- The keeper starts its registry's entry `n` on engine `e`, in context Y. -/
def State.startEntry (s : State) (e q n cls func : Nat) : State :=
  s.draw.2.startProg e true (s.draw.2.fldB (pgKpr q) n F.kpr_PROG_ENTRY_ADDR) (s.draw.1 % 2 ^ 64) cls func false

/-- What a start of a registry's entry makes of `s`: its program runs in context Y of engine `e`, and sessions, keepers and the pages of other
blocks stay as they are. -/
structure EntryRuns (s t : State) (e cls : Nat) : Prop where
  started : (t.ctx e true).started = true
  cls : (t.ctx e true).cls = cls
  state : t.engState e = eRunning
  rest : EnginesOnly s t

theorem State.startEntry_runs (s : State) {e : Nat} (he : e < 256) (q n cls func : Nat) : EntryRuns s (s.startEntry e q n cls func) e cls :=
  have ⟨_, hctx⟩ := s.draw.2.ctx_startProg e true _ _ cls func false
  ⟨congrArg ProgCtx.started hctx, congrArg ProgCtx.cls hctx, State.engState_startProg he _ _ _ _ _ _ _,
    (EnginesOnly.refl s).draw.startProgY he _ _ _ _ _⟩

/-- The keeper of a quadrant notes a PROMPT program that runs for it. -/
def State.addChunk (s : State) (q : Nat) (c : Chunk) : State :=
  s.setKeeper q { s.keeper q with chunks := (s.keeper q).chunks ++ [c] }

theorem State.mem_chunks_addChunk (s : State) (q : Nat) (c : Chunk) : c ∈ ((s.addChunk q c).keeper q).chunks := by
  rw [State.addChunk, State.keeper_setKeeper_self]
  exact List.mem_append_right _ (List.mem_singleton_self c)

theorem exec_promptProgramStart {s s1 : State} {e : Fin 32} {n : Fin 64} {h : W32} {count : Fin 65} {r : Req} (hb : s.booted = true)
    (hr : (s.sesOf h.toNat).headReq = some r) (hm : s.promptMay e n h.toNat r = true) (hn : min count.val r.left.length ≠ 0)
    (hk : s.kvReserve h.toNat ((s.sesOf h.toNat).hist.length + min count.val r.left.length) = .ok s1) :
    let q := engQuad e
    let f := s1.fldB (pgKpr q) n F.kpr_PROG_ENTRY_FUNC
    exec (.promptProgramStart e n h count) s
      = .next (((s1.addChunk q ⟨e, h.toNat, (s.sesOf h.toNat).hist.length, min count.val r.left.length⟩).grantPart e f (s.partOf q n)).startEntry
        e q n 1 f) := by
  intro q f
  change execPromptProgramStart e n h count s = _
  rw [execPromptProgramStart, s.gate_booted _ hb]
  simp only [hr]
  rw [if_neg (by simp only [hm, hn]; decide), hk]
  rfl

theorem exec_customProgramStart {s : State} {q : Fin 4} {prog e8 : Nat} (hb : s.booted = true) (hy : (s.keeper q).yrun = some (prog, e8))
    (hst : s.fld (pgKpr q) F.kpr_YRUN_STATUS_STATE = 1) (hidle : s.yIdle (8 * q.val + e8) = true) (hfree : s.partFree (s.partOf q prog) = true)
    (hrows : (s.ses.rounds.map (fun r => r.rows.length)).foldl (· + ·) 0 + (s.partOf q prog).rows ≤ 256) :
    let f := s.fldB (pgKpr q) prog F.kpr_PROG_ENTRY_FUNC
    exec (.customProgramStart q) s = .next (((s.grantPart (8 * q.val + e8) f (s.partOf q prog)).setFld (pgKpr q) F.kpr_YRUN_STATUS_STATE
      2).startEntry (8 * q.val + e8) q prog 2 f) := by
  intro f
  change execCustomProgramStart q s = _
  rw [execCustomProgramStart, s.gate_booted _ hb]
  simp only [hy]
  rw [if_neg (by simp [hst, hidle, hfree, Nat.not_lt.2 hrows])]
  rfl

/-- A PROMPT program starts on its engine, and its keeper notes it (R358). -/
theorem promptProgramStart_completes {s s1 : State} {e : Fin 32} {n : Fin 64} {h : W32} {count : Fin 65} {r : Req} (hb : s.booted = true)
    (hr : (s.sesOf h.toNat).headReq = some r) (hm : s.promptMay e n h.toNat r = true) (hn : min count.val r.left.length ≠ 0)
    (hk : s.kvReserve h.toNat ((s.sesOf h.toNat).hist.length + min count.val r.left.length) = .ok s1) :
    ∃ t, exec (.promptProgramStart e n h count) s = .next t ∧ (t.ctx e true).started = true ∧ (t.ctx e true).cls = 1 ∧ t.engState e = eRunning
      ∧ (⟨e.val, h.toNat, (s.sesOf h.toNat).hist.length, min count.val r.left.length⟩ : Chunk) ∈ (t.keeper (engQuad e)).chunks := by
  have he : e.val < 256 := Nat.lt_trans e.isLt (by decide)
  have hgrant (u : State) (f : Nat) (p : Part) := (EnginesOnly.refl u).grantPart he f p
  have hruns (u : State) (f : Nat) := u.startEntry_runs he (engQuad e) n 1 f
  refine ⟨_, exec_promptProgramStart hb hr hm hn hk, (hruns _ _).started, (hruns _ _).cls, (hruns _ _).state, ?_⟩
  rw [State.keeper, (hruns _ _).rest.keepers, (hgrant _ _ _).keepers]
  exact s1.mem_chunks_addChunk _ _

/-- A CUSTOM program starts on its engine, and YRUN_STATUS tells it (R360). -/
theorem customProgramStart_completes {s : State} {q : Fin 4} {prog e8 : Nat} (hb : s.booted = true) (hy : (s.keeper q).yrun = some (prog, e8))
    (he8 : e8 < 8) (hst : s.fld (pgKpr q) F.kpr_YRUN_STATUS_STATE = 1) (hidle : s.yIdle (8 * q.val + e8) = true)
    (hfree : s.partFree (s.partOf q prog) = true)
    (hrows : (s.ses.rounds.map (fun r => r.rows.length)).foldl (· + ·) 0 + (s.partOf q prog).rows ≤ 256) :
    ∃ t, exec (.customProgramStart q) s = .next t ∧ (t.ctx (8 * q.val + e8) true).started = true ∧ (t.ctx (8 * q.val + e8) true).cls = 2
      ∧ t.fld (pgKpr q) F.kpr_YRUN_STATUS_STATE = 2 ∧ t.ses = s.ses ∧ t.sess = s.sess := by
  have he : 8 * q.val + e8 < 256 := by omega
  have hgrant (f : Nat) (p : Part) := (EnginesOnly.refl s).grantPart he f p
  have hruns (u : State) (f : Nat) := u.startEntry_runs he q prog 2 f
  refine ⟨_, exec_customProgramStart hb hy hst hidle hfree hrows, (hruns _ _).started, (hruns _ _).cls, ?_, ?_, ?_⟩
  · rw [State.fld_of_reg ((hruns _ _).rest.reg (pgKpr_bounds q (by decide)) PageKind.noConfusion PageKind.noConfusion)]
    exact State.fld_setFld_self _ _ (by decide) (by decide)
  · rw [(hruns _ _).rest.ses, State.setFld_ses, (hgrant _ _).ses]
  · rw [(hruns _ _).rest.sess, State.setFld_sess, (hgrant _ _).sess]

/-! ## CUSTOM programs asked for -/

section
variable {s : State} {q : Fin 4} {v : W32} {meets : Bool} (hl : s.pageLive (pgKpr q) = true) (hgo : bitOf v.toNat 9 = true)
  (ht : s.yrunTaken q (bitsOf v.toNat 5 0) (bitsOf v.toNat 8 6) = true)
include hl hgo ht

/-- A CUSTOM program whose partition is sound waits at its keeper (R360). -/
theorem yrun_queues (hp : (meets || !(s.partFrames (8 * q.val + bitsOf v.toNat 8 6) (s.partOf q (bitsOf v.toNat 5 0)))) = false) :
    ∃ t, exec (.yrun q v meets) s = .next t ∧ (t.keeper q).yrun = some (bitsOf v.toNat 5 0, bitsOf v.toNat 8 6)
      ∧ t.fld (pgKpr q) F.kpr_YRUN_GO = 1 ∧ t.fld (pgKpr q) F.kpr_YRUN_STATUS_STATE = 1 ∧ SameMemory s t := by
  change ∃ t, execYrun q v meets s = _ ∧ _
  rw [execYrun, State.regWrite, if_pos hl]
  extract_lets n prog e s1
  rw [if_neg (by simp [n, prog, e, hgo, ht]), if_neg (by rw [hp]; decide)]
  have h1 : Quiet s s1 := ((Quiet.refl s).setFld _ _ _).setFld _ _ _
  refine ⟨_, rfl, ?_, ?_, ?_,
    ((((h1.setFld _ _ _).setFld _ _ _).setFld _ _ _).setFld _ _ _).sameMemory.trans (State.setKeeper_sameMemory _ _ _)⟩
  · rw [State.keeper_setKeeper_self]
  · rw [State.fld_setKeeper, State.fld_setFld_other _ _ _ (by decide) (by decide), State.fld_setFld_other _ _ _ (by decide) (by decide),
      State.fld_setFld_other _ _ _ (by decide) (by decide), State.fld_setFld_self _ _ (by decide) (by decide)]
  · rw [State.fld_setKeeper, State.fld_setFld_other _ _ _ (by decide) (by decide), State.fld_setFld_other _ _ _ (by decide) (by decide),
      State.fld_setFld_self _ _ (by decide) (by decide)]

/-- One whose partition is not ends PART_RANGE (R360). -/
theorem yrun_ends_partRange (hp : (meets || !(s.partFrames (8 * q.val + bitsOf v.toNat 8 6) (s.partOf q (bitsOf v.toNat 5 0)))) = true) :
    ∃ t, exec (.yrun q v meets) s = .next t ∧ t.fld (pgKpr q) F.kpr_YRUN_STATUS_STATE = 3 ∧ t.fld (pgKpr q) F.kpr_YRUN_STATUS_CAUSE = 4
      ∧ t.keepers = s.keepers ∧ SameMemory s t := by
  change ∃ t, execYrun q v meets s = _ ∧ _
  rw [execYrun, State.regWrite, if_pos hl]
  extract_lets n prog e s1 d
  rw [if_neg (by simp [n, prog, e, hgo, ht]), if_pos hp]
  have h1 : Quiet s s1 := ((Quiet.refl s).setFld _ _ _).setFld _ _ _
  refine ⟨_, rfl, ?_, ?_, ?_,
    (h1.sameMemory.trans s1.draw_sameMemory).trans ((((Quiet.refl _).setFld _ _ _).setFld _ _ _).setFld _ _ _).sameMemory⟩
  · rw [State.fld_setFld_other _ _ _ (by decide) (by decide), State.fld_setFld_other _ _ _ (by decide) (by decide),
      State.fld_setFld_self _ _ (by decide) (by decide)]
  · rw [State.fld_setFld_other _ _ _ (by decide) (by decide), State.fld_setFld_self _ _ (by decide) (by decide)]
  · rw [State.setFld_keepers, State.setFld_keepers, State.setFld_keepers]
    exact h1.keepers

end

/-! ## The test window -/

/-- TEST_WIN and STACK are as written, and clearing TEST_WIN closes the window (R363). -/
theorem testWin_completes {s : State} {q : Fin 4} (v : W32) (hl : s.pageLive (pgKpr q) = true) :
    ∃ t, exec (.testWin q v) s = .next t ∧ t.fld (pgKpr q) F.kpr_WIN_CTRL_TEST_WIN = v.toNat % 2
      ∧ t.fld (pgKpr q) F.kpr_WIN_CTRL_STACK = bitsOf v.toNat 6 2 ∧ (v.toNat % 2 = 0 → t.fld (pgKpr q) F.kpr_WIN_CTRL_ACTIVE = 0)
      ∧ SameMemory s t := by
  change ∃ t, execTestWin q v s = _ ∧ _
  rw [execTestWin, State.regWrite, if_pos hl]
  extract_lets n s1
  have hq : Quiet s s1 := ((Quiet.refl s).setFld _ _ _).setFld _ _ _
  have hwin : s1.fld (pgKpr q) F.kpr_WIN_CTRL_TEST_WIN = n % 2 := by
    unfold s1
    rw [State.fld_setFld_other _ _ _ (by decide) (by decide)]
    exact State.fld_setFld_self _ _ (by decide) (Nat.mod_lt n (by decide))
  have hstack : s1.fld (pgKpr q) F.kpr_WIN_CTRL_STACK = bitsOf n 6 2 := State.fld_setFld_self _ _ (by decide) (bitsOf_lt n 6 2)
  by_cases hn : n % 2 = 0
  · rw [if_pos hn]
    refine ⟨_, rfl, ?_, ?_, fun _ => State.fld_setFld_self _ _ (by decide) (by decide), (hq.setFld _ _ _).sameMemory⟩
    · rw [State.fld_setFld_other _ _ _ (by decide) (by decide), hwin]
    · rw [State.fld_setFld_other _ _ _ (by decide) (by decide), hstack]
  · rw [if_neg hn]
    exact ⟨_, rfl, hwin, hstack, fun h => absurd h hn, hq.sameMemory⟩

/-- The window opens while no round is in flight (R363). -/
theorem exec_testWindowActive {s : State} (q : Fin 4) (hb : s.booted = true) (hw : s.flag (pgKpr q) F.kpr_WIN_CTRL_TEST_WIN = true)
    (hr : s.ses.rounds = []) : exec (.testWindowActive q) s = .next (s.setFld (pgKpr q) F.kpr_WIN_CTRL_ACTIVE 1) := by
  change execTestWindowActive q s = _
  rw [execTestWindowActive, s.gate_booted _ hb, if_pos ⟨hw, by rw [hr]; rfl⟩]

section
variable {s : State} {q : Fin 4} (hl : s.pageLive (pgKpr q) = true)
include hl

theorem exec_winData_write_of_closed (v : W32) (hw : s.winActive q = false) : exec (.winData q (some v)) s
    = .next (s.setFld (pgKpr q) F.kpr_WIN_ADDR_OFFSET ((s.fld (pgKpr q) F.kpr_WIN_ADDR_OFFSET + 4) % 2 ^ 24)) := by
  change execWinData q (some v) s = _
  rw [execWinData, State.regWrite, if_pos hl]
  dsimp only
  rw [if_neg (by rw [hw]; exact Bool.false_ne_true)]

theorem exec_winData_write_of_active (v : W32) (hst : s.fld (pgKpr q) F.kpr_WIN_CTRL_STACK < 20) (hw : s.winActive q = true) :
    let off := s.fld (pgKpr q) F.kpr_WIN_ADDR_OFFSET
    exec (.winData q (some v)) s
      = .next ((s.windowWrite ⟨_, hst⟩ (off / 4 * 4) v).setFld (pgKpr q) F.kpr_WIN_ADDR_OFFSET ((off + 4) % 2 ^ 24)) := by
  intro off
  change execWinData q (some v) s = _
  rw [execWinData, State.regWrite, if_pos hl]
  dsimp only
  rw [if_pos (by rw [hw, decide_eq_true hst]; rfl)]
  simp only [Nat.mod_eq_of_lt hst]
  rfl

theorem exec_winData_read :
    exec (.winData q none) s = .next ((s.winWord q).2.emit (.regData 0 (leBytes 4 (s.winWord q).1.toNat))) := by
  change execWinData q none s = _
  rw [execWinData, State.regWrite, if_pos hl]

theorem exec_tagCplPop :
    exec (.tagCplPop q) s = .next (s.setKeeper q { s.keeper q with cpl := (s.keeper q).cpl.drop 1 }) := by
  change execTagCplPop q s = _
  rw [execTagCplPop, State.regWrite, if_pos hl]

end

/-! ## A session's record -/

theorem SesState.code_lt (x : SesState) : x.code < 16 := by
  cases x <;> decide

/-- QUERY0 shows the state in its low four bits, whatever stands above. -/
theorem bitsOf_low_of_mul_add (c k : Nat) (hc : c < 16) : bitsOf (BitVec.ofNat 32 (c + 16 * k)).toNat 3 0 = c := by
  rw [bitsOf, BitVec.toNat_ofNat]
  omega

section
variable {s : State} {q : Fin 4} {h : W32} (hl : s.pageLive (pgSes q) = true)
include hl

/-- A session of the quadrant is shown with its state and its positions (R325). -/
theorem sessionQuery_shows (ho : (s.sesOf h.toNat).owner = q.val) (hs : (s.sesOf h.toNat).st ≠ .gone) :
    ∃ t, exec (.sessionQuery q h) s = .next t ∧ bitsOf (t.reg (pgSes q) 0 0x068).toNat 3 0 = (s.sesOf h.toNat).st.code
      ∧ t.reg (pgSes q) 0 0x06C = BitVec.ofNat 32 (s.sesOf h.toNat).hist.length ∧ SameMemory s t ∧ SameSessions s t := by
  change ∃ t, execSessionQuery q h s = _ ∧ _
  rw [execSessionQuery, State.regWrite, if_pos hl]
  extract_lets x s1 w0 pages ver
  rw [if_pos ⟨ho, hs⟩]
  have h1 : Quiet s s1 := s.setReg_quiet _ _ _ _
  refine ⟨_, rfl, ?_, ?_, ((((h1.setReg _ _ _ _).setReg _ _ _ _).setReg _ _ _ _).setReg _ _ _ _).sameMemory_sessions⟩
  · rw [State.reg_setReg_of_off_ne _ _ _ _ (by decide), State.reg_setReg_of_off_ne _ _ _ _ (by decide),
      State.reg_setReg_of_off_ne _ _ _ _ (by decide), State.reg_setReg_self]
    have hw0 : w0 = x.st.code + 16 * (w0 / 16) := by
      have := x.st.code_lt
      omega
    rw [hw0, bitsOf_low_of_mul_add _ _ x.st.code_lt]
  · rw [State.reg_setReg_of_off_ne _ _ _ _ (by decide), State.reg_setReg_of_off_ne _ _ _ _ (by decide), State.reg_setReg_self]

/-- A session that is not the quadrant's, or is gone, is shown as zero (R325). -/
theorem sessionQuery_shows_zero (hn : (s.sesOf h.toNat).owner ≠ q.val ∨ (s.sesOf h.toNat).st = .gone) :
    ∃ t, exec (.sessionQuery q h) s = .next t ∧ (∀ o ∈ [0x068, 0x06C, 0x070, 0x074], t.reg (pgSes q) 0 o = 0#32)
      ∧ SameMemory s t ∧ SameSessions s t := by
  change ∃ t, execSessionQuery q h s = _ ∧ _
  rw [execSessionQuery, State.regWrite, if_pos hl]
  extract_lets x s1
  rw [if_neg (by rw [not_and_or, not_not]; exact hn)]
  have h1 : Quiet s s1 := s.setReg_quiet _ _ _ _
  refine ⟨_, rfl, fun o ho => ?_, (foldl_keeps (Quiet s) _ (fun u o hu => hu.setReg _ _ o _) _ s1 h1).sameMemory_sessions⟩
  exact (State.reg_foldl_setReg (pgSes q) Function.injective_id (fun _ => 0#32) (by decide) s1 o).trans (if_pos ho)

end

/-- Settles O48: each command by its own lemma. -/
theorem keeperServicesComplete : Obligations.KeeperServicesComplete := by
  unfold Obligations.KeeperServicesComplete
  refine ⟨fun s s1 e n h count r hb hr hm hn hk => promptProgramStart_completes hb hr hm hn hk,
    fun s q v meets hl => fun hgo ht => ⟨yrun_queues hl hgo ht, yrun_ends_partRange hl hgo ht⟩,
    fun s q prog e hb hy he hst hidle hfree hrows => customProgramStart_completes hb hy he hst hidle hfree hrows,
    fun s q v hl => ⟨testWin_completes v hl, ⟨exec_winData_write_of_closed hl v, exec_winData_write_of_active hl v, exec_winData_read hl⟩, ?_⟩,
    fun s q hb hw hr => exec_testWindowActive q hb hw hr,
    fun s q h hl => ⟨sessionQuery_shows hl, sessionQuery_shows_zero hl⟩⟩
  refine ⟨_, exec_tagCplPop hl, ?_, ?_, s.setKeeper_sameMemory _ _, rfl⟩
  · rw [State.keeper_setKeeper_self]
  · rw [State.keeper_setKeeper_self]

end Sys2Proof.Machine

/-! # Tiers: evictions, slice modes, floors and sump chunks -/

namespace Sys2Proof.Machine
open Sys2Proof

/-! ## Evictions -/

section
variable {s : State} {q : Fin 4} {pool : Fin 5} (hb : s.booted = true) (he : s.flag (pgTir q) F.hdr_ENABLE = true)
include hb he

/-- The scratchpad is never evicted (R177). -/
theorem exec_eviction_scratchpad (hp : pool.val = 1) : exec (.eviction q pool) s = .next s := by
  change execEviction q pool s = _
  rw [execEviction, s.gateOn_on _ _ hb he]
  dsimp only
  rw [if_pos (Or.inr hp)]

variable (hlow : s.poolFree q pool < (s.watermarks q pool).1)
include hlow

/-- A pool of a quadrant below its low watermark evicts towards its high one (R177). -/
theorem exec_eviction_pool (h4 : pool.val ≠ 4) (h1 : pool.val ≠ 1) : exec (.eviction q pool) s
    = .next (s.evictUntil q pool (s.watermarks q pool).2 (s.mem.tiles.length + s.sess.length + 1)) := by
  change execEviction q pool s = _
  rw [execEviction, s.gateOn_on _ _ hb he]
  dsimp only
  rw [if_neg (not_or.2 ⟨Nat.not_le.2 hlow, h1⟩), if_neg h4]

/-- The sump below its low watermark gives up the copies of tiles that are resident (R176). -/
theorem exec_eviction_sump (h4 : pool.val = 4) :
    exec (.eviction q pool) s = .next (s.freeSumpCopies (s.watermarks q pool).2) := by
  change execEviction q pool s = _
  rw [execEviction, s.gateOn_on _ _ hb he]
  dsimp only
  rw [if_neg (not_or.2 ⟨Nat.not_le.2 hlow, by omega⟩), if_pos h4]

end

/-! ## The mode of a slice -/

/-- The mode of a slice stands in SLICE_MODE alone. -/
theorem State.sliceScratch_of_reg {s t : State} {q : Nat} (h : ∀ o, o = 0x040 ∨ o = 0x044 → t.reg (pgWel q) 0 o = s.reg (pgWel q) 0 o)
    (i : Nat) : t.sliceScratch q i = s.sliceScratch q i := by
  rw [State.sliceScratch, State.sliceScratch, h _ (by split <;> decide)]

theorem State.sliceScratch_setFld_status (s : State) (q v i : Nat) :
    (s.setFld (pgWel q) F.wel_SLICE_STATUS_BUSY v).sliceScratch q i = s.sliceScratch q i :=
  State.sliceScratch_of_reg (fun o ho => s.reg_setReg_of_off_ne _ _ _ (by rcases ho with rfl | rfl <;> decide)) i

/-- A bit set in a register's word reads as set. -/
theorem bitOf_setBitsNat_self (w : W32) {n : Nat} (hn : n < 32) : bitOf (BitVec.ofNat 32 (setBitsNat w.toNat n n 1)).toNat n = true := by
  rw [bitOf_eq_testBit, BitVec.toNat_ofNat, Nat.testBit_mod_two_pow, testBit_setBitsNat, if_pos ⟨le_rfl, le_rfl⟩, decide_eq_true hn, Nat.sub_self]
  rfl

/-- The mode bit of a slice set to scratchpad. -/
def State.setScratch (s : State) (q i : Nat) : State :=
  let o := if i < 32 then 0x040 else 0x044
  s.setReg (pgWel q) 0 o (BitVec.ofNat 32 (setBitsNat (s.reg (pgWel q) 0 o).toNat (i % 32) (i % 32) 1))

theorem State.sliceScratch_setScratch (s : State) (q i : Nat) : (s.setScratch q i).sliceScratch q i = true := by
  rw [State.sliceScratch, State.setScratch, State.reg_setReg_self]
  exact bitOf_setBitsNat_self _ (Nat.mod_lt i (by decide))

/-- The switches of slices under way. -/
def State.setSwitching (s : State) (l : List Nat) : State := { s with mem := { s.mem with switching := l } }

theorem State.setSwitching_sameMemory (s : State) (l : List Nat) : SameMemory s (s.setSwitching l) := fun sp a => by
  cases sp <;> rfl

theorem State.sliceScratch_setSwitching (s : State) (l : List Nat) (q i : Nat) : (s.setSwitching l).sliceScratch q i = s.sliceScratch q i := rfl

/-! ## A slice asked to leave the cache -/

/-- The switch of a slice to scratchpad begins. -/
def State.startSwitch (s : State) (q i : Nat) : State :=
  (s.setSwitching (s.mem.switching ++ [q * 64 + i])).setFld (pgWel q) F.wel_SLICE_STATUS_BUSY 1

theorem State.sliceScratch_startSwitch (s : State) (q i j : Nat) : (s.startSwitch q i).sliceScratch q j = s.sliceScratch q j :=
  State.sliceScratch_setFld_status _ q 1 j

theorem State.startSwitch_sameMemory (s : State) (q i : Nat) : SameMemory s (s.startSwitch q i) :=
  (s.setSwitching_sameMemory _).trans (State.setFld_quiet _ _ _ _).sameMemory

theorem State.changeSlice_of_same (s : State) {q i : Nat} {b : Bool} (h : b = s.sliceScratch q i) : s.changeSlice q i b = s := by
  rw [State.changeSlice, if_pos (by simp [h])]

theorem State.changeSlice_of_cache (s : State) {q i : Nat} (h : s.sliceScratch q i = false) (hs : s.mem.switching.contains (q * 64 + i) = false) :
    s.changeSlice q i true = s.startSwitch q i := by
  rw [State.changeSlice, if_neg (by simp [h]), if_pos rfl, if_neg (by simp only [hs]; decide)]
  rfl

/-- Slices asked for the mode they are in stay as they are. -/
theorem State.foldl_changeSlice_of_same {s : State} {q : Nat} {want : Nat → Bool} {l : List Nat} (h : ∀ j ∈ l, want j = s.sliceScratch q j) :
    l.foldl (fun s j => s.changeSlice q j (want j)) s = s := by
  induction l with
  | nil => rfl
  | cons j l ih =>
    rw [List.foldl_cons, s.changeSlice_of_same (h j List.mem_cons_self)]
    exact ih fun k hk => h k (List.mem_cons_of_mem _ hk)

/-- Of the slices of a Well, the one asked to leave the cache alone begins its switch. -/
theorem State.foldl_changeSlice_of_one {s : State} {q i : Nat} {want : Nat → Bool} {l : List Nat} (hl : l.Nodup) (hi : i ∈ l)
    (h : ∀ j ∈ l, want j = (s.sliceScratch q j || j == i)) (hc : s.sliceScratch q i = false)
    (hs : s.mem.switching.contains (q * 64 + i) = false) : l.foldl (fun s j => s.changeSlice q j (want j)) s = s.startSwitch q i := by
  obtain ⟨l₁, l₂, rfl⟩ := List.append_of_mem hi
  have hne : ∀ j ∈ l₁ ++ l₂, j ≠ i := fun j hj he => (List.nodup_middle.1 hl).notMem (he ▸ hj)
  have hothers : ∀ j ∈ l₁ ++ l₂, want j = s.sliceScratch q j := fun j hj => by
    rw [h j (by simp only [List.mem_append, List.mem_cons] at hj ⊢; tauto), beq_false_of_ne (hne j hj), Bool.or_false]
  have hwant : want i = true := by rw [h i hi, beq_self_eq_true, Bool.or_true]
  rw [List.foldl_append, State.foldl_changeSlice_of_same fun j hj => hothers j (List.mem_append_left _ hj), List.foldl_cons, hwant,
    s.changeSlice_of_cache hc hs, State.foldl_changeSlice_of_same fun j hj => ?_]
  rw [s.sliceScratch_startSwitch]
  exact hothers j (List.mem_append_right _ hj)

/-- A slice asked to leave the cache is being switched, and SLICE_STATUS tells it (R162). -/
theorem exec_sliceModeChange {s : State} {q : Fin 4} {hi : W32} {i : Fin 64} (hl : s.pageLive (pgWel q) = true)
    (hw : ∀ j, j < 64 → bitOf (s.staged (pgWel q) 0 0x040 + 2 ^ 32 * hi.toNat) j = (s.sliceScratch q j || j == i.val))
    (hc : s.sliceScratch q i = false) (hs : s.mem.switching.contains (q.val * 64 + i.val) = false) :
    exec (.sliceModeChange q hi) s = .next (s.startSwitch q i) := by
  change execSliceModeChange q hi s = _
  rw [execSliceModeChange, State.regWrite, if_pos hl]
  exact congrArg (fun t : State => (.next t : Out)) (State.foldl_changeSlice_of_one List.nodup_range (List.mem_range.2 i.isLt)
    (fun j hj => hw j (List.mem_range.1 hj)) hc hs)

/-! ## A slice that has left the cache -/

/-- A slice whose frames hold nothing becomes scratchpad, and with it the last switch under way ends (R162). -/
theorem exec_sliceSwitchComplete {s : State} {q : Fin 4} {i : Fin 64} (hb : s.booted = true) (hs : s.mem.switching = [q.val * 64 + i.val])
    (hf : (s.mem.frames.filter (fun e => e.1 / 64 == q.val * 64 + i.val && e.2.owner != 0)).isEmpty = true) :
    exec (.sliceSwitchComplete q i) s
      = .next (((s.setSwitching []).setScratch q i).setFld (pgWel q) F.wel_SLICE_STATUS_BUSY 0) := by
  change execSliceSwitchComplete q i s = _
  rw [execSliceSwitchComplete, s.gate_booted _ hb]
  simp only [hs, List.isEmpty_iff.1 hf, List.contains_cons, beq_self_eq_true, Bool.true_or, Bool.not_true, Bool.false_eq_true, if_false,
    List.map_nil, List.foldl_nil]
  have hnone : [q.val * 64 + i.val].filter (· != q.val * 64 + i.val) = [] := by simp
  rw [hnone]
  rfl

/-! ## Floors and the sump table -/

section
variable {s : State} {q : Fin 4} (units : W32) (hl : s.pageLive (pgTir q) = true) (hf : s.fld (pgTir q) F.tir_QUOTA_SEL_FUNC ≤ 64)
  (ht : s.fld (pgTir q) F.tir_QUOTA_SEL_TIER ≤ 1)
include hl hf ht

/-- A floor written for a function and a tier of a quadrant is taken if the floors fit in the tier, and refused otherwise (R181). -/
theorem exec_quotaFloorWrite :
    let fn := s.fld (pgTir q) F.tir_QUOTA_SEL_FUNC
    let tier := s.fld (pgTir q) F.tir_QUOTA_SEL_TIER
    exec (.quotaFloorWrite q units) s
      = .next (if s.tierTotal tier q < sumTo 65 (fun f => if f = fn then 0 else s.floorOf f tier q) + units.toNat
          then s.setFld (pgTir q) F.tir_QUOTA_STATUS_REFUSED 1
          else s.setFldB (pgTir q) (quotaBank fn tier) F.tir_QUOTA_FLOOR_UNITS units.toNat) := by
  intro fn tier
  change execQuotaFloorWrite q units s = _
  rw [execQuotaFloorWrite, State.regWrite, if_pos hl]
  dsimp only
  rw [if_neg (by omega), if_neg (by omega)]

end

/-- A count of chunks is taken unless it leaves out one in use (R183). -/
theorem exec_sumpChunksWrite {s : State} {v : W32} (hl : s.pageLive (pgTir 0) = true) (hv : v.toNat % 2 ^ 21 ≤ 0x100000) :
    exec (.sumpChunksWrite v) s = .next (if s.mem.sumpUse.any (fun e => decide (e.1 ≥ 32 * (v.toNat % 2 ^ 21))) then s
      else s.setFld (pgTir 0) F.tir_SUMP_CHUNKS_COUNT (v.toNat % 2 ^ 21)) := by
  change execSumpChunksWrite v s = _
  rw [execSumpChunksWrite, State.regWrite, if_pos hl]
  dsimp only
  rw [if_neg (Nat.not_lt.2 hv)]

/-- Settles O33: each event by its own equation, and what a switch of a slice leaves. -/
theorem tierEventsComplete : Obligations.TierEventsComplete := by
  unfold Obligations.TierEventsComplete
  refine ⟨fun s q pool hb he hlow => ⟨fun h4 => exec_eviction_pool hb he hlow (Nat.ne_of_lt h4), exec_eviction_sump hb he hlow,
    exec_eviction_scratchpad hb he⟩, fun s q hi i hl hw hc hs => ?_, fun s q i hb hs hf => ?_, fun s q units hl => ?_,
    fun s v hl hv => exec_sumpChunksWrite hl hv⟩
  · exact ⟨_, exec_sliceModeChange hl hw hc hs, rfl, State.fld_setFld_self _ _ (by decide) (by decide), s.startSwitch_sameMemory q i⟩
  · refine ⟨_, exec_sliceSwitchComplete hb hs hf, rfl, ?_, State.fld_setFld_self _ _ (by decide) (by decide), ?_⟩
    · rw [State.sliceScratch_setFld_status, State.sliceScratch_setScratch]
    · exact (s.setSwitching_sameMemory []).trans (((Quiet.refl _).setReg _ _ _ _).setFld _ _ _).sameMemory
  · intro fn tier others hfn ht
    have hexec := exec_quotaFloorWrite units hl hfn ht
    exact ⟨fun h => hexec.trans (by rw [if_neg (Nat.not_lt.2 h)]), fun h => hexec.trans (by rw [if_pos h])⟩

end Sys2Proof.Machine

/-! # Priming schedules -/

namespace Sys2Proof.Machine
open Sys2Proof

/-! ## Fields of a register in a window -/

theorem State.fldB_eq_get (s : State) (pg : Page) (b : Nat) (f : Fld) : s.fldB pg b f = f.get (s.reg pg b f.off).toNat := rfl

theorem State.setFldB_eq (s : State) (pg : Page) (b : Nat) (f : Fld) (v : Nat) :
    s.setFldB pg b f v = s.setReg pg b f.off (BitVec.ofNat 32 (f.put (s.reg pg b f.off).toNat v)) := rfl

theorem State.fldB_of_reg {s t : State} {pg : Page} {b : Nat} {f : Fld} (h : t.reg pg b f.off = s.reg pg b f.off) :
    t.fldB pg b f = s.fldB pg b f := by
  rw [State.fldB_eq_get, State.fldB_eq_get, h]

theorem State.fldB_setFldB_self (s : State) (pg : Page) (b : Nat) {f : Fld} {v : Nat} (hf : f.msb < 32) (hv : v < 2 ^ (f.msb + 1 - f.lsb)) :
    (s.setFldB pg b f v).fldB pg b f = v := by
  rw [State.fldB_eq_get, State.setFldB_eq, State.reg_setReg_self, Fld.get_toNat_ofNat hf, f.get_put_self _ hv]

theorem State.fldB_setFldB_apart (s : State) (pg : Page) (b : Nat) {f g : Fld} (v : Nat) (hg : g.msb < 32) (hoff : f.off = g.off) (h : f.Apart g) :
    (s.setFldB pg b f v).fldB pg b g = s.fldB pg b g := by
  rw [State.fldB_eq_get, State.fldB_eq_get, State.setFldB_eq, ← hoff, State.reg_setReg_self, Fld.get_toNat_ofNat hg, h.get_put]

/-- An error cause sets ERR_STATUS of its page, and at most the pending bits of an MSI-X page. -/
theorem State.reg_raise_of_off_ne (s : State) (pg pg' : Page) (c b : Nat) {o : Nat} (ho : o < 4096) (hne : o ≠ 0x010) (hm : o ≠ 0x800) :
    (s.raise pg' c).reg pg b o = s.reg pg b o := by
  rw [State.raise, State.reg_errEdge _ _ _ _ _ ho hm]
  refine s.reg_setReg_of_key_ne _ _ _ _ _ _ _ fun hkey => hne ?_
  simp only [regKey] at hkey
  omega

/-! ## Installation -/

/-- A tier manager's page shows a schedule installed for model `m`, and none refused. -/
def State.ShowsInstalled (s : State) (m q : Nat) : Prop :=
  s.fldB (pgTir q) m F.tir_MODEL_PRIME_INSTALLED = 1 ∧ s.fldB (pgTir q) m F.tir_MODEL_PRIME_SCHED_BAD = 0

/-- One tier manager's page tells of a schedule installed. -/
def State.markInstalled (s : State) (m q : Nat) : State :=
  (s.setFldB (pgTir q) m F.tir_MODEL_PRIME_INSTALLED 1).setFldB (pgTir q) m F.tir_MODEL_PRIME_SCHED_BAD 0

theorem State.markInstalled_shows (s : State) (m q : Nat) : (s.markInstalled m q).ShowsInstalled m q := by
  refine ⟨?_, State.fldB_setFldB_self _ _ _ (by decide) (by decide)⟩
  rw [State.markInstalled, State.fldB_setFldB_apart _ _ _ _ (by decide) (by decide) (by decide)]
  exact s.fldB_setFldB_self _ _ (by decide) (by decide)

/-- A page that shows a schedule installed shows it after another tier manager's page is marked. -/
theorem State.ShowsInstalled.mark {s : State} {m q : Nat} (h : s.ShowsInstalled m q) (p : Nat) : (s.markInstalled m p).ShowsInstalled m q := by
  obtain ⟨hinst, hbad⟩ := h
  by_cases hp : p = q
  · rw [hp]
    exact s.markInstalled_shows m q
  · have hkey : regKey (pgTir p) m 0x07c ≠ regKey (pgTir q) m 0x07c := by
      simp only [regKey, pgTir]
      omega
    have hreg : (s.markInstalled m p).reg (pgTir q) m 0x07c = s.reg (pgTir q) m 0x07c :=
      (State.reg_setReg_of_key_ne _ _ _ _ _ _ _ _ hkey).trans (s.reg_setReg_of_key_ne _ _ _ _ _ _ _ hkey)
    exact ⟨(State.fldB_of_reg hreg).trans hinst, (State.fldB_of_reg hreg).trans hbad⟩

/-- Every page that is marked shows the schedule. -/
theorem State.foldl_markInstalled_shows (s : State) (m : Nat) {l : List Nat} {q : Nat} (hq : q ∈ l) :
    (l.foldl (fun s q => s.markInstalled m q) s).ShowsInstalled m q := by
  obtain ⟨l₁, l₂, rfl⟩ := List.append_of_mem hq
  rw [List.foldl_append, List.foldl_cons]
  exact foldl_keeps (fun u : State => u.ShowsInstalled m q) _ (fun u p hu => hu.mark p) l₂ _ (State.markInstalled_shows _ m q)

theorem State.foldl_markInstalled_quiet (s : State) (m : Nat) (l : List Nat) : Quiet s (l.foldl (fun s q => s.markInstalled m q) s) :=
  foldl_keeps (Quiet s) _ (fun u _ hu => hu.trans ((u.setFldB_quiet _ _ _ _).trans (State.setFldB_quiet _ _ _ _ _))) l s (Quiet.refl s)

/-- The blocks that hold the memories are unchanged, and so are the engines. -/
structure SameStores (s t : State) : Prop where
  cis : t.cis = s.cis
  mem : t.mem = s.mem
  bkt : t.bkt = s.bkt
  pmp : t.pmp = s.pmp
  engs : t.engs = s.engs

theorem SameStores.of_quiet {s t : State} (h : Quiet s t) : SameStores s t := ⟨h.cis, h.mem, h.bkt, h.pmp, h.engs⟩

theorem SameStores.trans {s t u : State} (h : SameStores s t) (k : SameStores t u) : SameStores s u :=
  ⟨k.cis.trans h.cis, k.mem.trans h.mem, k.bkt.trans h.bkt, k.pmp.trans h.pmp, k.engs.trans h.engs⟩

theorem SameStores.sameMemory {s t : State} (h : SameStores s t) : SameMemory s t := .of_stores h.cis h.mem h.bkt h.pmp

theorem SameStores.sameStacks {s t : State} (h : SameStores s t) : SameStacks s t := ⟨h.cis, h.bkt⟩

theorem State.setModel_sameStores (s : State) (m : Nat) (x : Model) : SameStores s (s.setModel m x) := ⟨rfl, rfl, rfl, rfl, rfl⟩

/-- The state in which a tier manager reads the schedule whose address a write of MODEL_SCHED_HI completes. -/
def State.schedWritten (s : State) (q : Nat) (lo hi : W32) : State :=
  (s.setReg (pgTir q) (s.fld (pgTir q) F.tir_MODEL_SEL_MODEL) 0x080 lo).setReg (pgTir q) (s.fld (pgTir q) F.tir_MODEL_SEL_MODEL) 0x084 hi

theorem State.schedWritten_quiet (s : State) (q : Nat) (lo hi : W32) : Quiet s (s.schedWritten q lo hi) :=
  (s.setReg_quiet _ _ _ _).trans (State.setReg_quiet _ _ _ _ _)

theorem State.model_schedWritten (s : State) (q : Nat) (lo hi : W32) (m : Nat) : (s.schedWritten q lo hi).model m = s.model m := rfl

/-- A model's next schedule noted, and shown by every tier manager's page. -/
def State.installSched (s : State) (m : Nat) (c : Schedule) (md : ModelMeta) : State :=
  (List.range 4).foldl (fun s q => s.markInstalled m q)
    (s.setModel m { s.model m with next := some c, md := md, fit := (s.model m).quarantined && s.schedFit c })

/-- Sessions of a model whose schedule is installed are not unloaded. -/
def State.reloadSessions (s : State) (m : Nat) : State :=
  { s with sess := s.sess.map (fun e => if e.2.model = m then (e.1, { e.2 with unloaded := false }) else e) }

theorem State.installSched_quiet (s : State) (m : Nat) (c : Schedule) (md : ModelMeta) :
    Quiet (s.setModel m { s.model m with next := some c, md := md, fit := (s.model m).quarantined && s.schedFit c }) (s.installSched m c md) :=
  State.foldl_markInstalled_quiet _ m (List.range 4)

theorem State.installSched_sameStores (s : State) (m : Nat) (c : Schedule) (md : ModelMeta) : SameStores s (s.installSched m c md) :=
  (s.setModel_sameStores m _).trans (.of_quiet (s.installSched_quiet m c md))

theorem State.model_installSched (s : State) (m : Nat) (c : Schedule) (md : ModelMeta) :
    (s.installSched m c md).model m = { s.model m with next := some c, md := md, fit := (s.model m).quarantined && s.schedFit c } := by
  rw [State.model, (s.installSched_quiet m c md).ses]
  exact s.model_setModel_self m _

theorem State.installSched_shows (s : State) {m : Nat} (c : Schedule) (md : ModelMeta) (q : Fin 4) : (s.installSched m c md).ShowsInstalled m q := by
  unfold State.installSched
  exact State.foldl_markInstalled_shows _ m (List.mem_range.2 q.isLt)

theorem State.ShowsInstalled.reload {s : State} {m q : Nat} (h : s.ShowsInstalled m q) : (s.reloadSessions m).ShowsInstalled m q := h

theorem State.model_reloadSessions (s : State) (m : Nat) : (s.reloadSessions m).model = s.model := rfl

theorem State.reloadSessions_sameStores (s : State) (m : Nat) : SameStores s (s.reloadSessions m) := ⟨rfl, rfl, rfl, rfl, rfl⟩

section
variable {s : State} {q : Fin 4} {hi : W32} (md : ModelMeta) (hl : s.pageLive (pgTir q) = true)
include hl

/-- What a write of MODEL_SCHED_HI does turns on what the schedule reads as (R185). -/
theorem exec_scheduleInstall {m : Nat} {lo : W32} (hm : s.fld (pgTir q) F.tir_MODEL_SEL_MODEL = m)
    (hlo : SMap.get s.stage (resetWord (pgTir q) 0 0x080) (regKey (pgTir q) 0 0x080) = lo) :
    exec (.scheduleInstall q hi md) s = .next (((s.schedWritten q lo hi).readSchedule m (lo.toNat + 2 ^ 32 * hi.toNat)).elim
      (((s.schedWritten q lo hi).setFldB (pgTir q) m F.tir_MODEL_PRIME_SCHED_BAD 1).raise (pgTir q) 0)
      fun c => ((s.schedWritten q lo hi).installSched m c md).reloadSessions m) := by
  subst hm hlo
  change execScheduleInstall q hi md s = _
  rw [execScheduleInstall, State.regWrite, if_pos hl]
  unfold State.schedWritten
  dsimp only
  split
  · next h => rw [h, Option.elim_none]
  · next h =>
    rw [h, Option.elim_some, State.installSched, State.reloadSessions]
    rfl

/-- A schedule that reads well is installed for the model in MODEL_SEL, to be taken at its next sealing, and every tier manager's page
shows it (R185). -/
theorem scheduleInstall_installs {c : Schedule} :
    let m := s.fld (pgTir q) F.tir_MODEL_SEL_MODEL
    let lo := SMap.get s.stage (resetWord (pgTir q) 0 0x080) (regKey (pgTir q) 0 0x080)
    (s.schedWritten q lo hi).readSchedule m (lo.toNat + 2 ^ 32 * hi.toNat) = some c → ∃ t, exec (.scheduleInstall q hi md) s = .next t
      ∧ (t.model m).next = some c ∧ (t.model m).sched = (s.model m).sched ∧ (t.model m).md = md ∧ (∀ q' : Fin 4, t.ShowsInstalled m q')
      ∧ SameMemory s t ∧ SameStacks s t ∧ SamePumps s t ∧ SameEngines s t := by
  intro m lo hc
  rw [exec_scheduleInstall (m := m) (lo := lo) md hl rfl rfl, hc, Option.elim_some]
  have hstores := ((SameStores.of_quiet (s.schedWritten_quiet q lo hi)).trans (State.installSched_sameStores _ m c md)).trans
    (State.reloadSessions_sameStores _ m)
  refine ⟨_, rfl, ?_, ?_, ?_, fun q' => (State.installSched_shows _ c md q').reload, hstores.sameMemory, hstores.sameStacks, hstores.pmp, hstores.engs⟩
  · rw [State.model_reloadSessions, State.model_installSched]
  · rw [State.model_reloadSessions, State.model_installSched, State.model_schedWritten]
  · rw [State.model_reloadSessions, State.model_installSched]

/-- A schedule that does not is refused, and the models stay as they are (R185). -/
theorem scheduleInstall_refuses :
    let m := s.fld (pgTir q) F.tir_MODEL_SEL_MODEL
    let lo := SMap.get s.stage (resetWord (pgTir q) 0 0x080) (regKey (pgTir q) 0 0x080)
    (s.schedWritten q lo hi).readSchedule m (lo.toNat + 2 ^ 32 * hi.toNat) = none → ∃ t, exec (.scheduleInstall q hi md) s = .next t
      ∧ t.fldB (pgTir q) m F.tir_MODEL_PRIME_SCHED_BAD = 1 ∧ t.ses = s.ses ∧ SameMemory s t := by
  intro m lo hc
  rw [exec_scheduleInstall (m := m) (lo := lo) md hl rfl rfl, hc, Option.elim_none]
  have hq := ((s.schedWritten_quiet q lo hi).trans (State.setFldB_quiet _ (pgTir q) m F.tir_MODEL_PRIME_SCHED_BAD 1)).trans
    (State.raise_quiet _ (pgTir q) 0)
  refine ⟨_, rfl, ?_, hq.ses, hq.sameMemory⟩
  rw [State.fldB_of_reg (State.reg_raise_of_off_ne _ _ _ _ _ (by decide) (by decide) (by decide))]
  exact State.fldB_setFldB_self _ _ _ (by decide) (by decide)

end

/-! ## Staging -/

section
variable {s : State} {e : Fin 32} {m : Byte} {c : Schedule} {f : Nat} (hb : s.booted = true)
  (he : s.flag (pgTir (e.val / 8)) F.hdr_ENABLE = true) (hc : (s.model m.toNat).sched = some c) (hf : s.freePrime e = some f)
include hb he hc hf

/-- The next DENSE or ADAPTER tile within LEAD layers is staged, and the engine's place in the schedule moves on (R186). -/
theorem exec_primingStage_dense {l n o u : Nat} (hp : SMap.get (s.model m.toNat).prime (0, 0) e.val = (l, n))
    (ha : s.stageAhead m.toNat c.layers e ≤ s.fldB (pgTir (engQuad e)) m.toNat F.tir_MODEL_PRIME_LEAD)
    (ht : (c.dense l e (s.stageAdapters m.toNat c.layers e))[n]? = some (o, u)) :
    let s1 := s.stageTile e m.toNat l f o u
    exec (.primingStage e m none) s = .next (s1.setModel m.toNat
      { s1.model m.toNat with prime := SMap.set (s1.model m.toNat).prime (0, 0) e.val (l, n + 1) }) := by
  intro s1
  change execPrimingStage e m none s = _
  rw [execPrimingStage, s.gateOn_on _ _ hb he]
  simp only [hc, hf, hp]
  rw [if_neg (Nat.not_lt.2 ha)]
  simp only [ht]
  rfl

/-- A tile of an expert of the layer that runs is staged (R186). -/
theorem exec_primingStage_expert {x : W16} {t : Byte} {y : SchedEntry} (hr : s.stageRuns m.toNat = true)
    (hy : (c.at' (s.stageLayer m.toNat c.layers) e).find? (fun y => y.kind == 1 && y.sel == x.toNat && decide (t.toNat < y.tiles)) = some y) :
    exec (.primingStage e m (some (x, t))) s
      = .next (s.stageTile e m.toNat (s.stageLayer m.toNat c.layers) f (y.src / 2 ^ 32) (y.src / 65536 % 65536 + t.toNat)) := by
  change execPrimingStage e m (some (x, t)) s = _
  rw [execPrimingStage, s.gateOn_on _ _ hb he]
  simp only [hc, hf, hr, hy]
  rfl

end

/-- Settles O34: a schedule is installed or refused by what it reads as, and each form of staging has its own equation. -/
theorem primingCompletes : Obligations.PrimingCompletes := by
  unfold Obligations.PrimingCompletes
  refine ⟨fun s q hi md hl => ⟨fun c hc => scheduleInstall_installs md hl hc, fun hc => scheduleInstall_refuses md hl hc⟩,
    fun s e m c f hb he hc hf => ⟨fun o u ha ht => ?_, fun x t y hr hy => exec_primingStage_expert hb he hc hf hr hy⟩⟩
  refine ⟨_, exec_primingStage_dense hb he hc hf rfl ha ht, ?_, rfl⟩
  rw [State.model_setModel_self]
  exact SMap.get_set_self _ _ _ _

end Sys2Proof.Machine

/-! # Pumps, decoding tables and engine feeds -/

namespace Sys2Proof.Machine
open Sys2Proof

/-! ## A fetched descriptor -/

section
variable {s : State} {page : Nat} {src : DescSrc} {want : Nat → Bool} {k : DCtx → State → State} {c : DCtx} {opens : Bool}

/-- A well-formed descriptor that waits for nothing is taken, and its operation carries it out (R193). -/
theorem State.runPump_of_wellFormed (hf : s.fetchDesc page src = .desc c false opens) (hw : s.descWaits c = false)
    (hm : descMalformed page c.d = false) (hop : want c.d.op = true) : s.runPump page src want k = k c (s.takeDesc c opens) := by
  simp [State.runPump, hf, hw, hm, hop]

/-- A malformed descriptor is taken and ends MALFORMED, its operation not begun (R190). -/
theorem State.runPump_of_malformed (hf : s.fetchDesc page src = .desc c false opens) (hw : s.descWaits c = false)
    (hm : descMalformed page c.d = true) (hop : want c.d.op = true) :
    s.runPump page src want k = (s.takeDesc c opens).endDesc c { status := 3 } := by
  simp [State.runPump, hf, hw, hm, hop]

/-- A descriptor of a chain that has failed is taken and ends SKIPPED (R198). -/
theorem State.runPump_of_skipped (hf : s.fetchDesc page src = .desc c true opens) (hop : want c.d.op = true) :
    s.runPump page src want k = (s.takeDesc c opens).endDesc c { status := 9 } := by
  simp [State.runPump, hf, hop]

/-- A queue whose descriptor cannot be read stops. -/
theorem State.runPump_of_stop {q : Fin 4} {r : Nat} (hf : s.fetchDesc page (.queue q) = .stop r) :
    s.runPump page (.queue q) want k = s.stopQueue page q r := by
  simp [State.runPump, hf]

end

/-! ## The pump commands -/

theorem exec_pumpCopy {s : State} (page : Fin 10) (src : DescSrc) (host : Option (List Byte)) (hb : s.booted = true) :
    exec (.pumpCopy page src host) s = .next (s.pumpCopy page src host).remoteFailures := by
  change execPumpCopy page src host s = _
  rw [execPumpCopy, s.gate_booted _ hb]

theorem exec_pumpAdder {s : State} (page : Fin 10) (src : DescSrc) (host : Option (List Byte)) (hb : s.booted = true) :
    exec (.pumpAdder page src host) s = .next (s.pumpAdder page src host).remoteFailures := by
  change execPumpAdder page src host s = _
  rw [execPumpAdder, s.gate_booted _ hb]

/-- Every pump command fetches a descriptor of its own operation. -/
theorem exec_pumpCommands {s : State} (page : Fin 10) (src : DescSrc) (host : Option (List Byte)) (hb : s.booted = true) :
    ∀ p ∈ pumpCommands page src host, ∃ want k, want p.2 = true ∧ exec p.1 s = .next (afterPump p.2 (s.runPump page src want k)) := by
  simp only [pumpCommands, List.forall_mem_cons, List.not_mem_nil, false_imp_iff, implies_true, and_true, afterPump, Nat.reduceEqDiff,
    OfNat.ofNat_ne_one, or_self, or_true, true_or, if_true, if_false]
  exact ⟨⟨fun op => op == 0 || op ≥ 7, _, rfl, rfl⟩, ⟨(· == 1), _, rfl, exec_pumpCopy page src host hb⟩, ⟨(· == 2), _, rfl, rfl⟩,
    ⟨(· == 3), _, rfl, exec_pumpAdder page src host hb⟩, ⟨(· == 4), _, rfl, rfl⟩, ⟨(· == 5), _, rfl, rfl⟩, ⟨(· == 6), _, rfl, rfl⟩⟩

section
variable {s : State} {page : Fin 10} {src : DescSrc} {host : Option (List Byte)} {c : DCtx} {opens : Bool} (hb : s.booted = true)
  (hf : s.fetchDesc page src = .desc c false opens) (hw : s.descWaits c = false) (hm : descMalformed page c.d = false)
include hb hf hw hm

theorem exec_pumpCopy_of_local (hop : c.d.op = 1) (hs : c.d.sspace ≠ 3) (hd : c.d.dspace ≠ 3) :
    let r := ((s.takeDesc c opens).askHost c c.d.len).copyDesc c host
    exec (.pumpCopy page src host) s = .next (r.2.endDesc c r.1).remoteFailures := by
  rw [exec_pumpCopy page src host hb, State.pumpCopy, State.runPump_of_wellFormed hf hw hm (by simp [hop])]
  simp [hs, hd, State.endWith]

/-- A COPY from or to a peer's memory sends its requests (R445). -/
theorem exec_pumpCopy_of_peer (hop : c.d.op = 1) (h : c.d.sspace = 3 ∨ c.d.dspace = 3) :
    exec (.pumpCopy page src host) s = .next ((s.takeDesc c opens).startPeer c).remoteFailures := by
  rw [exec_pumpCopy page src host hb, State.pumpCopy, State.runPump_of_wellFormed hf hw hm (by simp [hop])]
  simp [h]

theorem exec_pumpAdder_of_wellFormed (hop : c.d.op = 3) :
    let s1 := s.takeDesc c opens
    let r := (s1.askHost c c.d.len).adderDesc c host
    exec (.pumpAdder page src host) s = .next (if c.d.dspace = 3 then s1.startPeer c else r.2.endDesc c r.1).remoteFailures := by
  rw [exec_pumpAdder page src host hb, State.pumpAdder, State.runPump_of_wellFormed hf hw hm (by simp [hop])]
  rfl

end

/-- Settles O35: what a command makes of the descriptor that it fetches, and each operation on a well-formed one. -/
theorem pumpOperationsComplete : Obligations.PumpOperationsComplete := by
  unfold Obligations.PumpOperationsComplete
  intro s page src host hb
  refine ⟨fun c opens hf hw => ⟨fun hm => ?_, fun hm p hp hop => ?_⟩, fun c opens hf p hp hop => ?_, fun q r hq hf p hp => ?_⟩
  · have hrun {want : Nat → Bool} (k : DCtx → State → State) (hop : want c.d.op = true) :
        (.next (s.runPump page src want k) : Out) = .next (k c (s.takeDesc c opens)) :=
      congrArg _ (State.runPump_of_wellFormed hf hw hm hop)
    exact ⟨fun hop => hrun _ (by simp [hop]), exec_pumpCopy_of_local hb hf hw hm, exec_pumpCopy_of_peer hb hf hw hm,
      fun hop => hrun _ (by simp [hop]), exec_pumpAdder_of_wellFormed hb hf hw hm, fun hop => hrun _ (by simp [hop]),
      fun hop => hrun _ (by simp [hop]), fun hop => hrun _ (by simp [hop])⟩
  · obtain ⟨want, k, hwant, he⟩ := exec_pumpCommands page src host hb p hp
    rw [he, State.runPump_of_malformed hf hw hm (hop ▸ hwant)]
  · obtain ⟨want, k, hwant, he⟩ := exec_pumpCommands page src host hb p hp
    rw [he, State.runPump_of_skipped hf (hop ▸ hwant)]
  · obtain ⟨want, k, -, he⟩ := exec_pumpCommands page src host hb p hp
    subst hq
    rw [he, State.runPump_of_stop hf]

/-! ## The registers of a pump queue -/

section
variable {s : State} {page : Fin 10} (v : W32) (hl : s.pageLive (pgPmp page) = true)
include hl

theorem exec_pumpSqDoorbell (hv : v.toNat % 4096 < s.ringSize page (s.fld (pgPmp page) F.pmp_SQ_SEL_QUEUE)) :
    exec (.pumpSqDoorbell page v) s
      = .next (s.setFldB (pgPmp page) (s.fld (pgPmp page) F.pmp_SQ_SEL_QUEUE) F.pmp_SQ_TAIL_INDEX (v.toNat % 4096)) := by
  change execPumpSqDoorbell page v s = _
  simp only [execPumpSqDoorbell, State.regWrite, if_pos hl, if_neg (Nat.not_le.2 hv)]

theorem exec_pumpQueueResume (hv : bitOf v.toNat 0 = true) :
    let q := s.fld (pgPmp page) F.pmp_SQ_SEL_QUEUE
    exec (.pumpQueueResume page v) s
      = .next ((s.setFldB (pgPmp page) q F.pmp_SQ_STATUS_STOPPED 0).setFldB (pgPmp page) q F.pmp_SQ_STATUS_REASON 0) := by
  change execPumpQueueResume page v s = _
  simp only [execPumpQueueResume, State.regWrite, if_pos hl, if_pos hv]

end

/-- A field of another register keeps its value. -/
theorem State.fldB_setFldB_of_off_ne (s : State) (pg : Page) (b : Nat) {f g : Fld} (v : Nat) (h : f.off ≠ g.off) :
    (s.setFldB pg b f v).fldB pg b g = s.fldB pg b g :=
  State.fldB_of_reg (s.reg_setReg_of_off_ne pg b _ h)

/-! ## Decoding tables -/

/-- From `s` to `t` no decoding table but slot `i` has changed, and no byte of a memory. -/
structure SlotOnly (i : Nat) (s t : State) : Prop where
  others : ∀ j, j ≠ i → t.tbl j = s.tbl j
  memory : SameMemory s t

theorem SlotOnly.trans {i : Nat} {s t u : State} (h : SlotOnly i s t) (k : SlotOnly i t u) : SlotOnly i s u :=
  ⟨fun j hj => (k.others j hj).trans (h.others j hj), h.memory.trans k.memory⟩

theorem State.setTbl_slotOnly (s : State) (i : Nat) (x : TblSlot) : SlotOnly i s (s.setTbl i x) :=
  ⟨fun j hj => by rw [s.tbl_setTbl, if_neg (Ne.symm hj)], fun sp a => by cases sp <;> rfl⟩

/-- The descriptors in flight are no part of a table or of a memory. -/
theorem State.setFlying_slotOnly (s : State) (i : Nat) (l : List Flying) : SlotOnly i s { s with pmp := { s.pmp with flying := l } } :=
  ⟨fun _ _ => rfl, fun sp a => by cases sp <;> rfl⟩

theorem State.tblRef_slotOnly (s : State) (i gen : Nat) (take : Bool) : SlotOnly i s (s.tblRef i gen take) := s.setTbl_slotOnly i _

/-- A slot whose current generation has number `num` and contents `data`, and for which no write is held. -/
structure TblSlot.Holds (x : TblSlot) (num : Nat) (data : List Byte) : Prop where
  num : x.cur.num = num
  data : x.cur.data = data
  held : x.held = none

theorem TblSlot.promote_holds (x : TblSlot) (data : List Byte) : (x.promote data).Holds (nextGen x.cur.num) data := ⟨rfl, rfl, rfl⟩

/-- A reference on a generation leaves its number and its contents (R199). -/
theorem State.tblRef_holds {s : State} {i num : Nat} {data : List Byte} (h : (s.tbl i).Holds num data) (gen : Nat) (take : Bool) :
    ((s.tblRef i gen take).tbl i).Holds num data := by
  obtain ⟨hnum, hdata, hheld⟩ := h
  rw [State.tblRef, State.tbl_setTbl_self]
  refine ⟨?_, ?_, hheld⟩
  · rw [← hnum]
    exact (apply_ite TblGen.num ..).trans (ite_self _)
  · rw [← hdata]
    exact (apply_ite TblGen.data ..).trans (ite_self _)

/-- A write of a slot without a retiring generation becomes current at once (R207). -/
theorem State.tableWrite_of_free {s : State} {i : Nat} (data : List Byte) (id : Nat) (h : (s.tbl i).ret.num = 0) :
    s.tableWrite i data id = (nextGen (s.tbl i).cur.num, s.setTbl i ((s.tbl i).promote data)) := by
  simp only [State.tableWrite, if_pos h]
  rfl

section
variable {s : State} {v : W32} (hl : s.pageLive (pgCmp 0) = true) (hv : bitOf v.toNat 0 = true)
include hl hv

theorem exec_tableCommit_of_free (he : leAt s.tblStaged 0 1 < 5) (hr : (s.tbl (s.fld (pgCmp 0) F.cmp_TBL_SEL_SLOT)).ret.num = 0) :
    let i := s.fld (pgCmp 0) F.cmp_TBL_SEL_SLOT
    exec (.tableCommit v) s = .next (s.setTbl i ((s.tbl i).promote s.tblStaged)) := by
  change execTableCommit v s = _
  simp [execTableCommit, State.regWrite, hl, hv, Nat.not_le.2 he, State.tableWrite_of_free _ _ hr]

/-- Staged contents with a reserved ELEM are refused (R206). -/
theorem exec_tableCommit_of_badElem (he : 5 ≤ leAt s.tblStaged 0 1) : exec (.tableCommit v) s = .next (s.raise (pgCmp 0) 3) := by
  change execTableCommit v s = _
  simp [execTableCommit, State.regWrite, hl, hv, he]

end

/-- The descriptor whose first pass made the write that a slot holds (R209). -/
def TblSlot.heldOf (x : TblSlot) (f : Flying) : Bool := x.heldBy != 0 && f.id == x.heldBy

/-- A held write becomes current in place of a retiring generation that has drained, and its descriptor waits no longer (R207, R209). -/
def State.promoteHeld (s : State) (i : Nat) (data : List Byte) : State :=
  let x := s.tbl i
  let s1 := s.setTbl i (TblSlot.promote { x with ret := {} } data)
  { s1 with pmp := { s1.pmp with flying := s1.pmp.flying.map (fun f =>
    if x.heldOf f then { f with waits := none, table := some (i, nextGen x.cur.num) } else f) } }

theorem State.promoteHeld_slotOnly (s : State) (i : Nat) (data : List Byte) : SlotOnly i s (s.promoteHeld i data) :=
  (s.setTbl_slotOnly i _).trans (State.setFlying_slotOnly _ i _)

theorem State.promoteHeld_holds (s : State) (i : Nat) (data : List Byte) :
    ((s.promoteHeld i data).tbl i).Holds (nextGen (s.tbl i).cur.num) data := by
  have h : (s.promoteHeld i data).tbl i = TblSlot.promote { s.tbl i with ret := {} } data := s.tbl_setTbl_self i _
  rw [h]
  exact TblSlot.promote_holds { s.tbl i with ret := {} } data

section
variable {s : State} {i : Fin 16} (hb : s.booted = true) (hn : (s.tbl i).ret.num ≠ 0) (hr : (s.tbl i).ret.refs = 0)
include hb hn hr

theorem exec_tableGenerationDrain_of_none (hh : (s.tbl i).held = none) :
    exec (.tableGenerationDrain i) s = .next (s.setTbl i { s.tbl i with ret := {} }) := by
  change execTableGenerationDrain i s = _
  rw [execTableGenerationDrain, s.gate_booted _ hb]
  simp [hn, hr, hh]

theorem exec_tableGenerationDrain_of_held {data : List Byte} (hh : (s.tbl i).held = some data) :
    let t := s.promoteHeld i data
    exec (.tableGenerationDrain i) s
      = .next (if s.pmp.flying.any (s.tbl i).heldOf then t.tblRef i (nextGen (s.tbl i).cur.num) true else t) := by
  change execTableGenerationDrain i s = _
  rw [execTableGenerationDrain, s.gate_booted _ hb]
  simp only [hn, hr, hh, ne_eq, not_true_eq_false, or_self, if_false]
  rfl

/-- A drained retiring generation is freed, and a held write becomes current; the other slots and the memories stay. -/
theorem tableGenerationDrain_completes :
    ∃ t, exec (.tableGenerationDrain i) s = .next t ∧ SlotOnly i s t
      ∧ ((s.tbl i).held = none → (t.tbl i).ret = {} ∧ (t.tbl i).cur = (s.tbl i).cur)
      ∧ ∀ data, (s.tbl i).held = some data → (t.tbl i).Holds (nextGen (s.tbl i).cur.num) data := by
  cases hh : (s.tbl i).held with
  | none =>
    refine ⟨_, exec_tableGenerationDrain_of_none hb hn hr hh, s.setTbl_slotOnly i _, fun _ => ?_, fun _ h => nomatch h⟩
    rw [State.tbl_setTbl_self]
    exact ⟨rfl, rfl⟩
  | some data =>
    refine ⟨_, exec_tableGenerationDrain_of_held hb hn hr hh, ?_, fun h => (nomatch h), fun data' h => ?_⟩
    · split
      · exact (s.promoteHeld_slotOnly i data).trans (State.tblRef_slotOnly _ _ _ _)
      · exact s.promoteHeld_slotOnly i data
    · cases h
      split
      · exact State.tblRef_holds (s.promoteHeld_holds i data) _ _
      · exact s.promoteHeld_holds i data

end

section
variable {s : State} {id : Nat} {f : Flying} (hb : s.booted = true) (hf : s.pmp.flying.find? (fun f => f.id == id) = some f)
include hb hf

/-- A COMPRESS whose held contents were replaced completes TBL_STALE (R209). -/
theorem exec_compressSecondPass_of_stale (hs : f.stale = true) :
    exec (.compressSecondPass id) s = .next (s.endFlying f { status := 5 }) := by
  change execCompressSecondPass id s = _
  rw [execCompressSecondPass, s.gate_booted _ hb]
  simp [hf, hs]

theorem exec_compressSecondPass_of_current {slot gen : Nat} (hs : f.stale = false) (ht : f.table = some (slot, gen)) (hw : f.waits = none) :
    let d := descOf f.desc
    let r := s.packDesc f.ctx (f.data.take d.len) (f.data.drop d.len) (s.tblData slot gen) gen
    exec (.compressSecondPass id) s = .next (r.2.endFlying f r.1) := by
  change execCompressSecondPass id s = _
  rw [execCompressSecondPass, s.gate_booted _ hb]
  simp [hf, hs, ht, hw]

end

/-- Settles O37: each command by its own equation; a table's contents by what a promoted slot holds. -/
theorem tablesComplete : Obligations.TablesComplete := by
  unfold Obligations.TablesComplete
  refine ⟨fun s page v hl => ⟨fun hv => ?_, fun hv => ?_⟩, fun s v hl hv => ⟨fun he hr => ?_, exec_tableCommit_of_badElem hl hv⟩,
    fun s i hb hn hr => ?_, fun s id f hb hf => ⟨exec_compressSecondPass_of_stale hb hf, fun _ _ => exec_compressSecondPass_of_current hb hf⟩⟩
  · have hq := s.setFldB_quiet (pgPmp page) (s.fld (pgPmp page) F.pmp_SQ_SEL_QUEUE) F.pmp_SQ_TAIL_INDEX (v.toNat % 4096)
    exact ⟨_, exec_pumpSqDoorbell v hl hv, State.fldB_setFldB_self _ _ _ (by decide) (Nat.mod_lt _ (by decide)), hq.sameMemory, hq.pmp, hq.cis⟩
  · have hq := (s.setFldB_quiet (pgPmp page) (s.fld (pgPmp page) F.pmp_SQ_SEL_QUEUE) F.pmp_SQ_STATUS_STOPPED 0).trans
      (State.setFldB_quiet _ (pgPmp page) (s.fld (pgPmp page) F.pmp_SQ_SEL_QUEUE) F.pmp_SQ_STATUS_REASON 0)
    refine ⟨_, exec_pumpQueueResume v hl hv, ?_, ?_, hq.sameMemory, hq.pmp, hq.cis⟩
    · rw [State.fldB_setFldB_apart _ _ _ _ (by decide) (by decide) (by decide), State.fldB_setFldB_self _ _ _ (by decide) (by decide)]
    · rw [State.fldB_setFldB_of_off_ne _ _ _ _ (by decide), State.fldB_setFldB_of_off_ne _ _ _ _ (by decide)]
  · have ho := s.setTbl_slotOnly (s.fld (pgCmp 0) F.cmp_TBL_SEL_SLOT) ((s.tbl (s.fld (pgCmp 0) F.cmp_TBL_SEL_SLOT)).promote s.tblStaged)
    refine ⟨_, exec_tableCommit_of_free hl hv he hr, ?_, ?_, ho.others, ho.memory⟩ <;> rw [State.tbl_setTbl_self]
    · exact (TblSlot.promote_holds _ _).data
    · exact (TblSlot.promote_holds _ _).num
  · obtain ⟨t, he, ho, hnone, hsome⟩ := tableGenerationDrain_completes hb hn hr
    exact ⟨t, he, ho.others, ho.memory, hnone, fun data hd => ⟨(hsome data hd).data, (hsome data hd).num, (hsome data hd).held⟩⟩

/-! ## The feed of an engine -/

theorem exec_feedExpand {s : State} {e : Fin 32} {g : Staged} {fn oi u : Nat} (hg : (s.eng e).nextPacked = some g)
    (hr : (s.eng e).smooth.length < (s.eng e).smoothRoom) (hs : g.src = .object fn oi u) (hb : g.bad = 0)
    (hp : s.planeWaits e (s.obj fn oi) = false) : exec (.feedExpand e) s = .next (s.expandStaged e g fn oi u) := by
  change execFeedExpand e s = _
  simp [execFeedExpand, hg, Nat.not_le.2 hr, hs, hb, hp]

theorem State.setEng_sameMemory (s : State) (e : Nat) (x : Eng) : SameMemory s (s.setEng e x) := .of_stores rfl rfl rfl rfl

/-- A free latch buffer is one of the two. -/
theorem Eng.freeLatch_lt {x : Eng} {b : Nat} (h : x.freeLatch = some b) (hc : x.cur < 2) : b < 2 := by
  unfold Eng.freeLatch at h
  split at h
  · cases h; exact hc
  · split at h
    · cases h; omega
    · cases h

/-- Binding a plane leaves the latch. -/
@[simp] theorem Eng.bindPlane_latch (x : Eng) (t : LatchTile) : (x.bindPlane t).1.latch = x.latch := by
  unfold Eng.bindPlane; dsimp only; split <;> rfl

/-- Binding a plane leaves the accumulators. -/
@[simp] theorem Eng.bindPlane_acc (x : Eng) (t : LatchTile) : (x.bindPlane t).1.acc = x.acc := by
  unfold Eng.bindPlane; dsimp only; split <;> rfl

/-- Binding a plane leaves the bytes of the tile. -/
@[simp] theorem Eng.bindPlane_data (x : Eng) (t : LatchTile) : (x.bindPlane t).2.data = t.data := by
  unfold Eng.bindPlane; dsimp only; split <;> rfl

/-- Where no frame leaves the engine, it stays as it is. -/
theorem State.freeStaged_nil (s : State) (e : Nat) : s.freeStaged e [] = s.setEng e (s.eng e) := by
  simp [State.freeStaged]

/-- The engine once the tile of a FEED at the head of its feed queue is latched in buffer `b`. -/
def Eng.latchFrame (x : Eng) (b : Nat) (f : FeedEntry) (fs : List FeedEntry) (data : List Byte) : Eng :=
  let z := x.bindPlane { data := data, src := .frame f.addr, y := f.y }
  { z.1.fill b z.2 with feed := fs }

theorem Eng.latchFrame_data {x : Eng} {b : Nat} (f : FeedEntry) (fs : List FeedEntry) (data : List Byte) (hb : b < x.latch.length) :
    ((x.latchFrame b f fs data).latch.getD b none).map (fun t => t.data) = some data := by
  simp [Eng.latchFrame, Eng.fill, hb]

theorem Eng.latchFrame_acc (x : Eng) (b : Nat) (f : FeedEntry) (fs : List FeedEntry) (data : List Byte) :
    (x.latchFrame b f fs data).acc = x.acc := x.bindPlane_acc _

section
variable {s : State} {e : Fin 32} {f : FeedEntry} {fs : List FeedEntry} {b : Nat} (hfeed : (s.eng e).feed = f :: fs) (hp : f.prime = false)
  (hue : s.storeUe e f.addr (if f.wide then 131072 else 65536) = false)
include hfeed hp hue

theorem exec_latchFill_feed (hs : f.scale = false) (hb : (s.eng e).freeLatch = some b) :
    exec (.latchFill e) s = .next ((s.setEng e ((s.eng e).latchFrame b f fs
      (bytesOf (s.storeRead e f.addr (if f.wide then 131072 else 65536))))).freeStaged e []) := by
  change execLatchFill e s = _
  simp [execLatchFill, hfeed, hp, hue, hs, hb, Eng.latchFrame]

theorem exec_latchFill_scale (hs : f.scale = true) (hb : (s.eng e).freeScale = some b) :
    exec (.latchFill e) s = .next ((s.setEng e { (s.eng e).loadScale b
      (bytesOf (s.storeRead e f.addr (if f.wide then 131072 else 65536))) with feed := fs }).freeStaged e []) := by
  change execLatchFill e s = _
  simp [execLatchFill, hfeed, hp, hue, hs, hb]

end

/-! ## Branch words -/

theorem exec_branchWord {s : State} {e : Fin 32} {y : Bool} (hs : (s.ctx e y).started = true) (hw : (s.ctx e y).waitBranch = true)
    (ht : s.testOwn e = false) :
    let r := s.keeperBranch e (s.ctx e y)
    exec (.branchWord e y) s = .next ((if r.2 then s.raise (pgKpr (engQuad e)) 0 else s).takeBranch e y r.1) := by
  change execBranchWord e y s = _
  simp only [execBranchWord, hs, hw, ht, Bool.not_true, Bool.or_self, Bool.false_eq_true, if_false]

section
variable {s : State} {e : Fin 32} (v : W32) (hl : s.pageLive (pgVxe e) = true) (ht : s.testOwn e = true)
include hl ht

theorem exec_branchCmd_g (hs : (s.ctx e false).started = true) (hw : (s.ctx e false).waitBranch = true) :
    exec (.branchCmd e v) s = .next (s.takeBranch e false v) := by
  change execBranchCmd e v s = _
  simp [execBranchCmd, State.regWrite, hl, ht, hs, hw]

theorem exec_branchCmd_y (hg : (s.ctx e false).started = false) (hs : (s.ctx e true).started = true)
    (hw : (s.ctx e true).waitBranch = true) : exec (.branchCmd e v) s = .next (s.takeBranch e true v) := by
  change execBranchCmd e v s = _
  simp [execBranchCmd, State.regWrite, hl, ht, hg, hs, hw]

end

/-- The sequencer goes on at an address of the program store. -/
theorem State.goTo_pc (s : State) (e : Nat) (y : Bool) {pc : Nat} (h : pc < 16384) : ((s.goTo e y pc).ctx e y).pc = pc := by
  simp only [State.goTo, if_neg (Nat.not_le.2 h), State.ctx_setCtx_self]

section
variable (s : State) (e : Nat) {v : W32} (h15 : bitOf v.toNat 15 = false)
include h15

/-- A branch word that is taken gives context G its address (R268). -/
theorem State.takeBranch_taken (h14 : bitOf v.toNat 14 = true) : ((s.takeBranch e false v).ctx e false).pc = bitsOf v.toNat 13 0 := by
  simp only [State.takeBranch, h15, h14, if_true, Bool.false_eq_true, if_false]
  exact State.goTo_pc _ e false (bitsOf_lt _ 13 0)

/-- A branch word that is not taken lets context G go on at the next address (R268). -/
theorem State.takeBranch_not_taken (h14 : bitOf v.toNat 14 = false) (hpc : (s.ctx e false).pc + 1 < 16384) :
    ((s.takeBranch e false v).ctx e false).pc = (s.ctx e false).pc + 1 := by
  simp only [State.takeBranch, h15, h14, Bool.false_eq_true, if_false]
  exact State.goTo_pc _ e false hpc

end

/-! ## Yields -/

/-- Context Y of engine `e` from `s` to `t`, as a yield or a resumption leaves it: its program's place and its registers are kept, Y_STATUS and the
engine's state show the change, and no byte of a memory changes. -/
structure YieldStep (s t : State) (e : Nat) (yielded : Bool) (engine status : Nat) : Prop where
  yielded : (t.ctx e true).yielded = yielded
  pc : (t.ctx e true).pc = (s.ctx e true).pc
  v : (t.ctx e true).v = (s.ctx e true).v
  engine : t.engState e = engine
  status : t.fld (pgVxe e) F.vxe_Y_STATUS_STATE = status
  memory : SameMemory s t

/-- Context Y is set, and the engine's state and Y_STATUS with it. -/
def State.setY (s : State) (e : Nat) (c : ProgCtx) (engine status : Nat) : State :=
  ((s.setCtx e true c).setEngState e engine).setFld (pgVxe e) F.vxe_Y_STATUS_STATE status

theorem State.setY_yieldStep {s u : State} {e engine status : Nat} {c : ProgCtx} (he : e < 256) (hen : engine < 16) (hst : status < 4)
    (hpc : c.pc = (s.ctx e true).pc) (hv : c.v = (s.ctx e true).v) (hm : SameMemory s u) :
    YieldStep s (u.setY e c engine status) e c.yielded engine status := by
  have hctx : (u.setY e c engine status).ctx e true = c := by
    rw [State.setY, State.ctx_setFld, State.ctx_setEngState, State.ctx_setCtx_self]
  refine ⟨congrArg _ hctx, (congrArg ProgCtx.pc hctx).trans hpc, (congrArg ProgCtx.v hctx).trans hv, ?_,
    State.fld_setFld_self _ _ (by decide) hst, hm.trans (.of_stores rfl rfl rfl rfl)⟩
  rw [State.setY, State.engState_setFld_vxe he _ _ _ (by decide), State.engState_setEngState he _ hen]

/-- Y_STATUS may show the program's place besides, and the page may count an event. -/
theorem YieldStep.showPlace {s t : State} {e engine status : Nat} {yielded : Bool} (h : YieldStep s t e yielded engine status)
    (he : e < 256) (pc : Nat) :
    YieldStep s ((t.setFld (pgVxe e) F.vxe_Y_STATUS_PC pc).event (pgVxe e)) e yielded engine status := by
  have hq := (t.setFld_quiet (pgVxe e) F.vxe_Y_STATUS_PC pc).trans (State.event_quiet _ (pgVxe e))
  refine ⟨h.yielded, h.pc, h.v, ?_, ?_, h.memory.trans hq.sameMemory⟩
  · rw [State.event, State.bump_eq_setFld, State.engState_setFld_vxe he _ _ _ (by decide), State.engState_setFld_vxe he _ _ _ (by decide), h.engine]
  · rw [State.event, State.bump_eq_setFld, State.fld_setFld_other _ _ _ (by decide) (by decide),
      State.fld_setFld_other _ _ _ (by decide) (by decide), h.status]

section
variable {s : State} {e : Fin 32} (hs : (s.ctx e true).started = true)
include hs

/-- A Y program yields at an instruction boundary; `x` is the engine without the program's tiles (R239, R293). -/
theorem exec_yProgramYield (hy : (s.ctx e true).yielded = false) (hr : s.engState e = eRunning) (hg : (s.ctx e false).started = false) :
    ∃ x c, c.yielded = true ∧ c.pc = (s.ctx e true).pc ∧ c.v = (s.ctx e true).v ∧ exec (.yProgramYield e none) s
      = .next ((((s.setEng e x).setY e c eReady 2).setFld (pgVxe e) F.vxe_Y_STATUS_PC c.pc).event (pgVxe e)) := by
  refine ⟨?x, ?c, ?yielded, ?pc, ?v, ?run⟩
  case run =>
    change execYProgramYield e none s = _
    simp only [execYProgramYield, hs, hy, hr, hg, Bool.not_true, Bool.or_self, bne_self_eq_false, Bool.false_eq_true, if_false]
    rfl
  all_goals rfl

/-- A Y program resumes; `u` is the state in which its tiles are fed again (R279, R293). -/
theorem exec_yProgramResume (hy : (s.ctx e true).yielded = true) (hr : s.engState e = eReady) :
    ∃ u c, SameMemory s u ∧ c.yielded = false ∧ c.pc = (s.ctx e true).pc ∧ c.v = (s.ctx e true).v
      ∧ exec (.yProgramResume e) s = .next (u.setY e c eRunning 1) := by
  change ∃ u c, _ ∧ _ ∧ _ ∧ _ ∧ execYProgramResume e s = _
  generalize ht : execYProgramResume e s = t
  unfold execYProgramResume at ht
  extract_lets y g u c at ht
  rw [if_neg (by simp [y, hs, hy, hr])] at ht
  have hfed : ∀ x : Eng, x.y = (s.eng e).y → SameMemory s (s.setEng e x) ∧ (s.setEng e x).ctx e true = s.ctx e true := fun x hx =>
    ⟨s.setEng_sameMemory e x, by simpa [State.ctx] using hx⟩
  have hu : SameMemory s u ∧ u.ctx e true = s.ctx e true := by
    unfold u
    split
    · exact ⟨SameMemory.refl s, rfl⟩
    · split
      · exact hfed _ rfl
      · exact hfed _ rfl
  obtain ⟨hm, hctx⟩ := hu
  exact ⟨u, { c with yielded := false, claimed := false, saved := none }, hm, rfl, congrArg (·.pc) hctx, congrArg (·.v) hctx, ht.symm⟩

end

/-! ## Counters -/

/-- The counters of an engine in use are added to (R301). -/
theorem exec_keeperCounterAdd {s : State} {e : Fin 32} (k : Fin 16) (v : W16) (ho : s.engState e ≠ eOffline) (hr : s.engState e ≠ eInReset) :
    exec (.keeperCounterAdd e k v) s = .next (s.setCtx e false
      { s.ctx e false with sc := SMap.upd (s.ctx e false).sc 0 k (fun n => satAdd 0xFFFF n v.toNat) }) := by
  change execKeeperCounterAdd e k v s = _
  simp only [execKeeperCounterAdd, State.addCtr, ho, hr, or_self, if_false]

theorem State.ctx_setCtx_not (s : State) (e : Nat) (y : Bool) (c : ProgCtx) : (s.setCtx e y c).ctx e (!y) = s.ctx e (!y) := by
  cases y <;> simp [State.ctx, State.setCtx]

/-- Settles O42: each command by its own equation, and what it leaves of the engine and of a context. -/
theorem feedAndBranchesComplete : Obligations.FeedAndBranchesComplete := by
  unfold Obligations.FeedAndBranchesComplete
  refine ⟨fun s e g fn oi u hg hr hs hb hp => exec_feedExpand hg hr hs hb hp,
    fun s e f fs b hfeed hp hue hlen hcur => ⟨fun hs hb => ?_, fun hs hb => ?_⟩, fun s e y hs hw ht => exec_branchWord hs hw ht,
    fun s e v hl ht => ⟨exec_branchCmd_g v hl ht, exec_branchCmd_y v hl ht⟩,
    fun s e v h15 => ⟨s.takeBranch_taken e h15, s.takeBranch_not_taken e h15⟩, fun s e hs hy hr hg => ?_, fun s e hs hy hr => ?_,
    fun s e k v ho hr => ?_⟩
  · have hlt : b < (s.eng e).latch.length := hlen ▸ Eng.freeLatch_lt hb hcur
    refine ⟨_, exec_latchFill_feed hfeed hp hue hs hb, ?_⟩
    rw [State.freeStaged_nil, State.eng_setEng_self, State.eng_setEng_self]
    exact ⟨rfl, Eng.latchFrame_data f fs _ hlt, Eng.latchFrame_acc .., (s.setEng_sameMemory _ _).trans (State.setEng_sameMemory _ _ _)⟩
  · refine ⟨_, exec_latchFill_scale hfeed hp hue hs hb, ?_⟩
    rw [State.freeStaged_nil, State.eng_setEng_self, State.eng_setEng_self]
    exact ⟨rfl, rfl, rfl, (s.setEng_sameMemory _ _).trans (State.setEng_sameMemory _ _ _)⟩
  · have hlt : e.val < 256 := Nat.lt_trans e.isLt (by decide)
    obtain ⟨x, c, hyield, hpc, hv, he⟩ := exec_yProgramYield hs hy hr hg
    obtain ⟨hyield', hpc', hv', hen, hst, hm⟩ :=
      (State.setY_yieldStep (engine := eReady) (status := 2) hlt (by decide) (by decide) hpc hv (s.setEng_sameMemory e x)).showPlace hlt c.pc
    exact ⟨_, he, hyield'.trans hyield, hpc', hen, hv', hst, hm⟩
  · have hlt : e.val < 256 := Nat.lt_trans e.isLt (by decide)
    obtain ⟨u, c, hmu, hyield, hpc, hv, he⟩ := exec_yProgramResume hs hy hr
    obtain ⟨hyield', hpc', hv', hen, hst, hm⟩ :=
      State.setY_yieldStep (engine := eRunning) (status := 1) hlt (by decide) (by decide) hpc hv hmu
    exact ⟨_, he, hyield'.trans hyield, hpc', hen, hv', hst, hm⟩
  · refine ⟨_, exec_keeperCounterAdd k v ho hr, ?_, fun j hj => ?_, s.ctx_setCtx_not e false _, rfl, s.setEng_sameMemory e _⟩ <;>
      rw [State.ctx_setCtx_self]
    · exact SMap.get_set_self _ _ _ _
    · exact SMap.get_set_ne _ _ _ hj.symm

end Sys2Proof.Machine

/-! # Programs of the engines -/

namespace Sys2Proof.Machine
open Sys2Proof

/-! ## The operation that a word names -/

/-- The word of a class and an operation code, its other fields 0. -/
def codeWord (cls op : Nat) : Nat := cls + 8 * op

theorem wClass_codeWord {cls : Nat} (hc : cls < 8) (op : Nat) : wClass (codeWord cls op) = cls := by
  rw [wClass, codeWord, Nat.add_mul_mod_self_left, Nat.mod_eq_of_lt hc]

theorem wOp_codeWord {cls op : Nat} (hc : cls < 8) (ho : op < 128) : wOp (codeWord cls op) = op := by
  change (cls + 8 * op) / 8 % 128 = op
  omega

/-- What a word does is chosen by its class and operation code alone. -/
theorem wordRun_codeWord (w : Nat) : wordRun (codeWord (wClass w) (wOp w)) = wordRun w := by
  have hc : wClass w < 8 := Nat.mod_lt _ (by decide)
  have ho : wOp w < 128 := bitsOf_lt w 9 3
  unfold wordRun
  rw [wClass_codeWord hc, wOp_codeWord hc ho]

/-! ## The sequencer -/

section
variable {s : State} {e : Nat} {y : Bool} {cls op : Nat} {k : Nat → State → State}

/-- A running context's word is run by its class and operation code. -/
theorem State.runOp_of_named (hrun : s.canRun e y = true) (hc : wClass (s.progWord e (s.ctx e y).pc) = cls)
    (ho : wOp (s.progWord e (s.ctx e y).pc) = op) (hres : wReserved (s.progWord e (s.ctx e y).pc) = false) :
    s.runOp e y cls op k = k (s.progWord e (s.ctx e y).pc) s := by
  simp [State.runOp, hrun, hc, ho, hres]

/-- A context that cannot run stays as it is. -/
theorem State.runOp_of_cannotRun (hrun : s.canRun e y = false) : s.runOp e y cls op k = s := by
  simp [State.runOp, hrun]

/-- A word of another class or operation code is not run. -/
theorem State.runOp_of_other (hne : wClass (s.progWord e (s.ctx e y).pc) ≠ cls ∨ wOp (s.progWord e (s.ctx e y).pc) ≠ op) :
    s.runOp e y cls op k = s := by
  obtain hc | ho := hne
  · simp [State.runOp, hc]
  · simp [State.runOp, ho]

end

/-! ## The commands of each class -/

section
variable (s : State) (e : Fin 32) (y : Bool)

/-- The command `c` carries out the word at the context's address when it names the operation `op` of the class `cls`. -/
def RunsOp (c : Instr) (cls op : Nat) : Prop :=
  exec c s = .next (s.runOp e y cls op (fun w t => wordRun (codeWord cls op) t e y none w))

/-- Each command's own equation names its code and its run; so for the other classes below. -/
theorem runsOp_syCommands : ∀ p ∈ syCommands e y, RunsOp s e y p.1 0 p.2 := by
  simp only [syCommands, List.forall_mem_cons, List.not_mem_nil, false_imp_iff, implies_true, and_true]
  and_intros <;> rfl

theorem runsOp_mxCommands : ∀ p ∈ mxCommands e y, RunsOp s e y p.1 1 p.2 := by
  simp only [mxCommands, List.forall_mem_cons, List.not_mem_nil, false_imp_iff, implies_true, and_true]
  and_intros <;> rfl

theorem runsOp_fgCommands : ∀ p ∈ fgCommands e y, RunsOp s e y p.1 3 p.2 := by
  simp only [fgCommands, List.forall_mem_singleton]
  rfl

theorem runsOp_mvCommands : ∀ p ∈ mvCommands e y, RunsOp s e y p.1 4 p.2 := by
  simp only [mvCommands, List.forall_mem_cons, List.not_mem_nil, false_imp_iff, implies_true, and_true]
  and_intros <;> rfl

variable {s e y}

/-- A reserved word passes under VX_NOP, its results undefined (R245, R286). -/
theorem exec_vxNop_reserved (hrun : s.canRun e y = true) (hres : wReserved (s.progWord e (s.ctx e y).pc) = true) :
    exec (.vxNop e y) s = .next ((s.taint e y).advance e y) :=
  congrArg Host.Outcome.next (if_pos (by rw [hrun, hres]; rfl))

/-- VX_NOP is a command like the others of its class when no reserved word is at hand. -/
theorem runsOp_vxNop (h : (s.canRun e y && wReserved (s.progWord e (s.ctx e y).pc)) = false) : RunsOp s e y (.vxNop e y) 2 0x00 :=
  congrArg Host.Outcome.next (if_neg (by rw [h]; decide))

theorem runsOp_vxCommands (h : (s.canRun e y && wReserved (s.progWord e (s.ctx e y).pc)) = false) :
    ∀ p ∈ vxCommands e y, RunsOp s e y p.1 2 p.2 := by
  simp only [vxCommands, List.forall_mem_append, List.forall_mem_cons, List.not_mem_nil, false_imp_iff, implies_true, and_true, and_assoc]
  refine ⟨runsOp_vxNop h, ?_⟩
  and_intros <;> rfl

/-- Every command of a program's instruction is the sequencer's run of its class and operation code. -/
theorem runsOp_programCommands (h : (s.canRun e y && wReserved (s.progWord e (s.ctx e y).pc)) = false) :
    ∀ p ∈ programCommands e y, RunsOp s e y p.1 p.2.1 p.2.2 := by
  simp only [programCommands, List.forall_mem_append, List.forall_mem_map]
  exact ⟨⟨⟨⟨runsOp_syCommands s e y, runsOp_mxCommands s e y⟩, runsOp_vxCommands h⟩, runsOp_fgCommands s e y⟩, runsOp_mvCommands s e y⟩

end

/-- Settles O38: each command is the sequencer's run of its class and operation code, which runs a word that names them and no other. -/
theorem programInstructionsComplete : Obligations.ProgramInstructionsComplete := by
  unfold Obligations.ProgramInstructionsComplete
  intro s e y w p hp
  refine ⟨fun hrun hc ho hres => ?_, fun hrun => ?_, fun _ hres hne => ?_, exec_vxNop_reserved⟩
  · rw [runsOp_programCommands (by rw [hres, Bool.and_false]) p hp, State.runOp_of_named hrun hc ho hres, ← hc, ← ho, wordRun_codeWord]
  · rw [runsOp_programCommands (by rw [hrun, Bool.false_and]) p hp, State.runOp_of_cannotRun hrun]
  · rw [runsOp_programCommands (by rw [hres, Bool.and_false]) p hp, State.runOp_of_other hne]

end Sys2Proof.Machine

/-! # The vector engine -/

namespace Sys2Proof.Machine
open Sys2Proof

/-! ## What a vector instruction on registers leaves -/

/-- `t` is `s` but for the engines, the free values drawn and what reports change; and engine `e` keeps its accumulators and row buffers. -/
structure ContextOnly (e : Nat) (s t : State) : Prop where
  acc : (t.eng e).acc = (s.eng e).acc
  rows : (t.eng e).rows = (s.eng e).rows
  quiet : ∃ x n, Quiet { s with engs := x, free := n } t

theorem Quiet.eng {s t : State} (h : Quiet s t) (e : Nat) : t.eng e = s.eng e := congrArg (fun m => SMap.get m ({} : Eng) e) h.engs

theorem Quiet.ctx {s t : State} (h : Quiet s t) (e : Nat) (y : Bool) : t.ctx e y = s.ctx e y := by
  simp only [State.ctx, h.eng]

namespace ContextOnly
variable {e : Nat} {s t u : State}

theorem of_quiet (h : Quiet s t) : ContextOnly e s t :=
  ⟨congrArg Eng.acc (h.eng e), congrArg Eng.rows (h.eng e), s.engs, s.free, h⟩

theorem refl (s : State) : ContextOnly e s s := of_quiet (Quiet.refl s)

theorem trans (h : ContextOnly e s t) (k : ContextOnly e t u) : ContextOnly e s u := by
  obtain ⟨hacc, hrows, x, n, r, l, f, g, w, rfl⟩ := h
  obtain ⟨kacc, krows, x', n', r', l', f', g', w', rfl⟩ := k
  exact ⟨kacc.trans hacc, krows.trans hrows, x', n', r', l', f', g', w', rfl⟩

theorem setFree (s : State) (n : Nat) : ContextOnly e s { s with free := n } := ⟨rfl, rfl, s.engs, n, Quiet.refl _⟩

theorem setCtx (s : State) (y : Bool) (c : ProgCtx) : ContextOnly e s (s.setCtx e y c) := by
  refine ⟨?_, ?_, _, s.free, Quiet.refl _⟩ <;> simp only [State.setCtx, State.eng_setEng_self] <;> split <;> rfl

section
variable (h : ContextOnly e s t)
include h

theorem sameMemory : SameMemory s t := let ⟨_, _, hq⟩ := h.quiet; hq.sameMemory
theorem sameStacks : SameStacks s t := let ⟨_, _, hq⟩ := h.quiet; ⟨hq.cis, hq.bkt⟩
theorem sameTiers : SameTiers s t := let ⟨_, _, hq⟩ := h.quiet; hq.mem
theorem samePumps : SamePumps s t := let ⟨_, _, hq⟩ := h.quiet; hq.pmp
theorem sameSessions : SameSessions s t := let ⟨_, _, hq⟩ := h.quiet; ⟨hq.sess, hq.ses, hq.keepers⟩
theorem sameLink : SameLink s t := let ⟨_, _, hq⟩ := h.quiet; hq.link
theorem sameTime : SameTime s t := let ⟨_, _, hq⟩ := h.quiet; hq.sameTime

end
end ContextOnly

/-! ## The end of a vector instruction -/

/-- LAST, STICKY and the causes and counts that follow from flags are reports (R255). -/
theorem State.setLast_quiet (s : State) (e : Nat) (y : Bool) (fl : Nat) : Quiet s (s.setLast e y fl) := by
  unfold State.setLast
  extract_lets pg old s1 s2
  have h1 : Quiet s s1 := (s.setFld_quiet _ _ _).setFld _ _ _
  have h2 : Quiet s s2 := by
    unfold s2
    split
    · exact h1.trans (s1.raise_quiet _ _)
    · exact h1
  split
  · exact h2.trans (s2.bump_quiet _ _ _)
  · exact h2

/-- A program that goes on at an address of the store changes its context alone. -/
theorem State.advance_contextOnly (s : State) (e : Nat) (y : Bool) (h : (s.ctx e y).pc + 1 < 16384) : ContextOnly e s (s.advance e y) := by
  rw [State.advance, State.goTo, if_neg (Nat.not_le.2 h)]
  exact .setCtx s y _

theorem State.advance_v (s : State) (e : Nat) (y : Bool) (h : (s.ctx e y).pc + 1 < 16384) :
    ((s.advance e y).ctx e y).v = (s.ctx e y).v := by
  rw [State.advance, State.goTo, if_neg (Nat.not_le.2 h), State.ctx_setCtx_self]

/-- The end of a vector instruction: its handshakes and flags are reported, and its program goes on (R255, R256). -/
def State.endVx (s : State) (e : Nat) (y : Bool) (hands fl : Nat) : State :=
  ((s.bump64B (pgVxe e) 0 F.vxe_VOPS_LO_COUNT F.vxe_VOPS_HI_COUNT hands).setLast e y fl).advance e y

/-- What the end of a vector instruction leaves of its context and of the rest. -/
theorem State.endVx_keeps (s : State) (e : Nat) (y : Bool) (hands fl : Nat) (h : (s.ctx e y).pc + 1 < 16384) :
    ((s.endVx e y hands fl).ctx e y).v = (s.ctx e y).v ∧ ((s.endVx e y hands fl).ctx e y).pc = (s.ctx e y).pc + 1
      ∧ ContextOnly e s (s.endVx e y hands fl) := by
  have hq := (s.bump64B_quiet (pgVxe e) 0 F.vxe_VOPS_LO_COUNT F.vxe_VOPS_HI_COUNT hands).trans (State.setLast_quiet _ e y fl)
  have hc := hq.ctx e y
  have hpc := hc.symm ▸ h
  exact ⟨(State.advance_v _ e y hpc).trans (congrArg ProgCtx.v hc), (State.goTo_pc _ e y hpc).trans (congrArg (·.pc + 1) hc),
    (ContextOnly.of_quiet hq).trans (State.advance_contextOnly _ e y hpc)⟩

/-! ## The elements of a vector register -/

/-- The place of element `i` of a register operand (R249). -/
def regIx (o i : Nat) : Nat := (oPay o % 32 + i / 128) % 32 * 128 + i % 128

theorem cellOf_reg {o : Nat} (h : oKind o = 1) (row : Option Nat) (i : Nat) : cellOf o row i = .reg (regIx o i) := by
  simp only [cellOf, h, true_or, if_true, regIx]

/-- The registers from any one on hold 4,096 elements apart. -/
theorem regIx_inj {o i j : Nat} (hi : i < 4096) (hj : j < 4096) (h : regIx o i = regIx o j) : i = j := by
  unfold regIx at h
  omega

/-- Registers `m` once each position of a list has its result. -/
def regsWith (o : Nat) (m : SMap W32) (l : List (Nat × W32 × Nat)) : SMap W32 :=
  l.foldl (fun m p => SMap.set m 0#32 (regIx o p.1) p.2.1) m

section
variable (o : Nat) (m : SMap W32) (g : Nat → W32 × Nat)

/-- The registers with the results `g` at the first `n` positions. -/
def regsBelow (n : Nat) : SMap W32 := regsWith o m ((List.range n).map (fun i => (i, g i)))

theorem regsBelow_succ (n : Nat) : regsBelow o m g (n + 1) = SMap.set (regsBelow o m g n) 0#32 (regIx o n) (g n).1 := by
  simp only [regsBelow, regsWith, List.range_succ, List.map_append, List.foldl_append, List.map_cons, List.map_nil, List.foldl_cons,
    List.foldl_nil]

/-- An element that no position names is kept. -/
theorem get_regsBelow_other {k : Nat} : ∀ {n : Nat}, (∀ i, i < n → k ≠ regIx o i) → SMap.get (regsBelow o m g n) 0#32 k = SMap.get m 0#32 k
  | 0, _ => rfl
  | n + 1, h => by
    rw [regsBelow_succ, SMap.get_set_ne _ _ _ (h n n.lt_succ_self).symm]
    exact get_regsBelow_other fun i hi => h i (Nat.lt_succ_of_lt hi)

/-- Each position below the count has its result: no later position has the same place. -/
theorem get_regsBelow {i : Nat} : ∀ {n : Nat}, n ≤ 4096 → i < n → SMap.get (regsBelow o m g n) 0#32 (regIx o i) = (g i).1
  | n + 1, hn, hi => by
    rw [regsBelow_succ]
    by_cases h : i = n
    · rw [h, SMap.get_set_self]
    · rw [SMap.get_set_ne _ _ _ fun he => h (regIx_inj (by omega) (by omega) he).symm]
      exact get_regsBelow (Nat.le_of_succ_le hn) (Nat.lt_of_le_of_ne (Nat.le_of_lt_succ hi) h)

end

/-! ## Results written to registers -/

section
variable {o : Nat} (ho : oKind o = 1) (e : Nat) (y : Bool) (row : Option Nat)
include ho

theorem State.loadCell_reg (s : State) (i : Nat) : s.loadCell e y (cellOf o row i) = SMap.get (s.ctx e y).v 0#32 (regIx o i) := by
  rw [cellOf_reg ho]
  rfl

theorem State.storeCell_reg (s : State) (v : W32) (i : Nat) : (s.storeCell e y v (cellOf o row i)).1
    = s.setCtx e y { s.ctx e y with v := SMap.set (s.ctx e y).v 0#32 (regIx o i) v } := by
  rw [cellOf_reg ho]
  rfl

/-- Defined results written to registers change the registers alone (R249). -/
theorem State.storeList_reg (int : Bool) (l : List (Nat × W32 × Nat)) (s : State) :
    (s.storeList e y o row int false l).1.ctx e y = { s.ctx e y with v := regsWith o (s.ctx e y).v l }
      ∧ ContextOnly e s (s.storeList e y o row int false l).1 := by
  unfold State.storeList
  generalize (0 : Nat) = fl
  induction l generalizing s fl with
  | nil => exact ⟨rfl, .refl s⟩
  | cons p l ih =>
    have hcell := State.storeCell_reg ho e y row s p.2.1 p.1
    simp only [List.foldl_cons, Bool.false_eq_true, if_false] at ih ⊢
    rw [hcell]
    obtain ⟨hctx, honly⟩ := ih (s.setCtx e y { s.ctx e y with v := SMap.set (s.ctx e y).v 0#32 (regIx o p.1) p.2.1 })
      (fl ||| p.2.2 ||| elemFlags int p.2.1 ||| flIf (s.storeCell e y p.2.1 (cellOf o row p.1)).2 flSat)
    refine ⟨?_, (ContextOnly.setCtx s y _).trans honly⟩
    rw [hctx, State.ctx_setCtx_self]
    rfl

end

/-! ## One row of an elementwise operation -/

theorem State.maskAt_zero (s : State) (e : Nat) (y : Bool) : s.maskAt e y 0 = fun _ => true := rfl

/-- Element `i` of the results of a row, from the state before it. -/
def State.vecResult (s : State) (e : Nat) (y : Bool) (x : VxW) (f : VecFn) (n : Nat) (row : Option Nat) (i : Nat) : W32 × Nat :=
  (f s.free (s.maskAt e y x.mask) (s.loadAll e y x.a row n) (s.loadAll e y x.b row n) (s.loadAll e y x.d row n)).getD i (0#32, 0)

/-- Without a mask every position is active: each takes its result, and none is zeroed (R254). -/
theorem State.vecRow_unmasked (s : State) (e : Nat) (y : Bool) {x : VxW} (hm : x.mask = 0) (int : Bool) (draws : Nat) (f : VecFn) (n : Nat)
    (row : Option Nat) (u : Bool) : s.vecRow e y x int false draws f n row u
      = { s with free := s.free + draws * n }.storeList e y x.d row int u ((List.range n).map (fun i => (i, s.vecResult e y x f n row i))) := by
  simp [State.vecRow, State.vecResult, hm, State.maskAt_zero, State.zeroList]

/-- The row of a defined operation without a mask changes its registers alone. -/
theorem State.vecRow_registers (s : State) (e : Nat) (y : Bool) {x : VxW} (hm : x.mask = 0) (hd : oKind x.d = 1) (int : Bool) (draws : Nat)
    (f : VecFn) (n : Nat) (row : Option Nat) :
    (s.vecRow e y x int false draws f n row false).1.ctx e y
        = { s.ctx e y with v := regsBelow x.d (s.ctx e y).v (s.vecResult e y x f n row) n }
      ∧ ContextOnly e s (s.vecRow e y x int false draws f n row false).1 := by
  rw [s.vecRow_unmasked e y hm]
  obtain ⟨hctx, honly⟩ := State.storeList_reg hd e y row int ((List.range n).map fun i => (i, s.vecResult e y x f n row i))
    { s with free := s.free + draws * n }
  exact ⟨hctx, (ContextOnly.setFree s _).trans honly⟩

/-- An elementwise operation's result at a position is its value of the elements there (R256). -/
theorem State.vecResult_lift (s : State) (e : Nat) (y : Bool) (x : VxW) (int : Bool) (f : ElFn) {n i : Nat} (row : Option Nat) (h : i < n) :
    s.vecResult e y x (lift int f) n row i = f int (drawAt s.free i) (s.loadCell e y (cellOf x.a row i)) (s.loadCell e y (cellOf x.b row i))
      (s.loadCell e y (cellOf x.d row i)) := by
  simp [State.vecResult, lift, State.loadAll, List.getD, h]

/-! ## The checks of an instruction on registers -/

/-- A register operand, or none. -/
def oRegOrNone (o : Nat) : Prop := oKind o = 1 ∨ oKind o = 0

section
variable {o : Nat} (h : oRegOrNone o)
include h

theorem oIsAcc_of_regOrNone : oIsAcc o = false := by
  obtain h | h := h <;> simp [oIsAcc, h]

theorem State.sweepMisuse_of_regOrNone (s : State) (e n : Nat) : s.sweepMisuse e o n = false := by
  obtain h | h := h <;> simp [State.sweepMisuse, h]

theorem State.accMixed_of_regOrNone (s : State) (e : Nat) (int : Bool) : s.accMixed e o int = false := by
  simp [State.accMixed, oIsAcc_of_regOrNone h]

/-- No element of a register lies in a tile-store word (R218). -/
theorem State.cellUe_of_regOrNone (s : State) (e n : Nat) (row : Option Nat) :
    (if oIsData o then (List.range n).map (cellOf o row) else []).any (s.cellUe e) = false := by
  obtain h | h := h
  · split
    · simp [cellOf_reg h, State.cellUe]
    · rfl
  · simp [oIsData, oIsAcc, oIsMem, h]

end

/-- A well-formed instruction on whole registers, with a count of its own, without a row set, and with a destination that meets a source from its
first element on or not at all (R249, R252, R253, R258, R283). -/
structure OnRegisters (fm : VxForm) (x : VxW) : Prop where
  wf : vxBad fm x = false
  ownCount : x.acnt = false
  pos : 0 < x.count
  oneRow : x.rsel = 0
  d : oKind x.d = 1
  a : oKind x.a = 1
  b : oRegOrNone x.b
  inPlaceA : partOverlap x.d x.a none x.count = false
  inPlaceB : partOverlap x.d x.b none x.count = false

/-- In context G, where no misuse has gone before, such an instruction passes every check: it runs its row and ends. -/
theorem State.runVx_onRegisters {s : State} {e : Nat} {fm : VxForm} {x : VxW} (h : OnRegisters fm x) (htile : fm.tile = false)
    (hapart : fm.apart = false) (hred : fm.reduces = false) (ht : (s.ctx e false).tainted = false)
    (body : State → Nat → Option Nat → Bool → RowRun) :
    s.runVx e false fm x (fun _ => false) false body none
      = (body s x.count none false).1.endVx e false (rateOf fm.rate x.count) ((s.ctx e false).rowFlags ||| (body s x.count none false).2) := by
  obtain ⟨hwf, hown, hpos, hone, hd, ha, hb, hpa, hpb⟩ := h
  replace hd : oRegOrNone x.d := .inl hd
  replace ha : oRegOrNone x.a := .inl ha
  have hn : s.vxCount e false x = x.count := by simp [State.vxCount, hown]
  have hrows : s.vxRows e x = [none] := by simp [State.vxRows, hone]
  have hmisuse : ∀ o, oRegOrNone o → s.sweepMisuse e o x.count = false := fun _ ho => State.sweepMisuse_of_regOrNone ho s e _
  have hmixed : ∀ o int, oRegOrNone o → s.accMixed e o int = false := fun _ int ho => State.accMixed_of_regOrNone ho s e int
  simp [State.runVx, State.endVx, hn, hrows, hwf, Nat.ne_of_gt hpos, hmisuse, hmixed, hd, ha, hb, htile, hapart, hred, ht, hpa, hpb,
    List.any_append, State.cellUe_of_regOrNone ha, State.cellUe_of_regOrNone hb]

/-! ## Elementwise operations -/

/-- Every elementwise code is in use, runs its operation, and takes the INT bit as its form types its result (R256, R272). -/
theorem elOf_spec {op : Nat} {f : ElFn} (h : elOf op = some f) :
    vxCodes.contains op = true ∧ vxRunOf op = (fun s e y u w => s.runEl e y op f u w)
      ∧ ∀ int n a b d, f ((opTyD op).isInt int) n a b d = f int n a b d := by
  unfold elOf at h
  split at h <;> cases h
  all_goals exact ⟨rfl, rfl, fun _ _ _ _ _ => rfl⟩

/-- A register source of an elementwise form: the second one is there when the operation has two (R256). -/
theorem oRegOrNone_of_opTwo {op o : Nat} (h : oKind o = if opTwo op then 1 else 0) : oRegOrNone o := by
  unfold oRegOrNone
  split at h
  · exact .inl h
  · exact .inr h

/-- An elementwise instruction of context G on whole registers writes its results to them and ends (R249, R256). -/
theorem State.runEl_onRegisters {s : State} {e op w : Nat} (h : OnRegisters (elForm op) (vxOf w)) (hm : (vxOf w).mask = 0)
    (ht : (s.ctx e false).tainted = false) (f : ElFn) :
    ∃ r hands fl, s.runEl e false op f none w = r.endVx e false hands fl ∧ ContextOnly e s r ∧ r.ctx e false = { s.ctx e false with
      v := regsBelow (vxOf w).d (s.ctx e false).v (s.vecResult e false (vxOf w) (lift (vxOf w).int f) (vxOf w).count none) (vxOf w).count } := by
  obtain ⟨hctx, honly⟩ := s.vecRow_registers e false hm h.d ((elForm op).td.isInt (vxOf w).int) (b2n (opTrans op)) (lift (vxOf w).int f)
    (vxOf w).count none
  have hrun := State.runVx_onRegisters h rfl rfl rfl ht fun s n row u =>
    s.vecRow e false (vxOf w) ((elForm op).td.isInt (vxOf w).int) false (b2n (opTrans op)) (lift (vxOf w).int f) n row u
  exact ⟨_, _, _, hrun, honly, hctx⟩

/-- The command of an elementwise code runs the word at hand that names it. -/
theorem exec_elementwise {s : State} {e : Fin 32} {f : ElFn} {p : Instr × Nat} (hp : p ∈ vxCommands e false) (hf : elOf p.2 = some f)
    (hrun : s.canRun e false = true) (hc : wClass (s.progWord e (s.ctx e false).pc) = 2) (ho : wOp (s.progWord e (s.ctx e false).pc) = p.2) :
    exec p.1 s = .next (s.runEl e false p.2 f none (s.progWord e (s.ctx e false).pc)) := by
  obtain ⟨hcode, hof, -⟩ := elOf_spec hf
  have hres : wReserved (s.progWord e (s.ctx e false).pc) = false := by
    simp only [wReserved, hc, ho, hcode, Bool.not_true]
  rw [runsOp_vxCommands (by rw [hres, Bool.and_false]) p hp, State.runOp_of_named hrun hc ho hres, ← hc, ← ho, wordRun_codeWord, wordRun, hc, ho]
  exact congrArg (fun k : OpRun => Host.Outcome.next (k s e false none _)) hof

/-- Settles O39: each position's result reaches its own place in the registers (`get_regsBelow`), no other element is written
(`get_regsBelow_other`), and the rest is kept (`ContextOnly`). -/
theorem elementwiseValues : Obligations.ElementwiseValues := by
  unfold Obligations.ElementwiseValues
  intro s e f w x p hp hf hrun hc ho hsel hmask hcnt hd ha hb hbad hpos hle hpa hpb ht hpc reg val
  obtain ⟨-, -, hint⟩ := elOf_spec hf
  have hx : OnRegisters (elForm p.2) x := ⟨hbad, hcnt, hpos, hsel, hd, ha, oRegOrNone_of_opTwo hb, hpa, hpb⟩
  obtain ⟨r, hands, fl, hend, honly, hctx⟩ := State.runEl_onRegisters (e := e) (w := w) hx hmask ht f
  obtain ⟨hv, hnext, hkeep⟩ := r.endVx_keeps e false hands fl (by rw [hctx]; exact hpc)
  rw [hctx] at hv hnext
  have hall : ContextOnly e s (r.endVx e false hands fl) := honly.trans hkeep
  refine ⟨_, (exec_elementwise hp hf hrun hc ho).trans (congrArg _ hend), fun i hi => ?_, fun k hk => ?_, hnext, hall.acc, hall.rows,
    hall.sameMemory, hall.sameStacks, hall.sameTiers, hall.samePumps, hall.sameSessions, hall.sameLink, hall.sameTime⟩
  · have hsrc : s.loadCell e false (cellOf x.b none i) = if opTwo p.2 then val x.b i else s.loadCell e false (cellOf x.b none i) := by
      split
      case isTrue htwo => exact State.loadCell_reg (hb.trans (if_pos htwo)) e false none s i
      case isFalse => rfl
    rw [hv]
    refine (get_regsBelow x.d _ _ hle hi).trans (congrArg Prod.fst ?_)
    rw [State.vecResult_lift _ _ _ _ _ _ _ hi, State.loadCell_reg ha, State.loadCell_reg hd, ← hsrc]
    exact (hint x.int _ _ _ _).symm
  · rw [hv]
    exact get_regsBelow_other x.d _ _ hk

end Sys2Proof.Machine

/-! # Synchronisation instructions -/

namespace Sys2Proof.Machine
open Sys2Proof

/-! ## What a completed instruction leaves -/

theorem State.ctx_setCtx_ne (s : State) {e e' : Nat} (h : e ≠ e') (y y' : Bool) (c : ProgCtx) : (s.setCtx e y c).ctx e' y' = s.ctx e' y' := by
  simp only [State.ctx, State.setCtx, State.eng_setEng, if_neg h]

section
variable (s : State) (e : Nat) (y : Bool) {pc : Nat} (h : pc < 16384)
include h

/-- A program that goes on at an address of the store changes its context alone. -/
theorem State.goTo_contextOnly : ContextOnly e s (s.goTo e y pc) := by
  rw [State.goTo, if_neg (Nat.not_le.2 h)]
  exact .setCtx s y _

theorem State.ctx_goTo_ne {e' : Nat} (hne : e ≠ e') (y' : Bool) : (s.goTo e y pc).ctx e' y' = s.ctx e' y' := by
  rw [State.goTo, if_neg (Nat.not_le.2 h), State.ctx_setCtx_ne s hne]

end

/-- A context that has been set goes on at its next address with its counters. -/
theorem State.advance_setCtx (s : State) (e : Nat) (y : Bool) {c : ProgCtx} (h : c.pc + 1 < 16384) :
    (((s.setCtx e y c).advance e y).ctx e y).pc = c.pc + 1 ∧ (((s.setCtx e y c).advance e y).ctx e y).sc = c.sc := by
  simp only [State.advance, State.goTo, State.ctx_setCtx_self, if_neg (Nat.not_le.2 h), and_self]

/-! ## The end of a program -/

section
variable (s : State) (e : Nat) (y : Bool)

theorem State.leave_started : ((s.leave e y).ctx e y).started = false := by
  unfold State.leave
  dsimp only
  split
  · rw [State.ctx_setFld, State.ctx_setCtx_self]
  · rw [State.ctx_setCtx_self]

theorem State.leave_contextOnly : ContextOnly e s (s.leave e y) := by
  unfold State.leave
  dsimp only
  split
  · exact (ContextOnly.setCtx s y _).trans (.of_quiet (State.setFld_quiet _ _ _ _))
  · exact .setCtx s y _

theorem State.setEngState_contextOnly (v : Nat) : ContextOnly e s (s.setEngState e v) :=
  .of_quiet ((s.setFld_quiet _ _ _).setFld _ _ _)

/-- END in context G takes the program out of it and leaves the engine READY (R238). -/
theorem State.endProg_g : s.endProg e false = (s.leave e false).setEngState e eReady := rfl

end

/-! ## Counters and mailboxes -/

section
variable {s : State} {e : Nat} {y : Bool} (k v : Nat)

/-- The counter of an engine in use takes the sum, up to 65,535 (R301). -/
theorem State.sc_addCtr (ho : s.engState e ≠ eOffline) (hr : s.engState e ≠ eInReset) (j : Nat) :
    SMap.get ((s.addCtr e y k v).ctx e y).sc 0 j
      = if k = j then min 0xFFFF (SMap.get (s.ctx e y).sc 0 k + v) else SMap.get (s.ctx e y).sc 0 j := by
  rw [State.addCtr, if_neg (not_or.2 ⟨ho, hr⟩), State.ctx_setCtx_self]
  exact SMap.get_set _ _ _ _ _

/-- The contexts of other engines are kept. -/
theorem State.ctx_addCtr_ne {e' : Nat} (h : e ≠ e') (y' : Bool) : (s.addCtr e y k v).ctx e' y' = s.ctx e' y' := by
  unfold State.addCtr
  dsimp only
  split
  · rfl
  · exact s.ctx_setCtx_ne h y y' _

end

theorem State.post_sameMemory (s : State) (q : Nat) (entry : List Byte) : SameMemory s (s.post q entry) := s.setKeeper_sameMemory q _

theorem State.mailbox_post (s : State) (q : Nat) (entry : List Byte) :
    ((s.post q entry).keeper q).mailbox = (s.keeper q).mailbox ++ [entry] := by
  rw [State.post, State.keeper_setKeeper_self]

/-! ## The commands of class SY -/

/-- A running context of engine `e` whose word is a synchronisation instruction in use (R286, R300). -/
structure AtSync (s : State) (e : Fin 32) (y : Bool) : Prop where
  run : s.canRun e y = true
  cls : wClass (s.progWord e (s.ctx e y).pc) = 0
  used : wReserved (s.progWord e (s.ctx e y).pc) = false

section
variable {s : State} {e : Fin 32} {y : Bool} (h : AtSync s e y)
include h

/-- The command of class SY that the word names runs it. -/
theorem exec_syCommand {c : Instr} {op : Nat} (hp : (c, op) ∈ syCommands e y) (ho : wOp (s.progWord e (s.ctx e y).pc) = op) :
    exec c s = .next (wordRun (codeWord 0 op) s e y none (s.progWord e (s.ctx e y).pc)) := by
  rw [runsOp_syCommands s e y (c, op) hp, State.runOp_of_named h.run h.cls ho h.used]

end

section
variable {s : State} {e : Fin 32} (h : AtSync s e false)
include h

theorem exec_endCmd (ho : wOp (s.progWord e (s.ctx e false).pc) = 0) :
    exec (.endCmd e false) s = .next ((s.leave e false).setEngState e eReady) :=
  (exec_syCommand h (by simp [syCommands]) ho).trans (congrArg Host.Outcome.next (s.endProg_g e))

theorem exec_fence (ho : wOp (s.progWord e (s.ctx e false).pc) = 1) :
    exec (.fence e false) s = .next (if s.drained e false then s.advance e false else s) :=
  exec_syCommand h (by simp [syCommands]) ho

/-- SIGNAL to one engine, once the feed is drained, adds to its counter and goes on (R301, R302). -/
theorem exec_signal_one (ho : wOp (s.progWord e (s.ctx e false).pc) = 2) (hall : syAll (s.progWord e (s.ctx e false).pc) = false)
    (hd : s.drained e false = true) :
    let w := s.progWord e (s.ctx e false).pc
    exec (.signal e false) s = .next ((s.addCtr (syEngine w) false (syCtr w) (syValue w)).advance e false) := by
  rw [exec_syCommand h (by simp [syCommands]) ho]
  change (.next (sySignal s e false none _) : Out) = _
  simp [sySignal, hall, hd]

/-- A WAIT whose counter is too low waits (R301). -/
theorem exec_wait_below (ho : wOp (s.progWord e (s.ctx e false).pc) = 3)
    (hlt : SMap.get (s.ctx e false).sc 0 (syCtr (s.progWord e (s.ctx e false).pc)) < syValue (s.progWord e (s.ctx e false).pc)) :
    exec (.wait e false) s = .next s := by
  rw [exec_syCommand h (by simp [syCommands]) ho]
  exact congrArg Host.Outcome.next (if_pos hlt)

/-- A WAIT whose counter holds the value takes it and goes on (R301). -/
theorem exec_wait_reached (ho : wOp (s.progWord e (s.ctx e false).pc) = 3)
    (hle : syValue (s.progWord e (s.ctx e false).pc) ≤ SMap.get (s.ctx e false).sc 0 (syCtr (s.progWord e (s.ctx e false).pc))) :
    let c := s.ctx e false
    let w := s.progWord e c.pc
    exec (.wait e false) s = .next ((s.setCtx e false
      { c with sc := SMap.set c.sc 0 (syCtr w) (SMap.get c.sc 0 (syCtr w) - syValue w) }).advance e false) := by
  rw [exec_syCommand h (by simp [syCommands]) ho]
  exact congrArg Host.Outcome.next (if_neg (Nat.not_lt.2 hle))

theorem exec_notify (ho : wOp (s.progWord e (s.ctx e false).pc) = 4) :
    let c := s.ctx e false
    exec (.notify e false) s
      = .next ((s.post (engQuad e) (progEntry e c.pc false (syWord (s.progWord e c.pc)) 1)).advance e false) :=
  exec_syCommand h (by simp [syCommands]) ho

theorem exec_jump (ho : wOp (s.progWord e (s.ctx e false).pc) = 5) :
    exec (.jump e false) s = .next (s.goTo e false (syTarget (s.progWord e (s.ctx e false).pc))) :=
  exec_syCommand h (by simp [syCommands]) ho

end

/-- Settles O40: each command by its own equation, and what it leaves of its context, a counter or a mailbox. -/
theorem synchronisationCompletes : Obligations.SynchronisationCompletes := by
  unfold Obligations.SynchronisationCompletes
  intro s e c w hrun hcls hres hpc
  have h : AtSync s e false := ⟨hrun, hcls, hres⟩
  refine ⟨fun ho => ?_, exec_fence h, fun ho hall hne _ hoff hrst hd => ?_, fun ho => ⟨exec_wait_below h ho, fun hle => ?_⟩, fun ho => ?_,
    fun ho ht => ?_⟩
  · have hkeep := (s.leave_contextOnly e false).trans (State.setEngState_contextOnly _ e eReady)
    exact ⟨_, exec_endCmd h ho, s.leave_started e false, State.engState_setEngState (Nat.lt_trans e.isLt (by decide)) _ (by decide),
      hkeep.sameMemory, hkeep.sameStacks, hkeep.sameTiers, hkeep.sameSessions⟩
  · have hctx : (s.addCtr (syEngine w) false (syCtr w) (syValue w)).ctx e false = c := State.ctx_addCtr_ne _ _ hne false
    have hnext := hctx.symm ▸ hpc
    refine ⟨_, exec_signal_one h ho hall hd, (State.goTo_pc _ e false hnext).trans (congrArg (·.pc + 1) hctx), ?_, fun k hk => ?_⟩ <;>
      rw [State.advance, State.ctx_goTo_ne _ _ _ hnext hne.symm, State.sc_addCtr _ _ hoff hrst]
    · exact if_pos rfl
    · exact if_neg hk.symm
  · obtain ⟨hnext, hsc⟩ := s.advance_setCtx e false
      (c := { c with sc := SMap.set c.sc 0 (syCtr w) (SMap.get c.sc 0 (syCtr w) - syValue w) }) hpc
    exact ⟨_, exec_wait_reached h ho hle, hnext, (congrArg (SMap.get · 0 (syCtr w)) hsc).trans (SMap.get_set_self _ _ _ _)⟩
  · have hkeep := State.advance_contextOnly (s.post (engQuad e) (progEntry e c.pc false (syWord w) 1)) e false hpc
    obtain ⟨-, -, hkeepers⟩ := hkeep.sameSessions
    refine ⟨_, exec_notify h ho, State.goTo_pc _ e false hpc, ?_, (s.post_sameMemory _ _).trans hkeep.sameMemory⟩
    rw [State.keeper, hkeepers]
    exact s.mailbox_post _ _
  · exact ⟨_, exec_jump h ho, s.goTo_pc e false ht, (s.goTo_contextOnly e false ht).sameMemory⟩

end Sys2Proof.Machine

/-! # Sessions: what their operations leave -/

namespace Sys2Proof.Machine
open Sys2Proof

/-! ## Updates of the sessions -/

/-- `t` is `s` but for sessions, rounds, models, the journal and the tenants, for the free values drawn, and for what reports change. -/
def SessionsOnly (s t : State) : Prop := ∃ x y n, Quiet { s with sess := x, ses := y, free := n } t

namespace SessionsOnly
variable {s t u : State}

theorem of_quiet (h : Quiet s t) : SessionsOnly s t := ⟨s.sess, s.ses, s.free, h⟩

theorem refl (s : State) : SessionsOnly s s := of_quiet (Quiet.refl s)

theorem trans (h : SessionsOnly s t) (k : SessionsOnly t u) : SessionsOnly s u := by
  obtain ⟨x, y, n, r, e, f, g, w, rfl⟩ := h
  obtain ⟨x', y', n', r', e', f', g', w', rfl⟩ := k
  exact ⟨x', y', n', r', e', f', g', w', rfl⟩

theorem thenQuiet (h : SessionsOnly s t) (k : Quiet t u) : SessionsOnly s u := h.trans (of_quiet k)

theorem sameStores (h : SessionsOnly s t) : SameStores s t :=
  let ⟨_, _, _, hq⟩ := h; ⟨hq.cis, hq.mem, hq.bkt, hq.pmp, hq.engs⟩

theorem sameMemory (h : SessionsOnly s t) : SameMemory s t := h.sameStores.sameMemory
theorem sameStacks (h : SessionsOnly s t) : SameStacks s t := h.sameStores.sameStacks
theorem sameTiers (h : SessionsOnly s t) : SameTiers s t := h.sameStores.mem
theorem samePumps (h : SessionsOnly s t) : SamePumps s t := h.sameStores.pmp
theorem sameEngines (h : SessionsOnly s t) : SameEngines s t := h.sameStores.engs
theorem sameLink (h : SessionsOnly s t) : SameLink s t := let ⟨_, _, _, hq⟩ := h; hq.link
theorem sameTime (h : SessionsOnly s t) : SameTime s t := let ⟨_, _, _, hq⟩ := h; hq.sameTime
theorem sameQueue (h : SessionsOnly s t) : SameQueue s t := let ⟨_, _, _, hq⟩ := h; ⟨hq.pending, hq.profile⟩
theorem sameTrust (h : SessionsOnly s t) : SameTrust s t := let ⟨_, _, _, hq⟩ := h; ⟨hq.boot, hq.d3hot⟩

end SessionsOnly

section
variable (s : State)

theorem State.setTen_sessionsOnly (t : Nat) (x : Ten) : SessionsOnly s (s.setTen t x) := ⟨_, _, _, Quiet.refl _⟩
theorem State.setSes_sessionsOnly (h : Nat) (x : Session) : SessionsOnly s (s.setSes h x) := ⟨_, _, _, Quiet.refl _⟩
theorem State.draw_sessionsOnly : SessionsOnly s s.draw.2 := ⟨_, _, _, Quiet.refl _⟩

end

theorem Quiet.ten {s t : State} (h : Quiet s t) : t.ten = s.ten := by
  funext k
  rw [State.ten, h.ses, State.ten]

theorem Quiet.sesOf {s t : State} (h : Quiet s t) : t.sesOf = s.sesOf := by
  funext k
  rw [State.sesOf, h.sess, State.sesOf]

/-! ## Registers beside those that are set -/

/-- A register keeps its value when one at another offset is set, on whichever page. -/
theorem State.reg_setReg_of_offset_ne (s : State) (pg pg' : Page) (b b' : Nat) {o o' : Nat} (v : W32) (ho : o < 4096) (ho' : o' < 4096)
    (hne : o' ≠ o) : (s.setReg pg' b' o' v).reg pg b o = s.reg pg b o := by
  refine s.reg_setReg_of_key_ne _ _ _ _ _ _ _ fun hkey => hne ?_
  simp only [regKey] at hkey
  omega

theorem State.reg_setFld_of_offset_ne (s : State) (pg pg' : Page) (b : Nat) {o : Nat} (f : Fld) (v : Nat) (ho : o < 4096) (hf : f.off < 4096)
    (hne : f.off ≠ o) : (s.setFld pg' f v).reg pg b o = s.reg pg b o :=
  s.reg_setReg_of_offset_ne _ _ _ _ _ ho hf hne

theorem State.regs_shadow (s : State) (t off v : Nat) : (s.shadow t off v).regs = s.regs := by
  simp only [State.shadow]
  split
  · rfl
  · exact s.emit_regs _

theorem State.regs_shadowLive (s : State) (t off v : Nat) : (s.shadowLive t off v).regs = s.regs := by
  unfold State.shadowLive
  split
  · rfl
  · exact s.regs_shadow _ _ _

/-! ## The rings of a tenant -/

theorem State.startRead_sessionsOnly (s : State) (t : Nat) : SessionsOnly s (s.startRead t) := by
  unfold State.startRead
  extract_lets x
  split
  · exact (s.setTen_sessionsOnly _ _).thenQuiet (State.emit_quiet _ _)
  · exact .refl s

theorem State.regs_startRead (s : State) (t : Nat) : (s.startRead t).regs = s.regs := by
  unfold State.startRead
  extract_lets x
  split
  · exact State.emit_regs _ _
  · rfl

theorem State.pend_startRead (s : State) (t : Nat) : ((s.startRead t).ten t).pend = (s.ten t).pend := by
  unfold State.startRead
  extract_lets x
  split
  · rw [(State.emit_quiet _ _).ten, State.ten_setTen_self]
  · rfl

theorem State.passHead_sessionsOnly (s : State) (t : Nat) : SessionsOnly s (s.passHead t) := by
  unfold State.passHead
  extract_lets h s1 _ s2
  have h1 : Quiet s s1 := (s.setFld_quiet _ _ _).trans (State.shadowLive_quiet _ _ _ _)
  have h2 : SessionsOnly s s2 := (SessionsOnly.of_quiet h1).trans (s1.setTen_sessionsOnly _ _)
  exact (h2.thenQuiet (s2.irq_if_quiet _ _ _)).trans (State.startRead_sessionsOnly _ _)

/-- The head that passes an entry leaves what waits for the token ring. -/
theorem State.pend_passHead (s : State) (t : Nat) : ((s.passHead t).ten t).pend = (s.ten t).pend := by
  unfold State.passHead
  extract_lets h s1 _ s2
  have h1 : Quiet s s1 := (s.setFld_quiet _ _ _).trans (State.shadowLive_quiet _ _ _ _)
  rw [State.pend_startRead, (s2.irq_if_quiet _ _ _).ten, ← h1.ten]
  unfold s2
  rw [State.ten_setTen_self]

/-- The head that passes an entry changes its index, and at most the pending bits of an MSI-X page. -/
theorem State.reg_passHead (s : State) (t : Nat) (pg : Page) (b : Nat) {o : Nat} (ho : o < 0x800) (hne : 0x064 ≠ o) :
    (s.passHead t).reg pg b o = s.reg pg b o := by
  unfold State.passHead
  extract_lets h s1 _ s2
  have h2 : s2.reg pg b o = s.reg pg b o := by
    rw [State.reg_congr (show s2.regs = s1.regs from rfl), State.reg_congr (State.regs_shadowLive _ _ _ _),
      s.reg_setFld_of_offset_ne _ _ _ _ _ (by omega) (by decide) hne]
  rw [State.reg_congr (State.regs_startRead _ _)]
  split
  · rw [s2.reg_irq_off _ _ _ _ (by omega) (by omega), h2]
  · exact h2

/-! ## Records that leave for a token ring -/

theorem State.sendRecords_quiet (s : State) (t : Nat) (ps : List PRec) : Quiet s (s.sendRecords t ps) :=
  foldl_keeps (Quiet s) _ (fun u _ hu => hu.trans (u.emit_quiet _)) _ s (Quiet.refl s)

/-- A record committed changes the commit table and nothing else (R462). -/
theorem State.commitRec_leaves (s : State) (p : PRec) : SessionsOnly s (s.commitRec p) ∧ (s.commitRec p).regs = s.regs := by
  unfold State.commitRec
  extract_lets x
  split
  · exact ⟨⟨_, _, _, Quiet.refl _⟩, rfl⟩
  · exact ⟨.refl s, rfl⟩

theorem State.foldl_commitRec_leaves (s : State) (ps : List PRec) :
    SessionsOnly s (ps.foldl (fun s p => s.commitRec p) s) ∧ (ps.foldl (fun s p => s.commitRec p) s).regs = s.regs := by
  refine foldl_keeps (fun u : State => SessionsOnly s u ∧ u.regs = s.regs) _ (fun u p ⟨hu, hr⟩ => ?_) ps s ⟨.refl s, rfl⟩
  obtain ⟨hp, hq⟩ := u.commitRec_leaves p
  exact ⟨hu.trans hp, hq.trans hr⟩

theorem State.trSize_le (s : State) (t : Nat) : s.trSize t ≤ 2 ^ 20 :=
  Nat.pow_le_pow_right (by decide) (Nat.min_le_left _ _)

theorem State.trSize_pos (s : State) (t : Nat) : 0 < s.trSize t := Nat.two_pow_pos _

/-- TR_TAIL holds every place of the ring. -/
theorem State.trTail_setFld (s u : State) (t n : Nat) : (u.setFld (pgTnt t) F.tnt0_TR_TAIL_INDEX (n % s.trSize t)).trTail t = n % s.trSize t :=
  u.fld_setFld_self _ (by decide) (Nat.lt_of_lt_of_le (Nat.mod_lt _ (s.trSize_pos t)) (s.trSize_le t))

theorem State.trTail_of_reg {s u : State} {t : Nat} (h : u.reg (pgTnt t) 0 0x068 = s.reg (pgTnt t) 0 0x068) : u.trTail t = s.trTail t :=
  State.fld_of_reg h

/-- A delivery moves the tail over its records, and the later ones wait on (R400, R402). -/
theorem State.deliver_moves (s : State) (t k : Nat) : SessionsOnly s (s.deliver t k) ∧ ((s.deliver t k).ten t).pend = (s.ten t).pend.drop k
    ∧ (s.deliver t k).trTail t = (s.trTail t + k) % s.trSize t := by
  unfold State.deliver
  extract_lets x ps tail s2 s3 cnt fire _ s4 s5
  have h2 : Quiet s s2 := ((s.sendRecords_quiet _ _).trans (State.shadow_quiet _ _ _ _)).setFld _ _ _
  obtain ⟨h3, hr3⟩ := s2.foldl_commitRec_leaves ps
  have h4 : SessionsOnly s s4 := ((SessionsOnly.of_quiet h2).trans h3).trans (s3.setTen_sessionsOnly _ _)
  have hp4 : (s4.ten t).pend = x.pend.drop k := congrArg Ten.pend (s3.ten_setTen_self _ _)
  have ht4 : s4.trTail t = tail := by
    have h42 : s4.trTail t = s2.trTail t := congrFun (congrFun (State.fld_congr hr3) _) _
    exact h42.trans (State.trTail_setFld s _ t _)
  have h5 : Quiet s4 s5 := s4.irq_if_quiet _ _ _
  have hp5 : (s5.ten t).pend = x.pend.drop k := by rw [h5.ten]; exact hp4
  have ht5 : s5.trTail t = tail := by
    refine Eq.trans ?_ ht4
    unfold s5
    split
    · exact State.trTail_of_reg (s4.reg_irq_off _ _ _ _ (by decide) (by decide))
    · rfl
  split
  · exact ⟨(h4.thenQuiet h5).trans (s5.passHead_sessionsOnly _), (s5.pend_passHead _).trans hp5,
      (State.trTail_of_reg (s5.reg_passHead _ _ _ (by decide) (by decide))).trans ht5⟩
  · exact ⟨h4.thenQuiet h5, hp5, ht5⟩

/-! ## Deadlines, times to live and interrupts of a token ring -/

section
variable {s : State} (hb : s.booted = true)
include hb

section
variable {h : W32} (hc : (s.sesOf h.toNat).closing = false) (hbusy : s.busy h.toNat = false)
include hc hbusy

theorem exec_deadlineExpiry : exec (.deadlineExpiry h) s = .next (s.deadlines h.toNat) := by
  change execDeadlineExpiry h s = _
  rw [execDeadlineExpiry, s.gate_booted _ hb]
  exact if_neg (by simp [hc, hbusy])

theorem exec_timeToLiveExpiry : exec (.timeToLiveExpiry h) s = .next (s.expire h.toNat) := by
  change execTimeToLiveExpiry h s = _
  rw [execTimeToLiveExpiry, s.gate_booted _ hb]
  exact if_neg (by simp [hc, hbusy])

end

section
variable {t : Fin 64} (hf : s.fnState t = fnReady ∨ s.fnState t = fnFault)
include hf

theorem exec_tokenIrqDelayExpiry (hu : (s.ten t).unsignalled ≠ 0) (hd : s.fld (pgTnt t) F.tnt0_TR_IRQ_DELAY_VALUE ≠ 0) :
    exec (.tokenIrqDelayExpiry t) s = .next ((s.setTen t { s.ten t with unsignalled := 0 }).irq (t + 1) 0) := by
  change execTokenIrqDelayExpiry t s = _
  rw [execTokenIrqDelayExpiry, s.gate_booted _ hb]
  exact if_neg (by simp [hu, hd, hf])

theorem exec_tokenDelivery {count : W32} (hk : s.deliverable t count.toNat ≠ 0) :
    exec (.tokenDelivery t count) s = .next (s.deliver t (s.deliverable t count.toNat)) := by
  change execTokenDelivery t count s = _
  rw [execTokenDelivery, s.gate_booted _ hb]
  exact if_neg (by simp [hk, hf])

end

end

/-- A PARKED session whose time to settle has come starts to settle (R325, R327). -/
theorem State.expire_parked {s : State} {h : Nat} (hv : s.timeValid = true) (hn : s.ttlOf (s.sesOf h) 0 ≠ ttlNever)
    (hst : (s.sesOf h).st = .parked) (hdue : (s.sesOf h).entered.toNat + s.ttlOf (s.sesOf h) 0 ≤ s.nowOf (s.sesOf h)) :
    s.expire h = s.enter h .settling := by
  unfold State.expire
  simp only [hst]
  exact if_pos (by simp [hv, hn, hdue])

/-- Settles O10: each event by its equation, and a delivery by what it moves. -/
theorem expiriesAndDeliveriesComplete : Obligations.ExpiriesAndDeliveriesComplete := by
  unfold Obligations.ExpiriesAndDeliveriesComplete
  refine ⟨⟨fun s h hb hc hbusy => ⟨exec_deadlineExpiry hb hc hbusy, exec_timeToLiveExpiry hb hc hbusy⟩,
    fun s h hv hn hst hdue => State.expire_parked hv hn hst hdue, fun s t hb hu hd hf => ?_⟩, fun s t count hb hk hf => ?_⟩
  · refine ⟨_, exec_tokenIrqDelayExpiry hb hf hu hd, ?_, rfl⟩
    rw [(State.irq_quiet _ _ _).ten, State.ten_setTen_self]
  · obtain ⟨hs, hpend, htail⟩ := s.deliver_moves t (s.deliverable t count.toNat)
    exact ⟨_, exec_tokenDelivery hb hf hk, htail, hpend, hs.sameStacks, hs.sameTiers, hs.samePumps, hs.sameEngines, hs.sameLink, hs.sameTime,
      hs.sameQueue, hs.sameTrust⟩

end Sys2Proof.Machine

/-! # Submissions and the journal -/

namespace Sys2Proof.Machine
open Sys2Proof

/-! ## Counted events and fields beside them -/

/-- A field keeps its value when a field at another offset is set, on whichever page. -/
theorem State.fld_setFld_of_offset_ne (s : State) (pg pg' : Page) (f g : Fld) (v : Nat) (hg : g.off < 4096) (hf : f.off < 4096) (hne : f.off ≠ g.off) :
    (s.setFld pg' f v).fld pg g = s.fld pg g :=
  State.fld_of_reg (s.reg_setFld_of_offset_ne _ _ _ _ _ hg hf hne)

/-- An event counts in EVT_COUNT of its page, and leaves every other field. -/
theorem State.fld_event (s : State) (pg pg' : Page) (g : Fld) (hg : g.off < 4096) (hne : 0x01C ≠ g.off) : (s.event pg').fld pg g = s.fld pg g :=
  s.fld_setFld_of_offset_ne _ _ F.hdr_EVT_COUNT _ _ hg (by decide) hne

/-- What is sent while no function sleeps leaves at once. -/
theorem State.egress_emit {s : State} (h3 : s.d3hot = []) (e : Egress) : (s.emit e).egress = s.egress ++ [e] :=
  congrArg State.egress (s.emit_egress e (.inl h3))

/-! ## Doorbells -/

section
variable {s : State} {t : Fin 64} (hl : s.pageLive (pgTnt1 t) = true) (v : W32)
include hl

theorem exec_sqDoorbell : exec (.sqDoorbell t v) s
    = .next (if bitsOf v.toNat 19 0 ≥ (s.event (pgTnt1 t)).sqSize t then (s.event (pgTnt1 t)).badDoorbell t (bitsOf v.toNat 19 0) false
      else ((s.event (pgTnt1 t)).setFld (pgTnt1 t) F.tnt1_SQ_DB_INDEX (bitsOf v.toNat 19 0)).startRead t) := by
  change execSqDoorbell t v s = _
  rw [execSqDoorbell, State.regWrite, if_pos hl]

/-- A token-ring doorbell is judged by the ring as it stands, which a counted event leaves. -/
theorem exec_trDoorbell : exec (.trDoorbell t v) s
    = .next (let i := bitsOf v.toNat 19 0
      let s1 := s.event (pgTnt1 t)
      let n := s1.trSize t
      if i ≥ n || (i + n - s1.trDb t % n) % n > (s1.trTail t + n - s1.trDb t % n) % n then s1.badDoorbell t i true
      else s1.setFld (pgTnt1 t) F.tnt1_TR_DB_INDEX i) := by
  change execTrDoorbell t v s = _
  have hn : (s.event (pgTnt1 t)).trSize t = s.trSize t := by
    rw [State.trSize, State.trSize, s.fld_event _ _ _ (by decide) (by decide)]
  have hd : (s.event (pgTnt1 t)).trDb t = s.trDb t := s.fld_event _ _ _ (by decide) (by decide)
  have ht : (s.event (pgTnt1 t)).trTail t = s.trTail t := s.fld_event _ _ _ (by decide) (by decide)
  rw [execTrDoorbell, State.regWrite, if_pos hl]
  simp only [hn, hd, ht]

end

/-- Slots freed by a doorbell: TR_DB takes the index, and the ring's tail stays (R400). -/
theorem State.trDb_doorbell (s : State) (t : Fin 64) (v : W32) :
    let u := (s.event (pgTnt1 t)).setFld (pgTnt1 t) F.tnt1_TR_DB_INDEX (bitsOf v.toNat 19 0)
    Quiet s u ∧ u.trDb t = bitsOf v.toNat 19 0 ∧ u.trTail t = s.trTail t := by
  refine ⟨(s.event_quiet _).setFld _ _ _, State.fld_setFld_self _ _ (by decide) (bitsOf_lt _ _ _), ?_⟩
  exact (State.fld_setFld_of_offset_ne _ _ _ _ _ _ (by decide) (by decide) (by decide)).trans (s.fld_event _ _ _ (by decide) (by decide))

/-! ## The read of an entry -/

/-- An entry is published, and the keeper may read it (R314, R399). -/
theorem State.startRead_of_published {s : State} {t : Nat} (hf : s.fnState t = fnReady) (hr : (s.ten t).reading = false) (he : (s.ten t).entry = none)
    (hk : (s.ten t).taking = false) (hu : (s.ten t).refusing = false) (hd : s.sqHead t ≠ s.sqDb t) :
    s.startRead t = (s.setTen t { s.ten t with reading := true }).emit (.hostRead (t + 1) (BitVec.ofNat 64 (s.sqAddr t)) 64) :=
  if_pos ⟨hf, by simp [hr], he, by simp [hk], by simp [hu], hd⟩

theorem State.readEntry_quiet (s : State) (t : Nat) (e : List Byte) (host : Option (List Byte)) : Quiet s (s.readEntry t e host) := by
  unfold State.readEntry
  split
  · exact s.emit_quiet _
  · exact .refl s

/-! ## Entries refused -/

/-- An entry refused puts one record in the queue for the token ring, and nothing in the journal (R315). -/
theorem State.refuseEntry_leaves (s : State) (t : Nat) (e : List Byte) : ((s.refuseEntry t e).ten t).refusing = true
    ∧ ((s.refuseEntry t e).ten t).pend.length = (s.ten t).pend.length + 1 ∧ (s.refuseEntry t e).ses.journal = s.ses.journal := by
  unfold State.refuseEntry
  extract_lets h y d seq d2 r s2
  have h2 : s2.ses = s.ses := by
    unfold s2
    split <;> rfl
  have h2t : s2.ten t = s.ten t := by rw [State.ten, h2, State.ten]
  refine ⟨?_, ?_, ?_⟩
  · rw [(State.raise_quiet _ _ _).ten, State.ten_setTen_self]
  · rw [(State.raise_quiet _ _ _).ten, State.ten_setTen_self, h2t]
    exact List.length_append
  · rw [(State.raise_quiet _ _ _).ses]
    exact (congrArg SesAll.journal h2 :)

/-! ## The journal -/

/-- A record joins the end of the journal, not yet complete (R459). -/
theorem State.journalAdd_journal (s : State) (h owner kind round aux : Nat) (body : List Byte) (what : JWhat) :
    ∃ r : JRec, (s.journalAdd h owner kind round aux body what).ses.journal = s.ses.journal ++ [r] ∧ r.what = what ∧ r.ses = h ∧ r.done = false :=
  ⟨_, rfl, rfl, rfl, rfl⟩

theorem State.ten_journalAdd (s : State) (h owner kind round aux : Nat) (body : List Byte) (what : JWhat) :
    (s.journalAdd h owner kind round aux body what).ten = s.ten := rfl

theorem State.journalAdd_sessionsOnly (s : State) (h owner kind round aux : Nat) (body : List Byte) (what : JWhat) :
    SessionsOnly s (s.journalAdd h owner kind round aux body what) := ⟨_, _, _, Quiet.refl _⟩

theorem State.sesOf_journalAdd_self (s : State) (h owner kind round aux : Nat) (body : List Byte) (what : JWhat) :
    (s.journalAdd h owner kind round aux body what).sesOf h = { s.sesOf h with jseq := (s.sesOf h).jseq + 1 } :=
  State.sesOf_setSes_self _ _ _

/-- The check of a region changes which regions are full, and reports (R464). -/
theorem State.journalCheck_leaves (s : State) : ∃ l, Quiet { s with ses := { s.ses with full := l } } s.journalCheck := by
  unfold State.journalCheck
  refine foldl_keeps (fun u => ∃ l, Quiet { s with ses := { s.ses with full := l } } u) _ (fun u q ⟨l, hu⟩ => ?_) _ s ⟨_, Quiet.refl s⟩
  obtain ⟨r, e, f, g, w, rfl⟩ := hu
  extract_lets size free
  split_ifs
  · exact ⟨_, r, e, f, g, w, rfl⟩
  · exact ⟨l, r, e, f, g, w, rfl⟩
  · exact ⟨q :: l, Quiet.trans (Quiet.trans ⟨r, e, f, g, w, rfl⟩ (State.raise_quiet _ _ _)) (State.logErr_quiet _ _ _ _ _ _)⟩
  · exact ⟨l, r, e, f, g, w, rfl⟩

theorem State.journalCheck_journal (s : State) : s.journalCheck.ses.journal = s.ses.journal :=
  let ⟨_, h⟩ := s.journalCheck_leaves; (congrArg SesAll.journal h.ses :)

theorem State.ten_journalCheck (s : State) : s.journalCheck.ten = s.ten :=
  let ⟨_, h⟩ := s.journalCheck_leaves; h.ten

theorem State.journalCheck_sessionsOnly (s : State) : SessionsOnly s s.journalCheck :=
  let ⟨_, h⟩ := s.journalCheck_leaves; ⟨_, _, _, h⟩

/-! ## Entries accepted -/

/-- An entry accepted puts its ACCEPT record at the journal's end (R316, R461). -/
theorem State.acceptEntry_leaves (s : State) (t : Nat) (e : List Byte) (host : Option (List Byte)) (owner : Nat) (req : Req) (slot : Nat) :
    ((s.acceptEntry t e host owner req slot).ten t).taking = true
    ∧ ∃ r : JRec, (s.acceptEntry t e host owner req slot).ses.journal = s.ses.journal ++ [r] ∧ r.what = .accept t req ∧ r.ses = leAt e 4 4
      ∧ r.done = false := by
  unfold State.acceptEntry
  extract_lets h typ data _ s2 _ s3
  have h3 : s3.ses.journal = s.ses.journal := by
    unfold s3 s2
    split <;> rfl
  refine ⟨?_, ?_⟩
  · rw [State.ten_journalCheck, State.ten_journalAdd, State.ten_setTen_self]
  · rw [State.journalCheck_journal, ← h3]
    exact State.journalAdd_journal _ _ _ _ _ _ _ _

/-! ## An entry taken -/

section
variable {s : State} {t : Fin 64} {host : Option (List Byte)} {e : List Byte} (hb : s.booted = true) (he : (s.ten t).entry = some e)
  (hm : s.mayTake t e = true)
include hb he hm

theorem exec_submissionTake_refused (hr : s.entryRefused t e host = true) :
    exec (.submissionTake t host) s = .next ((s.readEntry t e host).refuseEntry t e) := by
  change execSubmissionTake t host s = _
  rw [execSubmissionTake, s.gate_booted _ hb, he]
  simp [hm, hr]

theorem exec_submissionTake_accepted (hr : s.entryRefused t e host = false) :
    exec (.submissionTake t host) s = .next ((s.readEntry t e host).acceptEntry t e host (s.entryOwner t e) (s.entryReq t e host)
      (if leAt e 0 1 = tOpen then s.freeSlot else 0)) := by
  change execSubmissionTake t host s = _
  rw [execSubmissionTake, s.gate_booted _ hb, he]
  simp [hm, hr]

end

/-- Settles O43: each doorbell by its equation, and an entry by what refusing and accepting it leave. -/
theorem submissionCompletes : Obligations.SubmissionCompletes := by
  unfold Obligations.SubmissionCompletes
  refine ⟨fun s t v hl => ⟨fun hi => ?_, fun hi => ?_, fun hi hfree => ?_, fun hi => ?_⟩, fun s t hf hr he hk hu hd => ?_,
    fun s t host e hb he hm => ⟨fun hr => ?_, fun hr => ?_⟩⟩
  · rw [exec_sqDoorbell hl, if_neg (by omega)]
  · rw [exec_sqDoorbell hl, if_pos hi]
  · obtain ⟨hq, hdb, htail⟩ := s.trDb_doorbell t v
    refine ⟨_, ?_, hdb, htail, hq.sameMemory, hq.sameMemory_sessions.2, (SessionsOnly.of_quiet hq).sameStacks⟩
    rw [exec_trDoorbell hl]
    exact congrArg Host.Outcome.next (if_neg (by simp only [Bool.or_eq_true, decide_eq_true_eq]; omega))
  · rw [exec_trDoorbell hl]
    exact congrArg Host.Outcome.next (if_pos (by simp only [Bool.or_eq_true, decide_eq_true_eq]; exact .inl hi))
  · rw [State.startRead_of_published hf hr he hk hu hd]
    refine ⟨?_, fun h3 => State.egress_emit (s := s.setTen t _) h3 _⟩
    rw [(State.emit_quiet _ _).ten, State.ten_setTen_self]
  · obtain ⟨href, hpend, hj⟩ := (s.readEntry t e host).refuseEntry_leaves t e
    have hq := s.readEntry_quiet t e host
    rw [hq.ten] at hpend
    rw [hq.ses] at hj
    exact ⟨_, exec_submissionTake_refused hb he hm hr, rfl, href, hpend, hj⟩
  · obtain ⟨htake, r, hj, hrest⟩ := (s.readEntry t e host).acceptEntry_leaves t e host (s.entryOwner t e) (s.entryReq t e host)
      (if leAt e 0 1 = tOpen then s.freeSlot else 0)
    rw [(s.readEntry_quiet t e host).ses] at hj
    exact ⟨_, exec_submissionTake_accepted hb he hm hr, htake, r, hj, hrest⟩

end Sys2Proof.Machine

/-! # Requests of a session -/

namespace Sys2Proof.Machine
open Sys2Proof

/-! ## Records, effects and completions -/

/-- `y` is the session `x` with other numbers for its next record and journal record (R460, R462). -/
def Session.Renumbered (x y : Session) : Prop := ∃ n j, y = { x with rnum := n, jseq := j }

theorem State.sesOf_setSes_ne (s : State) (h : Nat) (x : Session) {j : Nat} (hne : j ≠ h) : (s.setSes h x).sesOf j = s.sesOf j := by
  rw [State.sesOf_setSes, if_neg hne.symm]

/-- Records written are journalled, and number on (R461, R462). -/
theorem State.writeRecords_leaves (s : State) (h round : Nat) (rs : List (List Byte)) :
    SessionsOnly s (s.writeRecords h round rs) ∧ (s.sesOf h).Renumbered ((s.writeRecords h round rs).sesOf h) := by
  unfold State.writeRecords
  extract_lets x ps body
  split
  · exact ⟨.refl s, _, _, rfl⟩
  · refine ⟨(s.setSes_sessionsOnly _ _).trans (State.journalAdd_sessionsOnly _ _ _ _ _ _ _ _), x.rnum + rs.length, x.jseq + 1, ?_⟩
    rw [State.sesOf_journalAdd_self, State.sesOf_setSes_self]

theorem State.plainRecord_leaves (s : State) (h tok flags status rtag : Nat) :
    SessionsOnly s (s.plainRecord h tok flags status rtag) ∧ (s.sesOf h).Renumbered ((s.plainRecord h tok flags status rtag).sesOf h) :=
  let ⟨hs, hx⟩ := s.draw.2.writeRecords_leaves h 0 _
  ⟨s.draw_sessionsOnly.trans hs, hx⟩

theorem State.effect_leaves (s : State) (h : Nat) (r : Req) : SessionsOnly s (s.effect h r) ∧ (s.sesOf h).Renumbered ((s.effect h r).sesOf h) :=
  ⟨State.journalAdd_sessionsOnly _ _ _ _ _ _ _ _, _, _, State.sesOf_journalAdd_self _ _ _ _ _ _ _ _⟩

theorem State.sesOf_enter_self (s : State) (h : Nat) (st : SesState) :
    (s.enter h st).sesOf h = { s.sesOf h with st := st, entered := s.stampOf (s.sesOf h).owner } :=
  State.sesOf_setSes_self _ _ _

/-- A request completed leaves its session's list, and the session moves as its requests and marks tell (R320, R325). -/
theorem State.complete_eq_settleMove (s : State) (h : Nat) (r : Req) {status : Nat} (hst : status ≠ stKvLimit) :
    ∃ u, s.complete h r status = u.settleMove h ∧ SessionsOnly s u ∧ ((s.sesOf h).drop r).Renumbered (u.sesOf h) := by
  obtain ⟨hs, n, j, hx⟩ := s.plainRecord_leaves h 0xFFFFFF rLast status r.rtag
  refine ⟨_, congrArg (State.settleMove · h) (if_neg hst), hs.trans (State.setSes_sessionsOnly _ _ _), n, j, ?_⟩
  rw [State.sesOf_setSes_self, hx, Session.drop, Session.drop]

theorem State.doneEffect_eq_settleMove (s : State) (h : Nat) (r : Req) :
    ∃ u, s.doneEffect h r = u.settleMove h ∧ SessionsOnly s u ∧ ((s.sesOf h).drop r).Renumbered (u.sesOf h) := by
  obtain ⟨hs, n, j, hx⟩ := s.effect_leaves h r
  obtain ⟨u, hu, hsu, n', j', hxu⟩ := (s.effect h r).complete_eq_settleMove h r (status := stDone) (by decide)
  refine ⟨u, hu, hs.trans hsu, n', j', ?_⟩
  rw [hxu, hx, Session.drop, Session.drop]

/-- `t` is `s` but for sessions, and the session `h` has the mark, the history and the requests it had. -/
def SameWork (h : Nat) (s t : State) : Prop := SessionsOnly s t ∧ (t.sesOf h).suspended = (s.sesOf h).suspended ∧ (t.sesOf h).hist = (s.sesOf h).hist
  ∧ (t.sesOf h).reqs = (s.sesOf h).reqs

namespace SameWork
variable {h : Nat} {s t u : State}

theorem refl : SameWork h s s := ⟨.refl s, rfl, rfl, rfl⟩

theorem ite {c : Prop} [Decidable c] (ht : SameWork h s t) (hu : SameWork h s u) : SameWork h s (if c then t else u) := by
  split
  · exact ht
  · exact hu

theorem enter (hu : SameWork h s u) {st : SesState} : SameWork h s (u.enter h st) := by
  obtain ⟨h0, h1, h2, h3⟩ := hu
  refine ⟨h0.trans (u.setSes_sessionsOnly _ _), ?_⟩
  rw [u.sesOf_enter_self]
  exact ⟨h1, h2, h3⟩

theorem wake {w : Bool} : SameWork h s (s.setSes h { s.sesOf h with wake := w }) := by
  refine ⟨s.setSes_sessionsOnly _ _, ?_⟩
  rw [s.sesOf_setSes_self]
  exact ⟨rfl, rfl, rfl⟩

end SameWork

/-- A move keeps a session's mark, history and requests (R325). -/
theorem State.settleMove_sameWork (s : State) (h : Nat) : SameWork h s (s.settleMove h) := by
  unfold State.settleMove
  extract_lets x wakes
  split
  · exact .ite (.enter .refl) .refl
  · exact .ite (.enter .refl) .refl
  · exact .ite (.enter .wake) .refl
  · exact .ite (.enter .wake) .refl
  · exact .ite .wake .refl
  · exact .ite .wake .refl
  · exact .refl

/-- A suspended session that was PARKED or ACTIVE rests in PARKED (R325, R326). -/
theorem State.settleMove_suspended {s : State} {h : Nat} (hsusp : (s.sesOf h).suspended = true)
    (hst : (s.sesOf h).st = .active ∨ (s.sesOf h).st = .parked) : ((s.settleMove h).sesOf h).st = .parked := by
  unfold State.settleMove
  obtain hst | hst := hst
  · simp only [hst, hsusp, Bool.or_true, if_true, State.sesOf_enter_self]
  · simp [hst, hsusp]

/-! ## PARK and RESUME -/

/-- PARK suspends the session, which rests in PARKED, and completes (R326). -/
theorem State.park_leaves {s : State} {k : Nat} (r : Req) (hst : (s.sesOf k).st = .active ∨ (s.sesOf k).st = .parked) :
    ((s.park k r).sesOf k).suspended = true ∧ ((s.park k r).sesOf k).st = .parked ∧ ((s.park k r).sesOf k).hist = (s.sesOf k).hist
      ∧ ((s.park k r).sesOf k).reqs = (s.sesOf k).reqs.erase r ∧ SessionsOnly s (s.park k r) := by
  obtain ⟨u, hu, hsu, n, j, hx⟩ := (s.setSes k { s.sesOf k with suspended := true }).doneEffect_eq_settleMove k r
  rw [State.sesOf_setSes_self, Session.drop] at hx
  obtain ⟨hm, hsusp, hhist, hreqs⟩ := u.settleMove_sameWork k
  rw [State.park, hu, hsusp, hhist, hreqs]
  have hpark : ((u.settleMove k).sesOf k).st = .parked := State.settleMove_suspended (by rw [hx]) (by rw [hx]; exact hst)
  rw [hx]
  exact ⟨rfl, hpark, rfl, rfl, ((s.setSes_sessionsOnly _ _).trans hsu).trans hm⟩

theorem State.suspended_effect (s : State) (h : Nat) (r : Req) : ((s.effect h r).sesOf h).suspended = (s.sesOf h).suspended := by
  obtain ⟨-, n, j, hx⟩ := s.effect_leaves h r
  rw [hx]

theorem State.suspended_doneEffect (s : State) (h : Nat) (r : Req) : ((s.doneEffect h r).sesOf h).suspended = (s.sesOf h).suspended := by
  obtain ⟨u, hu, -, n, j, hx⟩ := s.doneEffect_eq_settleMove h r
  obtain ⟨-, hsusp, -, -⟩ := u.settleMove_sameWork h
  rw [hu, hsusp, hx, Session.drop]

/-- RESUME takes the mark off, and wakes a session whose pages have left the banked pool (R326, R330). -/
theorem State.resume_leaves (s : State) (k : Nat) (r : Req) : ((s.resume k r).sesOf k).suspended = false
    ∧ ((s.sesOf k).st = .settled ∨ (s.sesOf k).st = .sunk → ((s.resume k r).sesOf k).st = .waking) := by
  have heffect : ∀ y : Session, y.suspended = false → (((s.setSes k y).effect k r).sesOf k).suspended = false := fun y hy => by
    rw [State.suspended_effect, State.sesOf_setSes_self, hy]
  have hdone : ∀ y : Session, y.suspended = false → (((s.setSes k y).doneEffect k r).sesOf k).suspended = false := fun y hy => by
    rw [State.suspended_doneEffect, State.sesOf_setSes_self, hy]
  have henter : ∀ u : State, (u.sesOf k).suspended = false → ((u.enter k .waking).sesOf k).suspended = false ∧ ((u.enter k .waking).sesOf k).st = .waking :=
    fun u hu => by
      rw [u.sesOf_enter_self]
      exact ⟨hu, rfl⟩
  unfold State.resume
  extract_lets x y
  split <;> rename_i hst
  case h_1 | h_2 => exact (henter _ (heffect _ rfl)).imp_right fun h _ => h
  case h_3 | h_4 | h_5 => exact ⟨heffect _ rfl, fun h => by simp [x] at hst; simp [hst] at h⟩
  case h_6 _ hsettled hsunk _ _ => exact ⟨hdone _ rfl, fun h => h.elim (absurd · hsettled) (absurd · hsunk)⟩

/-! ## Requests at the head of their session -/

section
variable {s : State} {h : W32} {r : Req} (hb : s.booted = true) (hc : (s.sesOf h.toNat).closing = false)
include hb hc

theorem exec_openCmd (hr : (s.sesOf h.toNat).headReq = some r) (ht : r.typ = tOpen) (hst : (s.sesOf h.toNat).st = .gone) :
    exec (.openCmd h) s = .next (((s.setSes h.toNat { s.sesOf h.toNat with
      model := leAt r.entry 0x10 1, lead := bitOf (leAt r.entry 0x11 1) 0, share := bitOf (leAt r.entry 0x11 1) 1
      notify := bitOf (leAt r.entry 0x11 1) 2, adapter := adapterField (leAt r.entry 0x12 2)
      ttl := [leAt r.entry 0x18 8, leAt r.entry 0x20 8, leAt r.entry 0x28 8] }).enter h.toNat .parked).doneEffect h.toNat r) := by
  change execOpen h s = _
  rw [execOpen, s.gate_booted _ hb]
  simp only [hr]
  exact if_pos ⟨ht, hst, by simp [hc]⟩

theorem exec_cancel (hr : (s.sesOf h.toNat).reqs.find? (fun r => r.typ == tCancel) = some r) (hbusy : s.busy h.toNat = false) :
    exec (.cancel h) s = .next (s.cancel h.toNat r) := by
  change execCancel h s = _
  rw [execCancel, s.gate_booted _ hb]
  simp only [hr]
  exact if_pos ⟨by simp [hc], by simp [hbusy]⟩

section
variable (hr : (s.sesOf h.toNat).parkReq = some r) (hbusy : s.busy h.toNat = false)
include hr hbusy

theorem exec_park (ht : r.typ = tPark) : exec (.park h) s = .next (s.park h.toNat r) := by
  change execPark h s = _
  rw [execPark, s.gate_booted _ hb]
  simp only [hr]
  exact if_pos ⟨ht, by simp [hc], by simp [hbusy]⟩

theorem exec_resume (ht : r.typ = tResume) : exec (.resume h) s = .next (s.resume h.toNat r) := by
  change execResume h s = _
  rw [execResume, s.gate_booted _ hb]
  simp only [hr]
  exact if_pos ⟨ht, by simp [hc], by simp [hbusy]⟩

end

section
variable (hr : (s.sesOf h.toNat).headReq = some r) (hbusy : s.busy h.toNat = false)
include hr hbusy

omit hb in
/-- The request at the head of an idle session's order runs (R317). -/
theorem State.onHead_some {typ : Nat} (ht : r.typ = typ) (f : Req → State → State) : s.onHead h typ f = .next (f r s) := by
  unfold State.onHead
  simp only [hr]
  exact if_pos ⟨ht, by simp [hc], by simp [hbusy]⟩

theorem exec_close (ht : r.typ = tClose) : exec (.close h) s = .next
    ((((s.effect h.toNat r).plainRecord h.toNat 0xFFFFFF rLast stDone r.rtag).setSes h.toNat
      ((((s.effect h.toNat r).plainRecord h.toNat 0xFFFFFF rLast stDone r.rtag).sesOf h.toNat).drop r)).endSession h.toNat none) := by
  change execClose h s = _
  rw [execClose, s.gate_booted _ hb, State.onHead_some hc hr hbusy ht]

section
variable (hstart : r.started = false) (hst : (s.sesOf h.toNat).st = .active) (hsusp : (s.sesOf h.toNat).suspended = false)
include hstart hst hsusp

theorem exec_append (ht : r.typ = tAppend) : exec (.append h) s
    = .next (((s.setSes h.toNat ((s.sesOf h.toNat).putReq r { r with started := true })).linkPrefix h.toNat (r.left.length / 64 + 2)).finishAppend
      h.toNat) := by
  change execAppend h s = _
  rw [execAppend, s.gate_booted _ hb, State.onHead_some hc hr hbusy ht]
  exact congrArg Host.Outcome.next (if_neg (by simp [hstart, hst, hsusp]))

theorem exec_generate (ht : r.typ = tGenerate) : exec (.generate h) s
    = .next ((s.setSes h.toNat { (s.sesOf h.toNat).putReq r { r with started := true } with allLinked := false }).stampReady h.toNat) := by
  change execGenerate h s = _
  rw [execGenerate, s.gate_booted _ hb, State.onHead_some hc hr hbusy ht]
  exact congrArg Host.Outcome.next (if_neg (by simp [hstart, hst, hsusp]))

end

end

end

/-- A session that becomes ready takes the next number of the keepers' order (R17). -/
theorem State.stampReady_leaves (s : State) (h : Nat) : (s.stampReady h).sesOf h = { s.sesOf h with ready := s.ses.nextOrder }
    ∧ (∀ j, j ≠ h → (s.stampReady h).sesOf j = s.sesOf j) ∧ (s.stampReady h).ses.nextOrder = s.ses.nextOrder + 1
    ∧ SessionsOnly s (s.stampReady h) ∧ (s.stampReady h).egress = s.egress :=
  ⟨State.sesOf_setSes_self _ _ _, fun _ hj => State.sesOf_setSes_ne _ _ _ hj, rfl, ⟨_, _, _, Quiet.refl _⟩, rfl⟩

/-- Settles O44: each request by its equation, PARK and RESUME by what their effect leaves of the session. -/
theorem requestsComplete : Obligations.RequestsComplete := by
  unfold Obligations.RequestsComplete
  intro s h r k x hb hc
  refine ⟨fun hr ht hst => exec_openCmd hb hc hr ht hst, fun hr ht hbusy hstart hst hsusp => exec_append hb hc hr hbusy hstart hst hsusp ht,
    fun hr ht hbusy hstart hst hsusp => ?_, fun hr hbusy ht hst => ?_, fun hr hbusy ht => ⟨exec_resume hb hc hr hbusy ht, s.resume_leaves k r⟩,
    fun hr ht hbusy => exec_close hb hc hr hbusy ht, fun hr hbusy => exec_cancel hb hc hr hbusy⟩
  · let s1 := s.setSes k { x.putReq r { r with started := true } with allLinked := false }
    obtain ⟨hx, hj, hn, hs, he⟩ := s1.stampReady_leaves k
    refine ⟨_, exec_generate hb hc hr hbusy hstart hst hsusp ht, ?_, hn, fun j hne => ?_, ((s.setSes_sessionsOnly _ _).trans hs).sameMemory, he⟩
    · rw [hx, State.sesOf_setSes_self]
      rfl
    · rw [hj j hne, State.sesOf_setSes_ne _ _ _ hne]
  · obtain ⟨hsusp, hpark, hhist, hreqs, hs⟩ := s.park_leaves r hst
    exact ⟨_, exec_park hb hc hr hbusy ht, hsusp, hpark, hhist, hreqs, hs.sameTiers, hs.sameStacks⟩

end Sys2Proof.Machine

/-! # Key/value exchange, adapters -/

namespace Sys2Proof.Machine
open Sys2Proof

/-! ## Key/values read from the host and written to it -/

section
variable {s : State} {h : W32} {r : Req} (hb : s.booted = true) (hc : (s.sesOf h.toNat).closing = false) (hbusy : s.busy h.toNat = false)
include hb hc hbusy

section
variable (hr : (s.sesOf h.toNat).headReq = some r) (hst : (s.sesOf h.toNat).st = .active) (hq : s.fnState (sesTenant h.toNat) ≠ fnQuiescing)
include hr hst hq

/-- An import reads its buffer once; an error of the read completes it MALFORMED (R355). -/
theorem exec_kvImport_none (ht : r.typ = tImport) : exec (.kvImport h none) s
    = .next ((s.emit (.hostRead (sesTenant h.toNat + 1) (BitVec.ofNat 64 (leAt r.entry 0x10 8))
      (mdTotal (s.model (s.sesOf h.toNat).model).md r.toks.length))).complete h.toNat r stMalformed) := by
  change execKvImport h none s = _
  rw [execKvImport, s.gate_booted _ hb, State.onHead_some hc hr hbusy ht]
  exact congrArg Host.Outcome.next (if_neg (by simp [hst, hq]))

/-- An import whose pages are reserved writes them, and its tokens become the history (R356). -/
theorem exec_kvImport_ok (ht : r.typ = tImport) {bs : List Byte} {s1 : State}
    (hok : (s.emit (.hostRead (sesTenant h.toNat + 1) (BitVec.ofNat 64 (leAt r.entry 0x10 8))
      (mdTotal (s.model (s.sesOf h.toNat).model).md r.toks.length))).kvReserve h.toNat r.toks.length = .ok s1) :
    exec (.kvImport h (some bs)) s = .next (((s1.importPages h.toNat r.toks.length bs).setSes h.toNat
      { (s1.importPages h.toNat r.toks.length bs).sesOf h.toNat with hist := r.toks, allLinked := false, lossy := false }).complete
      h.toNat r stDone) := by
  change execKvImport h (some bs) s = _
  rw [execKvImport, s.gate_booted _ hb, State.onHead_some hc hr hbusy ht]
  refine congrArg Host.Outcome.next ((if_neg (by simp [hst, hq])).trans ?_)
  simp only [hok]

theorem exec_kvImport_limit (ht : r.typ = tImport) {bs : List Byte} {s1 : State}
    (hlim : (s.emit (.hostRead (sesTenant h.toNat + 1) (BitVec.ofNat 64 (leAt r.entry 0x10 8))
      (mdTotal (s.model (s.sesOf h.toNat).model).md r.toks.length))).kvReserve h.toNat r.toks.length = .limit s1) :
    exec (.kvImport h (some bs)) s = .next (s1.complete h.toNat r stKvLimit) := by
  change execKvImport h (some bs) s = _
  rw [execKvImport, s.gate_booted _ hb, State.onHead_some hc hr hbusy ht]
  refine congrArg Host.Outcome.next ((if_neg (by simp [hst, hq])).trans ?_)
  simp only [hlim]

theorem exec_kvExport (ht : r.typ = tExport) (hlost : (s.sesOf h.toNat).lost.isEmpty = true)
    (hlen : mdTotal (s.model (s.sesOf h.toNat).model).md (s.sesOf h.toNat).hist.length ≤ leAt r.entry 0x18 8)
    (hread : (s.lostPages h.toNat (fun p n => p.hit s.poisonKeys n)).isEmpty = true) :
    exec (.kvExport h) s = .next ((s.exportPages h.toNat (leAt r.entry 0x10 8)).complete h.toNat r stDone) := by
  change execKvExport h s = _
  rw [execKvExport, s.gate_booted _ hb, State.onHead_some hc hr hbusy ht]
  refine congrArg Host.Outcome.next ((if_neg (by simp [hst, hq, hlost])).trans ((if_neg (by omega)).trans ?_))
  exact if_neg (by simp [hread])

end

/-! ## Binds and purges -/

theorem exec_adapterBind_now (hr : (s.sesOf h.toNat).reqs.find? (fun r => r.typ == tBind && r.flag) = some r) :
    exec (.adapterBind h) s = .next (s.bind h.toNat r) := by
  change execAdapterBind h s = _
  rw [execAdapterBind, s.gate_booted _ hb]
  refine (if_neg (by simp [hc, hbusy])).trans ?_
  simp only [hr]

theorem exec_adapterBind_inOrder (hnow : (s.sesOf h.toNat).reqs.find? (fun r => r.typ == tBind && r.flag) = none)
    (hr : (s.sesOf h.toNat).headReq = some r) (ht : r.typ = tBind) : exec (.adapterBind h) s = .next (s.bind h.toNat r) := by
  change execAdapterBind h s = _
  rw [execAdapterBind, s.gate_booted _ hb]
  refine (if_neg (by simp [hc, hbusy])).trans ?_
  simp only [hnow, hr]
  exact if_pos ht

theorem exec_purge (hten : (s.ten (sesTenant h.toNat)).purges.any (fun p => p.1 == h.toNat) = false)
    (hr : (s.sesOf h.toNat).reqs.find? (fun r => r.typ == tPurge) = some r) : exec (.purge h) s = .next (s.purgeOne h.toNat) := by
  change execPurge h s = _
  have hany : (s.sesOf h.toNat).reqs.any (fun r => r.typ == tPurge) = true :=
    List.any_eq_true.mpr ⟨r, List.mem_of_find?_eq_some hr, List.find?_some (p := fun r : Req => r.typ == tPurge) hr⟩
  rw [execPurge, s.gate_booted _ hb]
  exact (if_neg (by simp only [hten, Bool.false_eq_true, not_false_eq_true])).trans (if_pos ⟨hany, by simp [hc], by simp [hbusy]⟩)

end

/-- Settles O45: each exchange command by its equation. -/
theorem exchangeCompletes : Obligations.ExchangeCompletes := by
  unfold Obligations.ExchangeCompletes
  intro s h r k x m hb hc hbusy
  exact ⟨fun hr ht hst hq => ⟨exec_kvImport_none hb hc hbusy hr hst hq ht, fun bs s1 hok => exec_kvImport_ok hb hc hbusy hr hst hq ht hok,
      fun bs s1 hlim => exec_kvImport_limit hb hc hbusy hr hst hq ht hlim⟩,
    fun hr ht hst hlost hq hlen hread => exec_kvExport hb hc hbusy hr hst hq ht hlost hlen hread, fun hr => exec_adapterBind_now hb hc hbusy hr,
    fun hnow hr ht => exec_adapterBind_inOrder hb hc hbusy hnow hr ht, fun hten hr => exec_purge hb hc hbusy hten hr⟩

/-! ## Adapters -/

theorem State.setAdapter_sessionsOnly (s : State) (a : Nat) (x : Adapter) : SessionsOnly s (s.setAdapter a x) := ⟨_, _, _, Quiet.refl _⟩

theorem Quiet.adapter {s t : State} (h : Quiet s t) (a : Nat) : t.adapter a = s.adapter a := by rw [State.adapter, h.ses, State.adapter]

theorem Quiet.obj {s t : State} (h : Quiet s t) (fn o : Nat) : t.obj fn o = s.obj fn o := by rw [State.obj, h.mem, State.obj]

/-- A command pin changes its object and no memory (R169). -/
theorem State.commandPin_leaves (s : State) (fn o : Nat) (take : Bool) :
    ((s.commandPin fn o take).obj fn o).pins = (if take then (s.obj fn o).pins + 1 else (s.obj fn o).pins - 1)
    ∧ (∀ a, (s.commandPin fn o take).adapter a = s.adapter a) ∧ SameMemory s (s.commandPin fn o take) :=
  ⟨congrArg Obj.pins (s.obj_setObj_self _ _ _), fun _ => rfl, s.setObj_sameMemory _ _ _⟩

section
variable {s : State} (hl : s.pageLive (pgSes 0) = true)
include hl

theorem exec_adapterInstall_full (hv : 8192 ≤ s.versionsPresent) : exec .adapterInstall s
    = .next ((s.setFldB (pgSes 0) (s.fld (pgSes 0) F.ses_ADP_SEL_ADAPTER) F.ses_ADP_STATUS_RESULT 1).raise (pgSes 0) 3) := by
  change execAdapterInstall s = _
  rw [execAdapterInstall, State.regWrite, if_pos hl]
  exact congrArg Host.Outcome.next (if_pos hv)

theorem exec_adapterInstall_ready (hv : s.versionsPresent < 8192)
    (ho : (s.obj 0 (s.fldB (pgSes 0) (s.fld (pgSes 0) F.ses_ADP_SEL_ADAPTER) F.ses_ADP_CFG_OBJ)).st = .ready)
    (hm : (s.model (s.fldB (pgSes 0) (s.fld (pgSes 0) F.ses_ADP_SEL_ADAPTER) F.ses_ADP_CFG_MODEL)).resident = true) :
    exec .adapterInstall s
    = .next (let a := s.fld (pgSes 0) F.ses_ADP_SEL_ADAPTER
      let o := s.fldB (pgSes 0) a F.ses_ADP_CFG_OBJ
      let m := s.fldB (pgSes 0) a F.ses_ADP_CFG_MODEL
      let x := s.adapter a
      let v := nextVersion x 65536 x.last
      ((s.setAdapter a { x with cur := v, last := v, retired := false, model := m
                                vers := x.vers ++ [(v, o, m, s.fldB (pgSes 0) a F.ses_ADP_CFG_RANK_M1 + 1)] }).commandPin 0 o true).setFldB
        (pgSes 0) a F.ses_ADP_STATUS_RESULT 0) := by
  change execAdapterInstall s = _
  rw [execAdapterInstall, State.regWrite, if_pos hl]
  exact congrArg Host.Outcome.next ((if_neg (by omega)).trans ((if_neg (by simp [ho])).trans (if_neg (by simp [hm]))))

theorem exec_adapterRetire : exec .adapterRetire s
    = .next ((s.setAdapter (s.fld (pgSes 0) F.ses_ADP_SEL_ADAPTER) { s.adapter (s.fld (pgSes 0) F.ses_ADP_SEL_ADAPTER) with cur := 0, retired := true
      }).setFldB (pgSes 0) (s.fld (pgSes 0) F.ses_ADP_SEL_ADAPTER) F.ses_ADP_STATUS_RESULT 0) := by
  change execAdapterRetire s = _
  rw [execAdapterRetire, State.regWrite, if_pos hl]

end

theorem exec_adapterVersionFree {s : State} {a v : W16} {o m k : Nat} (hb : s.booted = true)
    (hfind : (s.adapter a.toNat).vers.find? (fun e => e.1 == v.toNat) = some (v.toNat, o, m, k)) (hcur : (s.adapter a.toNat).cur ≠ v.toNat)
    (hused : s.versionUsed a.toNat v.toNat o = false) : exec (.adapterVersionFree a v) s
    = .next ((s.setAdapter a.toNat { s.adapter a.toNat with vers := (s.adapter a.toNat).vers.filter (fun e => e.1 != v.toNat) }).commandPin
      0 o false) := by
  change execAdapterVersionFree a v s = _
  rw [execAdapterVersionFree, s.gate_booted _ hb]
  simp only [hfind]
  exact if_neg (by simp [hcur, hused])

/-- Settles O47: an install and a free by the adapter's table and the command pin they move. -/
theorem adaptersComplete : Obligations.AdaptersComplete := by
  unfold Obligations.AdaptersComplete
  refine ⟨fun s hl => ?_, fun s a v o m k hb => ?_⟩
  · extract_lets a o m x
    refine ⟨fun hv ho hm => ?_, exec_adapterInstall_full hl, ?_⟩
    · let s1 := s.setAdapter a { x with
        cur := nextVersion x 65536 x.last, last := nextVersion x 65536 x.last, retired := false, model := m
        vers := x.vers ++ [(nextVersion x 65536 x.last, o, m, s.fldB (pgSes 0) a F.ses_ADP_CFG_RANK_M1 + 1)] }
      obtain ⟨hpin, hadp, hmem⟩ := s1.commandPin_leaves 0 o true
      have hq : Quiet (s1.commandPin 0 o true) ((s1.commandPin 0 o true).setFldB (pgSes 0) a F.ses_ADP_STATUS_RESULT 0) := State.setFldB_quiet _ _ _ _ _
      have hx := (hq.adapter a).trans ((hadp a).trans (s.adapter_setAdapter_self a _))
      exact ⟨_, exec_adapterInstall_ready hl hv ho hm, (congrArg Adapter.cur hx :), (congrArg Adapter.retired hx :),
        (congrArg Adapter.vers hx :),
        (congrArg Obj.pins (hq.obj 0 o)).trans hpin, State.fldB_setFldB_self _ _ _ (by decide) (by decide),
        ((s.setAdapter_sessionsOnly _ _).sameMemory.trans hmem).trans hq.sameMemory⟩
    · let s1 := s.setAdapter a { x with cur := 0, retired := true }
      have hq : Quiet s1 (s1.setFldB (pgSes 0) a F.ses_ADP_STATUS_RESULT 0) := State.setFldB_quiet _ _ _ _ _
      have hx := (hq.adapter a).trans (s.adapter_setAdapter_self a _)
      exact ⟨_, exec_adapterRetire hl, (congrArg Adapter.cur hx :), (congrArg Adapter.retired hx :),
        (congrArg Adapter.vers hx :),
        ((s.setAdapter_sessionsOnly _ _).thenQuiet hq).sameMemory⟩
  · intro x hfind hcur hused
    let s1 := s.setAdapter a.toNat { x with vers := x.vers.filter (fun e => e.1 != v.toNat) }
    obtain ⟨hpin, hadp, hmem⟩ := s1.commandPin_leaves 0 o false
    exact ⟨_, exec_adapterVersionFree hb hfind hcur hused, congrArg Adapter.vers ((hadp _).trans (s.adapter_setAdapter_self _ _)), hpin,
      (s.setAdapter_sessionsOnly _ _).sameMemory.trans hmem⟩

end Sys2Proof.Machine

/-! # Quadrille schedulers -/

namespace Sys2Proof.Machine
open Sys2Proof

theorem State.setQueue_sameMemory (s : State) (i q : Nat) (x : QQueue) : SameMemory s (s.setQueue i q x) := .of_stores rfl rfl rfl rfl
theorem State.setQdr_sameMemory (s : State) (i : Nat) (x : Qdr) : SameMemory s (s.setQdr i x) := .of_stores rfl rfl rfl rfl

/-! ## Frames that join and leave a queue -/

/-- A frame joins the tail of its queue, and of the other queues nothing changes (R365, R369). -/
theorem State.enqueue_leaves (s : State) (i q : Nat) (f : QFrame) :
    ((s.enqueue i q f).queue i q).frames = (s.queue i q).frames ++ [f] ∧ ((s.enqueue i q f).queue i q).credit = (s.queue i q).credit
    ∧ (∀ k, k ≠ i * 128 + q → SMap.get (s.enqueue i q f).link.queues {} k = SMap.get s.link.queues {} k)
    ∧ SameMemory s (s.enqueue i q f) ∧ (s.enqueue i q f).link.out = s.link.out := by
  unfold State.enqueue
  extract_lets x d y s1 _ s2
  have h2 : s2.link.queues = SMap.set s.link.queues {} (i * 128 + q) y ∧ SameMemory s s2 ∧ s2.link.out = s.link.out := by
    unfold s2
    split
    · exact ⟨rfl, (s.setQueue_sameMemory _ _ _).trans (s1.setQdr_sameMemory _ _), rfl⟩
    · exact ⟨rfl, s.setQueue_sameMemory _ _ _, rfl⟩
  obtain ⟨hset, hmem, hout⟩ := h2
  have hfin : Quiet s2 (if d > s2.fldB (pgQdr i) q F.qdr_Q_HWM_DEPTH_VALUE
      then s2.setFldB (pgQdr i) q F.qdr_Q_HWM_DEPTH_VALUE (min d (2 ^ 32 - 1)) else s2) := by
    split
    · exact s2.setFldB_quiet _ _ _ _
    · exact .refl s2
  have hself : SMap.get s2.link.queues {} (i * 128 + q) = y := by rw [hset]; exact SMap.get_set_self _ _ _ _
  rw [State.queue, hfin.link, hself]
  refine ⟨rfl, rfl, fun k hk => ?_, hmem.trans hfin.sameMemory, hout⟩
  rw [hset, SMap.get_set, if_neg (Ne.symm hk)]

/-- A frame sent leaves its queue, and a shaped queue's credit pays for it (R369, R371). -/
theorem State.dequeue_leaves (s : State) (i q k : Nat) (f : QFrame) (delay : Nat) :
    ((s.dequeue i q k f delay).queue i q).frames = (s.queue i q).frames.eraseIdx k
    ∧ (s.shaped i q = true → ((s.dequeue i q k f delay).queue i q).credit = (s.queue i q).credit - (f.len : Int) * 65536) := by
  unfold State.dequeue
  extract_lets x rest credit deficit y s1 _ s2 s3
  have h2 : s2.queue i q = y := by
    unfold s2
    split <;> exact SMap.get_set_self _ _ _ _
  have hq : Quiet s2 (if delay > s3.fldB (pgQdr i) q F.qdr_Q_HWM_DELAY_VALUE
      then s3.setFldB (pgQdr i) q F.qdr_Q_HWM_DELAY_VALUE (min delay (2 ^ 32 - 1)) else s3) := by
    have h3 : Quiet s2 s3 := (s2.bump64B_quiet _ _ _ _ _).trans (State.event_quiet _ _)
    split
    · exact h3.trans (s3.setFldB_quiet _ _ _ _)
    · exact h3
  rw [State.queue, hq.link, ← State.queue, h2]
  exact ⟨rfl, fun h => if_pos h⟩

/-- Class 0 goes before every other queue (R367). -/
theorem State.pickFrame_class0 {s : State} {i k : Nat} {f : QFrame} (he : s.eligible i qClass0 = true)
    (hh : s.headFrame i qClass0 = some (k, f)) : (s.pickFrame i (State.headFrame i)).1 = some (qClass0, k, f) := by
  unfold State.pickFrame
  simp [he, hh]

section
variable {s : State} {i : Fin 17} (hb : s.booted = true)
include hb

section
variable {q : Fin 67} (he : s.flag (pgQdr (qdrInst i)) F.hdr_ENABLE = true) (hr : s.qRoom (qdrInst i) q = true) (len : W32) (bytes : List Byte)
include he hr

theorem exec_frameEnqueue_raw (hi : i.val < 5) :
    exec (.frameEnqueue i q len bytes) s = .next (s.enqueue (qdrInst i) q ⟨len.toNat, .raw bytes⟩) := by
  change execFrameEnqueue i q len bytes s = _
  have hn : qdrInst i < 16 := by rw [qdrInst, if_pos hi]; omega
  rw [execFrameEnqueue, s.gateOn_on _ _ hb he]
  exact (if_neg (by simp [hr])).trans (if_pos hn)

theorem exec_frameEnqueue_port (hi : 5 ≤ i.val) {k : Nat} {o : OutFrame}
    (hk : s.link.out.findIdx? (fun o => o.port == qdrInst i - 16 && o.queue == q.val) = some k) (ho : s.link.out[k]? = some o) :
    exec (.frameEnqueue i q len bytes) s
    = .next ({ s with link := { s.link with out := s.link.out.eraseIdx k } }.enqueue (qdrInst i) q ⟨o.frame.len, .glith o.frame⟩) := by
  change execFrameEnqueue i q len bytes s = _
  have hn : ¬ qdrInst i < 16 := by rw [qdrInst, if_neg (by omega)]; omega
  rw [execFrameEnqueue, s.gateOn_on _ _ hb he]
  refine (if_neg (by simp [hr])).trans ((if_neg hn).trans ?_)
  simp only [hk, List.getD_eq_getElem?_getD, ho, Option.getD_some]

end

theorem exec_frameSend_none {delay : W32} {s1 : State} (hp : s.pickFrame (qdrInst i) (State.headFrame (qdrInst i)) = (none, s1)) :
    exec (.frameSend i delay) s = .next s1 := by
  change execFrameSend i delay s = _
  rw [execFrameSend, s.gate_booted _ hb]
  simp only [hp]

section
variable {delay : W32} {s1 : State} {q k : Nat} {f : QFrame}
  (hp : s.pickFrame (qdrInst i) (State.headFrame (qdrInst i)) = (some (q, k, f), s1))
include hp

theorem exec_frameSend_raw {bs : List Byte} (hl : f.load = .raw bs) :
    exec (.frameSend i delay) s = .next ((s1.dequeue (qdrInst i) q k f delay.toNat).emit (.note (0x100 + qdrInst i) bs)) := by
  change execFrameSend i delay s = _
  rw [execFrameSend, s.gate_booted _ hb]
  simp only [hp, hl]

theorem exec_frameSend_glith {g : Frm} (hl : f.load = .glith g) : exec (.frameSend i delay) s
    = .next (((s1.dequeue (qdrInst i) q k f delay.toNat).transmit (qdrInst i - 16) g).maybeOff (qdrInst i - 16)) := by
  change execFrameSend i delay s = _
  rw [execFrameSend, s.gate_booted _ hb]
  simp only [hp, hl]

end

/-! ## Shapers -/

theorem exec_shaperTick {q : Fin 67} (hs : s.shaped (qdrInst i) q = true) : exec (.shaperTick i q) s
    = .next (s.setQueue (qdrInst i) q { s.queue (qdrInst i) q with
        credit := min ((s.queue (qdrInst i) q).credit + (s.fldB (pgQdr (qdrInst i)) q F.qdr_Q_RATE_VALUE : Nat))
          ((s.fldB (pgQdr (qdrInst i)) q F.qdr_Q_BURST_VALUE % 2 ^ 24 : Nat) * 65536) }) := by
  change execShaperTick i q s = _
  rw [execShaperTick, s.gate_booted _ hb]
  exact if_neg (by simp [hs])

end

/-! ## Queue settings -/

/-- The word of Q_CFG as its fields. -/
theorem qCfg_fields {quantum shape en limit : Nat} (hq : quantum < 2 ^ 20) (hs : shape < 2) (he : en < 2) :
    F.qdr_Q_CFG_QUANTUM.get (BitVec.ofNat 32 (quantum + 2 ^ 20 * shape + 2 ^ 21 * en + 2 ^ 22 * limit)).toNat = quantum
    ∧ F.qdr_Q_CFG_SHAPE_EN.get (BitVec.ofNat 32 (quantum + 2 ^ 20 * shape + 2 ^ 21 * en + 2 ^ 22 * limit)).toNat = shape
    ∧ F.qdr_Q_CFG_ENABLE.get (BitVec.ofNat 32 (quantum + 2 ^ 20 * shape + 2 ^ 21 * en + 2 ^ 22 * limit)).toNat = en := by
  rw [Fld.get_toNat_ofNat (by decide), Fld.get_toNat_ofNat (by decide), Fld.get_toNat_ofNat (by decide)]
  simp only [Fld.get, bitsOf, F.qdr_Q_CFG_QUANTUM, F.qdr_Q_CFG_SHAPE_EN, F.qdr_Q_CFG_ENABLE]
  omega

/-- SHAPE_EN as a write of `v` to Q_CFG leaves it: class 0 is never shaped (R368). -/
def qShape (q v : Nat) : Nat := if q = qClass0 then 0 else bitsOf v 20 20

/-- The word that a write of `v` to Q_CFG leaves there (R370, R372). -/
def State.qCfgWord (s : State) (n q v : Nat) : W32 :=
  BitVec.ofNat 32 ((if q < 64 then max 256 (bitsOf v 19 0) else s.fldB (pgQdr n) q F.qdr_Q_CFG_QUANTUM)
    + 2 ^ 20 * qShape q v + 2 ^ 21 * (if q < 64 then bitsOf v 21 21 else 1) + 2 ^ 22 * bitsOf v 31 22)

section
variable {s : State} {i : Fin 17} (hl : s.pageLive (pgQdr (qdrInst i)) = true)
include hl

/-- A write of Q_CFG sets its word; a queue that becomes shaped starts with a whole burst of credit (R370, R372). -/
theorem exec_queueConfigWrite (v : W32) (hq : s.fld (pgQdr (qdrInst i)) F.qdr_Q_SEL_QUEUE ≤ 66) :
    let n := qdrInst i
    let q := s.fld (pgQdr n) F.qdr_Q_SEL_QUEUE
    ∃ t, exec (.queueConfigWrite i v) s = .next t ∧ t.regs = (s.setReg (pgQdr n) q 0x044 (s.qCfgWord n q v.toNat)).regs
      ∧ (t.queue n q).frames = (s.queue n q).frames
      ∧ (qShape q v.toNat = 1 → s.shaped n q = false →
        (t.queue n q).credit = ((s.fldB (pgQdr n) q F.qdr_Q_BURST_VALUE % 2 ^ 24 * 65536 : Nat) : Int))
      ∧ SameMemory s t := by
  intro n q
  refine ⟨_, (congrArg Host.Outcome.next ((if_pos hl).trans (if_neg (by omega))) : execQueueConfigWrite i v s = _), ?_⟩
  extract_lets wasOn wasShaped quantum shape en s1 x s2 d
  have h2 : s2.regs = s1.regs ∧ (s2.queue n q).frames = (s.queue n q).frames
      ∧ (shape = 1 → s.shaped n q = false → (s2.queue n q).credit = ((s.fldB (pgQdr n) q F.qdr_Q_BURST_VALUE % 2 ^ 24 * 65536 : Nat) : Int))
      ∧ SameMemory s s2 := by
    have h1 : SameMemory s s1 := (s.setReg_quiet _ _ _ _).sameMemory
    have hburst : s1.fldB (pgQdr n) q F.qdr_Q_BURST_VALUE = s.fldB (pgQdr n) q F.qdr_Q_BURST_VALUE :=
      State.fldB_of_reg (s.reg_setReg_of_offset_ne _ _ _ _ _ (by decide) (by decide) (by decide))
    unfold s2
    split
    · rw [State.queue_setQueue_self, hburst]
      exact ⟨rfl, rfl, fun _ _ => rfl, h1.trans (s1.setQueue_sameMemory _ _ _)⟩
    · next hc => exact ⟨rfl, rfl, fun hs hw => absurd ⟨hs, by rw [show wasShaped = false from hw]; rfl⟩ hc, h1⟩
  obtain ⟨hregs, hframes, hcredit, hmem⟩ := h2
  split_ifs
  · exact ⟨hregs, hframes, hcredit, hmem.trans (s2.setQdr_sameMemory _ _)⟩
  · exact ⟨hregs, hframes, hcredit, hmem.trans (s2.setQdr_sameMemory _ _)⟩
  · exact ⟨hregs, hframes, hcredit, hmem⟩

/-- A write of BURST clamps the credit at once (R368, R372). -/
theorem exec_shaperBurstWrite (v : W32) (hq : s.fld (pgQdr (qdrInst i)) F.qdr_Q_SEL_QUEUE ≤ 66)
    (hq0 : s.fld (pgQdr (qdrInst i)) F.qdr_Q_SEL_QUEUE ≠ qClass0) :
    exec (.shaperBurstWrite i v) s = .next ((s.setFldB (pgQdr (qdrInst i)) (s.fld (pgQdr (qdrInst i)) F.qdr_Q_SEL_QUEUE) F.qdr_Q_BURST_VALUE
        (v.toNat % 2 ^ 24)).setQueue (qdrInst i) (s.fld (pgQdr (qdrInst i)) F.qdr_Q_SEL_QUEUE)
      { s.queue (qdrInst i) (s.fld (pgQdr (qdrInst i)) F.qdr_Q_SEL_QUEUE) with
        credit := min (s.queue (qdrInst i) (s.fld (pgQdr (qdrInst i)) F.qdr_Q_SEL_QUEUE)).credit ((v.toNat % 2 ^ 24 * 65536 : Nat) : Int) }) := by
  change execShaperBurstWrite i v s = _
  rw [execShaperBurstWrite, State.regWrite, if_pos hl]
  exact congrArg Host.Outcome.next (if_neg (by omega))

end

/-- The settings of a queue, as the word of Q_CFG holds them (R368, R370). -/
theorem State.qCfgWord_settings {s t : State} {n q v : Nat} (hregs : t.regs = (s.setReg (pgQdr n) q 0x044 (s.qCfgWord n q v)).regs) :
    t.fldB (pgQdr n) q F.qdr_Q_CFG_QUANTUM = (if q < 64 then max 256 (bitsOf v 19 0) else s.fldB (pgQdr n) q F.qdr_Q_CFG_QUANTUM)
    ∧ t.shaped n q = (q != qClass0 && bitOf v 20) ∧ (q < 64 → t.qEnabled n q = bitOf v 21) := by
  have hreg : t.reg (pgQdr n) q 0x044 = s.qCfgWord n q v := by rw [State.reg_congr hregs, State.reg_setReg_self]
  have hquantum : (if q < 64 then max 256 (bitsOf v 19 0) else s.fldB (pgQdr n) q F.qdr_Q_CFG_QUANTUM) < 2 ^ 20 := by
    split
    · exact Nat.max_lt.mpr ⟨by decide, bitsOf_lt _ _ _⟩
    · exact Fld.get_lt _ _
  have hshape : qShape q v < 2 := by
    unfold qShape
    split
    · decide
    · exact bitsOf_lt _ _ _
  have hen : (if q < 64 then bitsOf v 21 21 else 1) < 2 := by
    split
    · exact bitsOf_lt _ _ _
    · decide
  have hbit : ∀ k, (bitsOf v k k == 1) = bitOf v k := fun k => by rw [bitsOf, bitOf, Nat.add_sub_cancel_left, Nat.pow_one]
  obtain ⟨h1, h2, h3⟩ := qCfg_fields (limit := bitsOf v 31 22) hquantum hshape hen
  refine ⟨?_, ?_, fun hq => ?_⟩
  · rw [State.fldB_eq_get]
    exact (congrArg (fun w : W32 => F.qdr_Q_CFG_QUANTUM.get w.toNat) hreg).trans h1
  · have hs : t.fldB (pgQdr n) q F.qdr_Q_CFG_SHAPE_EN = qShape q v :=
      (congrArg (fun w : W32 => F.qdr_Q_CFG_SHAPE_EN.get w.toNat) hreg).trans h2
    rw [State.shaped, hs, qShape]
    by_cases hq : q = qClass0
    · simp [hq]
    · rw [if_neg hq, hbit]
  · have he : t.fldB (pgQdr n) q F.qdr_Q_CFG_ENABLE = if q < 64 then bitsOf v 21 21 else 1 :=
      (congrArg (fun w : W32 => F.qdr_Q_CFG_ENABLE.get w.toNat) hreg).trans h3
    rw [State.qEnabled, he, if_pos hq, hbit]
    simp [hq]

/-! ## Gate lists -/

/-- The pending list's registers are none of those that hold its base. -/
theorem State.gateRegs_setReg_base (s : State) (n : Nat) (lo hi : W32) :
    ((s.setReg (pgQdr n) 0 0x078 lo).setReg (pgQdr n) 0 0x07C hi).gateRegs n = s.gateRegs n := by
  have hreg : ∀ o, o < 4096 → o ≠ 0x078 → o ≠ 0x07C →
      ((s.setReg (pgQdr n) 0 0x078 lo).setReg (pgQdr n) 0 0x07C hi).reg (pgQdr n) 0 o = s.reg (pgQdr n) 0 o := fun o ho h1 h2 => by
    rw [State.reg_setReg_of_offset_ne _ _ _ _ _ _ ho (by decide) h2.symm, State.reg_setReg_of_offset_ne _ _ _ _ _ _ ho (by decide) h1.symm]
  have hfld : ∀ f : Fld, f.off < 4096 → f.off ≠ 0x078 → f.off ≠ 0x07C →
      ((s.setReg (pgQdr n) 0 0x078 lo).setReg (pgQdr n) 0 0x07C hi).fld (pgQdr n) f = s.fld (pgQdr n) f :=
    fun f h0 h1 h2 => State.fld_of_reg (hreg _ h0 h1 h2)
  have hshift : ∀ (f : Fld) (k : Nat), 0x200 ≤ f.off → f.off < 0x210 → k < 64 →
      ((s.setReg (pgQdr n) 0 0x078 lo).setReg (pgQdr n) 0 0x07C hi).fld (pgQdr n) (f.shift (16 * k)) = s.fld (pgQdr n) (f.shift (16 * k)) :=
    fun f k h0 h1 hk => hfld _ (by simp only [Fld.shift]; omega) (by simp only [Fld.shift]; omega) (by simp only [Fld.shift]; omega)
  unfold State.gateRegs
  rw [hfld F.qdr_GL_LEN_VALUE (by decide) (by decide) (by decide), hfld F.qdr_GL_CYCLE_VALUE (by decide) (by decide) (by decide)]
  extract_lets m
  refine congrArg (Prod.mk _) (List.map_congr_left fun k hk => ?_)
  have hk64 : k < 64 := Nat.lt_of_lt_of_le (List.mem_range.mp hk) (Nat.min_le_left _ _)
  rw [hshift F.qdr_GL_E0_DURATION k (by decide) (by decide) hk64, hshift F.qdr_GL_E1_CLASS1 k (by decide) (by decide) hk64,
    hshift F.qdr_GL_E1_FLOOR k (by decide) (by decide) hk64, hshift F.qdr_GL_E2_ENSEMBLE k (by decide) (by decide) hk64,
    hshift F.qdr_GL_E3_ENSEMBLE k (by decide) (by decide) hk64]

section
variable {s : State} {i : Fin 17} (hl : s.pageLive (pgQdr (qdrInst i)) = true) (v : W32)
include hl

/-- A commit with host time valid takes its start at once (R374). -/
theorem exec_gateListCommit_valid (ht : s.timeValid = true) :
    let n := qdrInst i
    let b := s.staged (pgQdr n) 0 0x078 + 2 ^ 32 * v.toNat
    ∃ t, exec (.gateListCommit i v) s = .next t
      ∧ t.qdr n = { s.qdr n with pend := some (b, some (gateStart b (s.gateRegs n).1 (s.timeAt (16 + n)).toNat)) } ∧ SameMemory s t := by
  intro n b
  refine ⟨_, (congrArg Host.Outcome.next ((if_pos hl).trans (if_pos ht)) : execGateListCommit i v s = _), ?_⟩
  extract_lets st x
  have hst : st = gateStart b (s.gateRegs n).1 (s.timeAt (16 + n)).toNat := by
    unfold st
    rw [State.gateRegs_setReg_base]
    rfl
  have hstart : ∀ u : State, Quiet u (u.setGateStart n st) := fun u => (u.setFld_quiet _ _ _).trans (State.setFld_quiet _ _ _ _)
  refine ⟨?_, (((s.setReg_quiet _ _ _ _).trans (State.setReg_quiet _ _ _ _ _)).sameMemory.trans (State.setQdr_sameMemory _ _ _)).trans
    (hstart _).sameMemory⟩
  rw [State.qdr, (hstart _).link, ← State.qdr, State.qdr_setQdr_self, hst]
  rfl

/-- A commit before host time is valid waits for it (R374). -/
theorem exec_gateListCommit_invalid (ht : s.timeValid = false) :
    let n := qdrInst i
    ∃ t, exec (.gateListCommit i v) s = .next t
      ∧ t.qdr n = { s.qdr n with pend := some (s.staged (pgQdr n) 0 0x078 + 2 ^ 32 * v.toNat, none) } ∧ SameMemory s t := by
  intro n
  refine ⟨_, (congrArg Host.Outcome.next ((if_pos hl).trans (if_neg (by simp [ht]))) : execGateListCommit i v s = _), ?_, ?_⟩
  · exact State.qdr_setQdr_self _ _ _
  · exact ((s.setReg_quiet _ _ _ _).trans (State.setReg_quiet _ _ _ _ _)).sameMemory.trans (State.setQdr_sameMemory _ _ _)

omit v in
theorem exec_gateListCancel : exec (.gateListCancel i) s = .next (s.setQdr (qdrInst i) { s.qdr (qdrInst i) with pend := none }) := by
  change execGateListCancel i s = _
  rw [execGateListCancel, State.regWrite, if_pos hl]

end

/-- Settles O49: each scheduler command by its equation, and its queue or gate list by what is then set. -/
theorem schedulersComplete : Obligations.SchedulersComplete := by
  unfold Obligations.SchedulersComplete
  refine ⟨fun s i q len bytes => ?_, fun s s1 i delay => ?_, fun s i q hb hs => ?_, fun s i v hl => ?_⟩
  · intro n hb he hr
    refine ⟨fun hi => ?_, fun k o hi hk ho => ?_⟩
    · obtain ⟨hf, hc, hother, hmem, hout⟩ := s.enqueue_leaves n q ⟨len.toNat, .raw bytes⟩
      exact ⟨_, exec_frameEnqueue_raw hb he hr len bytes hi, hf, hc, hother, hmem, hout⟩
    · obtain ⟨hf, -, -, hmem, hout⟩ := State.enqueue_leaves { s with link := { s.link with out := s.link.out.eraseIdx k } } n q
        ⟨o.frame.len, .glith o.frame⟩
      exact ⟨_, exec_frameEnqueue_port hb he hr len bytes hi hk ho, hf, hout, (SameMemory.of_stores rfl rfl rfl rfl).trans hmem⟩
  · intro n hb
    exact ⟨exec_frameSend_none hb, fun q k f bs hp hl => exec_frameSend_raw hb hp hl, fun q k f g hp hl => exec_frameSend_glith hb hp hl,
      fun k f he hh => State.pickFrame_class0 he hh, fun q k f => s.dequeue_leaves n q k f delay.toNat⟩
  · have hx := s.queue_setQueue_self (qdrInst i) q { s.queue (qdrInst i) q with
        credit := min ((s.queue (qdrInst i) q).credit + (s.fldB (pgQdr (qdrInst i)) q F.qdr_Q_RATE_VALUE : Nat))
          ((s.fldB (pgQdr (qdrInst i)) q F.qdr_Q_BURST_VALUE % 2 ^ 24 : Nat) * 65536) }
    exact ⟨_, exec_shaperTick hb hs, congrArg QQueue.credit hx, (congrArg QQueue.frames hx :), s.setQueue_sameMemory _ _ _, rfl⟩
  · intro n q
    refine ⟨fun hq => ?_, fun hq hq0 => ?_, fun ht => ?_, fun ht => ?_, ?_⟩
    · obtain ⟨t, ht, hregs, hframes, hcredit, hmem⟩ := exec_queueConfigWrite hl v hq
      obtain ⟨hquantum, hshaped, hen⟩ := State.qCfgWord_settings hregs
      refine ⟨t, ht, hquantum, hshaped, hen, hframes, fun hs hw => hcredit ?_ hw, hmem⟩
      rw [hshaped, Bool.and_eq_true, bne_iff_ne] at hs
      rw [qShape, if_neg hs.1, bitsOf, Nat.add_sub_cancel_left, Nat.pow_one]
      exact eq_of_beq hs.2
    · have hx := (s.setFldB (pgQdr n) q F.qdr_Q_BURST_VALUE (v.toNat % 2 ^ 24)).queue_setQueue_self n q
        { s.queue n q with credit := min (s.queue n q).credit ((v.toNat % 2 ^ 24 * 65536 : Nat) : Int) }
      refine ⟨_, exec_shaperBurstWrite hl v hq hq0, ?_, congrArg QQueue.credit hx,
        (s.setFldB_quiet _ _ _ _).sameMemory.trans (State.setQueue_sameMemory _ _ _ _)⟩
      exact s.fldB_setFldB_self _ _ (by decide) (Nat.lt_trans (Nat.mod_lt _ (by decide)) (by decide))
    · obtain ⟨t, hx, hqdr, hmem⟩ := exec_gateListCommit_valid hl v ht
      exact ⟨t, _, hx, congrArg Qdr.pend hqdr, rfl, (congrArg Qdr.oper hqdr :), hmem⟩
    · obtain ⟨t, hx, hqdr, hmem⟩ := exec_gateListCommit_invalid hl v ht
      exact ⟨t, hx, congrArg Qdr.pend hqdr, (congrArg Qdr.oper hqdr :), hmem⟩
    · have hx := s.qdr_setQdr_self n { s.qdr n with pend := none }
      exact ⟨_, exec_gateListCancel hl, congrArg Qdr.pend hx, (congrArg Qdr.oper hx :), rfl, s.setQdr_sameMemory _ _⟩

end Sys2Proof.Machine

/-! # Tenant functions and the host port -/

namespace Sys2Proof.Machine
open Sys2Proof

/-! ## The state of a function -/

/-- A function's STATE takes what is set (R409). -/
theorem State.fnState_setFnState (s : State) (t : Nat) {st : Nat} (hst : st < 16) : (s.setFnState t st).fnState t = st := by
  unfold State.setFnState
  split
  · next h => exact h
  · extract_lets s1 f s2
    have hfld : ∀ u : State, u.reg (pgTnt t) 0 0x00C = s1.reg (pgTnt t) 0 0x00C → u.fnState t = st := fun u hu => by
      have h1 : s1.fld (pgTnt t) F.hdr_STATE = st := by
        rw [State.fld_congr (State.regs_shadow _ _ _ _), State.fld_setFld_self _ _ (by decide) hst]
      exact (State.fld_of_reg hu).trans h1
    have hf : f.off ≠ 0x00C ∧ f.off < 4096 := by
      unfold f
      split
      · exact ⟨show 0x078 ≠ 0x00C by decide, show 0x078 < 4096 by decide⟩
      · exact ⟨show 0x07C ≠ 0x00C by decide, show 0x07C < 4096 by decide⟩
    have h2 : s2.reg (pgTnt t) 0 0x00C = s1.reg (pgTnt t) 0 0x00C := by
      unfold s2
      split
      · rfl
      · rw [State.reg_irq_off _ _ _ _ _ (by decide) (by decide), s1.reg_setFld_of_offset_ne _ _ _ _ _ (by decide) hf.2 hf.1]
    split
    · exact hfld _ ((s2.reg_irq_off _ _ _ _ (by decide) (by decide)).trans h2)
    · exact hfld _ h2

/-- ENABLE_LATCHED and STATE stand apart in one word. -/
theorem State.fnState_setFld_latched (s : State) (t v : Nat) : (s.setFld (pgTnt t) fEnableLatched v).fnState t = s.fnState t :=
  s.fld_setFld_other _ _ (by decide) (fun _ => by decide)

theorem State.fnState_setFld_enable (s : State) (t v : Nat) : (s.setFld (pgTnt t) F.hdr_ENABLE v).fnState t = s.fnState t :=
  s.fld_setFld_other _ _ (by decide) (fun h => absurd h (by decide))

/-! ## The read of a submission ring -/

section
variable {s : State} {t : Fin 64} (hb : s.booted = true) (hr : (s.ten t).reading = true) (hf : s.fnState t = fnReady)
include hb hr hf

theorem exec_hostReadCompletion_some (d : List Byte) : exec (.hostReadCompletion t (some d)) s
    = .next ((s.setTen t { s.ten t with reading := false }).setTen t { s.ten t with reading := false, entry := some (slice d 0 64) }) := by
  change execHostReadCompletion t (some d) s = _
  rw [execHostReadCompletion, s.gate_booted _ hb]
  exact congrArg Host.Outcome.next ((if_neg (by simp [hr])).trans (if_pos hf))

omit hb in
/-- A ring read that fails is reported, and the function is in FAULT (R397, R404). -/
theorem State.ringRead'_none : ∃ u, s.ringRead' t none = u.setFnState t fnFault ∧ Quiet (s.setTen t { s.ten t with reading := false }) u :=
  ⟨_, (if_neg (by simp [hr])).trans (if_pos hf), (State.fault_quiet _ _ _ _ _ _ _ _).trans (State.raise_quiet _ _ _)⟩

end

/-! ## Enabling, shut-down and discarded work -/

section
variable {s : State} {t : Fin 64}

theorem exec_functionEnable (hb : s.booted = true) (hp : (s.ten t).present = true) : exec (.functionEnable t) s = .next (s.enable t) := by
  change execFunctionEnable t s = _
  rw [execFunctionEnable, if_pos (by simp [hb, hp])]

theorem exec_functionDisable (hb : s.booted = true) (hp : (s.ten t).present = true) : exec (.functionDisable t) s = .next (s.disable t) := by
  change execFunctionDisable t s = _
  rw [execFunctionDisable, if_pos (by simp [hb, hp])]

theorem State.disable_running (h : s.fnState t = fnReady ∨ s.fnState t = fnFault) : s.disable t = s.quiesce t false := if_pos h

theorem State.enable_resting (h : s.fnState t = fnOff ∨ s.fnState t = fnDetached) : s.enable t = s.enableNow t (s.fnState t) := if_pos h

theorem State.disable_resting (h : s.fnState t = fnOff ∨ s.fnState t = fnDetached) : s.disable t = s.setFld (pgTnt t) F.hdr_ENABLE 0 := by
  unfold State.disable
  obtain h | h := h <;> rw [h] <;> rfl

/-- While a function shuts down, a write of ENABLE is latched (R412). -/
theorem State.enable_quiescing (h : s.fnState t = fnQuiescing) :
    s.enable t = (s.setFld (pgTnt t) F.hdr_ENABLE 1).setFld (pgTnt t) fEnableLatched 1 := by
  unfold State.enable
  rw [h]
  rfl

theorem State.disable_quiescing (h : s.fnState t = fnQuiescing) :
    s.disable t = (s.setFld (pgTnt t) F.hdr_ENABLE 0).setFld (pgTnt t) fEnableLatched 0 := by
  unfold State.disable
  rw [h]
  rfl

theorem exec_shutdownComplete (hb : s.booted = true) (hr : s.shutdownReady t = true) : exec (.shutdownComplete t) s = .next (s.endShutdown t) := by
  change execShutdownComplete t s = _
  rw [execShutdownComplete, if_pos (by simp [hb, hr])]

section
variable (hl : s.pageLive pgPci = true) (hsel : s.fld pgPci F.pci_FUNC_SEL_FUNC = t.val + 1)
include hl hsel

theorem exec_discard_detached (h : s.fnState t = fnDetached) : exec .discard s = .next ((s.discardWork t).setFnState t fnOff) := by
  change execDiscard s = _
  rw [execDiscard, State.regWrite, if_pos hl]
  simp only [hsel, Nat.add_sub_cancel, h, if_true]
  rw [if_neg (by omega)]

theorem exec_discard_ready (h : s.fnState t = fnReady) : exec .discard s = .next s := by
  change execDiscard s = _
  rw [execDiscard, State.regWrite, if_pos hl]
  simp only [hsel, Nat.add_sub_cancel, h]
  rw [if_neg (by omega), if_neg (by decide), if_neg (by decide)]

end

/-! ## Resets and removals -/

section
variable (hs : s.linkServes = true)
include hs

theorem exec_flr (hp : (s.ten t).present = true) : exec (.flr t) s = .next (s.flr t) := by
  change execFlr t s = _
  rw [execFlr, if_pos (by simp [hs, hp])]

theorem exec_d3hotEntry_tenant (hp : (s.ten t).present = true) (hd : (s.ten t).d3 = false) :
    exec (.d3hotEntry (Fin.ofNat 66 (t + 1))) s = .next ((s.setTen t { s.ten t with d3 := true }).disable t) := by
  change execD3hotEntry (Fin.ofNat 66 (t + 1)) s = _
  have ht : ((Fin.ofNat 66 (t + 1) : Fin 66) : Nat) = t + 1 := Nat.mod_eq_of_lt (by omega)
  rw [execD3hotEntry]
  simp only [ht, Nat.add_sub_cancel, hs, hp, hd]
  exact (if_neg (by decide)).trans ((if_neg (by omega)).trans (if_neg (by decide)))

theorem exec_d3hotEntry_port {f : Fin 66} (hf : f.val = 0 ∨ f.val = 65) :
    exec (.d3hotEntry f) s = .next (if s.d3hot.contains f.val then s else { s with d3hot := s.d3hot ++ [f.val] }) := by
  change execD3hotEntry f s = _
  rw [execD3hotEntry]
  exact (if_neg (by simp [hs])).trans (if_pos hf)

theorem exec_functionProvisioned : exec (.functionProvisioned t) s
    = .next (let s1 := s.setTen t { s.ten t with present := true }
      if s1.fnState t = fnNotProvisioned ∧ t.val < tenantCount s1.profile then s1.setFnState t (s1.restState t) else s1) := by
  change execFunctionProvisioned t s = _
  rw [execFunctionProvisioned]
  exact if_neg (by simp [hs])

theorem exec_vfDisable (port : Fin 2) (num : Fin 65) : exec (.vfDisable port num) s = .next ((List.range 64).foldl (fun s t =>
    if (s.ten t).present && (s.tenPort t).1 == port.val && decide ((s.tenPort t).2 ≥ num.val) then s.removeFn t else s) s) := by
  change execVfDisable port num s = _
  rw [execVfDisable]
  exact if_neg (by simp [hs])

end

theorem exec_pfFlr (hp : s.powered = true) (flashOk : Bool) : exec (.pfFlr flashOk) s
    = .next ({ (List.range 64).foldl (fun (s : State) t => if (s.ten t).present then s.removeFn t else s) s with d3hot := [] }.warmReset 2 flashOk) := by
  change execPfFlr flashOk s = _
  rw [execPfFlr, if_neg (by simp [hp])]

end

/-- Settles O50: each event of a function by its equation, with the STATE it then holds. -/
theorem functionEventsComplete : Obligations.FunctionEventsComplete := by
  unfold Obligations.FunctionEventsComplete
  refine ⟨fun s t hb hr hf => ⟨fun d => ?_, ?_⟩, fun s t hb hp => ⟨exec_functionEnable hb hp, exec_functionDisable hb hp, State.disable_running,
      fun h => ⟨State.enable_resting h, State.disable_resting h⟩, fun h => ?_⟩,
    fun s t hs => ⟨exec_flr hs, exec_d3hotEntry_tenant hs, exec_d3hotEntry_port hs (.inl rfl), exec_d3hotEntry_port hs (.inr rfl),
      exec_functionProvisioned hs⟩,
    fun s port num hs => exec_vfDisable hs port num, fun s flashOk hp => exec_pfFlr hp flashOk, fun s t hb hr => exec_shutdownComplete hb hr,
    fun s t hl hsel => ⟨exec_discard_detached hl hsel, exec_discard_ready hl hsel⟩⟩
  · refine ⟨_, exec_hostReadCompletion_some hb hr hf d, ?_, ?_, hf, ((s.setTen_sessionsOnly _ _).trans (State.setTen_sessionsOnly _ _ _)).sameMemory, rfl⟩
    · rw [State.ten_setTen_self]
    · rw [State.ten_setTen_self]
  · obtain ⟨u, hu, hq⟩ := State.ringRead'_none hr hf
    have hq' := hq.trans (u.setFnState_quiet t fnFault)
    have ht : (u.setFnState t fnFault).ten t = { s.ten t with reading := false } := by rw [hq'.ten, State.ten_setTen_self]
    refine ⟨_, ?_, ?_, u.fnState_setFnState t (by decide), congrArg Ten.reading ht, (congrArg Ten.entry ht :),
      ((s.setTen_sessionsOnly _ _).thenQuiet hq').sameMemory⟩
    · change execCompletionTimeout t s = _
      rw [execCompletionTimeout, s.gate_booted _ hb, hu]
    · change execHostReadCompletion t none s = _
      rw [execHostReadCompletion, s.gate_booted _ hb, hu]
  · rw [State.enable_quiescing h, State.disable_quiescing h, State.fnState_setFld_latched, State.fnState_setFld_latched,
      State.fnState_setFld_enable, State.fnState_setFld_enable]
    refine ⟨?_, ?_, h, h⟩
    · rw [State.flag, State.fld_setFld_self _ _ (by decide) (by decide)]
      rfl
    · rw [State.flag, State.fld_setFld_self _ _ (by decide) (by decide)]
      rfl

end Sys2Proof.Machine

/-! # Translations, violations and training of the host port -/

namespace Sys2Proof.Machine
open Sys2Proof

/-! ## The translation cache -/

/-- The cache with a chunk's entry added, the oldest making room (R417). -/
def atcFilled (l : List Nat) (c : Nat) : List Nat := (l.filter (· != c)).drop ((l.filter (· != c)).length - 1023) ++ [c]

theorem length_atcFilled_le (l : List Nat) (c : Nat) : (atcFilled l c).length ≤ 1024 := by
  rw [atcFilled, List.length_append, List.length_drop, List.length_singleton]
  omega

theorem mem_atcFilled_self (l : List Nat) (c : Nat) : c ∈ atcFilled l c := List.mem_append_right _ (List.mem_singleton_self c)

theorem mem_of_mem_atcFilled {l : List Nat} {c x : Nat} (h : x ∈ atcFilled l c) : x = c ∨ x ∈ l := by
  rcases List.mem_append.mp h with h | h
  · exact .inr (List.mem_of_mem_filter (List.mem_of_mem_drop h))
  · exact .inl (List.mem_singleton.mp h)

theorem not_mem_filter_ne (l : List Nat) (c : Nat) : c ∉ l.filter (· != c) := by simp

section
variable {s : State} (hs : s.linkServes = true)
include hs

section
variable {c : Fin 2097152} (hc : c.val < s.fld (pgTir 0) F.tir_SUMP_CHUNKS_COUNT)
include hc

theorem exec_atsTranslation_ok : exec (.atsTranslation c true) s
    = .next { s with boot := { s.boot with atc := atcFilled s.boot.atc c, atcBad := s.boot.atcBad.filter (· != c.val) } } := by
  change execAtsTranslation c true s = _
  rw [execAtsTranslation, if_neg (by simp [hs, hc])]
  exact if_pos rfl

/-- A translation that fails leaves no entry for its chunk, and is counted (R419). -/
theorem exec_atsTranslation_failed : ∃ t, exec (.atsTranslation c false) s = .next t
    ∧ Quiet { s with boot := { s.boot with atc := s.boot.atc.filter (· != c.val), atcBad := s.boot.atcBad.filter (· != c.val) ++ [c.val] } } t := by
  refine ⟨_, ((if_neg (by simp [hs, hc])).trans (if_neg (by decide)) : execAtsTranslation c false s = .next _), ?_⟩
  exact ((State.bump_quiet _ _ _ _).trans (State.raise_quiet _ _ _)).trans (State.raise_quiet _ _ _)

end

theorem exec_invalidateRequest {tag : Fin 32} (ht : s.boot.invals.contains tag.val = false) (cs : List Nat) : exec (.invalidateRequest tag cs) s
    = .next { s with boot := { s.boot with atc := s.boot.atc.filter (fun c => !(cs.contains c)), invals := s.boot.invals ++ [tag.val] } } := by
  change execInvalidateRequest tag cs s = _
  rw [execInvalidateRequest, if_neg (by simp only [hs, ht]; decide)]

end

theorem exec_invalidateCompletion {s : State} {tag : Fin 32} (ht : s.boot.invals.contains tag.val = true) :
    ∃ t, exec (.invalidateCompletion tag) s = .next t
      ∧ Quiet { s with boot := { s.boot with invals := s.boot.invals.filter (· != tag.val) } } t := by
  refine ⟨_, (if_neg (by simp only [ht]; decide) : execInvalidateCompletion tag s = .next _), ?_⟩
  exact (State.bump_quiet _ _ _ _).trans (State.emit_quiet _ _)

/-! ## Violations -/

/-- A violation in one PCI page: its count, and what it last was (R420). -/
def State.noteInPage (s : State) (c f port low : Nat) (p : Page) : State :=
  ((s.bump p F.pci_VIOL_COUNT_COUNT 1).setReg p 0 0x054 (BitVec.ofNat 32 (c + 256 * (if f = 65 then 127 else f) + 32768 * port))).setReg p 0 0x058
    (BitVec.ofNat 32 low)

section
variable (s : State) (c f port low : Nat)

theorem State.noteInPage_leaves (p : Page) :
    (s.noteInPage c f port low p).fld p F.pci_VIOL_COUNT_COUNT = min 0xFFFFFFFF (s.fld p F.pci_VIOL_COUNT_COUNT + 1)
    ∧ (s.noteInPage c f port low p).reg p 0 0x054 = BitVec.ofNat 32 (c + 256 * (if f = 65 then 127 else f) + 32768 * port)
    ∧ (s.noteInPage c f port low p).reg p 0 0x058 = BitVec.ofNat 32 low := by
  unfold State.noteInPage
  refine ⟨?_, ?_, State.reg_setReg_self _ _ _ _ _⟩
  · refine Eq.trans (State.fld_of_reg ?_) (s.fld_bump_self p 1 (by decide))
    rw [State.reg_setReg_of_off_ne _ _ _ _ (by decide), State.reg_setReg_of_off_ne _ _ _ _ (by decide)]
  · rw [State.reg_setReg_of_off_ne _ _ _ _ (by decide), State.reg_setReg_self]

/-- What is noted in one page leaves the other. -/
theorem State.reg_noteInPage_of_page_ne {p p' : Page} (hp : p.inst < 256) (hp' : p'.inst < 256) (hne : p ≠ p') {o : Nat} (ho : o < 4096) :
    (s.noteInPage c f port low p).reg p' 0 o = s.reg p' 0 o := by
  have hb : RegBounds p' 0 o := ⟨hp', by decide, ho⟩
  unfold State.noteInPage
  rw [State.reg_setReg_of_page_ne hb _ _ ⟨hp, by decide, by decide⟩ hne, State.reg_setReg_of_page_ne hb _ _ ⟨hp, by decide, by decide⟩ hne,
    State.bump_eq_setFld, State.setFld_eq, State.reg_setReg_of_page_ne hb _ _ ⟨hp, by decide, by decide⟩ hne]

theorem State.noteViolation_eq : s.noteViolation c f port low
    = (((s.noteInPage c f port low pgPci).noteInPage c f port low ⟨.pci, 1⟩).raise ⟨.pci, port⟩ 0).event ⟨.pci, port⟩ := rfl

/-- The count and the record of a violation stand in both PCI pages (R420). -/
theorem State.noteViolation_leaves (p : Fin 2) :
    (s.noteViolation c f port low).fld ⟨.pci, p⟩ F.pci_VIOL_COUNT_COUNT = min 0xFFFFFFFF (s.fld ⟨.pci, p⟩ F.pci_VIOL_COUNT_COUNT + 1)
    ∧ (s.noteViolation c f port low).reg ⟨.pci, p⟩ 0 0x054 = BitVec.ofNat 32 (c + 256 * (if f = 65 then 127 else f) + 32768 * port)
    ∧ (s.noteViolation c f port low).reg ⟨.pci, p⟩ 0 0x058 = BitVec.ofNat 32 low := by
  have hrep : ∀ (u : State) {o : Nat}, o < 4096 → o ≠ 0x010 → o ≠ 0x01C → o ≠ 0x800 →
      ((u.raise ⟨.pci, port⟩ 0).event ⟨.pci, port⟩).reg ⟨.pci, p⟩ 0 o = u.reg ⟨.pci, p⟩ 0 o := fun u o ho h1 h2 h3 => by
    rw [State.event, State.bump_eq_setFld, State.reg_setFld_of_offset_ne _ _ _ _ _ _ ho (by decide) h2.symm,
      u.reg_raise_of_off_ne _ _ _ _ ho h1 h3]
  rw [State.noteViolation_eq, State.fld_of_reg (hrep _ (by decide) (by decide) (by decide) (by decide)),
    hrep _ (by decide) (by decide) (by decide) (by decide), hrep _ (by decide) (by decide) (by decide) (by decide)]
  obtain rfl | rfl : p = 0 ∨ p = 1 := by omega
  · obtain ⟨h1, h2, h3⟩ := s.noteInPage_leaves c f port low pgPci
    have hkeep : ∀ {o : Nat}, o < 4096 → ((s.noteInPage c f port low pgPci).noteInPage c f port low ⟨.pci, 1⟩).reg pgPci 0 o
        = (s.noteInPage c f port low pgPci).reg pgPci 0 o := State.reg_noteInPage_of_page_ne _ _ _ _ _ (by decide) (by decide) (by decide)
    exact ⟨(State.fld_of_reg (hkeep (by decide))).trans h1, (hkeep (by decide)).trans h2, (hkeep (by decide)).trans h3⟩
  · obtain ⟨h1, h2, h3⟩ := (s.noteInPage c f port low pgPci).noteInPage_leaves c f port low ⟨.pci, 1⟩
    rw [State.fld_of_reg (s.reg_noteInPage_of_page_ne c f port low (p := pgPci) (p' := ⟨.pci, 1⟩) (by decide) (by decide) (by decide) (by decide))] at h1
    exact ⟨h1, h2, h3⟩

end

theorem exec_partnerViolation {s : State} (hs : s.linkServes = true) {c : Fin 8} (hc : c.val ≠ 0) (fn : Fin 66) (port : Fin 2) (write : Bool)
    (addr : W64) : exec (.partnerViolation c fn port write addr) s
    = .next ((s.noteViolation c fn port (if c.val = 4 ∨ c.val = 5 ∨ c.val = 7 then 0 else addr.toNat % 2 ^ 32)).answerViolation c fn write
      addr.toNat) := by
  change execPartnerViolation c fn port write addr s = _
  rw [execPartnerViolation]
  exact if_neg (by simp [hs, hc])

/-! ## Training -/

/-- A port that trains shows its width, rate and FLIT mode; one that was up counts a retrain (R389, R390). -/
theorem exec_pcieLinkTrain {s : State} {port : Fin 2} {width : Fin 17} {rate : Fin 7} {flit : Bool} (hm : s.mayTrain port width rate flit = true) :
    ∃ t, exec (.pcieLinkTrain port width rate flit) s = .next t
      ∧ t.reg pgPci port 0x048 = BitVec.ofNat 32 (1 + 2 * width.val + 64 * rate.val + 512 * b2n flit) ∧ Quiet s t := by
  refine ⟨_, (if_neg (by simp [hm]) : execPcieLinkTrain port width rate flit s = .next _), ?_⟩
  generalize hs1 : s.setReg pgPci port 0x048 (BitVec.ofNat 32 (1 + 2 * width.val + 64 * rate.val + 512 * b2n flit)) = s1
  have h1 : Quiet s s1 := hs1 ▸ s.setReg_quiet _ _ _ _
  have hreg : s1.reg pgPci port 0x048 = BitVec.ofNat 32 (1 + 2 * width.val + 64 * rate.val + 512 * b2n flit) :=
    hs1 ▸ s.reg_setReg_self _ _ _ _
  split
  · refine ⟨?_, (h1.trans (s1.bumpB_quiet _ _ _ _)).trans (State.raise_quiet _ _ _)⟩
    rw [State.reg_raise_of_off_ne _ _ _ _ _ (by decide) (by decide) (by decide), ← hreg]
    exact s1.reg_setReg_of_offset_ne _ _ _ _ _ (by decide) (by decide) (by decide)
  · exact ⟨hreg, h1⟩

/-- LINK_STATUS of a port that has trained shows it up. -/
theorem linkStatus_up (w r f : Nat) : F.pci_LINK_STATUS_UP.get (BitVec.ofNat 32 (1 + 2 * w + 64 * r + 512 * f)).toNat = 1 := by
  rw [Fld.get_toNat_ofNat (by decide)]
  simp only [Fld.get, bitsOf, F.pci_LINK_STATUS_UP]
  omega

/-- Settles O51: the cache by its lists, a violation by the registers it sets in both pages. -/
theorem portEventsComplete : Obligations.PortEventsComplete := by
  unfold Obligations.PortEventsComplete
  refine ⟨fun s c hs hc _ => ⟨?_, ?_⟩, fun s tag cs hs ht => ?_, fun s tag ht => ?_, fun s c fn port write addr hs hc => ?_,
    fun s port width rate flit hm => ?_⟩
  · exact ⟨_, exec_atsTranslation_ok hs hc, mem_atcFilled_self _ _, not_mem_filter_ne _ _, length_atcFilled_le _ _,
      fun x hx => mem_of_mem_atcFilled hx, .of_stores rfl rfl rfl rfl, rfl⟩
  · obtain ⟨t, ht, hq⟩ := exec_atsTranslation_failed hs hc
    refine ⟨t, ht, ?_⟩
    rw [hq.boot]
    exact ⟨not_mem_filter_ne _ _, List.mem_append_right _ (List.mem_singleton_self _),
      (SameMemory.of_stores rfl rfl rfl rfl).trans hq.sameMemory⟩
  · refine ⟨_, exec_invalidateRequest hs ht cs, fun c hc hmem => ?_, List.mem_append_right _ (List.mem_singleton_self _), rfl,
      .of_stores rfl rfl rfl rfl⟩
    simpa [hc] using (List.mem_filter.mp hmem).2
  · obtain ⟨t, hx, hq⟩ := exec_invalidateCompletion ht
    refine ⟨t, hx, ?_⟩
    rw [hq.boot]
    exact ⟨not_mem_filter_ne _ _, rfl, (SameMemory.of_stores rfl rfl rfl rfl).trans hq.sameMemory⟩
  · intro low
    refine ⟨exec_partnerViolation hs hc fn port write addr, fun p => ?_⟩
    obtain ⟨hcount, hlo, hhi⟩ := s.noteViolation_leaves c fn port low p
    refine ⟨hcount, ?_, hhi⟩
    rw [hlo, bitsOf, BitVec.toNat_ofNat]
    have := c.isLt
    omega
  · obtain ⟨t, hx, hreg, hq⟩ := exec_pcieLinkTrain hm
    refine ⟨t, hx, ?_, hreg, hq.sameMemory⟩
    exact (congrArg (fun w : W32 => F.pci_LINK_STATUS_UP.get w.toNat) hreg).trans (linkStatus_up _ _ _)

end Sys2Proof.Machine

/-! # The package -/

namespace Sys2Proof.Machine
open Sys2Proof

/-! ## What a cold reset keeps -/

theorem State.regs_coldReset (s : State) : s.coldReset.regs
    = SMap.keep s.regs (fun k => k / 2 ^ 28 == 5 * 256 && (k % 4096 == 0x044 || k % 4096 == 0x05C || k % 4096 == 0x060)) := rfl

/-- The standby registers stay, and every other one reads its reset value. -/
theorem State.reg_coldReset (s : State) (pg : Page) (b o : Nat) : s.coldReset.reg pg b o
    = if regKey pg b o / 2 ^ 28 == 5 * 256 && (regKey pg b o % 4096 == 0x044 || regKey pg b o % 4096 == 0x05C || regKey pg b o % 4096 == 0x060)
      then s.reg pg b o else resetWord pg b o := by
  rw [State.reg, State.regs_coldReset, SMap.get_keep, State.reg]

theorem State.reg_coldReset_trip (s : State) : s.coldReset.reg pgPkg 0 0x05C = s.reg pgPkg 0 0x05C := by
  rw [State.reg_coldReset]
  exact if_pos (by decide)

theorem State.booted_coldReset (s : State) : s.coldReset.booted = false := by
  have hreg : s.coldReset.reg pgTop 0 0x00C = resetWord pgTop 0 0x00C := by
    rw [State.reg_coldReset]
    exact if_neg (by decide)
  rw [State.booted, State.fld_eq_get, show F.hdr_STATE.off = 0x00C from rfl, hreg]
  decide

/-! ## Supplies -/

section
variable {s : State}

/-- STRAPS takes MADDR as VAUX rises, and TRIP_LOG stays. -/
theorem State.vauxSampled (u : State) (m : Nat) (mv : Nat) :
    let t := (u.setReg pgPkg 0 0x060 (BitVec.ofNat 32 (4 * m))).setFld pgPkg F.pkg_VAUX_MV mv
    Quiet u t ∧ t.reg pgPkg 0 0x060 = BitVec.ofNat 32 (4 * m) ∧ t.reg pgPkg 0 0x05C = u.reg pgPkg 0 0x05C := by
  refine ⟨(u.setReg_quiet _ _ _ _).setFld _ _ _, ?_, ?_⟩
  · rw [State.reg_setFld_of_offset_ne _ _ _ _ _ _ (by decide) (by decide) (by decide), State.reg_setReg_self]
  · rw [State.reg_setFld_of_offset_ne _ _ _ _ _ _ (by decide) (by decide) (by decide), State.reg_setReg_of_off_ne _ _ _ _ (by decide)]

/-- VAUX in range: MADDR is sampled, and a record of a shut-down that VAUX did not cause goes (R520 to R522). -/
theorem exec_vauxGood (hv : s.boot.vaux = false) (m : Fin 4) (mv : W16) : exec (.vauxGood m mv) s
    = .next (((if s.fld pgPkg F.pkg_TRIP_LOG_CAUSE = 6 then { s with boot := { s.boot with vaux := true, dyn := none } }
      else { s with boot := { s.boot with vaux := true, dyn := none } }.setReg pgPkg 0 0x05C 0#32).setReg pgPkg 0 0x060
        (BitVec.ofNat 32 (4 * m.val))).setFld pgPkg F.pkg_VAUX_MV mv.toNat) := by
  change execVauxGood m mv s = _
  rw [execVauxGood]
  exact if_neg (by simp [hv])

theorem exec_vinRamp (hi : s.boot.vin = false) (hv : s.boot.vaux = true) :
    exec .vinRamp s = .next { s with boot := { s.boot with vin := true, tripped := false } } := by
  change execVinRamp s = _
  rw [execVinRamp]
  exact if_neg (by simp [hi, hv])

theorem exec_vauxLoss (hi : s.boot.vin = false) (hv : s.boot.vaux = true) :
    ∃ t, exec .vauxLoss s = .next t ∧ t.boot.vaux = false ∧ t.boot.dyn = none ∧ t.reg pgPkg 0 0x05C = 0#32 := by
  refine ⟨_, (if_neg (by simp [hi, hv]) : execVauxLoss s = .next _), rfl, rfl, ?_⟩
  have hreg : (((s.setReg pgPkg 0 0x044 0#32).setReg pgPkg 0 0x05C 0#32).setReg pgPkg 0 0x060 0#32).reg pgPkg 0 0x05C = 0#32 := by
    rw [State.reg_setReg_of_off_ne _ _ _ _ (by decide), State.reg_setReg_self]
  exact hreg

theorem exec_perstAssertion (hp : s.boot.perst = false) : exec .perstAssertion s = .next s.coldReset := by
  change execPerstAssertion s = _
  rw [execPerstAssertion, if_neg (by simp [hp])]

/-- Losing VIN logs its cause and puts the part into cold reset (R523). -/
theorem exec_vinLoss (hi : s.boot.vin = true) (ht : s.boot.tripped = false) (vaux : Bool) : exec (.vinLoss vaux) s
    = .next { (s.logTrip (if vaux then 6 else 5) 0 0).coldReset with
      boot := { (s.logTrip (if vaux then 6 else 5) 0 0).coldReset.boot with
        vin := false, vaux := (s.logTrip (if vaux then 6 else 5) 0 0).coldReset.boot.vaux && !vaux } } := by
  change execVinLoss vaux s = _
  rw [execVinLoss, if_neg (by simp [hi]), if_neg (by simp [ht])]

theorem exec_vinLow (hi : s.boot.vin = true) (ht : s.boot.tripped = false) (hp : s.boot.perst = false) {mv : W16} (hlo : 10800 ≤ mv.toNat)
    (hhi : mv.toNat < 11400) : exec (.vinLow mv) s = .next (s.setFld pgPkg F.pkg_VIN_MV mv.toNat).refreshAlerts := by
  change execVinLow mv s = _
  rw [execVinLow]
  exact if_neg (by simp [hi, ht, hp, hlo, hhi])

/-! ## The thermal trip -/

/-- A compute die at its limit is logged, and the part goes into cold reset with its rails off (R524, R525). -/
theorem exec_thermalTrip_hot (hi : s.boot.vin = true) (ht : s.boot.tripped = false) {u : Fin 32} {temp : Byte} (hhot : 115 ≤ temp.toNat)
    (hu : u.val < 4) : exec (.thermalTrip 1 u temp) s
    = .next { (s.logTrip 1 u temp.toNat).coldReset with boot := { (s.logTrip 1 u temp.toNat).coldReset.boot with tripped := true } } := by
  change execThermalTrip 1 u temp s = _
  rw [execThermalTrip]
  exact if_neg (by simp [hi, ht, hhot, hu])

theorem exec_thermalTrip_cool (u : Fin 32) {temp : Byte} (hcool : temp.toNat < 115) : exec (.thermalTrip 1 u temp) s = .next s := by
  change execThermalTrip 1 u temp s = _
  rw [execThermalTrip]
  exact if_pos (by simp [Nat.not_le.mpr hcool])

/-! ## The management bus -/

section
variable (hv : s.boot.vaux = true)
include hv

theorem exec_mgmtBusRead (off : Fin 4096) (len : Fin 257) : exec (.mgmtBusRead off len) s
    = .next (s.emit (.mgmt true ((List.range len).map (fun i => s.mgmtByte (off + i))))) := by
  change execMgmtBusRead off len s = _
  rw [execMgmtBusRead, if_pos hv]

theorem exec_mgmtBusWrite (off : Fin 4096) (data : List Byte) : exec (.mgmtBusWrite off data) s = .next (s.emit (.mgmt false [])) := by
  change execMgmtBusWrite off data s = _
  rw [execMgmtBusWrite, if_pos hv]

theorem exec_i3cAddressAssign (a : Fin 128) : exec (.i3cAddressAssign a) s
    = .next ({ s with boot := { s.boot with dyn := some a.val } }.setFld pgPkg F.pkg_STRAPS_I3C 1) := by
  change execI3cAddressAssign a s = _
  rw [execI3cAddressAssign]
  exact if_neg (by simp [hv])

end

/-! ## Functions that return to D0 -/

theorem exec_returnToD0_pf (h : s.d3hot.contains 0 = true) : exec (.returnToD0 0) s
    = .next { s with d3hot := s.d3hot.filter (· != 0), waiting := s.waiting.filter (fun e => s.holder e != 0)
                     egress := s.egress ++ s.waiting.filter (fun e => s.holder e == 0) } := by
  change execReturnToD0 0 s = _
  rw [execReturnToD0]
  exact (if_pos (.inl rfl)).trans (if_neg (by simpa using h))

theorem exec_returnToD0_tenant (t : Fin 64) : exec (.returnToD0 (Fin.ofNat 66 (t + 1))) s = .next (s.setTen t { s.ten t with d3 := false }) := by
  change execReturnToD0 (Fin.ofNat 66 (t + 1)) s = _
  have ht : ((Fin.ofNat 66 (t + 1) : Fin 66) : Nat) = t + 1 := Nat.mod_eq_of_lt (by omega)
  rw [execReturnToD0]
  simp only [ht, Nat.add_sub_cancel]
  exact if_neg (by omega)

end

/-- Settles O60: each supply, pin and bus event by its equation, a trip by the log that a cold reset keeps. -/
theorem packageCompletes : Obligations.PackageCompletes := by
  unfold Obligations.PackageCompletes
  refine ⟨fun s m mv hv => ?_, fun s => ⟨exec_vinRamp, exec_vauxLoss, exec_perstAssertion, ?_, fun vaux hi ht => ?_,
      fun mv hi ht hp hlo hhi => exec_vinLow hi ht hp hlo hhi, fun u temp hi ht hhot hu => ?_, fun u temp hcool => exec_thermalTrip_cool u hcool⟩,
    fun s hv => ⟨exec_mgmtBusRead hv, exec_mgmtBusWrite hv, fun a => ?_⟩, fun s h => ?_, fun s t => ?_⟩
  · by_cases hc : s.fld pgPkg F.pkg_TRIP_LOG_CAUSE = 6
    · obtain ⟨hq, hstraps, -⟩ := State.vauxSampled { s with boot := { s.boot with vaux := true, dyn := none } } m mv.toNat
      exact ⟨_, (exec_vauxGood hv m mv).trans (by rw [if_pos hc]), congrArg BootState.vaux hq.boot, congrArg BootState.dyn hq.boot, hstraps,
        fun h => absurd hc h, (SameMemory.of_stores rfl rfl rfl rfl).trans hq.sameMemory⟩
    · obtain ⟨hq, hstraps, htrip⟩ := State.vauxSampled ({ s with boot := { s.boot with vaux := true, dyn := none } }.setReg pgPkg 0 0x05C 0#32) m
        mv.toNat
      exact ⟨_, (exec_vauxGood hv m mv).trans (by rw [if_neg hc]), congrArg BootState.vaux hq.boot, congrArg BootState.dyn hq.boot, hstraps,
        fun _ => htrip.trans (State.reg_setReg_self _ _ _ _ _), (SameMemory.of_stores rfl rfl rfl rfl).trans hq.sameMemory⟩
  · exact ⟨rfl, rfl, s.booted_coldReset, rfl, rfl, rfl, fun hw => if_neg (by simp [hw]), rfl⟩
  · exact ⟨_, exec_vinLoss hi ht vaux, rfl, rfl, rfl, State.reg_coldReset_trip _, rfl, rfl⟩
  · refine ⟨_, exec_thermalTrip_hot hi ht hhot hu, rfl, rfl, rfl, (State.reg_coldReset_trip _).trans ?_⟩
    rw [State.logTrip, State.reg_setReg_self, Nat.mod_eq_of_lt u.isLt, Nat.mod_eq_of_lt temp.isLt]
  · refine ⟨_, exec_i3cAddressAssign hv a, rfl, State.fld_setFld_self _ _ (by decide) (by decide), ?_⟩
    exact (SameMemory.of_stores rfl rfl rfl rfl).trans (State.setFld_quiet _ _ _ _).sameMemory
  · exact ⟨_, exec_returnToD0_pf h, rfl, rfl, rfl, .of_stores rfl rfl rfl rfl⟩
  · exact ⟨_, exec_returnToD0_tenant t, congrArg Ten.d3 (s.ten_setTen_self t _), rfl, (s.setTen_sessionsOnly _ _).sameMemory⟩

end Sys2Proof.Machine

/-! # Ports of the Glith link -/

namespace Sys2Proof.Machine
open Sys2Proof

/-! ## Updates of the link -/

/-- `t` is `s` but for the link, and for what reports change. -/
def LinkOnly (s t : State) : Prop := ∃ l, Quiet { s with link := l } t

namespace LinkOnly
variable {s t u : State}

theorem of_quiet (h : Quiet s t) : LinkOnly s t := ⟨s.link, h⟩

theorem trans (h : LinkOnly s t) (k : LinkOnly t u) : LinkOnly s u := by
  obtain ⟨l, r, e, f, g, w, rfl⟩ := h
  obtain ⟨l', r', e', f', g', w', rfl⟩ := k
  exact ⟨l', r', e', f', g', w', rfl⟩

theorem thenQuiet (h : LinkOnly s t) (k : Quiet t u) : LinkOnly s u := h.trans (of_quiet k)

theorem setPort (h : LinkOnly s t) (p : Nat) (x : GPort) : LinkOnly s (t.setPort p x) := h.trans ⟨_, Quiet.refl _⟩

theorem sameMemory (h : LinkOnly s t) : SameMemory s t :=
  let ⟨_, hq⟩ := h; (SameMemory.of_stores rfl rfl rfl rfl).trans hq.sameMemory

end LinkOnly

theorem Quiet.port {s t : State} (h : Quiet s t) (p : Nat) : t.port p = s.port p := by rw [State.port, h.link, State.port]

/-! ## The state of a port -/

section
variable (s : State) (p : Nat)

theorem State.setPort_linkOnly (x : GPort) : LinkOnly s (s.setPort p x) := ⟨_, Quiet.refl _⟩

theorem State.portState_setPortState {v : Nat} (hv : v < 16) : (s.setPortState p v).portState p = v := s.fld_setFld_self _ (by decide) hv

variable {s p} in
theorem State.portState_of_reg {t : State} (h : t.reg (pgGll p) 0 0x00C = s.reg (pgGll p) 0 0x00C) : t.portState p = s.portState p := State.fld_of_reg h

theorem State.reg_setPort (x : GPort) : (s.setPort p x).reg = s.reg := State.reg_congr rfl

/-- A port's STATE keeps its value when a register at another offset is set. -/
theorem State.portState_setFld {pg : Page} {f : Fld} (v : Nat) (hf : f.off < 4096) (hne : f.off ≠ 0x00C) :
    (s.setFld pg f v).portState p = s.portState p :=
  State.portState_of_reg (s.reg_setFld_of_offset_ne _ _ _ _ _ (by decide) hf hne)

theorem State.portState_raise (pg : Page) (c : Nat) : (s.raise pg c).portState p = s.portState p :=
  State.portState_of_reg (s.reg_raise_of_off_ne _ _ _ _ (by decide) (by decide) (by decide))

theorem State.portState_emit (e : Egress) : (s.emit e).portState p = s.portState p :=
  State.portState_of_reg (congrFun (congrFun (congrFun (s.reg_emit e) _) _) _)

/-- A retrain starts at a READY port, and what waits for acknowledgement stays (R430). -/
theorem State.startRetrain_ready {s : State} {p : Nat} (h : s.portState p = pReady) : (s.startRetrain p).portState p = pRetraining
    ∧ ((s.startRetrain p).port p).unacked = (s.port p).unacked ∧ LinkOnly s (s.startRetrain p) := by
  rw [State.startRetrain, if_neg (by simp [h])]
  refine ⟨?_, ?_, ?_⟩
  · rw [State.portState_emit, State.portState_raise]
    exact s.portState_setPortState p (by decide)
  · rw [(State.emit_quiet _ _).port, (State.raise_quiet _ _ _).port, State.port_setPort_self]
  · exact (((LinkOnly.of_quiet (s.setFld_quiet _ _ _)).setPort _ _).thenQuiet (State.raise_quiet _ _ _)).thenQuiet (State.emit_quiet _ _)

end

/-! ## Credits of the lanes -/

/-- Fields set in the banks 0 to `n` − 1 are those that were set, and other offsets stay. -/
theorem State.fldB_foldl_setFldB (s : State) (pg : Page) {f : Fld} (hf : f.msb < 32) (c : Nat → Nat) (hc : ∀ v, c v < 2 ^ (f.msb + 1 - f.lsb))
    (n : Nat) {v : Nat} (hv : v < n) : ((List.range n).foldl (fun s v => s.setFldB pg v f (c v)) s).fldB pg v f = c v := by
  induction n with
  | zero => exact absurd hv (Nat.not_lt_zero v)
  | succ n ih =>
    rw [List.range_succ, List.foldl_append, List.foldl_cons, List.foldl_nil]
    rcases Nat.lt_succ_iff_lt_or_eq.mp hv with hlt | rfl
    · rw [← ih hlt]
      refine State.fldB_of_reg (State.reg_setReg_of_key_ne _ _ _ _ _ _ _ _ fun hkey => ?_)
      simp only [regKey] at hkey
      omega
    · exact State.fldB_setFldB_self _ _ _ hf (hc v)

/-- Banks of a field set leave the registers at other offsets. -/
theorem State.reg_foldl_setFldB_of_offset_ne (s : State) (pg pg' : Page) (b : Nat) {o : Nat} {f : Fld} (ho : o < 4096) (hf : f.off < 4096)
    (hne : f.off ≠ o) (c : Nat → Nat) (l : List Nat) : (l.foldl (fun s v => s.setFldB pg' v f (c v)) s).reg pg b o = s.reg pg b o :=
  foldl_keeps (fun u : State => u.reg pg b o = s.reg pg b o) _ (fun u _ hu => (u.reg_setReg_of_offset_ne _ _ _ _ _ ho hf hne).trans hu) l s rfl

theorem State.foldl_setFldB_quiet (s : State) (pg : Page) (f : Fld) (c : Nat → Nat) (l : List Nat) :
    Quiet s (l.foldl (fun s v => s.setFldB pg v f (c v)) s) :=
  foldl_keeps (Quiet s) _ (fun u _ hu => hu.trans (u.setFldB_quiet _ _ _ _)) l s (.refl s)

/-! ## A port that is reset -/

/-- A port without frames, in OFF, its status and sequence registers clear: the first half of its reset (R433). -/
def State.portCleared (s : State) (p : Nat) : State :=
  ((((s.setPort p {}).setPortState p pOff).setReg (pgGll p) 0 0x044 0#32).setReg (pgGll p) 0 0x050 0#32).setFld (pgGll p) F.gll_PORT_CMD_RETRAIN 0

theorem State.portCleared_leaves (s : State) (p : Nat) :
    (s.portCleared p).portState p = pOff ∧ (s.portCleared p).port p = {} ∧ LinkOnly s (s.portCleared p) := by
  unfold State.portCleared
  have hq : Quiet (s.setPort p {}) (((((s.setPort p {}).setPortState p pOff).setReg (pgGll p) 0 0x044 0#32).setReg (pgGll p) 0 0x050 0#32).setFld
      (pgGll p) F.gll_PORT_CMD_RETRAIN 0) :=
    (((State.setFld_quiet _ _ _ _).trans (State.setReg_quiet _ _ _ _ _)).trans (State.setReg_quiet _ _ _ _ _)).setFld _ _ _
  refine ⟨?_, (hq.port p).trans (s.port_setPort_self _ _), (s.setPort_linkOnly p {}).thenQuiet hq⟩
  rw [State.portState_setFld _ _ _ (by decide) (by decide), State.portState_of_reg (s := (s.setPort p {}).setPortState p pOff),
    State.portState_setPortState _ _ (by decide)]
  rw [State.reg_setReg_of_off_ne _ _ _ _ (by decide), State.reg_setReg_of_off_ne _ _ _ _ (by decide)]

/-- What is noted of a reset changes no register of a port's page. -/
theorem State.reg_noteReset_gll (s : State) (a c q : Nat) {p b o : Nat} (hp : p < 256) (hb : b < 65536) (ho : o < 4096) :
    (s.noteReset a c q).reg (pgGll p) b o = s.reg (pgGll p) b o := by
  have hbd : RegBounds (pgGll p) b o := ⟨hp, hb, ho⟩
  rw [State.noteReset, State.reg_logErr hbd _ _ _ _ _ _ (by simp [pgRas, pgGll]) (by simp [pgGll]),
    State.reg_setReg_of_page_ne hbd _ _ ⟨by decide, by decide, by decide⟩ (by simp [pgRas, pgGll])]

theorem State.noteReset_quiet (s : State) (a c q : Nat) : Quiet s (s.noteReset a c q) :=
  (s.setReg_quiet _ _ _ _).trans (State.logErr_quiet _ _ _ _ _ _)

/-- A port's credits go, and its reset is noted: the second half (R433, R479). -/
theorem State.creditsCleared_leaves (u : State) {p : Nat} (hp : p < 12) :
    let t := ((List.range 8).foldl (fun s v => s.setFldB (pgGll p) v F.gll_VL_CREDIT_TX_CREDIT 0) u).noteReset 2 1 0
    t.portState p = u.portState p ∧ (∀ v, v < 8 → t.fldB (pgGll p) v F.gll_VL_CREDIT_TX_CREDIT = 0) ∧ Quiet u t := by
  refine ⟨?_, fun v hv => ?_, (u.foldl_setFldB_quiet _ _ (fun _ => 0) _).trans (State.noteReset_quiet _ _ _ _)⟩
  · rw [State.portState_of_reg (State.reg_noteReset_gll _ _ _ _ (by omega) (by decide) (by decide)),
      State.portState_of_reg (u.reg_foldl_setFldB_of_offset_ne _ _ _ (by decide) (by decide) (by decide) (fun _ => 0) _)]
  · rw [State.fldB_of_reg (State.reg_noteReset_gll _ _ _ _ (by omega) (by omega) (by decide))]
    exact u.fldB_foldl_setFldB _ (by decide) (fun _ => 0) (fun _ => by decide) 8 hv

/-! ## A port that has trained -/

theorem widthOf_lt (lanes : Nat) : widthOf lanes < 8 := by
  have hn : countP 4 (bitOf lanes) ≤ 4 := (List.length_filter_le _ _).trans (List.length_range).le
  rw [widthOf]
  split_ifs <;> omega

/-- A count of bytes leaves the registers at other offsets. -/
theorem State.reg_bump64B_of_offset_ne (s : State) (pg pg' : Page) (b b' n : Nat) {o : Nat} {lo hi : Fld} (ho : o < 4096) (hlo : lo.off < 4096)
    (hhi : hi.off < 4096) (hl : lo.off ≠ o) (hh : hi.off ≠ o) : (s.bump64B pg' b' lo hi n).reg pg b o = s.reg pg b o := by
  unfold State.bump64B
  exact (State.reg_setReg_of_offset_ne _ _ _ _ _ _ ho hhi hh).trans (State.reg_setReg_of_offset_ne _ _ _ _ _ _ ho hlo hl)

/-- A port trained at width `w`: `x` are its active lanes, `c` its lanes' words, and `f` gives what it then sends (R427 to R429). -/
def State.trainedAt (s : State) (p w x : Nat) (c : Nat → W32) (f : State → Egress) : State :=
  let s1 := (s.setFld (pgGll p) F.gll_PORT_STATUS_WIDTH w).setFld (pgGll p) F.gll_PORT_STATUS_LANES_UP x
  let s2 := (List.range 4).foldl (fun s l => s.setReg (pgGll p) l 0x08C (c l)) s1
  let s3 := s2.setPort p { s2.port p with trained := true }
  (s3.bump64B (pgGll p) 0 F.gll_BYTES_TX_LO_COUNT F.gll_BYTES_TX_HI_COUNT 72).emit (f s3)

theorem State.trainedAt_leaves (s : State) (p : Nat) {w : Nat} (hw : w < 8) (x : Nat) (c : Nat → W32) (f : State → Egress) :
    ((s.trainedAt p w x c f).port p).trained = true ∧ (s.trainedAt p w x c f).fld (pgGll p) F.gll_PORT_STATUS_WIDTH = w
      ∧ (s.trainedAt p w x c f).portState p = s.portState p ∧ LinkOnly s (s.trainedAt p w x c f) := by
  unfold State.trainedAt
  extract_lets s1 s2 _ s3
  have h1 : Quiet s s1 := (s.setFld_quiet _ _ _).setFld _ _ _
  have h2 : Quiet s1 s2 := foldl_keeps (Quiet s1) _ (fun u _ hu => hu.trans (u.setReg_quiet _ _ _ _)) _ s1 (.refl s1)
  have hq : Quiet s3 ((s3.bump64B (pgGll p) 0 F.gll_BYTES_TX_LO_COUNT F.gll_BYTES_TX_HI_COUNT 72).emit (f s3)) :=
    (s3.bump64B_quiet _ _ _ _ _).trans (State.emit_quiet _ _)
  have hreg : ∀ {o : Nat}, o < 0x078 → ((s3.bump64B (pgGll p) 0 F.gll_BYTES_TX_LO_COUNT F.gll_BYTES_TX_HI_COUNT 72).emit (f s3)).reg (pgGll p) 0 o
      = s1.reg (pgGll p) 0 o := fun {o} ho => by
    have h2o : s2.reg (pgGll p) 0 o = s1.reg (pgGll p) 0 o :=
      foldl_keeps (fun u : State => u.reg (pgGll p) 0 o = s1.reg (pgGll p) 0 o) _
        (fun u _ hu => (u.reg_setReg_of_offset_ne _ _ _ _ _ (by omega) (by decide) (by omega)).trans hu) _ s1 rfl
    have hlo : F.gll_BYTES_TX_LO_COUNT.off = 0x078 := rfl
    have hhi : F.gll_BYTES_TX_HI_COUNT.off = 0x07C := rfl
    rw [State.reg_emit, s3.reg_bump64B_of_offset_ne _ _ _ _ _ (by omega) (by omega) (by omega) (by omega) (by omega)]
    exact h2o
  refine ⟨?_, ?_, ?_, (((LinkOnly.of_quiet (h1.trans h2)).setPort _ _).thenQuiet hq)⟩
  · rw [hq.port, State.port_setPort_self]
  · rw [State.fld_of_reg (s := s1) (hreg (by decide)), State.fld_setFld_other _ _ _ (by decide) (fun _ => by decide),
      State.fld_setFld_self _ _ (by decide) hw]
  · rw [State.portState_of_reg (hreg (by decide)), State.portState_setFld _ _ _ (by decide) (by decide),
      State.portState_setFld _ _ _ (by decide) (by decide)]

/-! ## A port that becomes READY -/

/-- A port that takes its neighbour's HELLO in INIT: its neighbour, `port` on device `dev`, its credits `c`, and the numbers of its frames (R429,
R431). -/
def State.greeted (s : State) (p dev port next : Nat) (c : Nat → Nat) (f : State → GPort) : State :=
  let s1 := (((s.setFld (pgGll p) F.gll_PORT_STATUS_NBR_DEV dev).setFld (pgGll p) F.gll_PORT_STATUS_NBR_PORT port).setFld (pgGll p)
    F.gll_PORT_STATUS_NBR_VALID 1).setPortState p pReady
  let s2 := (List.range 8).foldl (fun s v => s.setFldB (pgGll p) v F.gll_VL_CREDIT_TX_CREDIT (c v)) s1
  ((s2.setPort p (f s2)).setFld (pgGll p) F.gll_SEQ_STATUS_TX_NEXT next).setFld (pgGll p) F.gll_SEQ_STATUS_RX_EXPECT 0

theorem State.greeted_leaves (s : State) (p : Nat) {dev port next : Nat} {c : Nat → Nat} (hdev : dev < 4096) (hnext : next < 4096)
    (hc : ∀ v, c v < 4096) (f : State → GPort) :
    (s.greeted p dev port next c f).portState p = pReady ∧ (s.greeted p dev port next c f).fld (pgGll p) F.gll_PORT_STATUS_NBR_DEV = dev
      ∧ (s.greeted p dev port next c f).txNext p = next ∧ (s.greeted p dev port next c f).rxExpect p = 0
      ∧ (∀ v, v < 8 → (s.greeted p dev port next c f).fldB (pgGll p) v F.gll_VL_CREDIT_TX_CREDIT = c v)
      ∧ LinkOnly s (s.greeted p dev port next c f) := by
  unfold State.greeted
  extract_lets s1 s2
  have h1 : Quiet s s1 := (((s.setFld_quiet _ _ _).setFld _ _ _).setFld _ _ _).setFld _ _ _
  have hreg : ∀ (b : Nat) {o : Nat}, o < 4096 → o ≠ 0x050 →
      (((s2.setPort p (f s2)).setFld (pgGll p) F.gll_SEQ_STATUS_TX_NEXT next).setFld (pgGll p) F.gll_SEQ_STATUS_RX_EXPECT 0).reg (pgGll p) b o
        = s2.reg (pgGll p) b o := fun b o ho hne => by
    rw [State.reg_setFld_of_offset_ne _ _ _ _ _ _ ho (by decide) hne.symm, State.reg_setFld_of_offset_ne _ _ _ _ _ _ ho (by decide) hne.symm,
      State.reg_setPort]
  have h2 : ∀ {o : Nat}, o < 4096 → o ≠ 0x058 → s2.reg (pgGll p) 0 o = s1.reg (pgGll p) 0 o :=
    fun ho hne => s1.reg_foldl_setFldB_of_offset_ne _ _ _ ho (by decide) hne.symm c _
  refine ⟨?_, ?_, ?_, State.fld_setFld_self _ _ (by decide) (by decide), fun v hv => ?_,
    (((LinkOnly.of_quiet (h1.trans (s1.foldl_setFldB_quiet _ _ c _))).setPort _ _).thenQuiet ((State.setFld_quiet _ _ _ _).setFld _ _ _))⟩
  · rw [State.portState_of_reg (hreg 0 (by decide) (by decide)), State.portState_of_reg (h2 (by decide) (by decide))]
    exact State.portState_setPortState _ _ (by decide)
  · rw [State.fld_of_reg (hreg 0 (by decide) (by decide)), State.fld_of_reg (h2 (by decide) (by decide))]
    unfold s1 State.setPortState
    rw [State.fld_setFld_other _ _ _ (by decide) (fun h => absurd h (by decide)), State.fld_setFld_other _ _ _ (by decide) (fun _ => by decide),
      State.fld_setFld_other _ _ _ (by decide) (fun _ => by decide), State.fld_setFld_self _ _ (by decide) hdev]
  · rw [State.txNext, State.fld_setFld_other _ _ _ (by decide) (fun _ => by decide), State.fld_setFld_self _ _ (by decide) hnext]
  · rw [State.fldB_of_reg (hreg v (by decide) (by decide))]
    exact s1.fldB_foldl_setFldB _ (f := F.gll_VL_CREDIT_TX_CREDIT) (by decide) c hc 8 hv

/-! ## Enabling, disabling and retraining -/

section
variable {s : State} {p : Fin 12} (hb : s.booted = true)
include hb

/-- An OFF port enabled starts anew in INIT (R432). -/
theorem exec_portEnable_off (hst : s.portState p = pOff) : ∃ t, exec (.portEnable p) s = .next t ∧ t.portState p = pInit ∧ t.port p = {}
    ∧ t.egress = s.egress ++ [.link p 1 []] ∧ LinkOnly s t := by
  refine ⟨_, ((s.gate_booted _ hb).trans (if_pos hst) : execPortEnable p s = .next _), ?_, ?_, ?_, ?_⟩
  · rw [State.portState_emit]
    exact State.portState_setPortState _ _ (by decide)
  · rw [(State.emit_quiet _ _).port, State.port_setPort_self]
  · exact congrArg State.egress (State.emit_egress _ _ (.inr rfl))
  · exact ((((LinkOnly.of_quiet (s.setFld_quiet _ _ _)).setPort _ _).thenQuiet (State.setFld_quiet _ _ _ _)).setPort _ _).thenQuiet
      (State.emit_quiet _ _)

theorem exec_portDisable_init (hst : s.portState p = pInit) : ∃ t, exec (.portDisable p) s = .next t ∧ t.portState p = pOff
    ∧ t.egress = s.egress ∧ LinkOnly s t :=
  ⟨_, ((s.gate_booted _ hb).trans (if_pos (.inr hst)) : execPortDisable p s = .next _), State.portState_setPortState _ _ (by decide), rfl,
    (LinkOnly.of_quiet ((s.setFld_quiet _ _ _).trans (State.setFld_quiet _ _ _ _))).setPort _ _⟩

section
variable (hst : s.portState p = pReady)
include hst

theorem exec_portDisable_ready : exec (.portDisable p) s
    = .next (((s.setFld (pgGll p) F.hdr_ENABLE 0).setPort p { s.port p with disabling := true }).maybeOff p) := by
  change execPortDisable p s = _
  rw [execPortDisable, s.gate_booted _ hb]
  simp only [hst]
  rfl

theorem exec_portRetrain : exec (.portRetrain p) s = .next ((s.setFld (pgGll p) F.gll_PORT_CMD_RETRAIN 1).startRetrain p) := by
  change execPortRetrain p s = _
  rw [execPortRetrain, s.gate_booted _ hb, if_pos hst]

theorem exec_laneLockLoss {lane : Fin 4} (hl : bitOf (s.fld (pgGll p) F.gll_PORT_STATUS_LANES_UP) lane = true) : exec (.laneLockLoss p lane) s
    = .next ((s.setReg (pgGll p) lane 0x08C ((s.reg (pgGll p) lane 0x08C) &&& 0xFFFFFFFE#32)).startRetrain p) := by
  change execLaneLockLoss p lane s = _
  rw [execLaneLockLoss, s.gate_booted _ hb, if_pos ⟨hst, hl⟩]

theorem exec_uncorrectableCodeword : exec (.uncorrectableCodeword p) s = .next ((s.bump (pgGll p) F.gll_FEC_UNCORR_COUNT 1).sendNak p) := by
  change execUncorrectableCodeword p s = _
  rw [execUncorrectableCodeword, s.gate_booted _ hb, if_neg (by simp [hst])]

theorem exec_ackTimer (ha : (s.port p).ackDue = true) : exec (.ackTimer p) s = .next (s.sendLinkctl p false) := by
  change execAckTimer p s = _
  rw [execAckTimer, s.gate_booted _ hb, if_pos ⟨hst, ha⟩]

theorem exec_hello_ready (pay : List Byte) : exec (.hello p pay) s = .next ((s.linkViolation p 6 0).startRetrain p) := by
  change execHello p pay s = _
  rw [execHello, s.gate_booted _ hb]
  exact if_pos hst

section
variable {frame : List Byte} (hty : leAt frame 0 1 = 0x11)
include hty

theorem exec_linkctl_bad (hcrc : frmCrcOk frame = false) : exec (.linkctl p frame) s = .next (s.sendNak p) := by
  change execLinkctl p frame s = _
  rw [execLinkctl, s.gate_booted _ hb, if_neg (by simp [hst, hty]), if_pos (by simp [hcrc])]

theorem exec_linkctl_good (hcrc : frmCrcOk frame = true) : exec (.linkctl p frame) s = .next ((if bitOf (frmOf frame).arg 15
    then (s.takeTrailer p frame).takeNak p ((frmOf frame).arg % 4096) else s.takeTrailer p frame).maybeOff p) := by
  change execLinkctl p frame s = _
  rw [execLinkctl, s.gate_booted _ hb, if_neg (by simp [hst, hty]), if_neg (by simp [hcrc])]

end

theorem exec_replayTimeout {f : Frm} (hf : (s.port p).unacked.head? = some f) : exec (.replayTimeout p) s
    = .next (let s1 := s.replayFrom p f.seq
      let s2 := s1.setPort p { s1.port p with replays := (s.port p).replays + 1 }
      if (s.port p).replays + 1 ≥ max 1 (s.fld (pgGll p) F.gll_REPLAY_CFG_RETRY_LIMIT) then s2.startRetrain p else s2) := by
  change execReplayTimeout p s = _
  rw [execReplayTimeout, s.gate_booted _ hb]
  simp only [hf]
  exact if_neg (by simp [hst])

end

/-! ## Resets and training -/

/-- A port that is reset is OFF, without frames, sequence or credits (R432, R433). -/
theorem exec_linkPortReset (hst : s.portState p ≠ pOffline) : ∃ t, exec (.linkPortReset p) s = .next t ∧ t.portState p = pOff ∧ t.port p = {}
    ∧ (∀ v, v < 8 → t.fldB (pgGll p) v F.gll_VL_CREDIT_TX_CREDIT = 0) ∧ LinkOnly s t := by
  obtain ⟨hoff, hport, hl⟩ := s.portCleared_leaves p
  obtain ⟨hst', hcred, hq⟩ := (s.portCleared p).creditsCleared_leaves p.isLt
  exact ⟨_, ((s.gate_booted _ hb).trans (if_neg hst) : execLinkPortReset p s = .next _), hst'.trans hoff, (hq.port p).trans hport, hcred,
    hl.thenQuiet hq⟩

/-! ## Training and HELLO -/

/-- A port that has locked lanes enough trains at their width and sends HELLO (R427 to R429). -/
theorem exec_portTrain {lanes : Fin 16} (snr : List Byte) (hst : s.portState p = pInit ∨ s.portState p = pRetraining) (hw : widthOf lanes ≠ 0)
    (hmin : minWidth (s.fld (pgGll p) F.gll_PORT_CFG_MIN_WIDTH) ≤ widthOf lanes) : exec (.portTrain p lanes snr) s
    = .next (s.trainedAt p (widthOf lanes)
      (sumTo 4 (fun l => if (((List.range 4).filter (bitOf lanes)).take (widthOf lanes)).contains l then 2 ^ l else 0))
      (fun l => BitVec.ofNat 32 (b2n (bitOf lanes l) + 2 * (snr.getD l 0).toNat))
      (fun u => .link p 2 (u.helloPayload p (s.portState p = pRetraining)))) := by
  change execPortTrain p lanes snr s = _
  rw [execPortTrain, s.gate_booted _ hb]
  exact if_neg (by simp [hst, hw, hmin])

section
variable (hst : s.portState p = pInit) (ht : (s.port p).trained = true) {pay : List Byte}
include hst ht

theorem exec_hello_own (hd : leAt pay 0 2 % 4096 = s.devId) :
    exec (.hello p pay) s = .next ((s.setPortState p pMismatch).raise (pgGll p) 3) := by
  change execHello p pay s = _
  rw [execHello, s.gate_booted _ hb]
  simp only [hst, ht, hd]
  rfl

theorem exec_hello_init (hd : leAt pay 0 2 % 4096 ≠ s.devId) (he : s.fld (pgGll p) F.gll_PORT_CFG_EXPECT_EN = 0) : exec (.hello p pay) s
    = .next (s.greeted p (leAt pay 0 2 % 4096) (leAt pay 2 1 % 16) (leAt pay 4 2 % 4096) (fun v => leAt pay (8 + 2 * v) 2 % 4096)
      (fun u => { u.port p with
        txMax := (List.range 8).foldl (fun m v => SMap.set m 0 v (leAt pay (8 + 2 * v) 2 % 4096)) [], fails := 0 })) := by
  change execHello p pay s = _
  rw [execHello, s.gate_booted _ hb]
  simp only [hst, ht, he]
  refine (if_neg (by decide)).trans ((if_neg (by simp)).trans ((if_neg (by simp [hd])).trans ((if_neg (by simp [pInit, pRetraining])).trans ?_)))
  exact if_pos trivial

end

/-! ## Training that takes too long -/

/-- Training in INIT that takes too long is counted, and tried again (R428). -/
theorem exec_trainingTimeout_init (hst : s.portState p = pInit) : ∃ t, exec (.trainingTimeout p) s = .next t ∧ t.portState p = pInit
    ∧ (t.port p).fails = (s.port p).fails + 1 ∧ LinkOnly s t := by
  have hexec : execTrainingTimeout p s = .next (((s.bump (pgGll p) F.gll_TRAIN_FAILS_COUNT 1).setPort p
      { s.port p with fails := (s.port p).fails + 1, trained := false }).emit (.link p 1 [])) := by
    rw [execTrainingTimeout, s.gate_booted _ hb]
    exact (if_neg (by simp [hst])).trans (if_neg (by simp [hst, pInit, pRetraining]))
  refine ⟨_, hexec, ?_, ?_, ((LinkOnly.of_quiet (s.bump_quiet _ _ _)).setPort _ _).thenQuiet (State.emit_quiet _ _)⟩
  · rw [State.portState_emit, ← hst]
    exact s.portState_setFld _ _ (by decide) (by decide)
  · rw [(State.emit_quiet _ _).port, State.port_setPort_self]

/-- The fourth attempt in succession of a retrain retires the port (R431). -/
theorem exec_trainingTimeout_retraining (hst : s.portState p = pRetraining) (hf : 3 ≤ (s.port p).fails) :
    ∃ u, exec (.trainingTimeout p) s = .next (State.retirePort u p) := by
  refine ⟨_, ((s.gate_booted _ hb).trans ((if_neg (by simp [hst])).trans (if_pos ⟨hst, by omega⟩)) : execTrainingTimeout p s = .next _)⟩

end

/-- A retired port is OFFLINE (R63, R472). -/
theorem State.portState_retirePort (s : State) {p : Nat} (hp : p < 12) : (s.retirePort p).portState p = pOffline := by
  have hbd : RegBounds (pgGll p) 0 0x00C := ⟨by simp only [pgGll]; omega, by decide, by decide⟩
  have hlog : ∀ u : State, (u.retireLog 9 p).portState p = u.portState p := fun u => by
    rw [State.retireLog, State.portState_raise]
    exact State.portState_of_reg (State.reg_logErr hbd _ _ _ _ _ _ (by simp [pgRas, pgGll]) (by simp [pgGll]))
  rw [State.retirePort, hlog, State.portState_setFld _ _ _ (show 0x048 < 4096 by decide) (show 0x048 ≠ 0x00C by decide)]
  exact s.portState_setPortState p (by decide)

/-- Settles O53: each port event by its equation, and the port's state by the registers that it sets. -/
theorem linkPortsComplete : Obligations.LinkPortsComplete := by
  unfold Obligations.LinkPortsComplete
  refine ⟨fun s p hb => ⟨fun hst => ?_, fun hst => ?_, fun hst => ?_, fun hst => ?_⟩, fun s p lanes snr hb hst hw hmin => ?_,
    fun s p hb => ⟨fun hst => ?_, fun hst hf => ?_⟩, fun s p pay hb => ⟨fun hst => exec_hello_ready hb hst pay, fun hst ht hd => exec_hello_own hb hst ht hd,
      fun hst ht hd he => ?_⟩, fun s p frame hb hst hty => ⟨exec_linkctl_bad hb hst hty, exec_linkctl_good hb hst hty⟩,
    fun s p f hb hst hf => exec_replayTimeout hb hst hf⟩
  · obtain ⟨t, hx, hinit, hport, hout, hl⟩ := exec_portEnable_off hb hst
    exact ⟨t, hx, hinit, hport, hout, hl.sameMemory⟩
  · obtain ⟨t, hx, hoff, hout, hl⟩ := exec_portDisable_init hb hst
    exact ⟨t, hx, hoff, hl.sameMemory, hout⟩
  · obtain ⟨hre, hun, -⟩ := State.startRetrain_ready hst
    refine ⟨exec_portDisable_ready hb hst, exec_portRetrain hb hst, hre, hun, fun lane hl => ?_, exec_uncorrectableCodeword hb hst, exec_ackTimer hb hst⟩
    have hq := s.setReg_quiet (pgGll p) lane 0x08C ((s.reg (pgGll p) lane 0x08C) &&& 0xFFFFFFFE#32)
    obtain ⟨hre', -, hlink⟩ := State.startRetrain_ready (p := p) ((State.portState_of_reg
      (s.reg_setReg_of_offset_ne (pgGll p) (pgGll p) 0 lane ((s.reg (pgGll p) lane 0x08C) &&& 0xFFFFFFFE#32) (by decide)
        (show 0x08C < 4096 by decide) (by decide))).trans hst)
    exact ⟨_, exec_laneLockLoss hb hst hl, hre', hq.sameMemory.trans hlink.sameMemory⟩
  · obtain ⟨t, hx, hoff, hport, hcred, hl⟩ := exec_linkPortReset hb hst
    exact ⟨t, hx, hoff, hport, hcred, hl.sameMemory⟩
  · obtain ⟨ht, hwidth, hsame, hl⟩ := s.trainedAt_leaves p (widthOf_lt lanes)
      (sumTo 4 (fun l => if (((List.range 4).filter (bitOf lanes)).take (widthOf lanes)).contains l then 2 ^ l else 0))
      (fun l => BitVec.ofNat 32 (b2n (bitOf lanes l) + 2 * (snr.getD l 0).toNat))
      (fun u => .link p 2 (u.helloPayload p (s.portState p = pRetraining)))
    exact ⟨_, exec_portTrain hb snr hst hw hmin, ht, hwidth, hsame, hl.sameMemory⟩
  · obtain ⟨t, hx, hinit, hfails, hl⟩ := exec_trainingTimeout_init hb hst
    exact ⟨t, hx, hinit, hfails, hl.sameMemory⟩
  · obtain ⟨u, hx⟩ := exec_trainingTimeout_retraining hb hst hf
    exact ⟨_, hx, u.portState_retirePort p.isLt⟩
  · obtain ⟨hready, hdev, hnext, hexp, hcred, hl⟩ := s.greeted_leaves p (dev := leAt pay 0 2 % 4096) (port := leAt pay 2 1 % 16)
      (next := leAt pay 4 2 % 4096) (c := fun v => leAt pay (8 + 2 * v) 2 % 4096) (Nat.mod_lt _ (by decide)) (Nat.mod_lt _ (by decide))
      (fun v => Nat.mod_lt _ (by decide)) (fun u => { u.port p with
        txMax := (List.range 8).foldl (fun m v => SMap.set m 0 v (leAt pay (8 + 2 * v) 2 % 4096)) [], fails := 0 })
    exact ⟨_, exec_hello_init hb hst ht hd he, hready, hdev, hnext, hexp, hcred, hl.sameMemory⟩

end Sys2Proof.Machine

/-! # Glith frames -/

namespace Sys2Proof.Machine
open Sys2Proof

/-! ## A data frame at its port -/

section
variable {s s1 : State} {p : Nat} {bs : List Byte} {f : Frm} {typ : Nat} (hst : s.portState p = pReady) (hty : leAt bs 0 1 = typ)
  (hk : s.takeData p bs = (some f, s1)) (hf : frmType f.typ = true) (hlen : frmPlen bs ≤ 16)
include hst hty hk hf hlen

/-- A frame taken that is for this device is consumed (R440). -/
theorem State.dataFrame_own (hd : f.dst = s.devId) (k : Frm → State → State) : s.dataFrame p bs typ k = (k f (s1.giveBack p f)).maybeOff p := by
  rw [State.dataFrame]
  refine (if_neg (by simp [hst, hty])).trans ?_
  simp only [hk]
  rw [if_neg (by simp [hf, hlen]), if_neg (by simp [hd])]

/-- A frame taken that is for another device waits at its port (R443). -/
theorem State.dataFrame_other (hd : f.dst ≠ s.devId) (k : Frm → State → State) :
    s.dataFrame p bs typ k = (s1.setPort p { s1.port p with rxq := (s1.port p).rxq ++ [f] }).maybeOff p := by
  rw [State.dataFrame]
  refine (if_neg (by simp [hst, hty])).trans ?_
  simp only [hk]
  rw [if_neg (by simp [hf, hlen]), if_pos hd]

end

/-- A frame whose CRC fails is not taken, and a NAK asks for it again (R440). -/
theorem State.takeData_bad {s : State} {p : Nat} {bs : List Byte} (h : frmCrcOk bs = false) : s.takeData p bs = (none, s.sendNak p) := by
  rw [State.takeData, if_pos (by simp [h])]

/-! ## Requests, replies and messages -/

section
variable {s : State} (hb : s.booted = true) (p : Fin 12) (frame : List Byte)
include hb

theorem exec_write : exec (.write p frame) s = .next (s.dataFrame p frame 1 (fun f s => s.answer frame f)) := by
  change execWrite p frame s = _
  rw [execWrite, s.gate_booted _ hb]

theorem exec_read : exec (.read p frame) s = .next (s.dataFrame p frame 2 (fun f s => s.answer frame f)) := by
  change execRead p frame s = _
  rw [execRead, s.gate_booted _ hb]

theorem exec_reduce : exec (.reduce p frame) s = .next (s.dataFrame p frame 3 (fun f s => s.answer frame f)) := by
  change execReduce p frame s = _
  rw [execReduce, s.gate_booted _ hb]

theorem exec_atomic : exec (.atomic p frame) s = .next (s.dataFrame p frame 4 (fun f s => s.answer frame f)) := by
  change execAtomic p frame s = _
  rw [execAtomic, s.gate_booted _ hb]

theorem exec_rdata : exec (.rdata p frame) s = .next (s.dataFrame p frame 5 (fun f s => s.replyFrame p f)) := by
  change execRdata p frame s = _
  rw [execRdata, s.gate_booted _ hb]

theorem exec_ackr : exec (.ackr p frame) s = .next (s.dataFrame p frame 6 (fun f s => s.replyFrame p f)) := by
  change execAckr p frame s = _
  rw [execAckr, s.gate_booted _ hb]

end

section
variable {s s1 : State} {p : Fin 12} {frame : List Byte} {f : Frm} (hb : s.booted = true) (hst : s.portState p = pReady)
  (hk : s.takeData p frame = (some f, s1)) (hf : frmType f.typ = true) (hlen : frmPlen frame ≤ 16)
include hb hst hk hf hlen

/-- What an instruction of a data frame does with a frame for another device does not depend on its type (R443). -/
theorem exec_dataFrame_other (hd : f.dst ≠ s.devId) :
    ∀ c ∈ [(Instr.write p frame, 1), (.read p frame, 2), (.reduce p frame, 3), (.atomic p frame, 4), (.rdata p frame, 5), (.ackr p frame, 6),
        (.msg p frame, 7)], leAt frame 0 1 = c.2 →
      exec c.1 s = .next ((s1.setPort p { s1.port p with rxq := (s1.port p).rxq ++ [f] }).maybeOff p) := by
  have hwait := fun (typ : Nat) (hty : leAt frame 0 1 = typ) => State.dataFrame_other hst hty hk hf hlen hd
  have hmsg : ∀ hty : leAt frame 0 1 = 7, execMsg p frame s = _ := fun hty => (s.gate_booted _ hb).trans (congrArg Host.Outcome.next (hwait 7 hty _))
  simp only [List.forall_mem_cons, List.not_mem_nil, IsEmpty.forall_iff, implies_true, and_true]
  exact ⟨fun hty => by rw [exec_write hb, hwait 1 hty], fun hty => by rw [exec_read hb, hwait 2 hty], fun hty => by rw [exec_reduce hb, hwait 3 hty],
    fun hty => by rw [exec_atomic hb, hwait 4 hty], fun hty => by rw [exec_rdata hb, hwait 5 hty], fun hty => by rw [exec_ackr hb, hwait 6 hty], hmsg⟩

section
variable (hd : f.dst = s.devId)
include hd

/-- A request for this device is carried out and answered (R447). -/
theorem exec_request_own : ∀ c ∈ [(Instr.write p frame, 1), (.read p frame, 2), (.reduce p frame, 3), (.atomic p frame, 4)], leAt frame 0 1 = c.2 →
    exec c.1 s = .next (((s1.giveBack p f).answer frame f).maybeOff p) := by
  have hown := fun (typ : Nat) (hty : leAt frame 0 1 = typ) => State.dataFrame_own hst hty hk hf hlen hd
  simp only [List.forall_mem_cons, List.not_mem_nil, IsEmpty.forall_iff, implies_true, and_true]
  exact ⟨fun hty => by rw [exec_write hb, hown 1 hty], fun hty => by rw [exec_read hb, hown 2 hty], fun hty => by rw [exec_reduce hb, hown 3 hty],
    fun hty => by rw [exec_atomic hb, hown 4 hty]⟩

/-- A reply for this device completes its request (R446). -/
theorem exec_reply_own : ∀ c ∈ [(Instr.rdata p frame, 5), (.ackr p frame, 6)], leAt frame 0 1 = c.2 →
    exec c.1 s = .next (((s1.giveBack p f).replyFrame p f).maybeOff p) := by
  have hown := fun (typ : Nat) (hty : leAt frame 0 1 = typ) => State.dataFrame_own hst hty hk hf hlen hd
  simp only [List.forall_mem_cons, List.not_mem_nil, IsEmpty.forall_iff, implies_true, and_true]
  exact ⟨fun hty => by rw [exec_rdata hb, hown 5 hty], fun hty => by rw [exec_ackr hb, hown 6 hty]⟩

section
variable (hty : leAt frame 0 1 = 7)
include hty

theorem exec_msg_mailbox (hm : reqMalformed frame f = false) (ha : leAt f.payload 0 1 ≠ 1) : exec (.msg p frame) s
    = .next (((s1.giveBack p f).post (s1.giveBack p f).sealer (slice f.payload 0 16)).maybeOff p) := by
  change execMsg p frame s = _
  rw [execMsg, s.gate_booted _ hb, State.dataFrame_own hst hty hk hf hlen hd, if_neg (by simp [hm]), if_neg ha]

theorem exec_msg_malformed (hm : reqMalformed frame f = true) : exec (.msg p frame) s
    = .next (((s1.giveBack p f).bump (pgGll 0) F.gll_UNREACH_VALUE 1).maybeOff p) := by
  change execMsg p frame s = _
  rw [execMsg, s.gate_booted _ hb, State.dataFrame_own hst hty hk hf hlen hd, if_pos hm]

end

end

end

/-! ## Frames that go on, requests without a reply -/

section
variable {s : State} {p : Fin 12} {f : Frm} {fs : List Frm} (hb : s.booted = true) (hq : (s.port p).rxq = f :: fs)
include hb hq

theorem exec_frameForward_lastHop (hh : f.hops ≤ 1) :
    exec (.frameForward p) s = .next ((s.setPort p { s.port p with rxq := fs }).refuseFrame p f) := by
  change execFrameForward p s = _
  rw [execFrameForward, s.gate_booted _ hb]
  simp only [hq]
  exact if_pos hh

theorem exec_frameForward_noRoute (hh : 1 < f.hops)
    (hr : (s.setPort p { s.port p with rxq := fs }).route f.src f.dst (f.vl % 2) (some (p.val % 6 / 2)) = none) :
    exec (.frameForward p) s = .next ((s.setPort p { s.port p with rxq := fs }).refuseFrame p f) := by
  change execFrameForward p s = _
  rw [execFrameForward, s.gate_booted _ hb]
  simp only [hq, hr]
  exact if_neg (by omega)

theorem exec_frameForward_route {o d : Nat} (hh : 1 < f.hops)
    (hr : (s.setPort p { s.port p with rxq := fs }).route f.src f.dst (f.vl % 2) (some (p.val % 6 / 2)) = some (o, d)) :
    let g := { f with hops := f.hops - 1, vl := f.vl / 2 * 2 + d }
    exec (.frameForward p) s = .next (if (s.setPort p { s.port p with rxq := fs }).qRoom (16 + o) (portQueue g)
      then ((s.setPort p { s.port p with rxq := fs }).giveBack p f).enqueue (16 + o) (portQueue g) ⟨g.len, .glith g⟩ else s) := by
  intro g
  change execFrameForward p s = _
  rw [execFrameForward, s.gate_booted _ hb]
  simp only [hq, hr]
  refine (if_neg (by omega)).trans ?_
  split <;> rfl

end

theorem exec_requestTimeout {s : State} {tid : W16} {f : Flying} {r : PeerReq} (hb : s.booted = true) (ho : s.outstanding tid.toNat 0 = some (f, r)) :
    exec (.requestTimeout tid) s
    = .next ((({ s with pmp := { s.pmp with late := s.pmp.late ++ [tid.toNat] } }.raise (pgGll 0) 9).takeReply f r 6 []).remoteFailures) := by
  change execRequestTimeout tid s = _
  rw [execRequestTimeout, s.gate_booted _ hb]
  simp only [ho]

/-- Settles O54: a frame by what its port takes, then by its type. -/
theorem linkFramesComplete : Obligations.LinkFramesComplete := by
  unfold Obligations.LinkFramesComplete
  exact ⟨fun s s1 p frame f hb hst hk hf hlen => ⟨fun hd => ⟨exec_request_own hb hst hk hf hlen hd, exec_reply_own hb hst hk hf hlen hd,
        exec_msg_mailbox hb hst hk hf hlen hd, exec_msg_malformed hb hst hk hf hlen hd⟩, exec_dataFrame_other hb hst hk hf hlen⟩,
    fun s p frame h => State.takeData_bad h,
    fun s p f fs hb hq => ⟨exec_frameForward_lastHop hb hq, exec_frameForward_noRoute hb hq, fun o d => exec_frameForward_route hb hq⟩,
    fun s tid f r hb ho => exec_requestTimeout hb ho⟩

end Sys2Proof.Machine

/-! # The journal and rebuilds -/

namespace Sys2Proof.Machine
open Sys2Proof

/-! ## Writes that complete -/

/-- A session's journal record that is done (R459). -/
def State.journalDone (s : State) (k : Nat) (r : JRec) : State :=
  s.setJournal (s.ses.journal.map (fun q => if q.ses = k ∧ q.jseq = r.jseq then { q with done := true } else q))

section
variable {s : State} {h : W32} {r : JRec} (hb : s.booted = true)
  (hr : s.ses.journal.find? (fun r => r.ses == h.toNat && !r.done) = some r)
include hb hr

theorem exec_journalWriteComplete_accept {t : Nat} {req : Req} (hw : r.what = .accept t req) : exec (.journalWriteComplete h) s
    = .next (((((s.journalDone h.toNat r).accept t h.toNat req).passHead t).tryGone h.toNat).journalCheck) := by
  change execJournalWriteComplete h s = _
  rw [execJournalWriteComplete, s.gate_booted _ hb]
  simp only [hr, hw]
  rfl

theorem exec_journalWriteComplete_records {ps : List PRec} (hw : r.what = .records ps) : exec (.journalWriteComplete h) s
    = .next ((((s.journalDone h.toNat r).setTen (sesTenant h.toNat) { (s.journalDone h.toNat r).ten (sesTenant h.toNat) with
      pend := ((s.journalDone h.toNat r).ten (sesTenant h.toNat)).pend ++ ps }).tryGone h.toNat).journalCheck) := by
  change execJournalWriteComplete h s = _
  rw [execJournalWriteComplete, s.gate_booted _ hb]
  simp only [hr, hw]
  rfl

theorem exec_journalWriteComplete_effect (hw : r.what = .effect) :
    exec (.journalWriteComplete h) s = .next (((s.journalDone h.toNat r).tryGone h.toNat).journalCheck) := by
  change execJournalWriteComplete h s = _
  rw [execJournalWriteComplete, s.gate_booted _ hb]
  simp only [hr, hw]
  rfl

theorem exec_journalWriteComplete_history (hw : r.what = .history) : exec (.journalWriteComplete h) s
    = .next ((((s.journalDone h.toNat r).setJournal ((s.journalDone h.toNat r).ses.journal.filter
      (fun q => q.ses != h.toNat || decide (q.jseq ≥ r.jseq) || !q.done))).tryGone h.toNat).journalCheck) := by
  change execJournalWriteComplete h s = _
  rw [execJournalWriteComplete, s.gate_booted _ hb]
  simp only [hr, hw]
  rfl

end

/-! ## Compaction and copies made anew -/

section
variable {s : State} {h : W32} (hb : s.booted = true)
include hb

theorem exec_journalCompact (hu : (s.sesOf h.toNat).inUse = true) (hj : s.journalling h.toNat = false)
    (hany : s.ses.journal.any (fun r => r.ses == h.toNat) = true) : exec (.journalCompact h) s
    = .next (s.journalAdd h.toNat (s.sesOf h.toNat).owner 4 0 (s.sesOf h.toNat).hist.length (s.historyBody h.toNat) .history) := by
  change execJournalCompact h s = _
  rw [execJournalCompact, s.gate_booted _ hb]
  exact if_neg (by simp only [hu, hj, hany]; decide)

/-- A session's lost copies are written anew where R458 chooses now (R465). -/
theorem exec_journalRemirror :
    let qs := s.journalQuads (s.sesOf h.toNat).owner
    let short := fun (r : JRec) => r.ses == h.toNat && !r.copies.isEmpty && r.copies.length < qs.length
    s.ses.journal.any short = true → ∃ t, exec (.journalRemirror h) s = .next t
      ∧ t.ses.journal = s.ses.journal.map (fun r => if short r then { r with copies := qs } else r) ∧ SessionsOnly s t := by
  intro qs short hany
  have hshort : ¬ (!s.ses.journal.any short) = true := fun hc => Bool.noConfusion (((Bool.not_eq_true' _).mp hc).symm.trans hany)
  refine ⟨_, ((s.gate_booted _ hb).trans (if_neg hshort) : execJournalRemirror h s = .next _), ?_, ?_⟩
  · rw [State.journalCheck_journal, (State.logErr_quiet _ _ _ _ _ _).ses]
    rfl
  · have hset : SessionsOnly s (s.setJournal (s.ses.journal.map (fun r => if short r then { r with copies := qs } else r))) := ⟨_, _, _, Quiet.refl _⟩
    exact (hset.thenQuiet (State.logErr_quiet _ _ _ _ _ _)).trans (State.journalCheck_sessionsOnly _)

/-- A session's lost pages have been given new places, and its rebuild rows are offered (R466, R467). -/
theorem exec_rebuild {s1 : State} (hm : s.mayRebuild h.toNat = true) (hr : s.replaceAll h.toNat = some s1) :
    ∃ t, exec (.rebuild h) s = .next t ∧ Quiet (s1.setSes h.toNat { s1.sesOf h.toNat with rebuilding := true, rebuilt := 0 }) t := by
  have hexec : ∃ t, execRebuild h s = .next t ∧ Quiet (s1.setSes h.toNat { s1.sesOf h.toNat with rebuilding := true, rebuilt := 0 }) t := by
    rw [execRebuild, s.gate_booted _ hb, if_neg (by simp [hm])]
    simp only [hr]
    exact ⟨_, rfl, (State.bump_quiet _ _ _ _).trans (State.logErr_quiet _ _ _ _ _ _)⟩
  exact hexec

end

/-- Settles O55: a completed write by its record's kind, compaction, mirroring and rebuilds by the journal or session they set. -/
theorem journalCompletes : Obligations.JournalCompletes := by
  unfold Obligations.JournalCompletes
  refine ⟨fun s h r hb => ?_, fun s h hb hu hj hany => ?_, fun s h hb => ?_, fun s s1 h hb hm hr => ?_⟩
  · intro k hr
    exact ⟨fun t req hw => exec_journalWriteComplete_accept hb hr hw, fun ps hw => exec_journalWriteComplete_records hb hr hw,
      exec_journalWriteComplete_effect hb hr, exec_journalWriteComplete_history hb hr⟩
  · obtain ⟨r, hj', hwhat, hses, hdone⟩ := s.journalAdd_journal h.toNat (s.sesOf h.toNat).owner 4 0 (s.sesOf h.toNat).hist.length
      (s.historyBody h.toNat) .history
    exact ⟨_, r, exec_journalCompact hb hu hj hany, hj', hses, hwhat, hdone, (State.journalAdd_sessionsOnly _ _ _ _ _ _ _ _).sameMemory⟩
  · intro qs short hany
    obtain ⟨t, hx, hj, hs⟩ := exec_journalRemirror hb hany
    exact ⟨t, hx, hj, hs.sameMemory⟩
  · obtain ⟨t, hx, hq⟩ := exec_rebuild hb hm hr
    refine ⟨t, hx, ?_, ?_, (State.setSes_sessionsOnly _ _ _).sameMemory.trans hq.sameMemory⟩
    · rw [hq.sesOf, State.sesOf_setSes_self]
    · rw [hq.sesOf, State.sesOf_setSes_self]

end Sys2Proof.Machine

/-! # SPDM -/

namespace Sys2Proof.Machine
open Sys2Proof

/-- An answer leaves, is counted, and raises vector 3 (R508). -/
def State.answered (s : State) (m : SpdmResp) : State := ((s.emit (.spdm m)).event pgSec).irq 0 3

/-- Does the DOE mailbox serve (R493, R508)? -/
def State.spdmServes (s : State) : Prop := s.boot.perst = false ∧ s.flag pgSec F.sec_BOOT_STATUS_LOCKED = true

theorem State.spdm_serves {s : State} (h : s.spdmServes) (m : SpdmResp) (k : State → State) : s.spdm m k = .next ((k s).answered m) :=
  if_neg (by simp [h.1, h.2])

theorem State.spdm_idle {s : State} (h : s.boot.perst = true ∨ s.flag pgSec F.sec_BOOT_STATUS_LOCKED = false) (m : SpdmResp) (k : State → State) :
    s.spdm m k = .next s :=
  if_pos (by rcases h with h | h <;> simp [h])

section
variable {s : State} (h : s.spdmServes)
include h

theorem exec_getCertificate_slot0 (off len : W32) : exec (.getCertificate 0#8 off len) s
    = .next (s.answered (if off.toNat < certChain.length
      then .certificate 0 ((certChain.drop off.toNat).take len.toNat)
        (certChain.length - off.toNat - ((certChain.drop off.toNat).take len.toNat).length) else .error false)) := by
  change execGetCertificate 0#8 off len s = _
  rw [execGetCertificate]
  by_cases ho : off.toNat < certChain.length
  · rw [if_neg (by simp [ho]), if_pos ho]
    exact State.spdm_serves h _ _
  · rw [if_pos (.inr (Nat.le_of_not_lt ho)), if_neg ho]
    exact State.spdm_serves h _ _

theorem exec_getCertificate_other {slot : Byte} (off len : W32) (hslot : slot ≠ 0#8) :
    exec (.getCertificate slot off len) s = .next (s.answered (.error false)) := by
  change execGetCertificate slot off len s = _
  rw [execGetCertificate, if_pos (.inl hslot)]
  exact State.spdm_serves h _ _

theorem exec_challenge_slot0 (nonce : List Byte) : ∃ sig, exec (.challenge 0#8 0#8 nonce) s
    = .next ({ s with free := s.free + 65 }.answered (.challengeAuth 0 (sha3_512 certChain) [] sig)) := by
  change ∃ sig, execChallenge 0#8 0#8 nonce s = _
  rw [execChallenge, if_neg (by simp)]
  exact ⟨_, State.spdm_serves h _ _⟩

theorem exec_challenge_refused {slot sum : Byte} (nonce : List Byte) (hr : slot ≠ 0#8 ∨ sum ≠ 0#8 ∧ sum ≠ 0xFF#8) :
    exec (.challenge slot sum nonce) s = .next (s.answered (.error false)) := by
  change execChallenge slot sum nonce s = _
  rw [execChallenge, if_pos (by simpa using hr)]
  exact State.spdm_serves h _ _

theorem exec_getMeasurements_count (nonce : List Byte) :
    exec (.getMeasurements 0#8 false nonce) s = .next (s.answered (.measurements s.measBlocks.length [] none)) := by
  change execGetMeasurements 0#8 false nonce s = _
  rw [execGetMeasurements]
  exact (if_neg (by simp)).trans (State.spdm_serves h _ _)

theorem exec_getMeasurements_all (nonce : List Byte) (hm : s.measBlocks ≠ []) :
    exec (.getMeasurements 0xFF#8 false nonce) s = .next (s.answered (.measurements s.measBlocks.length s.measBlocks none)) := by
  change execGetMeasurements 0xFF#8 false nonce s = _
  rw [execGetMeasurements]
  exact (if_neg (by simp [hm])).trans (State.spdm_serves h _ _)

end

section
variable (s : State)

theorem exec_getVersion : exec .getVersion s = s.spdm (.version 1 4) := rfl
theorem exec_getCapabilities : exec .getCapabilities s = s.spdm (.capabilities true true true true 262144 262144) := rfl
theorem exec_negotiateAlgorithms : exec .negotiateAlgorithms s
    = s.spdm (.algorithms true true true) (fun s => { s with boot := { s.boot with negotiated := true } }) := rfl
theorem exec_getDigests : exec .getDigests s = s.spdm (.digests [(0, sha3_512 certChain)]) := rfl
theorem exec_spdmUnsupported (code : Byte) : exec (.spdmUnsupported code) s = s.spdm (.error true) := rfl

end

/-- Settles O52: each request by the answer it gets where the mailbox serves, and no change where it does not. -/
theorem spdmAnswers : Obligations.SpdmAnswers := by
  unfold Obligations.SpdmAnswers
  refine fun s => ⟨fun hp hl => ?_, fun h => ?_⟩
  · have h : s.spdmServes := ⟨hp, hl⟩
    refine ⟨?_, ?_, ?_, ?_, exec_getCertificate_slot0 h, fun slot off len hslot => exec_getCertificate_other h off len hslot, exec_challenge_slot0 h,
      fun slot sum nonce hr => exec_challenge_refused h nonce hr,
      fun nonce => ⟨exec_getMeasurements_count h nonce, exec_getMeasurements_all h nonce⟩, fun code => ?_⟩
    · rw [exec_getVersion, State.spdm_serves h, State.answered, id]
    · rw [exec_getCapabilities, State.spdm_serves h, State.answered, id]
    · rw [exec_negotiateAlgorithms, State.spdm_serves h, State.answered]
    · rw [exec_getDigests, State.spdm_serves h, State.answered, id]
    · rw [exec_spdmUnsupported, State.spdm_serves h, State.answered, id]
  · simp only [List.forall_mem_cons, List.not_mem_nil, IsEmpty.forall_iff, implies_true, and_true]
    rw [exec_getVersion, exec_getCapabilities, exec_negotiateAlgorithms, exec_getDigests, exec_spdmUnsupported]
    exact ⟨State.spdm_idle h _ _, State.spdm_idle h _ _, State.spdm_idle h _ _, State.spdm_idle h _ _, State.spdm_idle h _ _⟩

end Sys2Proof.Machine

/-! # Boot -/

namespace Sys2Proof.Machine
open Sys2Proof

/-! ## Up to the boot lock point -/

/-- The TOP page's STATE, and with it whether the part is booted, keeps its value when a register at another offset is set. -/
theorem State.booted_of_reg {s t : State} (h : t.reg pgTop 0 0x00C = s.reg pgTop 0 0x00C) : t.booted = s.booted := by
  rw [State.booted, State.booted, State.fld_of_reg (s := s) (t := t) h]

theorem State.booted_setReg (s : State) (pg : Page) (b : Nat) {o : Nat} (v : W32) (ho : o < 4096) (hne : o ≠ 0x00C) :
    (s.setReg pg b o v).booted = s.booted :=
  State.booted_of_reg (s.reg_setReg_of_offset_ne _ _ _ _ _ (by decide) ho hne)

theorem State.booted_setFld (s : State) (pg : Page) {f : Fld} (v : Nat) (hf : f.off < 4096) (hne : f.off ≠ 0x00C) :
    (s.setFld pg f v).booted = s.booted := s.booted_setReg _ _ _ hf hne

theorem State.booted_raise (s : State) (pg : Page) (c : Nat) : (s.raise pg c).booted = s.booted :=
  State.booted_of_reg (s.reg_raise_of_off_ne _ _ _ _ (by decide) (by decide) (by decide))

/-- A page's STATE set is none of another page's. -/
theorem State.reg_setState_of_page_ne (s : State) {pg pg' : Page} {b o : Nat} (h : RegBounds pg b o) (v : Nat) (hi : pg'.inst < 256) (hne : pg' ≠ pg) :
    (s.setFld pg' F.hdr_STATE v).reg pg b o = s.reg pg b o :=
  State.reg_setReg_of_page_ne h s _ ⟨hi, by decide, by decide⟩ hne

/-- The profile and the board configuration have been taken (R493, R496). -/
theorem State.boardTaken_leaves (s : State) (prof : Nat) (w0 w1 : W32) (bad : Bool) :
    let s3 := (((s.setFld pgPkg F.pkg_STRAPS_PROF prof).setFld pgSec F.sec_BOOT_STATUS_PROFILE prof).setReg pgPci 0 0x040 w0).setReg pgPci 0 0x05C w1
    let t := if bad then s3.raise pgSec 2 else s3
    Quiet s t ∧ t.booted = s.booted := by
  intro s3 t
  have h3 : Quiet s s3 ∧ s3.booted = s.booted := by
    refine ⟨(((s.setFld_quiet _ _ _).setFld _ _ _).trans (State.setReg_quiet _ _ _ _ _)).trans (State.setReg_quiet _ _ _ _ _), ?_⟩
    unfold s3
    rw [State.booted_setReg _ _ _ _ (by decide) (by decide), State.booted_setReg _ _ _ _ (by decide) (by decide),
      State.booted_setFld _ _ _ (by decide) (by decide), State.booted_setFld _ _ _ (by decide) (by decide)]
  obtain ⟨hq, hb⟩ := h3
  unfold t
  split
  · exact ⟨hq.trans (s3.raise_quiet _ _), (s3.booted_raise _ _).trans hb⟩
  · exact ⟨hq, hb⟩

/-- The boot lock point is passed, and the pages that answer early are READY (R493). -/
theorem State.lockPoint_leaves (s : State) :
    let t := [pgDir, pgPci, ⟨.pci, 1⟩, pgSec].foldl (fun s pg => s.setFld pg F.hdr_STATE 2)
      ((s.setFld pgSec F.sec_BOOT_STATUS_LOCKED 1).setFld pgSec F.sec_BOOT_STATUS_STAGE 5)
    Quiet s t ∧ t.flag pgSec F.sec_BOOT_STATUS_LOCKED = true ∧ t.fld pgPci F.hdr_STATE = 2 ∧ t.booted = s.booted := by
  simp only [List.foldl_cons, List.foldl_nil]
  refine ⟨(((((s.setFld_quiet _ _ _).setFld _ _ _).setFld _ _ _).setFld _ _ _).setFld _ _ _).setFld _ _ _, ?_, ?_, ?_⟩
  · have hlock : ∀ (u : State) (pg : Page), (u.setFld pg F.hdr_STATE 2).fld pgSec F.sec_BOOT_STATUS_LOCKED = u.fld pgSec F.sec_BOOT_STATUS_LOCKED :=
      fun u pg => u.fld_setFld_of_offset_ne _ _ _ _ _ (by decide) (by decide) (by decide)
    rw [State.flag, hlock, hlock, hlock, hlock, State.fld_setFld_other _ _ _ (by decide) (fun _ => by decide),
      State.fld_setFld_self _ _ (by decide) (by decide)]
    rfl
  · have hkeep : ∀ (u : State) {pg : Page}, pg.inst < 256 → pg ≠ pgPci → (u.setFld pg F.hdr_STATE 2).fld pgPci F.hdr_STATE = u.fld pgPci F.hdr_STATE :=
      fun u pg hi hne => State.fld_of_reg (u.reg_setState_of_page_ne ⟨by decide, by decide, by decide⟩ _ hi hne)
    rw [hkeep _ (by decide) (by decide), hkeep _ (by decide) (by decide), State.fld_setFld_self _ _ (by decide) (by decide)]
  · have hkeep : ∀ (u : State) {pg : Page}, pg.inst < 256 → pg ≠ pgTop → (u.setFld pg F.hdr_STATE 2).booted = u.booted :=
      fun u pg hi hne => State.booted_of_reg (u.reg_setState_of_page_ne ⟨by decide, by decide, by decide⟩ _ hi hne)
    rw [hkeep _ (by decide) (by decide), hkeep _ (by decide) (by decide), hkeep _ (by decide) (by decide), hkeep _ (by decide) (by decide),
      State.booted_setFld _ _ _ (by decide) (by decide), State.booted_setFld _ _ _ (by decide) (by decide)]

/-- PERST# high with power good boots through the lock point to the image of the slot (R493, R504). -/
theorem exec_perst {s : State} (hp : s.boot.perst = true) (hi : s.boot.vin = true) (hv : s.boot.vaux = true) (ht : s.boot.tripped = false)
    (prof : Fin 4) (ok : Bool) : ∃ u m, exec (.perst prof ok) s = .next (u.bootSlot ok)
    ∧ Quiet { s with profile := Profile.ofNum prof.val, boot := { s.boot with perst := false, meas := m } } u
    ∧ u.flag pgSec F.sec_BOOT_STATUS_LOCKED = true ∧ u.fld pgPci F.hdr_STATE = 2 ∧ u.booted = s.booted := by
  refine ⟨_, SMap.put s.boot.meas 8 (shake256 64 s.boardConfig.1),
    (if_neg (by simp [hp, hi, hv, ht]) : execPerst prof ok s = .next (State.bootSlot _ ok)), ?_⟩
  obtain ⟨hq, hbt⟩ := State.boardTaken_leaves { s with
    profile := Profile.ofNum prof.val, boot := { s.boot with perst := false, meas := SMap.put s.boot.meas 8 (shake256 64 s.boardConfig.1) } } prof.val
    (BitVec.ofNat 32 (leAt s.boardConfig.1 8 1 % 2 + 2 * (leAt s.boardConfig.1 9 1 % 8))) (BitVec.ofNat 32 (leAt s.boardConfig.1 4 4)) s.boardConfig.2
  obtain ⟨hq', hlock, hst, hbt'⟩ := State.lockPoint_leaves _
  exact ⟨hq.trans hq', hlock, hst, hbt'.trans hbt⟩

/-! ## Fuses and profiles -/

section
variable {s : State} (hl : s.pageLive pgSec = true)
include hl

section
variable (reached : Fin 65)

theorem exec_commit_unbooted (hb : s.booted = false) : exec (.commit reached) s = .next (s.setFld pgSec F.sec_SVN_CMD_RESULT 2) := by
  change execCommit reached s = _
  rw [execCommit, State.regWrite, if_pos hl, if_pos (by simp [hb])]

theorem exec_commit_nothing (hb : s.booted = true) (hn : s.boot.svn ≤ s.boot.fuse) :
    exec (.commit reached) s = .next (s.setFld pgSec F.sec_SVN_CMD_RESULT 1) := by
  change execCommit reached s = _
  rw [execCommit, State.regWrite, if_pos hl, if_neg (by simp [hb]), if_pos hn]

/-- COMMIT raises the counter to the running SVN, or as far as fuses blow (R500). -/
theorem exec_commit_blown (hb : s.booted = true) (hn : s.boot.fuse < s.boot.svn) : exec (.commit reached) s
    = .next ({ s with boot := { s.boot with fuse := max s.boot.fuse (min s.boot.svn reached.val) } }.setFld pgSec F.sec_SVN_CMD_RESULT
      (if max s.boot.fuse (min s.boot.svn reached.val) = s.boot.svn then 0 else 3)) := by
  change execCommit reached s = _
  rw [execCommit, State.regWrite, if_pos hl, if_neg (by simp [hb]), if_neg (by omega)]

end

section
variable (p : Fin 4) (ok : Bool) (hgo : s.flag pgSec F.sec_PROFILE_SELECT_GO = false)
  (hp : (s.setFld pgSec F.sec_PROFILE_SELECT_PROFILE p.val).powered = true)
include hgo hp

omit hl hp in
theorem State.flag_go_setFld_profile : (s.setFld pgSec F.sec_PROFILE_SELECT_PROFILE p.val).flag pgSec F.sec_PROFILE_SELECT_GO = false := by
  rw [← hgo, State.flag, State.flag, State.fld_setFld_other _ _ _ (by decide) (fun _ => by decide)]

theorem exec_profileSelect_busy (hquiet : (s.setFld pgSec F.sec_PROFILE_SELECT_PROFILE p.val).quiesced = false) : exec (.profileSelect p ok) s
    = .next ((s.setFld pgSec F.sec_PROFILE_SELECT_PROFILE p.val).setFld pgSec F.sec_PROFILE_SELECT_RESULT 1) := by
  change execProfileSelect p ok s = _
  rw [execProfileSelect, State.regWrite, if_pos hl, if_neg (by simp [State.flag_go_setFld_profile p hgo, hp]), if_pos (by simp [hquiet])]

theorem exec_profileSelect_quiesced (hquiet : (s.setFld pgSec F.sec_PROFILE_SELECT_PROFILE p.val).quiesced = true) :
    let s2 := ((s.setFld pgSec F.sec_PROFILE_SELECT_PROFILE p.val).setFld pgSec F.sec_PROFILE_SELECT_RESULT 0).setFld pgSec F.sec_PROFILE_SELECT_GO 1
    exec (.profileSelect p ok) s = .next ({ s2 with boot := { s2.boot with newProfile := some p.val } }.warmReset 1 ok) := by
  intro s2
  change execProfileSelect p ok s = _
  rw [execProfileSelect, State.regWrite, if_pos hl, if_neg (by simp [State.flag_go_setFld_profile p hgo, hp]), if_neg (by simp [hquiet])]

end

/-! ## Loads -/

/-- The 4 KB-aligned place that RCV_ADDR names. -/
def State.rcvAddr (s : State) : BitVec 64 := BitVec.ofNat 64 (s.pair64 pgSec F.sec_RCV_ADDR_LO_ADDR F.sec_RCV_ADDR_HI_ADDR / 4096 * 4096)

omit hl in
theorem State.rcvAddr_mod (s : State) : s.rcvAddr.toNat % 4096 = 0 := by
  rw [State.rcvAddr, BitVec.toNat_ofNat]
  omega

/-- A LOAD's command bits, and the read of the image that it sends (R502). -/
def State.loadSent (s : State) (flash : Bool) : State :=
  ((s.setFld pgSec F.sec_RCV_CMD_FLASH (b2n flash)).setFld pgSec F.sec_RCV_CMD_LOAD 1).emit (.hostRead 0 s.rcvAddr (s.fld pgSec F.sec_RCV_LEN_BYTES))

omit hl in
theorem State.loadSent_leaves (s : State) (flash : Bool) : Quiet s (s.loadSent flash) ∧ (s.loadSent flash).fld pgSec F.sec_RCV_CMD_LOAD = 1
    ∧ (s.loadSent flash).fld pgSec F.sec_RCV_CMD_FLASH = b2n flash
    ∧ (s.d3hot = [] → (s.loadSent flash).egress = s.egress ++ [.hostRead 0 s.rcvAddr (s.fld pgSec F.sec_RCV_LEN_BYTES)]) := by
  unfold State.loadSent
  refine ⟨((s.setFld_quiet _ _ _).setFld _ _ _).trans (State.emit_quiet _ _), ?_, ?_, fun h3 => ?_⟩
  · rw [State.fld_congr (State.emit_regs _ _), State.fld_setFld_self _ _ (by decide) (by decide)]
  · rw [State.fld_congr (State.emit_regs _ _), State.fld_setFld_other _ _ _ (by decide) (fun _ => by decide),
      State.fld_setFld_self _ _ (by decide) (by cases flash <;> decide)]
  · exact State.egress_emit (s := (s.setFld pgSec F.sec_RCV_CMD_FLASH (b2n flash)).setFld pgSec F.sec_RCV_CMD_LOAD 1) h3 _

/-- A LOAD that is taken reads the image from host memory (R502, R503). -/
theorem exec_load {flash : Bool} (hload : s.boot.loading = false) (hw : s.boot.writing = none)
    (hmay : s.boot.recovery = true ∨ s.booted = true ∧ flash = true) (hlen : s.fld pgSec F.sec_RCV_LEN_BYTES ≤ slotSize) :
    exec (.load flash) s = .next { s.loadSent flash with boot := { (s.loadSent flash).boot with loading := true } } := by
  change execLoad flash s = _
  rw [execLoad, State.regWrite, if_pos hl, if_neg (by simp [hload, hw]), if_pos (by simpa using hmay)]
  exact congrArg Host.Outcome.next (if_neg (Nat.not_lt.mpr hlen))

end

section
variable {s : State} (hload : s.boot.loading = true)
include hload

theorem exec_loadComplete_none : exec (.loadComplete none) s = .next (s.endLoad 1 0) := by
  change execLoadComplete none s = _
  rw [execLoadComplete, if_neg (by simp [hload])]

/-- An image that has been read is refused, written to the slot or run (R502, R503). -/
theorem exec_loadComplete_some (data : List Byte) :
    let img := data.take (s.fld pgSec F.sec_RCV_LEN_BYTES)
    let c := imageCause img s.boot.fuse
    exec (.loadComplete (some data)) s = .next (if c ≠ 0 then (s.raise pgSec (if c = 4 then 1 else 0)).endLoad 2 c
      else if s.flag pgSec F.sec_RCV_CMD_FLASH then { s with boot := { s.boot with loading := false, writing := some (img, s.boot.recovery) } }
      else if s.boot.recovery then (s.endLoad 0 0).runImage img true else s.endLoad 5 0) := by
  intro img c
  change execLoadComplete (some data) s = _
  rw [execLoadComplete, if_neg (by simp [hload])]
  simp only [apply_ite Host.Outcome.next]
  rfl

end

/-- A write of an image to the slot that has ended: the slot, and the result of the LOAD (R502). -/
def State.flashWritten (s : State) (ok : Bool) (img : List Byte) : State :=
  let s1 := { s with boot := { s.boot with writing := none, slot := if ok then img else [] } }
  if ok then s1.endLoad 0 0 else (s1.raise pgSec 4).endLoad 4 0

section
variable {s : State} {img : List Byte} {run : Bool} (hw : s.boot.writing = some (img, run)) (ok readOk : Bool)
include hw

theorem exec_flashWriteComplete_waits (hwait : s.boot.warmWaits = true) : exec (.flashWriteComplete ok readOk) s
    = .next ({ s.flashWritten ok img with boot := { (s.flashWritten ok img).boot with warmWaits := false } }.bootSlot readOk) := by
  change execFlashWriteComplete ok readOk s = _
  rw [execFlashWriteComplete]
  simp only [hw]
  exact if_pos hwait

theorem exec_flashWriteComplete_done (hwait : s.boot.warmWaits = false) : exec (.flashWriteComplete ok readOk) s
    = .next (if ok && run then (s.flashWritten ok img).runImage img true else s.flashWritten ok img) := by
  change execFlashWriteComplete ok readOk s = _
  rw [execFlashWriteComplete, apply_ite Host.Outcome.next]
  simp only [hw]
  exact if_neg (by simp [hwait])

end

/-- Settles O58: each step of a boot, an update or a commit by its equation, and what it sets by the registers it writes. -/
theorem bootCompletes : Obligations.BootCompletes := by
  unfold Obligations.BootCompletes
  refine ⟨fun s prof ok hp hi hv ht => ?_, fun s reached hl => ⟨exec_commit_unbooted hl reached, exec_commit_nothing hl reached, fun hb hn => ?_⟩,
    fun s p ok hl hgo => ?_, fun s flash hl hload hw hmay hlen => ?_, fun s hload => ⟨exec_loadComplete_none hload, fun data => ?_⟩,
    fun s ok readOk run img hw => ?_⟩
  · obtain ⟨u, m, hx, hq, hlock, hst, hbt⟩ := exec_perst hp hi hv ht prof ok
    obtain ⟨r, e, f, g, w, rfl⟩ := hq
    exact ⟨_, _, hx, rfl, rfl, rfl, rfl, hlock, hst, hbt, .of_stores rfl rfl rfl rfl⟩
  · have hres : ∀ v, v < 4 → ({ s with boot := { s.boot with fuse := max s.boot.fuse (min s.boot.svn reached.val) } }.setFld pgSec
        F.sec_SVN_CMD_RESULT v).fld pgSec F.sec_SVN_CMD_RESULT = v := fun v hv => State.fld_setFld_self _ _ (by decide) hv
    refine ⟨_, exec_commit_blown hl reached hb hn, Nat.le_max_left _ _, Nat.max_le.mpr ⟨hn.le, Nat.min_le_left _ _⟩, fun hr => ?_, fun hne => ?_,
      (SameMemory.of_stores rfl rfl rfl rfl).trans (State.setFld_quiet _ _ _ _).sameMemory⟩
    · have hmax : max s.boot.fuse (min s.boot.svn reached.val) = s.boot.svn := by omega
      rw [if_pos hmax]
      exact ⟨hmax, hres 0 (by decide)⟩
    · rw [if_neg (show ¬ max s.boot.fuse (min s.boot.svn reached.val) = s.boot.svn from hne)]
      exact hres 3 (by decide)
  · intro s1 hp
    exact ⟨exec_profileSelect_busy hl p ok hgo hp, exec_profileSelect_quiesced hl p ok hgo hp⟩
  · obtain ⟨hq, hcmd, hflash, hout⟩ := s.loadSent_leaves flash
    exact ⟨_, exec_load hl hload hw hmay hlen, rfl, hcmd, hflash, fun h3 => ⟨s.rcvAddr, hout h3, s.rcvAddr_mod⟩,
      hq.sameMemory.trans (.of_stores rfl rfl rfl rfl)⟩
  · intro img c
    refine ⟨_, exec_loadComplete_some hload data, ?_⟩
    by_cases hc : c ≠ 0
    · rw [if_pos hc, if_pos hc]
    · rw [if_neg hc, if_neg hc]
      split
      · exact ⟨rfl, rfl, rfl, rfl⟩
      · rfl
  · exact ⟨exec_flashWriteComplete_waits hw ok readOk, exec_flashWriteComplete_done hw ok readOk⟩

end Sys2Proof.Machine

/-! # Error injection -/

namespace Sys2Proof.Machine
open Sys2Proof

/-! ## Resets disable injection -/

/-- INJ_CTRL of the RAS page is 0, so injection is disabled. -/
def State.InjectionOff (s : State) : Prop := s.reg pgRas 0 0x0A0 = 0#32

namespace State.InjectionOff
variable {s t : State}

theorem of_reg (h : s.InjectionOff) (hr : t.reg pgRas 0 0x0A0 = s.reg pgRas 0 0x0A0) : t.InjectionOff := hr.trans h

theorem of_regs (h : s.InjectionOff) (hr : t.regs = s.regs) : t.InjectionOff := h.of_reg (congrFun₃ (State.reg_congr hr) _ _ _)

theorem fld_enable (h : s.InjectionOff) : s.fld pgRas F.ras_INJ_CTRL_ENABLE = 0 := by
  rw [State.fld_eq_get, show s.reg pgRas 0 F.ras_INJ_CTRL_ENABLE.off = 0#32 from h]
  rfl

theorem ite {c : Prop} [Decidable c] (hs : s.InjectionOff) (ht : t.InjectionOff) : (if c then s else t).InjectionOff := by
  split
  · exact hs
  · exact ht

theorem foldl {α : Type} {f : State → α → State} (h : s.InjectionOff) (hf : ∀ s a, s.InjectionOff → (f s a).InjectionOff) {l : List α} :
    (l.foldl f s).InjectionOff := foldl_keeps _ _ hf _ _ h

/-! ### Register writes and reports

No register at another offset touches INJ_CTRL, whatever its page. -/

theorem setReg (h : s.InjectionOff) {pg : Page} {b o : Nat} {v : W32} (ho : o < 4096 := by decide) (hne : o ≠ 0x0A0 := by decide) :
    (s.setReg pg b o v).InjectionOff := h.of_reg (s.reg_setReg_of_offset_ne _ _ _ _ _ (by decide) ho hne)

theorem setFld (h : s.InjectionOff) {pg : Page} {f : Fld} {v : Nat} (ho : f.off < 4096 := by decide) (hne : f.off ≠ 0x0A0 := by decide) :
    (s.setFld pg f v).InjectionOff := h.setReg ho hne

theorem setFldB (h : s.InjectionOff) {pg : Page} {b : Nat} {f : Fld} {v : Nat} (ho : f.off < 4096 := by decide)
    (hne : f.off ≠ 0x0A0 := by decide) : (s.setFldB pg b f v).InjectionOff := h.setReg ho hne

theorem irq (h : s.InjectionOff) {fn vec : Nat} : (s.irq fn vec).InjectionOff := h.of_reg (s.reg_irq_off _ _ _ _ (by decide) (by decide))

theorem raise (h : s.InjectionOff) {pg : Page} {c : Nat} : (s.raise pg c).InjectionOff :=
  h.of_reg (s.reg_raise_of_off_ne _ _ _ _ (by decide) (by decide) (by decide))

theorem shadow (h : s.InjectionOff) {t off v : Nat} : (s.shadow t off v).InjectionOff := h.of_regs (s.regs_shadow _ _ _)

theorem startRead (h : s.InjectionOff) {t : Nat} : (s.startRead t).InjectionOff := h.of_regs (s.regs_startRead _)

theorem logErr (h : s.InjectionOff) {kind : Nat} {src : Page} {detail addr arg : Nat} : (s.logErr kind src detail addr arg).InjectionOff := by
  unfold State.logErr
  exact (h.setFld.raise).ite (setFld (setFld (h.of_regs rfl)))

theorem noteReset (h : s.InjectionOff) {scope cause quad : Nat} : (s.noteReset scope cause quad).InjectionOff := h.setReg.logErr

theorem refreshAlerts (h : s.InjectionOff) : s.refreshAlerts.InjectionOff := h.ite h.setReg.raise

theorem setFnState (h : s.InjectionOff) {t st : Nat} : (s.setFnState t st).InjectionOff := by
  unfold State.setFnState
  extract_lets s1 f s2
  have hs1 : s1.InjectionOff := h.setFld.shadow
  have hoff : f.off = 0x078 ∨ f.off = 0x07C := by
    unfold f
    split
    · exact .inl rfl
    · exact .inr rfl
  have hs2 : s2.InjectionOff := hs1.ite (hs1.setFld (by omega) (by omega)).irq
  exact h.ite (hs2.irq.ite hs2)

/-! ### A tenant's work discarded -/

theorem freePage (h : s.InjectionOff) {p : KvPage} : (s.freePage p).InjectionOff := h.ite (h.of_regs rfl)

theorem freePages (h : s.InjectionOff) {sid : Nat} : (s.freePages sid).InjectionOff := by
  unfold State.freePages
  extract_lets x s1
  have hs1 : s1.InjectionOff := h.foldl fun _ _ h => h.foldl fun _ _ h => h.freePage
  exact hs1.of_regs rfl

theorem useLoc (h : s.InjectionOff) {loc : StackLoc} {ver : Nat} {take : Bool} : (s.useLoc loc ver take).InjectionOff := by
  cases loc with
  | spread q line pos => exact h.of_regs rfl
  | full line pos => exact h.foldl (f := fun s q => s.useLine q line ver true pos take) fun _ _ h => h.of_regs rfl
  | banked st pc bp slot => exact h.of_regs rfl

theorem freeKept (h : s.InjectionOff) {sid : Nat} : (s.freeKept sid).InjectionOff := by
  unfold State.freeKept
  extract_lets x s1 _ s2
  have hs1 : s1.InjectionOff := h.foldl fun _ _ h => h.useLoc
  exact hs1.of_regs rfl

theorem unlink (h : s.InjectionOff) {sid : Nat} : (s.unlink sid).InjectionOff := by
  unfold State.unlink
  extract_lets x s1
  have hs1 : s1.InjectionOff := h.foldl fun s n h => by
    extract_lets
    split
    · exact h.of_regs rfl
    · exact h
  exact hs1.of_regs rfl

theorem setTen (h : s.InjectionOff) {t : Nat} {x : Ten} : (s.setTen t x).InjectionOff := h.of_regs rfl

theorem discardSession (h : s.InjectionOff) {sid : Nat} : (s.discardSession sid).InjectionOff := by
  unfold State.discardSession
  extract_lets one s1
  have hs1 : s1.InjectionOff := h.freePages.freeKept.unlink.freePages.freeKept.unlink
  exact hs1.of_regs (by with_reducible rfl)

theorem gone (h : s.InjectionOff) {sid : Nat} : (s.gone sid).InjectionOff := h.of_regs rfl

theorem discardSilent (h : s.InjectionOff) {sid : Nat} : (s.discardSilent sid).InjectionOff := by
  unfold State.discardSilent
  exact h.discardSession.setTen.gone

theorem discardWork (h : s.InjectionOff) {t : Nat} : (s.discardWork t).InjectionOff := by
  unfold State.discardWork
  extract_lets hs s1
  have hs1 : s1.InjectionOff := h.foldl fun _ _ h => h.discardSilent
  exact hs1.of_regs rfl

theorem enableNow (h : s.InjectionOff) {t rest : Nat} : (s.enableNow t rest).InjectionOff :=
  h.setFld.setFnState.startRead.ite h.setFld.raise.setFnState

theorem endShutdown (h : s.InjectionOff) {t : Nat} : (s.endShutdown t).InjectionOff := by
  unfold State.endShutdown
  extract_lets s1 latched s2
  have hs1 : s1.InjectionOff := h.ite h.discardWork
  have hs2 : s2.InjectionOff := hs1.setFld.setFld
  exact hs2.setFnState.ite (hs2.enableNow.ite hs2.setFnState)

/-! ### A boot from the image slot -/

theorem readyPages (h : s.InjectionOff) {l : List Page} : (s.readyPages l).InjectionOff := by
  unfold State.readyPages
  exact h.foldl fun _ _ h => h.ite h.setFld

theorem setEng (h : s.InjectionOff) {e : Nat} {x : Eng} : (s.setEng e x).InjectionOff := h.of_regs rfl

theorem loadStores (h : s.InjectionOff) {q : Nat} : (s.loadStores q).InjectionOff := by
  unfold State.loadStores
  exact h.foldl fun _ _ h => h.setEng.of_regs (by with_reducible rfl)

theorem setQueue (h : s.InjectionOff) {i q : Nat} {x : QQueue} : (s.setQueue i q x).InjectionOff := h.of_regs rfl

theorem loadScheduler (h : s.InjectionOff) {i : Nat} : (s.loadScheduler i).InjectionOff := by
  unfold State.loadScheduler
  split
  extract_lets quantum s1 mask s2
  have hs1 : s1.InjectionOff := h.foldl fun _ _ h => h.setReg
  have hs2 : s2.InjectionOff := hs1.setReg.setReg.setFld
  exact hs2.setFldB.setFldB.setFldB.setQueue.ite hs2

theorem profileQuad (h : s.InjectionOff) {q : Nat} : (s.profileQuad q).InjectionOff := by
  unfold State.profileQuad
  exact (h.foldl fun _ _ h => h.setFld).loadScheduler

theorem applyProfile (h : s.InjectionOff) : s.applyProfile.InjectionOff := by
  unfold State.applyProfile
  exact (h.foldl fun _ _ h => h.profileQuad.setFldB).setFld.foldl fun _ _ h => h.loadScheduler

theorem profileSlices (h : s.InjectionOff) : s.profileSlices.InjectionOff := by
  unfold State.profileSlices
  exact h.foldl fun _ _ h => ite h.setReg.setReg h.setReg.setReg

theorem copiesBack (h : s.InjectionOff) : s.copiesBack.InjectionOff := h.of_regs rfl

theorem quadReady (h : s.InjectionOff) {q : Nat} : (s.quadReady q).InjectionOff := by
  unfold State.quadReady
  extract_lets s1 s2
  have hs1 : s1.InjectionOff := h.readyPages.profileQuad.loadStores
  have hs2 : s2.InjectionOff := hs1.ite hs1.setFld
  exact hs2.copiesBack.ite h

theorem bootReady (h : s.InjectionOff) : s.bootReady.InjectionOff := by
  unfold State.bootReady
  extract_lets s1 s2 s3 s4 _ s5
  have hs1 : s1.InjectionOff := h.foldl fun _ _ h => h.readyPages.loadStores
  have hs2 : s2.InjectionOff := hs1.readyPages.applyProfile
  have hs3 : s3.InjectionOff := hs2.profileSlices.ite hs2
  have hs4 : s4.InjectionOff := hs3.setFld.setFld
  have hs5 : s5.InjectionOff := copiesBack (hs4.of_regs rfl)
  exact ((hs5.foldl fun _ _ h => h.startRead).ite h).ite (h.foldl fun _ _ h => h.quadReady)

theorem writeExc (h : s.InjectionOff) {st c : Nat} {lost all : Bool} : (s.writeExc st c lost all).InjectionOff := by
  unfold State.writeExc
  extract_lets q
  split
  · exact h
  · exact h.of_regs rfl

theorem regeometry (h : s.InjectionOff) : s.regeometry.InjectionOff := by
  unfold State.regeometry
  extract_lets _ s1
  have hs1 : s1.InjectionOff := h.of_regs rfl
  refine hs1.foldl fun s k h => ?_
  extract_lets st c s2
  have hs2 : s2.InjectionOff := h.writeExc
  split
  · exact hs2.of_regs rfl
  · exact hs2.of_regs rfl
  · exact h

theorem takeProfile (h : s.InjectionOff) : s.takeProfile.InjectionOff := by
  unfold State.takeProfile
  extract_lets s1 s2
  have hs1 : s1.InjectionOff := by
    unfold s1
    split
    · exact h.ite (regeometry (h.of_regs rfl))
    · exact h
  have hs2 : s2.InjectionOff := hs1.setFld
  exact hs2.foldl fun _ _ h => h.setFnState.ite h

theorem setBoot (h : s.InjectionOff) {b : BootState} : ({ s with boot := b } : State).InjectionOff := h.of_regs rfl

theorem runImage (h : s.InjectionOff) {img : List Byte} {fromHost : Bool} : (s.runImage img fromHost).InjectionOff := by
  unfold State.runImage
  extract_lets s1 dig blobs m s2 s3
  have hs1 : s1.InjectionOff := h.takeProfile
  have hs3 : s3.InjectionOff := hs1.setFld.setFld.setFld.setFld.setReg
  exact hs3.setBoot.bootReady

theorem enterRecovery (h : s.InjectionOff) {cause : Nat} : (s.enterRecovery cause).InjectionOff := by
  unfold State.enterRecovery
  extract_lets s1 s2 s3
  have hs2 : s2.InjectionOff := h.setFld.setFld.setFld.setFld.setFld
  have hs3 : s3.InjectionOff := (hs2.raise.ite hs2).raise
  exact hs3.setBoot.irq

theorem bootSlot (h : s.InjectionOff) {flashOk : Bool} : (s.bootSlot flashOk).InjectionOff := h.runImage.ite h.enterRecovery

theorem order6 (h : s.InjectionOff) {flashOk : Bool} : (s.order6 flashOk).InjectionOff := by
  unfold State.order6
  split
  · exact h.of_regs rfl
  · exact h.bootSlot

theorem toSelfRefresh (h : s.InjectionOff) {st : Nat} : (s.toSelfRefresh st).InjectionOff := by
  unfold State.toSelfRefresh
  extract_lets s1
  have hs1 : s1.InjectionOff := h.setFld.setFld
  exact h.ite (hs1.of_regs rfl)

end State.InjectionOff

/-! ### The registers that a warm reset leaves -/

/-- Words put back at other keys leave what a register reads. -/
theorem SMap.get_foldl_put_of_forall_ne {α : Type} {d : α} {j : Nat} {l : List (Nat × α)} (hl : ∀ e ∈ l, e.1 ≠ j) (m : SMap α) :
    SMap.get (l.foldl (fun m e => SMap.put m e.1 e.2) m) d j = SMap.get m d j := by
  induction l generalizing m with
  | nil => rfl
  | cons e l ih =>
    rw [List.foldl_cons, ih (fun a ha => hl a (List.mem_cons_of_mem _ ha)), SMap.get, SMap.find_put, if_neg (hl e List.mem_cons_self), SMap.get]

/-- INJ_CTRL is among the registers that a warm reset returns to their reset values: it is not kept, and no page's STATE. -/
theorem State.injectionOff_resetPages (s : State) : (s.resetPages (fun _ _ => true) warmKeeps).InjectionOff := by
  have hoff : ∀ e ∈ s.regs.filter (fun e => e.1 % 2 ^ 28 == 0x00C && e.2.toNat % 16 == 5), e.1 ≠ regKey pgRas 0 0x0A0 := by
    intro e he hk
    rw [List.mem_filter, hk] at he
    exact absurd (Bool.and_eq_true_iff.mp he.2).1 (by decide)
  change SMap.get (List.foldl _ _ _) _ _ = _
  rw [SMap.get_foldl_put_of_forall_ne hoff, State.resetRegs, SMap.get_keep, if_neg (by decide)]
  decide

theorem State.injectionOff_warmReset (s : State) (cause : Nat) (ok : Bool) : (s.warmReset cause ok).InjectionOff := by
  unfold State.warmReset
  extract_lets s1 s2 _ _ _ _ s3 s4 s5 s6 s7 s8 s9
  have hs5 : s5.InjectionOff := State.injectionOff_resetPages _
  have hs6 : s6.InjectionOff := hs5.foldl fun _ _ h => h.setFld.setFld.toSelfRefresh
  have hs7 : s7.InjectionOff := hs6.foldl fun _ _ h => h.setFld
  have hs8 : s8.InjectionOff := hs7.foldl fun _ _ h => h.endShutdown.ite h
  have hs9 : s9.InjectionOff := hs8.setFld.noteReset.refreshAlerts
  exact hs9.setBoot.order6

theorem State.injectionOff_coldReset (s : State) : s.coldReset.InjectionOff := by
  rw [State.InjectionOff, State.reg_coldReset, if_neg (by decide)]
  decide

/-! ## Commands of the injection unit -/

theorem State.injectErr_enabled {s : State} {pg : Page} (hcap : pg.injectCap = true) (hen : s.fld pgRas F.ras_INJ_CTRL_ENABLE ≠ 0) (v : Nat) :
    s.injectErr pg v = (List.range 31).foldl (fun s c => if bitOf v c then s.raise pg c else s) s :=
  if_neg (by simp [hcap, hen])

theorem State.injectErr_disabled {s : State} (hen : s.fld pgRas F.ras_INJ_CTRL_ENABLE = 0) (pg : Page) (v : Nat) : s.injectErr pg v = s :=
  if_pos (by simp [hen])

theorem exec_errorInject {s : State} {fn : Fin 66} {slot : Fin 16384} {pg : Page} (hpg : pageAtSlot fn slot = some pg)
    (hr : s.reaches fn (4096 * slot.val) = true) (hk : pg.kind ≠ .msix) (v : W32) :
    exec (.errorInject fn slot v) s = .next (s.injectErr pg v.toNat) := by
  change execErrorInject fn slot v s = _
  rw [execErrorInject, hpg]
  exact if_pos (by simp [hr, hk])

/-- What a write of INJ_CTRL leaves: ENABLE cleared, or set when the write carries the key. -/
def State.writeInjCtrl (s : State) (v : Nat) : State :=
  if v % 2 = 0 then s.setFld pgRas F.ras_INJ_CTRL_ENABLE 0 else if v / 65536 = 0x1A7E then s.setFld pgRas F.ras_INJ_CTRL_ENABLE 1 else s

theorem exec_injectionEnable {s : State} (hl : s.pageLive pgRas = true) (v : W32) :
    exec (.injectionEnable v) s = .next (s.writeInjCtrl v.toNat) := by
  change execInjectionEnable v s = _
  rw [execInjectionEnable, State.regWrite, if_pos hl]
  rfl

theorem State.writeInjCtrl_leaves (s : State) (v : Nat) : SameMemory s (s.writeInjCtrl v) ∧ (s.writeInjCtrl v).egress = s.egress
    ∧ (s.writeInjCtrl v).fld pgRas F.ras_INJ_CTRL_ENABLE
      = if v % 2 = 0 then 0 else if v / 65536 = 0x1A7E then 1 else s.fld pgRas F.ras_INJ_CTRL_ENABLE := by
  unfold State.writeInjCtrl
  split
  · exact ⟨(s.setFld_quiet _ _ _).sameMemory, rfl, State.fld_setFld_self _ _ (by decide) (by decide)⟩
  · split
    · exact ⟨(s.setFld_quiet _ _ _).sameMemory, rfl, State.fld_setFld_self _ _ (by decide) (by decide)⟩
    · exact ⟨(Quiet.refl s).sameMemory, rfl, rfl⟩

/-- What an injection asked for while injection is disabled leaves: the command as written, and RESULT 2. -/
def State.refuseInjection (s : State) (kind : Nat) (target : Bool) : State :=
  ((s.setFld pgRas F.ras_INJ_CMD_KIND kind).setFld pgRas F.ras_INJ_CMD_TARGET (b2n target)).setFld pgRas F.ras_INJ_STATUS_RESULT 2

theorem State.inject_disabled {s : State} (hl : s.pageLive pgRas = true) (hen : s.fld pgRas F.ras_INJ_CTRL_ENABLE = 0) (kind : Nat)
    (target : Bool) (k : State → Nat → Option State) : s.inject kind target k = s.refuseInjection kind target := by
  rw [State.inject, State.regWrite, if_pos hl]
  refine if_pos ?_
  rw [State.fld_setFld_of_offset_ne _ _ _ _ _ _ (by decide) (by decide) (by decide),
    State.fld_setFld_of_offset_ne _ _ _ _ _ _ (by decide) (by decide) (by decide), hen]

theorem State.refuseInjection_quiet (s : State) (kind : Nat) (target : Bool) : Quiet s (s.refuseInjection kind target) :=
  ((State.setFld_quiet _ _ _ _).trans (State.setFld_quiet _ _ _ _)).trans (State.setFld_quiet _ _ _ _)

theorem exec_inject_disabled {s : State} (hl : s.pageLive pgRas = true) (hen : s.fld pgRas F.ras_INJ_CTRL_ENABLE = 0) (kind : Fin 3)
    (target : Bool) {c : Instr} (hc : c ∈ [Instr.injectCorrupt kind target, .injectPoison target, .injectPartFailure]) :
    ∃ n b, exec c s = .next (s.refuseInjection n b) := by
  obtain rfl | rfl | rfl : c = .injectCorrupt kind target ∨ c = .injectPoison target ∨ c = .injectPartFailure := by simpa using hc
  · exact ⟨_, _, congrArg Host.Outcome.next (State.inject_disabled hl hen _ _ _)⟩
  · exact ⟨_, _, congrArg Host.Outcome.next (State.inject_disabled hl hen _ _ _)⟩
  · exact ⟨_, _, congrArg Host.Outcome.next (State.inject_disabled hl hen _ _ _)⟩

/-- Settles O17: an injected cause is the cause raised; a refused injection changes registers alone; and no step of a reset writes INJ_CTRL
once its reset value is back. -/
theorem errorInjectCompletes : Obligations.ErrorInjectCompletes := by
  unfold Obligations.ErrorInjectCompletes
  refine ⟨fun s fn slot v pg hpg hr hk => ⟨fun hcap hen => ?_, fun hen => ?_⟩, fun s v hl => ?_, fun s cause ok => ?_,
    fun s kind target hl hen c hc => ?_⟩
  · rw [exec_errorInject hpg hr hk, State.injectErr_enabled hcap hen]
  · rw [exec_errorInject hpg hr hk, State.injectErr_disabled hen]
  · exact ⟨_, exec_injectionEnable hl v, s.writeInjCtrl_leaves v.toNat⟩
  · exact ⟨(s.injectionOff_warmReset cause ok).fld_enable, s.injectionOff_coldReset.fld_enable⟩
  · obtain ⟨n, b, hx⟩ := exec_inject_disabled hl hen kind target hc
    have hq := s.refuseInjection_quiet n b
    have hs := SessionsOnly.of_quiet hq
    exact ⟨_, hx, State.fld_setFld_self _ _ (by decide) (by decide), hq.sameMemory, hs.sameStacks, hs.sameTiers, hq.sameMemory_sessions.2⟩

end Sys2Proof.Machine
